-- ==== Sys2Proof/Word.lean ====
section
/-! DEFINITION. The word types of the Horferin-8 (R4, R62): bytes, half words, 32-bit lane words, 64-bit pairs. -/

namespace Sys2Proof

/-- One byte. -/
abbrev Byte := BitVec 8

/-- Half a lane word: one element of a packed value (R62). -/
abbrev Half := BitVec 16

/-- One lane's register (R94). -/
abbrev Word := BitVec 32

/-- A pair (R26), an address or a literal. -/
abbrev Dword := BitVec 64

/-- The 32 lanes of a beam, in ascending order (R94). -/
def lanes : List Nat :=
  [0, 1, 2, 3, 4, 5, 6, 7, 8, 9, 10, 11, 12, 13, 14, 15,
   16, 17, 18, 19, 20, 21, 22, 23, 24, 25, 26, 27, 28, 29, 30, 31]

end Sys2Proof
end

