-- ==== Sys2Proof/Syntax.lean ====
section
/-! DEFINITION. The syntax of the Horferin-8: the operand layouts of the base word (R14), the extended form
(R19 to R21), and one constructor of `Instr` for each row of spec/opcode_table.json. Rows without an encoding are
events of the part's agents (spec/95); their operands say which object the event is about. -/

namespace Sys2Proof

/-- Operands of layout B3 (R14): window indices, and a 64-bit literal when LEN = 0b10 (R18). -/
structure B3 where
  st  : BitVec 3
  d   : BitVec 7
  a   : BitVec 7
  b   : BitVec 7
  lit : Option Dword
  deriving DecidableEq, Repr

/-- Operands of layout BI (R14, R16). -/
structure BI where
  st  : BitVec 3
  d   : BitVec 7
  a   : BitVec 7
  imm : BitVec 7
  deriving DecidableEq, Repr

/-- Operands of layout BB (R14): a predicate and a signed 14-bit word offset. -/
structure BB where
  st  : BitVec 3
  a   : BitVec 7
  off : BitVec 14
  deriving DecidableEq, Repr

/-- Operands of layout BJ (R14): a signed 21-bit word offset. -/
structure BJ where
  st  : BitVec 3
  off : BitVec 21
  deriving DecidableEq, Repr

/-- Operands of layout BZ (R14): the stall count only. -/
structure BZ where
  st  : BitVec 3
  deriving DecidableEq, Repr

/-- The fields of the extended form (R19, R20, R21) and its literal (R8). `lit` is present exactly when LEN = 0b11. -/
structure Ext where
  st   : BitVec 3
  d    : BitVec 10
  immb : Bool
  flg  : BitVec 6
  a    : BitVec 10
  b    : BitVec 10
  c    : BitVec 10
  p    : BitVec 10
  pe   : Bool
  pn   : Bool
  bcm  : BitVec 2
  bcs  : BitVec 2
  bln  : BitVec 5
  ru   : Bool
  x10  : BitVec 10
  lit  : Option Dword
  deriving DecidableEq, Repr

/-- One constructor for each row of spec/opcode_table.json, in the table's order. A twin's name ends in `X`. -/
inductive Instr where
  /-- NOP (R166). -/
  | nop (o : BZ)
  /-- NOP_EXT (R35). -/
  | nopX (x : Ext)
  /-- MOV (R185). -/
  | mov (o : B3)
  /-- MOV_EXT (R35). -/
  | movX (x : Ext)
  /-- ADD (R185). -/
  | add (o : B3)
  /-- ADD_EXT (R35). -/
  | addX (x : Ext)
  /-- SUB (R185). -/
  | sub (o : B3)
  /-- SUB_EXT (R35). -/
  | subX (x : Ext)
  /-- MUL (R185). -/
  | mul (o : B3)
  /-- MUL_EXT (R35). -/
  | mulX (x : Ext)
  /-- AND (R185). -/
  | and (o : B3)
  /-- AND_EXT (R35). -/
  | andX (x : Ext)
  /-- OR (R185). -/
  | or (o : B3)
  /-- OR_EXT (R35). -/
  | orX (x : Ext)
  /-- XOR (R185). -/
  | xor (o : B3)
  /-- XOR_EXT (R35). -/
  | xorX (x : Ext)
  /-- SHL (R186). -/
  | shl (o : B3)
  /-- SHL_EXT (R35). -/
  | shlX (x : Ext)
  /-- SHR (R186). -/
  | shr (o : B3)
  /-- SHR_EXT (R35). -/
  | shrX (x : Ext)
  /-- SAR (R186). -/
  | sar (o : B3)
  /-- SAR_EXT (R35). -/
  | sarX (x : Ext)
  /-- MIN (R185). -/
  | min (o : B3)
  /-- MIN_EXT (R35). -/
  | minX (x : Ext)
  /-- MAX (R185). -/
  | max (o : B3)
  /-- MAX_EXT (R35). -/
  | maxX (x : Ext)
  /-- MINU (R185). -/
  | minu (o : B3)
  /-- MINU_EXT (R35). -/
  | minuX (x : Ext)
  /-- MAXU (R185). -/
  | maxu (o : B3)
  /-- MAXU_EXT (R35). -/
  | maxuX (x : Ext)
  /-- ANDN (R185). -/
  | andn (o : B3)
  /-- ANDN_EXT (R35). -/
  | andnX (x : Ext)
  /-- ADDI (R185). -/
  | addi (o : BI)
  /-- ADDI_EXT (R35). -/
  | addiX (x : Ext)
  /-- SHLI (R185). -/
  | shli (o : BI)
  /-- SHLI_EXT (R35). -/
  | shliX (x : Ext)
  /-- SHRI (R185). -/
  | shri (o : BI)
  /-- SHRI_EXT (R35). -/
  | shriX (x : Ext)
  /-- SARI (R185). -/
  | sari (o : BI)
  /-- SARI_EXT (R35). -/
  | sariX (x : Ext)
  /-- ANDI (R185). -/
  | andi (o : BI)
  /-- ANDI_EXT (R35). -/
  | andiX (x : Ext)
  /-- CEQ (R185). -/
  | ceq (o : B3)
  /-- CEQ_EXT (R35). -/
  | ceqX (x : Ext)
  /-- CNE (R185). -/
  | cne (o : B3)
  /-- CNE_EXT (R35). -/
  | cneX (x : Ext)
  /-- CLT (R185). -/
  | clt (o : B3)
  /-- CLT_EXT (R35). -/
  | cltX (x : Ext)
  /-- CLE (R185). -/
  | cle (o : B3)
  /-- CLE_EXT (R35). -/
  | cleX (x : Ext)
  /-- CLTU (R185). -/
  | cltu (o : B3)
  /-- CLTU_EXT (R35). -/
  | cltuX (x : Ext)
  /-- CLEU (R185). -/
  | cleu (o : B3)
  /-- CLEU_EXT (R35). -/
  | cleuX (x : Ext)
  /-- SEL (R185). -/
  | sel (o : B3)
  /-- SEL_EXT (R35). -/
  | selX (x : Ext)
  /-- FADD (R203). -/
  | fadd (o : B3)
  /-- FADD_EXT (R35). -/
  | faddX (x : Ext)
  /-- FSUB (R203). -/
  | fsub (o : B3)
  /-- FSUB_EXT (R35). -/
  | fsubX (x : Ext)
  /-- FMUL (R203). -/
  | fmul (o : B3)
  /-- FMUL_EXT (R35). -/
  | fmulX (x : Ext)
  /-- FMAC (R203). -/
  | fmac (o : B3)
  /-- FMAC_EXT (R35). -/
  | fmacX (x : Ext)
  /-- FMIN (R207). -/
  | fmin (o : B3)
  /-- FMIN_EXT (R35). -/
  | fminX (x : Ext)
  /-- FMAX (R207). -/
  | fmax (o : B3)
  /-- FMAX_EXT (R35). -/
  | fmaxX (x : Ext)
  /-- FCEQ (R208). -/
  | fceq (o : B3)
  /-- FCEQ_EXT (R35). -/
  | fceqX (x : Ext)
  /-- FCLT (R208). -/
  | fclt (o : B3)
  /-- FCLT_EXT (R35). -/
  | fcltX (x : Ext)
  /-- FCLE (R208). -/
  | fcle (o : B3)
  /-- FCLE_EXT (R35). -/
  | fcleX (x : Ext)
  /-- HADD (R203). -/
  | hadd (o : B3)
  /-- HADD_EXT (R35). -/
  | haddX (x : Ext)
  /-- HMUL (R203). -/
  | hmul (o : B3)
  /-- HMUL_EXT (R35). -/
  | hmulX (x : Ext)
  /-- HMAC (R203). -/
  | hmac (o : B3)
  /-- HMAC_EXT (R35). -/
  | hmacX (x : Ext)
  /-- BADD (R203). -/
  | badd (o : B3)
  /-- BADD_EXT (R35). -/
  | baddX (x : Ext)
  /-- BMUL (R203). -/
  | bmul (o : B3)
  /-- BMUL_EXT (R35). -/
  | bmulX (x : Ext)
  /-- BMAC (R203). -/
  | bmac (o : B3)
  /-- BMAC_EXT (R35). -/
  | bmacX (x : Ext)
  /-- SHFL (R193). -/
  | shfl (o : B3)
  /-- SHFL_EXT (R35). -/
  | shflX (x : Ext)
  /-- SHFLX (R193). -/
  | shflx (o : B3)
  /-- SHFLX_EXT (R35). -/
  | shflxX (x : Ext)
  /-- LDSW (R230). -/
  | ldsw (o : BI)
  /-- LDSW_EXT (R35). -/
  | ldswX (x : Ext)
  /-- STSW (R230). -/
  | stsw (o : BI)
  /-- STSW_EXT (R35). -/
  | stswX (x : Ext)
  /-- TWRD (R175). -/
  | twrd (o : BI)
  /-- TWRD_EXT (R35). -/
  | twrdX (x : Ext)
  /-- TWWR (R175). -/
  | twwr (o : BI)
  /-- TWWR_EXT (R35). -/
  | twwrX (x : Ext)
  /-- BRA (R167). -/
  | bra (o : BJ)
  /-- BRA_EXT (R35). -/
  | braX (x : Ext)
  /-- BRANY (R167). -/
  | brany (o : BB)
  /-- BRANY_EXT (R35). -/
  | branyX (x : Ext)
  /-- BRALL (R167). -/
  | brall (o : BB)
  /-- BRALL_EXT (R35). -/
  | brallX (x : Ext)
  /-- BRNONE (R167). -/
  | brnone (o : BB)
  /-- BRNONE_EXT (R35). -/
  | brnoneX (x : Ext)
  /-- EXIT (R170). -/
  | exit (o : BZ)
  /-- EXIT_EXT (R35). -/
  | exitX (x : Ext)
  /-- BAR (R173). -/
  | bar (o : BZ)
  /-- BAR_EXT (R35). -/
  | barX (x : Ext)
  /-- MASKP (R169). -/
  | maskp (o : B3)
  /-- MASKP_EXT (R35). -/
  | maskpX (x : Ext)
  /-- GETM (R169). -/
  | getm (o : B3)
  /-- GETM_EXT (R35). -/
  | getmX (x : Ext)
  /-- SETM (R169). -/
  | setm (o : B3)
  /-- SETM_EXT (R35). -/
  | setmX (x : Ext)
  /-- RADD (R195). -/
  | radd (o : B3)
  /-- RADD_EXT (R35). -/
  | raddX (x : Ext)
  /-- RMAX (R195). -/
  | rmax (o : B3)
  /-- RMAX_EXT (R35). -/
  | rmaxX (x : Ext)
  /-- MAD (R185). -/
  | mad (o : B3)
  /-- MAD_EXT (R35). -/
  | madX (x : Ext)
  /-- POPC (R185). -/
  | popc (o : B3)
  /-- POPC_EXT (R35). -/
  | popcX (x : Ext)
  /-- CLZ (R185). -/
  | clz (o : B3)
  /-- CLZ_EXT (R35). -/
  | clzX (x : Ext)
  /-- CALL (R168). -/
  | call (x : Ext)
  /-- CALLR (R168). -/
  | callr (x : Ext)
  /-- RET (R168). -/
  | ret (x : Ext)
  /-- JMPR (R168). -/
  | jmpr (x : Ext)
  /-- YIELD (R171). -/
  | yield (x : Ext)
  /-- YIELDJ (R172). -/
  | yieldj (x : Ext)
  /-- REGION (R90). -/
  | region (x : Ext)
  /-- MCALL (R92). -/
  | mcall (x : Ext)
  /-- BARN (R174). -/
  | barn (x : Ext)
  /-- ARRIVE (R174). -/
  | arrive (x : Ext)
  /-- WAITB (R174). -/
  | waitb (x : Ext)
  /-- TWADD (R175). -/
  | twadd (x : Ext)
  /-- TWCAS (R175). -/
  | twcas (x : Ext)
  /-- SRD (R177). -/
  | srd (x : Ext)
  /-- SWR (R178). -/
  | swr (x : Ext)
  /-- TRAP (R181). -/
  | trap (x : Ext)
  /-- ERET (R183). -/
  | eret (x : Ext)
  /-- BRK (R181). -/
  | brk (x : Ext)
  /-- MULHI (R188). -/
  | mulhi (x : Ext)
  /-- MULHIU (R188). -/
  | mulhiu (x : Ext)
  /-- ADDP (R188). -/
  | addp (x : Ext)
  /-- SUBP (R188). -/
  | subp (x : Ext)
  /-- MULP (R188). -/
  | mulp (x : Ext)
  /-- LEA (R189). -/
  | lea (x : Ext)
  /-- ABS (R188). -/
  | abs (x : Ext)
  /-- ROL (R188). -/
  | rol (x : Ext)
  /-- ROR (R188). -/
  | ror (x : Ext)
  /-- CTZ (R188). -/
  | ctz (x : Ext)
  /-- BREV (R188). -/
  | brev (x : Ext)
  /-- BFX (R190). -/
  | bfx (x : Ext)
  /-- BFXU (R190). -/
  | bfxu (x : Ext)
  /-- BFI (R190). -/
  | bfi (x : Ext)
  /-- DIVS (R191). -/
  | divs (x : Ext)
  /-- DIVU (R191). -/
  | divu (x : Ext)
  /-- REMS (R191). -/
  | rems (x : Ext)
  /-- REMU (R191). -/
  | remu (x : Ext)
  /-- SHFLU (R193). -/
  | shflu (x : Ext)
  /-- SHFLD (R193). -/
  | shfld (x : Ext)
  /-- VOTE (R194). -/
  | vote (x : Ext)
  /-- MATCH (R194). -/
  | matchLanes (x : Ext)
  /-- RMIN (R195). -/
  | rmin (x : Ext)
  /-- RMINU (R195). -/
  | rminu (x : Ext)
  /-- RMAXU (R195). -/
  | rmaxu (x : Ext)
  /-- SCAN (R196). -/
  | scan (x : Ext)
  /-- XCHG (R197). -/
  | xchg (x : Ext)
  /-- RNG (R199). -/
  | rng (x : Ext)
  /-- SHLP (R188). -/
  | shlp (x : Ext)
  /-- SHRP (R188). -/
  | shrp (x : Ext)
  /-- SARP (R188). -/
  | sarp (x : Ext)
  /-- CEQP (R188). -/
  | ceqp (x : Ext)
  /-- CLTP (R188). -/
  | cltp (x : Ext)
  /-- CLTUP (R188). -/
  | cltup (x : Ext)
  /-- FFMA (R204). -/
  | ffma (x : Ext)
  /-- FNMS (R204). -/
  | fnms (x : Ext)
  /-- FABS (R206). -/
  | fabs (x : Ext)
  /-- FNEG (R206). -/
  | fneg (x : Ext)
  /-- FMINN (R207). -/
  | fminn (x : Ext)
  /-- FMAXN (R207). -/
  | fmaxn (x : Ext)
  /-- FCUN (R208). -/
  | fcun (x : Ext)
  /-- FCLASS (R209). -/
  | fclass (x : Ext)
  /-- FRND (R210). -/
  | frnd (x : Ext)
  /-- FRCP (R211). -/
  | frcp (x : Ext)
  /-- FRSQ (R211). -/
  | frsq (x : Ext)
  /-- FSQRT (R211). -/
  | fsqrt (x : Ext)
  /-- FEXP2 (R211). -/
  | fexp2 (x : Ext)
  /-- FLOG2 (R211). -/
  | flog2 (x : Ext)
  /-- FTANH (R211). -/
  | ftanh (x : Ext)
  /-- FSCL (R212). -/
  | fscl (x : Ext)
  /-- HFMA (R204). -/
  | hfma (x : Ext)
  /-- BFMA (R204). -/
  | bfma (x : Ext)
  /-- HMIN (R207). -/
  | hmin (x : Ext)
  /-- HMAX (R207). -/
  | hmax (x : Ext)
  /-- CVTF (R213). -/
  | cvtf (x : Ext)
  /-- CVTFI (R214). -/
  | cvtfi (x : Ext)
  /-- CVTIF (R214). -/
  | cvtif (x : Ext)
  /-- CVTT (R215). -/
  | cvtt (x : Ext)
  /-- CVTTF (R216). -/
  | cvttf (x : Ext)
  /-- FREDADD (R217). -/
  | fredadd (x : Ext)
  /-- FREDMAX (R218). -/
  | fredmax (x : Ext)
  /-- FREDMIN (R218). -/
  | fredmin (x : Ext)
  /-- FREDMAXI (R219). -/
  | fredmaxi (x : Ext)
  /-- FREDMINI (R219). -/
  | fredmini (x : Ext)
  /-- LD (R228). -/
  | ld (x : Ext)
  /-- ST (R228). -/
  | st (x : Ext)
  /-- LDA (R229). -/
  | lda (x : Ext)
  /-- STL (R229). -/
  | stl (x : Ext)
  /-- LDS (R230). -/
  | lds (x : Ext)
  /-- STS (R230). -/
  | sts (x : Ext)
  /-- ATOM (R234). -/
  | atom (x : Ext)
  /-- ATOMS (R235). -/
  | atoms (x : Ext)
  /-- RED (R234). -/
  | red (x : Ext)
  /-- FENCE (R237). -/
  | fence (x : Ext)
  /-- MCST (R242). -/
  | mcst (x : Ext)
  /-- PRF (R239). -/
  | prf (x : Ext)
  /-- CINV (R240). -/
  | cinv (x : Ext)
  /-- TILE (R231). -/
  | tile (x : Ext)
  /-- WAITM (R241). -/
  | waitm (x : Ext)
  /-- MMA (R252). -/
  | mma (x : Ext)
  /-- MMASP (R257). -/
  | mmasp (x : Ext)
  /-- ACCZ (R259). -/
  | accz (x : Ext)
  /-- ACCLD (R260). -/
  | accld (x : Ext)
  /-- ACCST (R260). -/
  | accst (x : Ext)
  /-- ACCCVT (R261). -/
  | acccvt (x : Ext)
  /-- LDMETA (R258). -/
  | ldmeta (x : Ext)
  /-- MWAIT (R262). -/
  | mwait (x : Ext)
  /-- QSET (R276). -/
  | qset (x : Ext)
  /-- QACQ (R277). -/
  | qacq (x : Ext)
  /-- QCOMMIT (R277). -/
  | qcommit (x : Ext)
  /-- QWAIT (R277). -/
  | qwait (x : Ext)
  /-- QFREE (R277). -/
  | qfree (x : Ext)
  /-- CPYJ (R273). -/
  | cpyj (x : Ext)
  /-- GATJ (R273). -/
  | gatj (x : Ext)
  /-- COLJ (R273). -/
  | colj (x : Ext)
  /-- JWAIT (R275). -/
  | jwait (x : Ext)
  /-- JTEST (R275). -/
  | jtest (x : Ext)
  /-- HBOARD (R290). -/
  | hboard (x : Ext)
  /-- HCANCEL (R291). -/
  | hcancel (x : Ext)
  /-- HLAP (R292). -/
  | hlap (x : Ext)
  /-- KVRSV (R309). -/
  | kvrsv (x : Ext)
  /-- KVW (R303). -/
  | kvw (x : Ext)
  /-- KVR (R304). -/
  | kvr (x : Ext)
  /-- KVRT (R304). -/
  | kvrt (x : Ext)
  /-- KVPUB (R310). -/
  | kvpub (x : Ext)
  /-- KVACQ (R311). -/
  | kvacq (x : Ext)
  /-- KVWAIT (R311). -/
  | kvwait (x : Ext)
  /-- KVCMT (R306). -/
  | kvcmt (x : Ext)
  /-- KVROLL (R307). -/
  | kvroll (x : Ext)
  /-- KVGEN (R308). -/
  | kvgen (x : Ext)
  /-- KVSTAGE (R314). -/
  | kvstage (x : Ext)
  /-- PAWIN (R324). -/
  | pawin (x : Ext)
  /-- PALD (R325). -/
  | pald (x : Ext)
  /-- PAIN (R326). -/
  | pain (x : Ext)
  /-- PAGO (R327). -/
  | pago (x : Ext)
  /-- PACAP (R328). -/
  | pacap (x : Ext)
  /-- PACLR (R329). -/
  | paclr (x : Ext)
  /-- MACRO_BODY_WORD (R92). -/
  | macroBodyWord (t : Nat) (b : Nat)
  /-- FIXED_RESULT_LAND (R83). -/
  | fixedResultLand (t : Nat) (b : Nat)
  /-- VARIABLE_RESULT_WRITE (R84). -/
  | variableResultWrite (t : Nat) (b : Nat) (k : Nat)
  /-- REGION_COMPLETE (R90). -/
  | regionComplete (t : Nat) (b : Nat)
  /-- DIVIDER_SUBSTEP (R192). -/
  | dividerSubstep (t : Nat) (b : Nat)
  /-- COALESCER_GROUP (R226). -/
  | coalescerGroup (t : Nat) (b : Nat)
  /-- KV_SUBSTEP (R305). -/
  | kvSubstep (t : Nat) (b : Nat)
  /-- PALD_SUBSTEP (R325). -/
  | paldSubstep (t : Nat)
  /-- YIELD_END (R171). -/
  | yieldEnd (t : Nat) (b : Nat)
  /-- TEAM_WORD_APPLY (R176). -/
  | teamWordApply (t : Nat)
  /-- BEAM_WAKE (R109). -/
  | beamWake (t : Nat) (b : Nat)
  /-- WATCH_REPLY (R241). -/
  | watchReply (k : Nat)
  /-- WATCH_TIMEOUT (R241). -/
  | watchTimeout (k : Nat)
  /-- SIBLING_STOP (R381). -/
  | siblingStop (t : Nat) (b : Nat)
  /-- ENGINE_ENTRY_START (R245). -/
  | engineEntryStart (core : Nat)
  /-- ENGINE_SUBSTEP (R255). -/
  | engineSubstep (core : Nat)
  /-- ENGINE_ENTRY_COMPLETE (R245). -/
  | engineEntryComplete (core : Nat)
  /-- PRISM_WINDOW_END (R327). -/
  | prismWindowEnd (t : Nat)
  /-- TELEMETRY_RECOMPUTE (R79). -/
  | telemetryRecompute (k : Nat)
  /-- SLICE_ACCESS (R139). -/
  | sliceAccess (k : Nat)
  /-- ACKNOWLEDGEMENT (R147). -/
  | acknowledgement (k : Nat)
  /-- PACKET_ARBITRATION (R136). -/
  | packetArbitration (ks : List Nat)
  /-- PAGE_WALK (R365). -/
  | pageWalk (core : Nat) (f : Nat) (va : BitVec 64)
  /-- FAULT_TIMEOUT (R373). -/
  | faultTimeout (id : Nat)
  /-- OPERAND_LOG_REPLAY (R373). -/
  | operandLogReplay (id : Nat)
  /-- SHOOTDOWN_RANGE (R370). -/
  | shootdownRange (f : BitVec 6)
  /-- SHOOTDOWN_SPACE (R370). -/
  | shootdownSpace (f : BitVec 6)
  /-- SHOOTDOWN_TENANT (R370). -/
  | shootdownTenant (f : BitVec 6)
  /-- SHOOTDOWN_DONE (R370). -/
  | shootdownDone
  /-- PAGE_MIGRATE (R374). -/
  | pageMigrate (f : Nat) (va : BitVec 64) (frame : Nat)
  /-- RD_UPGRADE (R375). -/
  | rdUpgrade (id : Nat)
  /-- RD_GRANT (R375). -/
  | rdGrant (writer : Nat) (va : BitVec 64) (f : Nat)
  /-- RD_INVALIDATE (R375). -/
  | rdInvalidate (writer : Nat) (va : BitVec 64) (f : Nat)
  /-- RD_ACK_COMPLETE (R375). -/
  | rdAckComplete (id : Nat)
  /-- RD_TIMEOUT (R375). -/
  | rdTimeout (id : Nat)
  /-- JOB_COMPLETE (R265). -/
  | jobComplete (k : Nat)
  /-- TEAM_PLACE (R103). -/
  | teamPlace (g : Nat) (core : Nat)
  /-- QUANTUM_EXPIRY (R352). -/
  | quantumExpiry (t : Nat)
  /-- PREEMPT (R384). -/
  | preempt (t : Nat)
  /-- TEAM_RESTORE (R390). -/
  | teamRestore (t : Nat) (core : Nat)
  /-- BEAM_RETIRE (R112). -/
  | beamRetire (t : Nat) (b : Nat)
  /-- TEAM_RETIRE (R112). -/
  | teamRetire (t : Nat)
  /-- GRID_COMPLETE (R113). -/
  | gridComplete (g : Nat)
  /-- FCFG_RST (R377). -/
  | fcfgRst (f : Nat)
  /-- RESET_DRAINED (R377). -/
  | resetDrained (f : Nat)
  /-- FCFG_REL (R363). -/
  | fcfgRel (f : Nat)
  /-- REGISTER_WRITE (R392). -/
  | registerWrite (off : Nat) (wide : Bool) (v : BitVec 64)
  /-- COUNTER_CLEAR (R423). -/
  | counterClear (off : Nat)
  /-- GATE_WAYS (R404). -/
  | gateWays (unit : Nat) (mask : BitVec 16)
  /-- GATE_GRANULES (R404). -/
  | gateGranules (core : Nat) (grp : Nat) (mask : BitVec 16)
  /-- WAKE_DONE (R133). -/
  | wakeDone
  /-- HALO_RUN_START (R284). -/
  | haloRunStart (c : Nat)
  /-- HALO_RUN_STOP (R284). -/
  | haloRunStop (c : Nat)
  /-- HALO_THR_SET (R283). -/
  | haloThrSet (c : Nat) (thr : BitVec 5)
  /-- HNEXT_WRITE (R283). -/
  | hnextWrite (c : Nat) (part : Nat) (v : BitVec 64)
  /-- LAP_BOUNDARY (R284). -/
  | lapBoundary (c : Nat)
  /-- TILE_PASSING (R282). -/
  | tilePassing (c : Nat) (stop : Nat) (poison : Bool)
  /-- TILE_CHECKED (R286). -/
  | tileChecked (c : Nat) (stop : Nat) (crcOk : Bool)
  /-- TILE_COMMIT (R286). -/
  | tileCommit (c : Nat) (stop : Nat)
  /-- BOARD_REGISTER (R290). -/
  | boardRegister (t : Nat) (id : Nat)
  /-- WRITE (R395). -/
  | write (f : Nat)
  /-- READ (R395). -/
  | read (f : Nat)
  /-- SETPARAM (R395). -/
  | setparam (f : Nat)
  /-- REPLAY (R345). -/
  | replay (f : Nat)
  /-- QUERY (R395). -/
  | query (f : Nat)
  /-- ATTEST (R402). -/
  | attest (f : Nat)
  /-- RESET (R395). -/
  | reset (f : Nat)
  /-- RESOLVE (R373). -/
  | resolve (f : Nat)
  /-- FAIL (R373). -/
  | fail (f : Nat)
  /-- MBTAIL_WRITE (R393). -/
  | mbtailWrite (f : Nat) (v : BitVec 32)
  /-- MBCFG_WRITE (R393). -/
  | mbcfgWrite (f : Nat) (v : BitVec 32)
  /-- MBCHEAD_WRITE (R393). -/
  | mbcheadWrite (f : Nat) (v : BitVec 32)
  /-- COMMAND_FETCH (R396). -/
  | commandFetch (f : Nat)
  /-- REPLAY_START (R345). -/
  | replayStart (f : Nat)
  /-- NODE_LAUNCH (R346). -/
  | nodeLaunch (r : Nat) (n : Nat)
  /-- NODE_JOB (R346). -/
  | nodeJob (r : Nat) (n : Nat)
  /-- NODE_WAIT (R346). -/
  | nodeWait (r : Nat) (n : Nat)
  /-- WAIT_POLL (R346). -/
  | waitPoll (r : Nat) (n : Nat)
  /-- NODE_SIGNAL (R346). -/
  | nodeSignal (r : Nat) (n : Nat)
  /-- REPLAY_END (R346). -/
  | replayEnd (r : Nat)
  /-- BUDGET_PERIOD (R356). -/
  | budgetPeriod
  /-- REFILL_WRITE (R353). -/
  | refillWrite (f : Nat) (v : BitVec 32)
  /-- PRECTL_GO (R386). -/
  | prectlGo (p : BitVec 4)
  /-- GSCTL_ENABLE (R358). -/
  | gsctlEnable
  /-- GSCTL_DISABLE (R358). -/
  | gsctlDisable
  /-- GANG_SLICE_START (R359). -/
  | gangSliceStart
  /-- ARRIVED (R359). -/
  | arrived (chip : BitVec 16) (gang : BitVec 16) (n : Nat)
  /-- GANG_DECIDE (R359). -/
  | gangDecide
  /-- OPEN (R359). -/
  | openGate
  /-- FORFEIT (R359). -/
  | forfeit (late : List (BitVec 16))
  /-- POWER_ON (R397). -/
  | powerOn (codes : List (BitVec 16))
  /-- PERST (R397). -/
  | perst (codes : List (BitVec 16))
  /-- D3HOT_ENTER (R403). -/
  | d3hotEnter
  /-- D0_RETURN (R403). -/
  | d0Return
  /-- TRAIN (R418). -/
  | train (l : Nat)
  /-- DRAIN (R418). -/
  | drain (l : Nat)
  /-- HOLD (R418). -/
  | hold (l : Nat)
  /-- DARK (R418). -/
  | dark (l : Nat)
  /-- RELOCK (R418). -/
  | relock (l : Nat)
  /-- RELEASE (R418). -/
  | release (l : Nat)
  /-- DOWN (R418). -/
  | down (l : Nat)
  /-- TRAIN_TIMEOUT (R418). -/
  | trainTimeout (l : Nat)
  /-- BANKEN_CLEAR (R417). -/
  | bankenClear (l : Nat) (mask : BitVec 3)
  /-- FLIT_RECEIVE (R411). -/
  | flitReceive (l : Nat) (bytes : List (BitVec 8))
  /-- NAK_REPEAT (R411). -/
  | nakRepeat (l : Nat)
  /-- MARKER_ACK (R418). -/
  | markerAck (l : Nat)
  /-- LOSS_OF_LIGHT (R417). -/
  | lossOfLight (l : Nat) (bank : Nat)
  /-- RESTRIPE_DONE (R417). -/
  | restripeDone (l : Nat)
  /-- RESTRIPE_DECODE (R417). -/
  | restripeDecode (l : Nat) (mask : BitVec 3)
  /-- PORT_DOWN (R415). -/
  | portDown (p : Nat)
  /-- PACKET_RECEIVE (R414). -/
  | packetReceive (bytes : List (BitVec 8))
  /-- REMOTE_TIMEOUT (R413). -/
  | remoteTimeout (k : Nat)
  /-- CAPABILITY (R421). -/
  | capability (src : BitVec 11) (word : BitVec 32)
  /-- COLLIMATOR_STAMP (R420). -/
  | collimatorStamp (g : Nat) (k : Nat)
  /-- STAMPED_APPLY (R243). -/
  | stampedApply (g : Nat)
  /-- FABRIC_TIME_LOCK (R422). -/
  | fabricTimeLock (t : BitVec 64)
  /-- EVCFG_WRITE (R427). -/
  | evcfgWrite (f : Nat) (v : BitVec 32)
  /-- TRAINING_COMPLETE (R418). -/
  | trainingComplete (l : Nat) (peer : BitVec 11) (link : BitVec 7) (level : BitVec 2)
  /-- LOSS_OF_SIGNAL (R417). -/
  | lossOfSignal (l bank : Nat)
  /-- PREEMPT_DRAIN_TIMEOUT (R384). -/
  | preemptDrainTimeout (t : Nat) (b : Nat)
  /-- GANG_SLICE_END (R358). -/
  | gangSliceEnd
  deriving DecidableEq, Repr

end Sys2Proof
end

