-- ==== Sys2Proof/Machine/Sig.lean ====
section
/-! DEFINITION. The encoding tables of the Horferin-8: which number stands for which instruction (R33, R35, R36), and
for each extended form which register groups, immediates, predicates, broadcasts, FLG7 and X10 values its description
lists as legal (R22 to R26, R30, R31, R34, R35, R165, R187, R202, R220, R247, R270, R289, R301, R322). -/

namespace Sys2Proof

/-- How an instruction uses a register field: not at all, or a group of `n` registers whose number is a multiple of
`al` (R26, R221), read, written, or read and then written (an accumulator). -/
inductive Use where
  | no
  | src (n al : Nat)
  | dst (n al : Nat)
  | acc (n al : Nat)
  deriving DecidableEq, Repr

/-- Whether B may be an immediate (R22). -/
inductive ImmUse where
  | no
  | opt
  | req
  deriving DecidableEq, Repr

/-- What the description of an extended instruction lists as legal, for given X10, FLG7 and immediate values. -/
structure Sig where
  d     : Use := .no
  a     : Use := .no
  b     : Use := .no
  c     : Use := .no
  imm   : ImmUse := .no
  immOk : Bool := true
  pe    : Bool := true
  bcA   : Bool := true
  bcB   : Bool := true
  bcC   : Bool := true
  ruOk  : Bool := false
  x10   : Bool := true
  flg   : Bool := true
  deriving DecidableEq, Repr

/-- Operands of a base word, by layout (R14). -/
inductive BaseOps where
  | b3 (o : B3)
  | bi (o : BI)
  | bb (o : BB)
  | bj (o : BJ)
  | bz (o : BZ)
  deriving DecidableEq, Repr

/-! ### Immediates (R22) -/

/-- The immediate of a 32-bit operand: the sign-extended B field, or the literal's low 32 bits. -/
def Ext.immWord (x : Ext) : Word :=
  match x.lit with
  | none => x.b.signExtend 32
  | some l => l.setWidth 32

/-- The immediate of a pair operand: the sign-extended B field, or the whole literal. -/
def Ext.immDword (x : Ext) : Dword :=
  match x.lit with
  | none => x.b.signExtend 64
  | some l => l

/-- Bits `lo` to `lo + len - 1` of X10 as a number. -/
def Ext.xf (x : Ext) (lo len : Nat) : Nat := (x.x10.toNat >>> lo) % 2 ^ len

/-- Bits `lo` to `lo + len - 1` of FLG7 [5:0] as a number. -/
def Ext.ff (x : Ext) (lo len : Nat) : Nat := (x.flg.toNat >>> lo) % 2 ^ len

/-- Length in bytes of an extended instruction (R8). -/
def Ext.bytes (x : Ext) : Nat := if x.lit.isSome then 20 else 12

/-! ### Shorthands for the tables -/

def Use.s1 : Use := .src 1 1
def Use.sp : Use := .src 2 2
def Use.d1 : Use := .dst 1 1
def Use.dp : Use := .dst 2 2
def Use.a1 : Use := .acc 1 1

/-- A rounding code of R24 in X10 [2:0], and no other X10 bit at or above bit `k`. -/
def Ext.rndOk (x : Ext) (k : Nat) : Bool := decide (x.xf 0 3 ≤ 4) && decide (x.x10.toNat < 2 ^ k)

/-- The number of registers of a group that holds one element of width code W (R221). -/
def groupLen (w : Nat) : Nat := if w ≤ 2 then 1 else if w = 3 then 2 else 4

/-- The registers of one element of width code W, read. -/
def Use.gsrc (w : Nat) : Use := .src (groupLen w) (groupLen w)
/-- The registers of one element of width code W, written. -/
def Use.gdst (w : Nat) : Use := .dst (groupLen w) (groupLen w)

/-! ### The twins (R35) -/

/-- Twins of layout B3 with two sources; `acc` when D is an accumulator; `lit` when B may be an immediate. -/
def Sig.b3 (d : Use) (a b : Use) (imm : ImmUse) (x : Ext) : Sig :=
  { d := d, a := a, b := b, imm := imm, x10 := x.x10 == 0, flg := x.flg == 0 }

/-- As `Sig.b3` with a rounding code in X10 [2:0]. -/
def Sig.b3r (d : Use) (x : Ext) : Sig :=
  { d := d, a := .s1, b := .s1, imm := .opt, x10 := x.rndOk 3, flg := x.flg == 0 }

/-- Twins of layout BI: the immediate is required. -/
def Sig.bi (d a : Use) (ok : Bool) (x : Ext) : Sig :=
  { d := d, a := a, imm := .req, immOk := ok, x10 := x.x10 == 0, flg := x.flg == 0 }

/-- Control instructions without predicate: X10 as `ok` says, FLG7 [5:0] zero. -/
def Sig.ctl (d a : Use) (imm : ImmUse) (immOk bcA ok : Bool) (x : Ext) : Sig :=
  { d := d, a := a, imm := imm, immOk := immOk, pe := false, bcA := bcA, bcB := false, bcC := false,
    x10 := ok, flg := x.flg == 0 }

/-- The twins of the base opcodes 0x00 to 0x1E (R34, R35). The twin of `NOP` may carry a predicate: R35 says that a BZ twin has all operand
fields zero, and of the predicate fields nothing (DESIGN CHOICE, log 72). -/
def twinSigLo (n : Nat) (x : Ext) : Option Sig :=
  let ab (d : Use) := some (Sig.b3 d .s1 .s1 .opt x)
  let sh := decide (x.immWord.toNat < 32)
  match n with
  | 0x00 => some (Sig.b3 .no .no .no .no x)
  | 0x01 => some (Sig.b3 .d1 .no .s1 .opt x)
  | 0x10 => some (Sig.bi .d1 .s1 true x)
  | 0x11 => some (Sig.bi .d1 .s1 sh x)
  | 0x12 => some (Sig.bi .d1 .s1 sh x)
  | 0x13 => some (Sig.bi .d1 .s1 sh x)
  | 0x14 => some (Sig.bi .d1 .s1 true x)
  | 0x1B => ab .a1
  | 0x1C => some (Sig.b3r .d1 x)
  | 0x1D => some (Sig.b3r .d1 x)
  | 0x1E => some (Sig.b3r .d1 x)
  | _ => ab .d1

/-- The twins of the base opcodes 0x1F to 0x3E (R34, R35). -/
def twinSigHi (n : Nat) (x : Ext) : Option Sig :=
  let ab (d : Use) := some (Sig.b3 d .s1 .s1 .opt x)
  let tw := decide (x.immWord.toNat < 16)
  let z := x.x10 == 0
  match n with
  | 0x1F => some (Sig.b3r .a1 x)
  | 0x25 => some (Sig.b3r .d1 x)
  | 0x26 => some (Sig.b3r .d1 x)
  | 0x27 => some (Sig.b3r .a1 x)
  | 0x28 => some (Sig.b3r .d1 x)
  | 0x29 => some (Sig.b3r .d1 x)
  | 0x2A => some (Sig.b3r .a1 x)
  | 0x2D => some (Sig.bi .d1 .s1 true x)
  | 0x2E => some (Sig.bi .s1 .s1 true x)
  | 0x2F => some (Sig.bi .d1 .no tw x)
  | 0x30 => some (Sig.bi .no .s1 tw x)
  | 0x31 => some (Sig.ctl .no .no .req true false z x)
  | 0x32 => some (Sig.ctl .no .s1 .req true true z x)
  | 0x33 => some (Sig.ctl .no .s1 .req true true z x)
  | 0x34 => some (Sig.ctl .no .s1 .req true true z x)
  | 0x35 => some (Sig.ctl .no .no .no true false z x)
  | 0x36 => some (Sig.ctl .no .no .no true false z x)
  | 0x37 => some (Sig.ctl .no .s1 .no true true z x)
  | 0x38 => some (Sig.ctl .d1 .no .no true false z x)
  | 0x39 => some (Sig.ctl .no .s1 .no true true z x)
  | 0x3A => some (Sig.b3 .d1 .s1 .no .no x)
  | 0x3B => some (Sig.b3 .d1 .s1 .no .no x)
  | 0x3C => ab .a1
  | 0x3D => some (Sig.b3 .d1 .s1 .no .no x)
  | 0x3E => some (Sig.b3 .d1 .s1 .no .no x)
  | _ => ab .d1

/-! ### Control and system (R90, R165, R177 to R179) -/

/-- Special register numbers 0x00 to 0x23 are assigned (R179). -/
def sregAssigned (n : Nat) : Bool := decide (n ≤ 0x23)

/-- Special registers whose access is RW (R179). -/
def sregWritable (n : Nat) : Bool :=
  decide (n ∈ [0x0F, 0x10, 0x13, 0x14, 0x15, 0x16, 0x18, 0x19, 0x1A, 0x1B, 0x1C, 0x1D])

/-- Special registers that `SRD` with PAIR = 1 may name (R177). -/
def sregPair (n : Nat) : Bool := decide (n ∈ [0x02, 0x15, 0x20, 0x22])

def ctrlSig (n : Nat) (x : Ext) : Option Sig :=
  let z := x.x10 == 0
  let f0 := x.flg == 0
  match n with
  | 0x040 => some (Sig.ctl .dp .no .req true false z x)
  | 0x041 => some (Sig.ctl .dp .sp .no true true z x)
  | 0x042 => some (Sig.ctl .no .sp .no true true z x)
  | 0x043 => some (Sig.ctl .no .sp .no true true z x)
  | 0x044 => some (Sig.ctl .no .no .no true false z x)
  | 0x045 => some (Sig.ctl .no .s1 .req true true z x)
  | 0x046 => some (Sig.ctl .no .no .req
      (decide (x.immWord.toNat % 32 = 0) && decide (x.immWord.toNat ≤ 896)) false z x)
  | 0x048 => some (Sig.ctl .no .no .no true false (decide (x.x10.toNat < 256)) x)
  | 0x049 => some (Sig.ctl .d1 .no .no true false (decide (x.x10.toNat < 256)) x)
  | 0x04A => some (Sig.ctl .no .s1 .no true true (decide (x.x10.toNat < 16)) x)
  | 0x04B => some { d := .d1, b := .s1, imm := .opt, x10 := decide (x.x10.toNat < 16), flg := f0 }
  | 0x04C => some { d := .d1, a := .s1, b := .s1, imm := .opt, x10 := decide (x.x10.toNat < 16), flg := f0 }
  | 0x04D =>
    some { d := if x.ff 0 1 = 1 then .dp else .d1,
           x10 := decide (x.x10.toNat < 64) && sregAssigned (x.xf 0 6) &&
             (decide (x.ff 0 1 = 0) || sregPair (x.xf 0 6)),
           flg := decide (x.flg.toNat < 2) }
  | 0x04E => some { a := .s1, x10 := decide (x.x10.toNat < 64) && sregWritable (x.xf 0 6), flg := f0 }
  | 0x04F => some (Sig.ctl .no .no .no true false (decide (x.x10.toNat < 256)) x)
  | 0x050 => some (Sig.ctl .no .no .no true false z x)
  | 0x051 => some (Sig.ctl .no .no .no true false (decide (x.x10.toNat < 256)) x)
  | _ => none

/-! ### Integer, address, lane and exchange (R187) -/

def intSig (n : Nat) (x : Ext) : Option Sig :=
  let z := x.x10 == 0
  let f0 := x.flg == 0
  let g (d a b : Use) (imm : ImmUse) (ok : Bool) : Option Sig :=
    some { d := d, a := a, b := b, imm := imm, x10 := ok, flg := f0 }
  match n with
  | 0x080 => g .d1 .s1 .s1 .opt z
  | 0x081 => g .d1 .s1 .s1 .opt z
  | 0x082 => g .dp .sp .sp .opt z
  | 0x083 => g .dp .sp .sp .opt z
  | 0x084 => g .dp .sp .sp .opt z
  | 0x085 => some { d := .dp, a := .sp, b := .s1, imm := .opt, x10 := decide (x.x10.toNat < 8),
                    flg := decide (x.flg.toNat < 2) }
  | 0x086 => g .d1 .s1 .no .no z
  | 0x087 => g .d1 .s1 .s1 .opt z
  | 0x088 => g .d1 .s1 .s1 .opt z
  | 0x089 => g .d1 .s1 .no .no z
  | 0x08A => g .d1 .s1 .no .no z
  | 0x08B => g .d1 .s1 .s1 .opt z
  | 0x08C => g .d1 .s1 .s1 .opt z
  | 0x08D => g .a1 .s1 .s1 .opt z
  | 0x08E => g .d1 .s1 .s1 .opt z
  | 0x08F => g .d1 .s1 .s1 .opt z
  | 0x090 => g .d1 .s1 .s1 .opt z
  | 0x091 => g .d1 .s1 .s1 .opt z
  | 0x092 => g .d1 .s1 .s1 .opt z
  | 0x093 => g .d1 .s1 .s1 .opt z
  | 0x094 => g .d1 .s1 .no .no (decide (x.x10.toNat < 3))
  | 0x095 => g .d1 .s1 .no .no z
  | 0x096 => g .d1 .s1 .no .no z
  | 0x097 => g .d1 .s1 .no .no z
  | 0x098 => g .d1 .s1 .no .no z
  | 0x099 => g .d1 .s1 .no .no (decide (x.x10.toNat < 8) && decide (x.xf 0 2 ≠ 3))
  | 0x09A => g .d1 .s1 .no .no true
  | 0x09B => g .d1 .s1 .s1 .opt z
  | 0x09C => g .dp .sp .s1 .opt z
  | 0x09D => g .dp .sp .s1 .opt z
  | 0x09E => g .dp .sp .s1 .opt z
  | 0x09F => g .d1 .sp .sp .opt z
  | 0x0A0 => g .d1 .sp .sp .opt z
  | 0x0A1 => g .d1 .sp .sp .opt z
  | _ => none

/-! ### Floating point, conversion and reductions (R202, R213) -/

def floatSig (n : Nat) (x : Ext) : Option Sig :=
  let z := x.x10 == 0
  let r := x.rndOk 3
  let g (d a b c : Use) (imm : ImmUse) (ok : Bool) : Option Sig :=
    some { d := d, a := a, b := b, c := c, imm := imm, x10 := ok, flg := x.flg == 0 }
  match n with
  | 0x100 => g .d1 .s1 .s1 .s1 .opt r
  | 0x101 => g .d1 .s1 .s1 .s1 .opt r
  | 0x102 => g .d1 .s1 .no .no .no (decide (x.x10.toNat < 2))
  | 0x103 => g .d1 .s1 .no .no .no (decide (x.x10.toNat < 2))
  | 0x104 => g .d1 .s1 .s1 .no .opt z
  | 0x105 => g .d1 .s1 .s1 .no .opt z
  | 0x106 => g .d1 .s1 .s1 .no .opt z
  | 0x107 => g .d1 .s1 .no .no .no z
  | 0x108 => g .d1 .s1 .no .no .no r
  | 0x109 => g .d1 .s1 .no .no .no r
  | 0x10A => g .d1 .s1 .no .no .no r
  | 0x10B => g .d1 .s1 .no .no .no r
  | 0x10C => g .d1 .s1 .no .no .no r
  | 0x10D => g .d1 .s1 .no .no .no r
  | 0x10E => g .d1 .s1 .no .no .no r
  | 0x10F => g .d1 .s1 .s1 .no .opt r
  | 0x110 => g .d1 .s1 .s1 .s1 .opt r
  | 0x111 => g .d1 .s1 .s1 .s1 .opt r
  | 0x112 => g .d1 .s1 .s1 .no .opt z
  | 0x113 => g .d1 .s1 .s1 .no .opt z
  | 0x114 =>
    let sf := x.xf 3 2
    let df := x.xf 5 2
    g .d1 .s1 (if sf = 0 then .s1 else .no) .no .no
      (x.rndOk 8 && decide (sf < 3) && decide (df < 3) && decide (sf ≠ df) &&
        (decide (x.xf 7 1 = 0) || decide (df = 0)))
  | 0x115 => g .d1 .s1 .no .no .no (x.rndOk 4)
  | 0x116 => g .d1 .s1 .no .no .no (x.rndOk 4)
  | 0x117 => g .a1 .s1 .s1 .no .opt (decide (x.x10.toNat < 64) && decide (x.xf 0 3 = 0))
  | 0x118 => g .d1 .s1 .s1 .no .opt (x.rndOk 6)
  | 0x119 => g .d1 .s1 .no .no .no r
  | 0x11A => g .d1 .s1 .no .no .no z
  | 0x11B => g .d1 .s1 .no .no .no z
  | 0x11C => g .dp .s1 .no .s1 .no z
  | 0x11D => g .dp .s1 .no .s1 .no z
  | _ => none

/-! ### Memory (R220, R221, R231 to R233, R241) -/

/-- A scope code of R24 in X10 [5:3]. -/
def Ext.scOk (x : Ext) : Bool := decide (x.xf 3 3 ≤ 4)

/-- SX is legal only with b8 or b16 (R221). -/
def Ext.sxOk (x : Ext) : Bool := decide (x.xf 6 1 = 0) || decide (x.xf 0 3 ≤ 1)

/-- The operation code and its width (R233): OP 10 to 14 only at b32, OP 15 never. -/
def Ext.atomOk (x : Ext) : Bool :=
  (decide (x.xf 0 3 = 2) && decide (x.xf 6 4 ≤ 14)) || (decide (x.xf 0 3 = 3) && decide (x.xf 6 4 ≤ 9))

/-- The tile form of `LDS` and `STS` (R232), or its absence. -/
def Ext.tileOk (x : Ext) : Bool :=
  if x.ff 2 1 = 1 then decide (x.xf 0 3 = 2) && decide (x.xf 6 1 = 0) && x.b == 0 && decide (x.immWord = 0)
  else decide (x.ff 3 1 = 0) && decide (x.xf 7 2 = 0)

def memSig (n : Nat) (x : Ext) : Option Sig :=
  let w := x.xf 0 3
  let f0 := x.flg == 0
  let v := x.x10.toNat
  match n with
  | 0x180 => some { d := .gdst w, a := .sp, imm := .req,
                    x10 := decide (w ≤ 4) && x.sxOk && decide (v &&& 0x3B8 = 0), flg := decide (x.flg.toNat < 4) }
  | 0x181 => some { a := .sp, c := .gsrc w, imm := .req, x10 := decide (v ≤ 4),
                    flg := decide (x.flg.toNat = 0) || decide (x.flg.toNat = 2) }
  | 0x182 => some { d := .gdst w, a := .sp, imm := .req,
                    x10 := decide (w ≤ 3) && x.scOk && x.sxOk && decide (v < 128), flg := f0 }
  | 0x183 => some { a := .sp, c := .gsrc w, imm := .req,
                    x10 := decide (w ≤ 3) && x.scOk && decide (v < 64), flg := f0 }
  | 0x184 => some { d := .gdst w, a := .s1, imm := .req,
                    x10 := decide (w ≤ 4) && x.sxOk && x.tileOk && decide (v &&& 0x238 = 0),
                    flg := decide (x.ff 0 2 = 0) && decide (x.flg.toNat < 16) }
  | 0x185 => some { a := .s1, c := .gsrc w, imm := .req,
                    x10 := decide (w ≤ 4) && x.tileOk && decide (v &&& 0x278 = 0),
                    flg := decide (x.ff 0 2 = 0) && decide (x.flg.toNat < 16) }
  | 0x186 => some { d := if x.xf 6 4 = 9 then .acc (groupLen w) (groupLen w) else .gdst w,
                    a := .sp, c := .gsrc w, imm := .req,
                    x10 := x.atomOk && decide (v &&& 0x38 = 0), flg := f0 }
  | 0x187 => some { d := if x.xf 6 4 = 9 then .acc (groupLen w) (groupLen w) else .gdst w,
                    a := .s1, c := .gsrc w, imm := .req,
                    x10 := x.atomOk && decide (v &&& 0x38 = 0), flg := f0 }
  | 0x188 => some { a := .sp, c := .gsrc w, imm := .req,
                    x10 := x.atomOk && decide (v &&& 0x38 = 0) && decide (x.xf 6 4 ≠ 8) && decide (x.xf 6 4 ≠ 9),
                    flg := f0 }
  | 0x189 => some { pe := false, x10 := x.scOk && decide (v &&& 0x3C7 = 0), flg := f0 }
  | 0x18A => some { a := .sp, c := .gsrc w, imm := .req, x10 := decide (v ≤ 4), flg := f0 }
  | 0x18B => some { a := .sp, imm := .req, x10 := decide (v = 0), flg := decide (x.flg.toNat < 2) }
  | 0x18C => some { pe := false, x10 := decide (v = 0), flg := f0 }
  | 0x18D => some { a := .s1, imm := .req, immOk := decide (x.immWord.toNat ≤ 512), pe := false,
                    x10 := decide (v &&& 0x27F = 0), flg := f0 }
  | 0x18E => some { d := .gdst w, a := .sp, c := .gsrc w, imm := .req, pe := false,
                    x10 := (decide (w = 2) || decide (w = 3)) && decide (v < 256), flg := f0 }
  | _ => none

/-! ### Matrix (R247, R249, R250, R260, R261) -/

/-- Registers of the A group (R249): 16 for T8, 24 for T6, 8 for FP16 and BF16. -/
def aGroupLen (fmt : Nat) : Nat := if fmt = 0 then 16 else if fmt = 1 then 24 else 8

/-- Registers of the C group (R250): 5 for T8, 9 for T6. -/
def scaleGroupLen (fmt : Nat) : Nat := if fmt = 0 then 5 else 9

/-- Registers of the destination of `ACCCVT` (R261). -/
def cvtGroupLen (fmt : Nat) : Nat := if fmt = 0 then 8 else if fmt = 1 then 6 else 16

/-- SCL, BS and FMT combinations that R247 allows. -/
def Ext.sclOk (x : Ext) : Bool :=
  if x.ff 2 1 = 1 then
    (decide (x.ff 0 2 = 0) && decide (x.xf 0 2 ≤ 1)) || (decide (x.ff 0 2 = 1) && decide (x.xf 0 2 = 0))
  else decide (x.xf 0 2 = 0)

def matrixSig (n : Nat) (x : Ext) : Option Sig :=
  let fmt := x.ff 0 2
  let v := x.x10.toNat
  let f0 := x.flg == 0
  let sg : Use := if x.ff 2 1 = 1 then .src (scaleGroupLen fmt) 1 else .no
  match n with
  | 0x1C0 => some { a := .src (aGroupLen fmt) 1, b := .s1, c := sg, imm := .opt,
                    bcA := false, bcB := false, bcC := false, ruOk := true,
                    x10 := x.sclOk && decide (v &&& 0x384 = 0), flg := decide (x.flg.toNat < 8) }
  | 0x1C1 => some { d := .s1, a := .src (aGroupLen fmt) 1, b := .s1, c := sg, imm := .opt,
                    bcA := false, bcB := false, bcC := false, ruOk := true,
                    x10 := x.sclOk && decide (fmt ≤ 1) && decide (v &&& 0x204 = 0) && decide (x.xf 7 2 ≠ 3),
                    flg := decide (x.flg.toNat < 8) }
  | 0x1C2 => some { x10 := decide (v &&& 0x387 = 0), flg := f0 }
  | 0x1C3 => some { a := .src 32 1, bcA := false, x10 := decide (v &&& 7 = 0), flg := f0 }
  | 0x1C4 => some { d := .dst 32 1, x10 := decide (v &&& 7 = 0), flg := f0 }
  | 0x1C5 => some { d := .dst (cvtGroupLen fmt) 1, b := if fmt ≤ 1 then .s1 else .no,
                    imm := if fmt ≤ 1 then .opt else .no,
                    x10 := decide (x.xf 0 3 ≤ 4) && (decide (2 ≤ fmt) || decide (x.xf 0 3 = 0)),
                    flg := decide (x.flg.toNat < 4) }
  | 0x1C6 => some { d := .s1, a := .s1, imm := .req,
                    immOk := decide (1 ≤ x.immWord.toNat) && decide (x.immWord.toNat ≤ 32),
                    pe := false, bcA := false, x10 := decide (v = 0), flg := f0 }
  | 0x1C7 => some { pe := false, x10 := decide (v < 2), flg := f0 }
  | _ => none

/-! ### Engines and queues (R270), Halo (R289), key-value (R301), Prism (R322) -/

/-- The fields of an instruction that acts for its beam and reads the lowest live lane: no predicate, no broadcast. -/
def Sig.low (d a b c : Use) (imm : ImmUse) (ok flg : Bool) : Sig :=
  { d := d, a := a, b := b, c := c, imm := imm, pe := false, bcA := false, bcB := false, bcC := false,
    x10 := ok, flg := flg }

def engineSig (n : Nat) (x : Ext) : Option Sig :=
  let q := decide (x.x10.toNat < 8)
  let z := x.x10 == 0
  let f0 := x.flg == 0
  let nr := decide (x.flg.toNat < 2)
  match n with
  | 0x1E0 => some (Sig.low .no .s1 .no .no .no q f0)
  | 0x1E1 => some (Sig.low .d1 .no .no .no .no q f0)
  | 0x1E2 => some (Sig.low .no .s1 (if x.flg.toNat = 2 then .s1 else .no) .no .no q
                    (decide (x.flg.toNat = 0) || decide (x.flg.toNat = 2)))
  | 0x1E3 => some (Sig.low .dp .no .no .no .no q f0)
  | 0x1E4 => some (Sig.low .no .s1 .no .no .no q f0)
  | 0x1E5 => some (Sig.low .d1 .s1 .no .no .no z nr)
  | 0x1E6 => some (Sig.low .d1 .s1 .no .no .no z nr)
  | 0x1E7 => some (Sig.low .d1 .s1 .no .no .no z nr)
  | 0x1E8 => some (Sig.low .no .s1 .no .no .no z f0)
  | 0x1E9 => some (Sig.low .d1 .s1 .no .no .no z f0)
  | _ => none

def haloSig (n : Nat) (x : Ext) : Option Sig :=
  let f0 := x.flg == 0
  match n with
  | 0x200 => some (Sig.low .d1 .s1 .s1 .s1 .opt (decide (x.x10.toNat < 16)) f0)
  | 0x201 => some (Sig.low .d1 .s1 .no .no .no (x.x10 == 0) f0)
  | 0x202 => some (Sig.low .dp .no .no .no .no (decide (x.x10.toNat < 2)) f0)
  | _ => none

def kvSig (n : Nat) (x : Ext) : Option Sig :=
  let z := x.x10 == 0
  let f0 := x.flg == 0
  let wv := decide (x.x10.toNat < 16) && decide (x.xf 0 3 ≤ 2)
  match n with
  | 0x220 => some (Sig.low .d1 .sp .s1 .no .opt z f0)
  | 0x221 => some { d := .s1, a := .sp, b := .sp, c := .s1, x10 := wv, flg := f0 }
  | 0x222 => some { d := .dp, a := .sp, b := .sp, c := .s1, x10 := wv, flg := f0 }
  | 0x223 => some { d := .d1, a := .sp, b := .s1, c := .s1, x10 := z, flg := f0 }
  | 0x224 => some (Sig.low .s1 .sp .s1 .s1 .no z f0)
  | 0x225 => some (Sig.low .d1 .sp .s1 .no .opt z f0)
  | 0x226 => some (Sig.low .d1 .sp .s1 .s1 .opt z f0)
  | 0x227 => some (Sig.low .no .sp .s1 .no .opt z f0)
  | 0x228 => some (Sig.low .d1 .sp .no .no .no z f0)
  | 0x229 => some (Sig.low .dp .sp .no .no .no z (decide (x.flg.toNat < 2)))
  | 0x22A => some (Sig.low .d1 .s1 .no .no .no z (decide (x.flg.toNat < 2)))
  | _ => none

def prismSig (n : Nat) (x : Ext) : Option Sig :=
  let z := x.x10 == 0
  let f0 := x.flg == 0
  match n with
  | 0x240 => some (Sig.low .no .no .no .no .no (decide (x.x10.toNat < 512) && decide (x.xf 1 8 ≠ 0)) f0)
  | 0x241 => some (Sig.low .no .s1 .no .no .no z f0)
  | 0x242 => some { a := .s1, x10 := z, flg := f0 }
  | 0x243 => some (Sig.low .no .no .no .no .no z f0)
  | 0x244 => some (Sig.low .d1 .no .no .no .no z f0)
  | 0x245 => some (Sig.low .no .no .no .no .no z f0)
  | _ => none

/-- What is legal for the extended opcode `n`; `none` for a reserved one (R35, R36) and for `MCALL` (R37). -/
def xsig (n : Nat) (x : Ext) : Option Sig :=
  if n ≤ 0x1E then twinSigLo n x
  else if n ≤ 0x3E then twinSigHi n x
  else if n < 0x040 then none
  else if n < 0x080 then ctrlSig n x
  else if n < 0x100 then intSig n x
  else if n < 0x180 then floatSig n x
  else if n < 0x1C0 then memSig n x
  else if n < 0x1E0 then matrixSig n x
  else if n < 0x200 then engineSig n x
  else if n < 0x220 then haloSig n x
  else if n < 0x240 then kvSig n x
  else prismSig n x

/-- The extended opcode of `MCALL` (R36). -/
def xopMcall : Nat := 0x047

/-! ### Checks (R22 to R26, R30, R31, R37) -/

/-- A register field that is not used is zero; a used one names an aligned group. -/
def Use.fieldOk (u : Use) (v : BitVec 10) : Bool :=
  match u with
  | .no => v == 0
  | .src _ al => decide (v.toNat % al = 0)
  | .dst _ al => decide (v.toNat % al = 0)
  | .acc _ al => decide (v.toNat % al = 0)

/-- Whether the field is a register source that a broadcast may name (R30). -/
def Use.isSrc (u : Use) : Bool :=
  match u with
  | .src _ _ => true
  | .acc _ _ => true
  | _ => false

/-- The broadcast fields (R30). -/
def Sig.bcastOk (g : Sig) (x : Ext) : Bool :=
  if x.bcm = 0 then x.bcs == 0 && x.bln == 0
  else x.bcm != 3 && (x.bcm != 2 || x.bln == 0) &&
    (if x.bcs = 0 then g.a.isSrc && g.bcA
     else if x.bcs = 1 then g.b.isSrc && g.bcB && !x.immb
     else if x.bcs = 2 then g.c.isSrc && g.bcC
     else false)

/-- The B field and the literal (R22). -/
def Sig.immFieldOk (g : Sig) (x : Ext) : Bool :=
  if x.immb then g.imm != .no && (x.lit.isNone || x.b == 0) && g.immOk
  else g.imm != .req && x.lit.isNone && g.b.fieldOk x.b

/-- All the checks of R39 that the fields of an extended instruction decide, `MCALL` apart. -/
def Sig.ok (g : Sig) (x : Ext) : Bool :=
  g.d.fieldOk x.d && g.a.fieldOk x.a && g.c.fieldOk x.c && g.immFieldOk x &&
  (g.pe || !x.pe) && (x.pe || (x.p == 0 && !x.pn)) && g.bcastOk x && (g.ruOk || !x.ru) && g.x10 && g.flg

/-- `MCALL` (R37): a literal whose bits [63:37] are zero, and no field but the parameters. -/
def Ext.mcallOk (x : Ext) : Bool :=
  match x.lit with
  | none => false
  | some l => decide (l.toNat < 2 ^ 37) && !x.immb && x.flg == 0 && !x.pe && !x.pn && x.bcm == 0 && x.bcs == 0 &&
      x.bln == 0 && !x.ru && x.x10 == 0

/-- Whether extended opcode `n` with fields `x` is an instruction (R39, extended form). -/
def extOk (n : Nat) (x : Ext) : Bool :=
  if n = xopMcall then x.mcallOk
  else match xsig n x with
    | none => false
    | some g => g.ok x

/-- Whether the base opcode may carry a literal (R34). -/
def litOk (op : Nat) : Bool :=
  (decide (1 ≤ op) && decide (op ≤ 0x0F)) || (decide (0x15 ≤ op) && decide (op ≤ 0x2C)) || decide (op = 0x3C)

/-- The base opcodes of layout B3 that require A to be zero (R34). -/
def aZero (op : Nat) : Bool := decide (op = 0x01) || decide (op = 0x38)

/-- Whether base opcode `op` with these operands is an instruction (R16, R18, R34). -/
def baseOk (op : Nat) (o : BaseOps) : Bool :=
  match o with
  | .bz _ => decide (op ∈ [0x00, 0x35, 0x36])
  | .bj _ => decide (op = 0x31)
  | .bb _ => decide (op ∈ [0x32, 0x33, 0x34])
  | .bi o =>
    match op with
    | 0x10 => true
    | 0x11 => decide (o.imm.toNat < 32)
    | 0x12 => decide (o.imm.toNat < 32)
    | 0x13 => decide (o.imm.toNat < 32)
    | 0x14 => true
    | 0x2D => true
    | 0x2E => true
    | 0x2F => o.a == 0 && decide (o.imm.toNat < 16)
    | 0x30 => o.d == 0 && decide (o.imm.toNat < 16)
    | _ => false
  | .b3 o =>
    (match op with
     | 0x37 => o.d == 0 && o.b == 0
     | 0x38 => o.a == 0 && o.b == 0
     | 0x39 => o.d == 0 && o.b == 0
     | 0x3A => o.b == 0
     | 0x3B => o.b == 0
     | 0x3D => o.b == 0
     | 0x3E => o.b == 0
     | 0x01 => o.a == 0
     | _ => true) &&
    (o.lit.isNone || (litOk op && o.b == 0)) &&
    decide (op ∉ [0x00, 0x10, 0x11, 0x12, 0x13, 0x14, 0x2D, 0x2E, 0x2F, 0x30, 0x31, 0x32, 0x33, 0x34, 0x35, 0x36])

/-! ### Numbers of the instructions (R33, R35, R36) -/

def ofTwinLo (n : Nat) (x : Ext) : Option Instr :=
  match n with
  | 0x000 => some (.nopX x)
  | 0x001 => some (.movX x)
  | 0x002 => some (.addX x)
  | 0x003 => some (.subX x)
  | 0x004 => some (.mulX x)
  | 0x005 => some (.andX x)
  | 0x006 => some (.orX x)
  | 0x007 => some (.xorX x)
  | 0x008 => some (.shlX x)
  | 0x009 => some (.shrX x)
  | 0x00A => some (.sarX x)
  | 0x00B => some (.minX x)
  | 0x00C => some (.maxX x)
  | 0x00D => some (.minuX x)
  | 0x00E => some (.maxuX x)
  | 0x00F => some (.andnX x)
  | 0x010 => some (.addiX x)
  | 0x011 => some (.shliX x)
  | 0x012 => some (.shriX x)
  | 0x013 => some (.sariX x)
  | 0x014 => some (.andiX x)
  | 0x015 => some (.ceqX x)
  | 0x016 => some (.cneX x)
  | 0x017 => some (.cltX x)
  | 0x018 => some (.cleX x)
  | 0x019 => some (.cltuX x)
  | 0x01A => some (.cleuX x)
  | 0x01B => some (.selX x)
  | 0x01C => some (.faddX x)
  | 0x01D => some (.fsubX x)
  | 0x01E => some (.fmulX x)
  | _ => none

def ofTwinHi (n : Nat) (x : Ext) : Option Instr :=
  match n with
  | 0x01F => some (.fmacX x)
  | 0x020 => some (.fminX x)
  | 0x021 => some (.fmaxX x)
  | 0x022 => some (.fceqX x)
  | 0x023 => some (.fcltX x)
  | 0x024 => some (.fcleX x)
  | 0x025 => some (.haddX x)
  | 0x026 => some (.hmulX x)
  | 0x027 => some (.hmacX x)
  | 0x028 => some (.baddX x)
  | 0x029 => some (.bmulX x)
  | 0x02A => some (.bmacX x)
  | 0x02B => some (.shflX x)
  | 0x02C => some (.shflxX x)
  | 0x02D => some (.ldswX x)
  | 0x02E => some (.stswX x)
  | 0x02F => some (.twrdX x)
  | 0x030 => some (.twwrX x)
  | 0x031 => some (.braX x)
  | 0x032 => some (.branyX x)
  | 0x033 => some (.brallX x)
  | 0x034 => some (.brnoneX x)
  | 0x035 => some (.exitX x)
  | 0x036 => some (.barX x)
  | 0x037 => some (.maskpX x)
  | 0x038 => some (.getmX x)
  | 0x039 => some (.setmX x)
  | 0x03A => some (.raddX x)
  | 0x03B => some (.rmaxX x)
  | 0x03C => some (.madX x)
  | 0x03D => some (.popcX x)
  | 0x03E => some (.clzX x)
  | _ => none

def ofCtrl (n : Nat) (x : Ext) : Option Instr :=
  match n with
  | 0x040 => some (.call x)
  | 0x041 => some (.callr x)
  | 0x042 => some (.ret x)
  | 0x043 => some (.jmpr x)
  | 0x044 => some (.yield x)
  | 0x045 => some (.yieldj x)
  | 0x046 => some (.region x)
  | 0x047 => some (.mcall x)
  | 0x048 => some (.barn x)
  | 0x049 => some (.arrive x)
  | 0x04A => some (.waitb x)
  | 0x04B => some (.twadd x)
  | 0x04C => some (.twcas x)
  | 0x04D => some (.srd x)
  | 0x04E => some (.swr x)
  | 0x04F => some (.trap x)
  | 0x050 => some (.eret x)
  | 0x051 => some (.brk x)
  | _ => none

def ofInt (n : Nat) (x : Ext) : Option Instr :=
  match n with
  | 0x080 => some (.mulhi x)
  | 0x081 => some (.mulhiu x)
  | 0x082 => some (.addp x)
  | 0x083 => some (.subp x)
  | 0x084 => some (.mulp x)
  | 0x085 => some (.lea x)
  | 0x086 => some (.abs x)
  | 0x087 => some (.rol x)
  | 0x088 => some (.ror x)
  | 0x089 => some (.ctz x)
  | 0x08A => some (.brev x)
  | 0x08B => some (.bfx x)
  | 0x08C => some (.bfxu x)
  | 0x08D => some (.bfi x)
  | 0x08E => some (.divs x)
  | 0x08F => some (.divu x)
  | 0x090 => some (.rems x)
  | 0x091 => some (.remu x)
  | 0x092 => some (.shflu x)
  | 0x093 => some (.shfld x)
  | 0x094 => some (.vote x)
  | 0x095 => some (.matchLanes x)
  | 0x096 => some (.rmin x)
  | 0x097 => some (.rminu x)
  | 0x098 => some (.rmaxu x)
  | 0x099 => some (.scan x)
  | 0x09A => some (.xchg x)
  | 0x09B => some (.rng x)
  | 0x09C => some (.shlp x)
  | 0x09D => some (.shrp x)
  | 0x09E => some (.sarp x)
  | 0x09F => some (.ceqp x)
  | 0x0A0 => some (.cltp x)
  | 0x0A1 => some (.cltup x)
  | _ => none

def ofFloat (n : Nat) (x : Ext) : Option Instr :=
  match n with
  | 0x100 => some (.ffma x)
  | 0x101 => some (.fnms x)
  | 0x102 => some (.fabs x)
  | 0x103 => some (.fneg x)
  | 0x104 => some (.fminn x)
  | 0x105 => some (.fmaxn x)
  | 0x106 => some (.fcun x)
  | 0x107 => some (.fclass x)
  | 0x108 => some (.frnd x)
  | 0x109 => some (.frcp x)
  | 0x10A => some (.frsq x)
  | 0x10B => some (.fsqrt x)
  | 0x10C => some (.fexp2 x)
  | 0x10D => some (.flog2 x)
  | 0x10E => some (.ftanh x)
  | 0x10F => some (.fscl x)
  | 0x110 => some (.hfma x)
  | 0x111 => some (.bfma x)
  | 0x112 => some (.hmin x)
  | 0x113 => some (.hmax x)
  | 0x114 => some (.cvtf x)
  | 0x115 => some (.cvtfi x)
  | 0x116 => some (.cvtif x)
  | 0x117 => some (.cvtt x)
  | 0x118 => some (.cvttf x)
  | 0x119 => some (.fredadd x)
  | 0x11A => some (.fredmax x)
  | 0x11B => some (.fredmin x)
  | 0x11C => some (.fredmaxi x)
  | 0x11D => some (.fredmini x)
  | _ => none

def ofMem (n : Nat) (x : Ext) : Option Instr :=
  match n with
  | 0x180 => some (.ld x)
  | 0x181 => some (.st x)
  | 0x182 => some (.lda x)
  | 0x183 => some (.stl x)
  | 0x184 => some (.lds x)
  | 0x185 => some (.sts x)
  | 0x186 => some (.atom x)
  | 0x187 => some (.atoms x)
  | 0x188 => some (.red x)
  | 0x189 => some (.fence x)
  | 0x18A => some (.mcst x)
  | 0x18B => some (.prf x)
  | 0x18C => some (.cinv x)
  | 0x18D => some (.tile x)
  | 0x18E => some (.waitm x)
  | _ => none

def ofMatrix (n : Nat) (x : Ext) : Option Instr :=
  match n with
  | 0x1C0 => some (.mma x)
  | 0x1C1 => some (.mmasp x)
  | 0x1C2 => some (.accz x)
  | 0x1C3 => some (.accld x)
  | 0x1C4 => some (.accst x)
  | 0x1C5 => some (.acccvt x)
  | 0x1C6 => some (.ldmeta x)
  | 0x1C7 => some (.mwait x)
  | _ => none

def ofEngine (n : Nat) (x : Ext) : Option Instr :=
  match n with
  | 0x1E0 => some (.qset x)
  | 0x1E1 => some (.qacq x)
  | 0x1E2 => some (.qcommit x)
  | 0x1E3 => some (.qwait x)
  | 0x1E4 => some (.qfree x)
  | 0x1E5 => some (.cpyj x)
  | 0x1E6 => some (.gatj x)
  | 0x1E7 => some (.colj x)
  | 0x1E8 => some (.jwait x)
  | 0x1E9 => some (.jtest x)
  | _ => none

def ofHalo (n : Nat) (x : Ext) : Option Instr :=
  match n with
  | 0x200 => some (.hboard x)
  | 0x201 => some (.hcancel x)
  | 0x202 => some (.hlap x)
  | _ => none

noncomputable def ofKv (n : Nat) (x : Ext) : Option Instr :=
  match n with
  | 0x220 => some (.kvrsv x)
  | 0x221 => some (.kvw x)
  | 0x222 => some (.kvr x)
  | 0x223 => some (.kvrt x)
  | 0x224 => some (.kvpub x)
  | 0x225 => some (.kvacq x)
  | 0x226 => some (.kvwait x)
  | 0x227 => some (.kvcmt x)
  | 0x228 => some (.kvroll x)
  | 0x229 => some (.kvgen x)
  | 0x22A => some (.kvstage x)
  | _ => none

noncomputable def ofPrism (n : Nat) (x : Ext) : Option Instr :=
  match n with
  | 0x240 => some (.pawin x)
  | 0x241 => some (.pald x)
  | 0x242 => some (.pain x)
  | 0x243 => some (.pago x)
  | 0x244 => some (.pacap x)
  | 0x245 => some (.paclr x)
  | _ => none

/-- The instruction of extended opcode `n` with fields `x` (R35, R36); `none` for a reserved opcode. -/
noncomputable def Instr.ofX (n : Nat) (x : Ext) : Option Instr :=
  if n ≤ 0x1E then ofTwinLo n x
  else if n < 0x040 then ofTwinHi n x
  else if n < 0x080 then ofCtrl n x
  else if n < 0x100 then ofInt n x
  else if n < 0x180 then ofFloat n x
  else if n < 0x1C0 then ofMem n x
  else if n < 0x1E0 then ofMatrix n x
  else if n < 0x200 then ofEngine n x
  else if n < 0x220 then ofHalo n x
  else if n < 0x240 then ofKv n x
  else ofPrism n x

/-- The instruction of base opcode `op` with layout B3 (R33, R34). -/
def Instr.ofB3 (op : Nat) (o : B3) : Option Instr :=
  match op with
  | 0x01 => some (.mov o)
  | 0x02 => some (.add o)
  | 0x03 => some (.sub o)
  | 0x04 => some (.mul o)
  | 0x05 => some (.and o)
  | 0x06 => some (.or o)
  | 0x07 => some (.xor o)
  | 0x08 => some (.shl o)
  | 0x09 => some (.shr o)
  | 0x0A => some (.sar o)
  | 0x0B => some (.min o)
  | 0x0C => some (.max o)
  | 0x0D => some (.minu o)
  | 0x0E => some (.maxu o)
  | 0x0F => some (.andn o)
  | 0x15 => some (.ceq o)
  | 0x16 => some (.cne o)
  | 0x17 => some (.clt o)
  | 0x18 => some (.cle o)
  | 0x19 => some (.cltu o)
  | 0x1A => some (.cleu o)
  | 0x1B => some (.sel o)
  | 0x1C => some (.fadd o)
  | 0x1D => some (.fsub o)
  | 0x1E => some (.fmul o)
  | 0x1F => some (.fmac o)
  | 0x20 => some (.fmin o)
  | 0x21 => some (.fmax o)
  | 0x22 => some (.fceq o)
  | 0x23 => some (.fclt o)
  | 0x24 => some (.fcle o)
  | 0x25 => some (.hadd o)
  | 0x26 => some (.hmul o)
  | 0x27 => some (.hmac o)
  | 0x28 => some (.badd o)
  | 0x29 => some (.bmul o)
  | 0x2A => some (.bmac o)
  | 0x2B => some (.shfl o)
  | 0x2C => some (.shflx o)
  | 0x37 => some (.maskp o)
  | 0x38 => some (.getm o)
  | 0x39 => some (.setm o)
  | 0x3A => some (.radd o)
  | 0x3B => some (.rmax o)
  | 0x3C => some (.mad o)
  | 0x3D => some (.popc o)
  | 0x3E => some (.clz o)
  | _ => none

/-- The instruction of base opcode `op` with layout BI (R33, R34). -/
def Instr.ofBI (op : Nat) (o : BI) : Option Instr :=
  match op with
  | 0x10 => some (.addi o)
  | 0x11 => some (.shli o)
  | 0x12 => some (.shri o)
  | 0x13 => some (.sari o)
  | 0x14 => some (.andi o)
  | 0x2D => some (.ldsw o)
  | 0x2E => some (.stsw o)
  | 0x2F => some (.twrd o)
  | 0x30 => some (.twwr o)
  | _ => none

/-- The instruction of base opcode `op` with layout BB (R33, R34). -/
def Instr.ofBB (op : Nat) (o : BB) : Option Instr :=
  match op with
  | 0x32 => some (.brany o)
  | 0x33 => some (.brall o)
  | 0x34 => some (.brnone o)
  | _ => none

/-- The instruction of base opcode `op` with layout BJ (R33, R34). -/
def Instr.ofBJ (op : Nat) (o : BJ) : Option Instr :=
  match op with
  | 0x31 => some (.bra o)
  | _ => none

/-- The instruction of base opcode `op` with layout BZ (R33, R34). -/
def Instr.ofBZ (op : Nat) (o : BZ) : Option Instr :=
  match op with
  | 0x00 => some (.nop o)
  | 0x35 => some (.exit o)
  | 0x36 => some (.bar o)
  | _ => none

/-- The instruction of base opcode `op` with operands of its layout. -/
def Instr.ofBase (op : Nat) (o : BaseOps) : Option Instr :=
  match o with
  | .b3 o => Instr.ofB3 op o
  | .bi o => Instr.ofBI op o
  | .bb o => Instr.ofBB op o
  | .bj o => Instr.ofBJ op o
  | .bz o => Instr.ofBZ op o

/-- What an instruction is: a base word, an extended form, or an event of the part (spec/95). -/
inductive Form where
  | base (op : Nat) (o : BaseOps)
  | ext (n : Nat) (x : Ext)
  | event
  deriving DecidableEq, Repr

/-- The number and the operands of an instruction. -/
def Instr.form (i : Instr) : Form :=
  match i with
  | .nop o => .base 0x00 (.bz o)
  | .nopX x => .ext 0x000 x
  | .mov o => .base 0x01 (.b3 o)
  | .movX x => .ext 0x001 x
  | .add o => .base 0x02 (.b3 o)
  | .addX x => .ext 0x002 x
  | .sub o => .base 0x03 (.b3 o)
  | .subX x => .ext 0x003 x
  | .mul o => .base 0x04 (.b3 o)
  | .mulX x => .ext 0x004 x
  | .and o => .base 0x05 (.b3 o)
  | .andX x => .ext 0x005 x
  | .or o => .base 0x06 (.b3 o)
  | .orX x => .ext 0x006 x
  | .xor o => .base 0x07 (.b3 o)
  | .xorX x => .ext 0x007 x
  | .shl o => .base 0x08 (.b3 o)
  | .shlX x => .ext 0x008 x
  | .shr o => .base 0x09 (.b3 o)
  | .shrX x => .ext 0x009 x
  | .sar o => .base 0x0A (.b3 o)
  | .sarX x => .ext 0x00A x
  | .min o => .base 0x0B (.b3 o)
  | .minX x => .ext 0x00B x
  | .max o => .base 0x0C (.b3 o)
  | .maxX x => .ext 0x00C x
  | .minu o => .base 0x0D (.b3 o)
  | .minuX x => .ext 0x00D x
  | .maxu o => .base 0x0E (.b3 o)
  | .maxuX x => .ext 0x00E x
  | .andn o => .base 0x0F (.b3 o)
  | .andnX x => .ext 0x00F x
  | .addi o => .base 0x10 (.bi o)
  | .addiX x => .ext 0x010 x
  | .shli o => .base 0x11 (.bi o)
  | .shliX x => .ext 0x011 x
  | .shri o => .base 0x12 (.bi o)
  | .shriX x => .ext 0x012 x
  | .sari o => .base 0x13 (.bi o)
  | .sariX x => .ext 0x013 x
  | .andi o => .base 0x14 (.bi o)
  | .andiX x => .ext 0x014 x
  | .ceq o => .base 0x15 (.b3 o)
  | .ceqX x => .ext 0x015 x
  | .cne o => .base 0x16 (.b3 o)
  | .cneX x => .ext 0x016 x
  | .clt o => .base 0x17 (.b3 o)
  | .cltX x => .ext 0x017 x
  | .cle o => .base 0x18 (.b3 o)
  | .cleX x => .ext 0x018 x
  | .cltu o => .base 0x19 (.b3 o)
  | .cltuX x => .ext 0x019 x
  | .cleu o => .base 0x1A (.b3 o)
  | .cleuX x => .ext 0x01A x
  | .sel o => .base 0x1B (.b3 o)
  | .selX x => .ext 0x01B x
  | .fadd o => .base 0x1C (.b3 o)
  | .faddX x => .ext 0x01C x
  | .fsub o => .base 0x1D (.b3 o)
  | .fsubX x => .ext 0x01D x
  | .fmul o => .base 0x1E (.b3 o)
  | .fmulX x => .ext 0x01E x
  | .fmac o => .base 0x1F (.b3 o)
  | .fmacX x => .ext 0x01F x
  | .fmin o => .base 0x20 (.b3 o)
  | .fminX x => .ext 0x020 x
  | .fmax o => .base 0x21 (.b3 o)
  | .fmaxX x => .ext 0x021 x
  | .fceq o => .base 0x22 (.b3 o)
  | .fceqX x => .ext 0x022 x
  | .fclt o => .base 0x23 (.b3 o)
  | .fcltX x => .ext 0x023 x
  | .fcle o => .base 0x24 (.b3 o)
  | .fcleX x => .ext 0x024 x
  | .hadd o => .base 0x25 (.b3 o)
  | .haddX x => .ext 0x025 x
  | .hmul o => .base 0x26 (.b3 o)
  | .hmulX x => .ext 0x026 x
  | .hmac o => .base 0x27 (.b3 o)
  | .hmacX x => .ext 0x027 x
  | .badd o => .base 0x28 (.b3 o)
  | .baddX x => .ext 0x028 x
  | .bmul o => .base 0x29 (.b3 o)
  | .bmulX x => .ext 0x029 x
  | .bmac o => .base 0x2A (.b3 o)
  | .bmacX x => .ext 0x02A x
  | .shfl o => .base 0x2B (.b3 o)
  | .shflX x => .ext 0x02B x
  | .shflx o => .base 0x2C (.b3 o)
  | .shflxX x => .ext 0x02C x
  | .ldsw o => .base 0x2D (.bi o)
  | .ldswX x => .ext 0x02D x
  | .stsw o => .base 0x2E (.bi o)
  | .stswX x => .ext 0x02E x
  | .twrd o => .base 0x2F (.bi o)
  | .twrdX x => .ext 0x02F x
  | .twwr o => .base 0x30 (.bi o)
  | .twwrX x => .ext 0x030 x
  | .bra o => .base 0x31 (.bj o)
  | .braX x => .ext 0x031 x
  | .brany o => .base 0x32 (.bb o)
  | .branyX x => .ext 0x032 x
  | .brall o => .base 0x33 (.bb o)
  | .brallX x => .ext 0x033 x
  | .brnone o => .base 0x34 (.bb o)
  | .brnoneX x => .ext 0x034 x
  | .exit o => .base 0x35 (.bz o)
  | .exitX x => .ext 0x035 x
  | .bar o => .base 0x36 (.bz o)
  | .barX x => .ext 0x036 x
  | .maskp o => .base 0x37 (.b3 o)
  | .maskpX x => .ext 0x037 x
  | .getm o => .base 0x38 (.b3 o)
  | .getmX x => .ext 0x038 x
  | .setm o => .base 0x39 (.b3 o)
  | .setmX x => .ext 0x039 x
  | .radd o => .base 0x3A (.b3 o)
  | .raddX x => .ext 0x03A x
  | .rmax o => .base 0x3B (.b3 o)
  | .rmaxX x => .ext 0x03B x
  | .mad o => .base 0x3C (.b3 o)
  | .madX x => .ext 0x03C x
  | .popc o => .base 0x3D (.b3 o)
  | .popcX x => .ext 0x03D x
  | .clz o => .base 0x3E (.b3 o)
  | .clzX x => .ext 0x03E x
  | .call x => .ext 0x040 x
  | .callr x => .ext 0x041 x
  | .ret x => .ext 0x042 x
  | .jmpr x => .ext 0x043 x
  | .yield x => .ext 0x044 x
  | .yieldj x => .ext 0x045 x
  | .region x => .ext 0x046 x
  | .mcall x => .ext 0x047 x
  | .barn x => .ext 0x048 x
  | .arrive x => .ext 0x049 x
  | .waitb x => .ext 0x04A x
  | .twadd x => .ext 0x04B x
  | .twcas x => .ext 0x04C x
  | .srd x => .ext 0x04D x
  | .swr x => .ext 0x04E x
  | .trap x => .ext 0x04F x
  | .eret x => .ext 0x050 x
  | .brk x => .ext 0x051 x
  | .mulhi x => .ext 0x080 x
  | .mulhiu x => .ext 0x081 x
  | .addp x => .ext 0x082 x
  | .subp x => .ext 0x083 x
  | .mulp x => .ext 0x084 x
  | .lea x => .ext 0x085 x
  | .abs x => .ext 0x086 x
  | .rol x => .ext 0x087 x
  | .ror x => .ext 0x088 x
  | .ctz x => .ext 0x089 x
  | .brev x => .ext 0x08A x
  | .bfx x => .ext 0x08B x
  | .bfxu x => .ext 0x08C x
  | .bfi x => .ext 0x08D x
  | .divs x => .ext 0x08E x
  | .divu x => .ext 0x08F x
  | .rems x => .ext 0x090 x
  | .remu x => .ext 0x091 x
  | .shflu x => .ext 0x092 x
  | .shfld x => .ext 0x093 x
  | .vote x => .ext 0x094 x
  | .matchLanes x => .ext 0x095 x
  | .rmin x => .ext 0x096 x
  | .rminu x => .ext 0x097 x
  | .rmaxu x => .ext 0x098 x
  | .scan x => .ext 0x099 x
  | .xchg x => .ext 0x09A x
  | .rng x => .ext 0x09B x
  | .shlp x => .ext 0x09C x
  | .shrp x => .ext 0x09D x
  | .sarp x => .ext 0x09E x
  | .ceqp x => .ext 0x09F x
  | .cltp x => .ext 0x0A0 x
  | .cltup x => .ext 0x0A1 x
  | .ffma x => .ext 0x100 x
  | .fnms x => .ext 0x101 x
  | .fabs x => .ext 0x102 x
  | .fneg x => .ext 0x103 x
  | .fminn x => .ext 0x104 x
  | .fmaxn x => .ext 0x105 x
  | .fcun x => .ext 0x106 x
  | .fclass x => .ext 0x107 x
  | .frnd x => .ext 0x108 x
  | .frcp x => .ext 0x109 x
  | .frsq x => .ext 0x10A x
  | .fsqrt x => .ext 0x10B x
  | .fexp2 x => .ext 0x10C x
  | .flog2 x => .ext 0x10D x
  | .ftanh x => .ext 0x10E x
  | .fscl x => .ext 0x10F x
  | .hfma x => .ext 0x110 x
  | .bfma x => .ext 0x111 x
  | .hmin x => .ext 0x112 x
  | .hmax x => .ext 0x113 x
  | .cvtf x => .ext 0x114 x
  | .cvtfi x => .ext 0x115 x
  | .cvtif x => .ext 0x116 x
  | .cvtt x => .ext 0x117 x
  | .cvttf x => .ext 0x118 x
  | .fredadd x => .ext 0x119 x
  | .fredmax x => .ext 0x11A x
  | .fredmin x => .ext 0x11B x
  | .fredmaxi x => .ext 0x11C x
  | .fredmini x => .ext 0x11D x
  | .ld x => .ext 0x180 x
  | .st x => .ext 0x181 x
  | .lda x => .ext 0x182 x
  | .stl x => .ext 0x183 x
  | .lds x => .ext 0x184 x
  | .sts x => .ext 0x185 x
  | .atom x => .ext 0x186 x
  | .atoms x => .ext 0x187 x
  | .red x => .ext 0x188 x
  | .fence x => .ext 0x189 x
  | .mcst x => .ext 0x18A x
  | .prf x => .ext 0x18B x
  | .cinv x => .ext 0x18C x
  | .tile x => .ext 0x18D x
  | .waitm x => .ext 0x18E x
  | .mma x => .ext 0x1C0 x
  | .mmasp x => .ext 0x1C1 x
  | .accz x => .ext 0x1C2 x
  | .accld x => .ext 0x1C3 x
  | .accst x => .ext 0x1C4 x
  | .acccvt x => .ext 0x1C5 x
  | .ldmeta x => .ext 0x1C6 x
  | .mwait x => .ext 0x1C7 x
  | .qset x => .ext 0x1E0 x
  | .qacq x => .ext 0x1E1 x
  | .qcommit x => .ext 0x1E2 x
  | .qwait x => .ext 0x1E3 x
  | .qfree x => .ext 0x1E4 x
  | .cpyj x => .ext 0x1E5 x
  | .gatj x => .ext 0x1E6 x
  | .colj x => .ext 0x1E7 x
  | .jwait x => .ext 0x1E8 x
  | .jtest x => .ext 0x1E9 x
  | .hboard x => .ext 0x200 x
  | .hcancel x => .ext 0x201 x
  | .hlap x => .ext 0x202 x
  | .kvrsv x => .ext 0x220 x
  | .kvw x => .ext 0x221 x
  | .kvr x => .ext 0x222 x
  | .kvrt x => .ext 0x223 x
  | .kvpub x => .ext 0x224 x
  | .kvacq x => .ext 0x225 x
  | .kvwait x => .ext 0x226 x
  | .kvcmt x => .ext 0x227 x
  | .kvroll x => .ext 0x228 x
  | .kvgen x => .ext 0x229 x
  | .kvstage x => .ext 0x22A x
  | .pawin x => .ext 0x240 x
  | .pald x => .ext 0x241 x
  | .pain x => .ext 0x242 x
  | .pago x => .ext 0x243 x
  | .pacap x => .ext 0x244 x
  | .paclr x => .ext 0x245 x
  | .macroBodyWord _ _ => .event
  | .fixedResultLand _ _ => .event
  | .variableResultWrite _ _ _ => .event
  | .regionComplete _ _ => .event
  | .dividerSubstep _ _ => .event
  | .coalescerGroup _ _ => .event
  | .kvSubstep _ _ => .event
  | .paldSubstep _ => .event
  | .yieldEnd _ _ => .event
  | .teamWordApply _ => .event
  | .beamWake _ _ => .event
  | .watchReply _ => .event
  | .watchTimeout _ => .event
  | .siblingStop _ _ => .event
  | .engineEntryStart _ => .event
  | .engineSubstep _ => .event
  | .engineEntryComplete _ => .event
  | .prismWindowEnd _ => .event
  | .telemetryRecompute _ => .event
  | .sliceAccess _ => .event
  | .acknowledgement _ => .event
  | .packetArbitration _ => .event
  | .pageWalk _ _ _ => .event
  | .faultTimeout _ => .event
  | .operandLogReplay _ => .event
  | .shootdownRange _ => .event
  | .shootdownSpace _ => .event
  | .shootdownTenant _ => .event
  | .shootdownDone => .event
  | .pageMigrate _ _ _ => .event
  | .rdUpgrade _ => .event
  | .rdGrant _ _ _ => .event
  | .rdInvalidate _ _ _ => .event
  | .rdAckComplete _ => .event
  | .rdTimeout _ => .event
  | .jobComplete _ => .event
  | .teamPlace _ _ => .event
  | .quantumExpiry _ => .event
  | .preempt _ => .event
  | .teamRestore _ _ => .event
  | .beamRetire _ _ => .event
  | .teamRetire _ => .event
  | .gridComplete _ => .event
  | .fcfgRst _ => .event
  | .resetDrained _ => .event
  | .fcfgRel _ => .event
  | .registerWrite _ _ _ => .event
  | .counterClear _ => .event
  | .gateWays _ _ => .event
  | .gateGranules _ _ _ => .event
  | .wakeDone => .event
  | .haloRunStart _ => .event
  | .haloRunStop _ => .event
  | .haloThrSet _ _ => .event
  | .hnextWrite _ _ _ => .event
  | .lapBoundary _ => .event
  | .tilePassing _ _ _ => .event
  | .tileChecked _ _ _ => .event
  | .tileCommit _ _ => .event
  | .boardRegister _ _ => .event
  | .write _ => .event
  | .read _ => .event
  | .setparam _ => .event
  | .replay _ => .event
  | .query _ => .event
  | .attest _ => .event
  | .reset _ => .event
  | .resolve _ => .event
  | .fail _ => .event
  | .mbtailWrite _ _ => .event
  | .mbcfgWrite _ _ => .event
  | .mbcheadWrite _ _ => .event
  | .commandFetch _ => .event
  | .replayStart _ => .event
  | .nodeLaunch _ _ => .event
  | .nodeJob _ _ => .event
  | .nodeWait _ _ => .event
  | .waitPoll _ _ => .event
  | .nodeSignal _ _ => .event
  | .replayEnd _ => .event
  | .budgetPeriod => .event
  | .refillWrite _ _ => .event
  | .prectlGo _ => .event
  | .gsctlEnable => .event
  | .gsctlDisable => .event
  | .gangSliceStart => .event
  | .arrived _ _ _ => .event
  | .gangDecide => .event
  | .openGate => .event
  | .forfeit _ => .event
  | .powerOn _ => .event
  | .perst _ => .event
  | .d3hotEnter => .event
  | .d0Return => .event
  | .train _ => .event
  | .drain _ => .event
  | .hold _ => .event
  | .dark _ => .event
  | .relock _ => .event
  | .release _ => .event
  | .down _ => .event
  | .trainTimeout _ => .event
  | .bankenClear _ _ => .event
  | .flitReceive _ _ => .event
  | .nakRepeat _ => .event
  | .markerAck _ => .event
  | .lossOfLight _ _ => .event
  | .restripeDone _ => .event
  | .restripeDecode _ _ => .event
  | .portDown _ => .event
  | .packetReceive _ => .event
  | .remoteTimeout _ => .event
  | .capability _ _ => .event
  | .collimatorStamp _ _ => .event
  | .stampedApply _ => .event
  | .fabricTimeLock _ => .event
  | .evcfgWrite _ _ => .event
  | .trainingComplete _ _ _ _ => .event
  | .lossOfSignal _ _ => .event
  | .preemptDrainTimeout _ _ => .event
  | .gangSliceEnd => .event

/-- Whether the instruction is one that R39 lets issue; every event is. -/
def Form.ok (f : Form) : Bool :=
  match f with
  | .base op o => baseOk op o
  | .ext n x => extOk n x
  | .event => true

end Sys2Proof
end

