-- ==== Sys2Proof/WellFormed.lean ====
section
/-! DEFINITION. Well-formed instructions: those that every check of R39 made on the words alone lets through. -/

namespace Sys2Proof

/-- The instruction is legal in every field (R39); the tables are in `Sys2Proof.Machine.Sig`. -/
def Instr.wf (i : Instr) : Bool := i.form.ok

end Sys2Proof
end

