-- ==== Sys2Proof/Decode.lean ====
section
/-! DEFINITION. Decoding (R7, R8, R13, R14, R18 to R21) and its inverse. The decoder takes bytes, refuses what R39
refuses, and gives the instruction with the bytes after it. `Instr.ofX` builds constructors whose runtime tag is beyond
Lean's limit for compiled code, so the decoder is marked noncomputable; Lean's kernel evaluates it. -/

namespace Sys2Proof

/-! ### Words and bytes -/

/-- A word from its four bytes, low byte first (R4, R7). -/
def wordOfBytes (b0 b1 b2 b3 : Byte) : Word := b3 ++ b2 ++ b1 ++ b0

/-- The four bytes of a word, low byte first. -/
def bytesOfWord (w : Word) : List Byte :=
  [w.extractLsb' 0 8, w.extractLsb' 8 8, w.extractLsb' 16 8, w.extractLsb' 24 8]

/-- The first word of a byte sequence, with the bytes after it. -/
def takeWord (bs : List Byte) : Option (Word × List Byte) :=
  match bs with
  | b0 :: b1 :: b2 :: b3 :: r => some (wordOfBytes b0 b1 b2 b3, r)
  | _ => none

/-- A 64-bit literal from its two words, low word first (R7). -/
def litOfWords (lo hi : Word) : Dword := hi ++ lo

/-! ### The frame (R8, R9) -/

/-- LEN, bits [31:30] of the first word. -/
def lenOf (w : Word) : BitVec 2 := w.extractLsb' 30 2

/-- Words of an instruction, by LEN (R8). -/
def lenWords (l : BitVec 2) : Nat := if l = 0 then 1 else if l = 3 then 5 else 3

/-! ### Base words (R13, R14) -/

/-- OP6, bits [26:21]. -/
def op6Of (w : Word) : Nat := (w.extractLsb' 21 6).toNat

/-- The operands of a base word in the layout of its opcode; `none` where layout BZ has a bit set, or a literal stands
with a layout other than B3 (R14, R18). -/
def baseOpsOf (w : Word) (lit : Option Dword) : Option BaseOps :=
  let st := w.extractLsb' 27 3
  let op := op6Of w
  if op = 0x00 ∨ op = 0x35 ∨ op = 0x36 then
    if w.extractLsb' 0 21 = 0 ∧ lit = none then some (.bz ⟨st⟩) else none
  else if op = 0x31 then
    if lit = none then some (.bj ⟨st, w.extractLsb' 0 21⟩) else none
  else if op = 0x32 ∨ op = 0x33 ∨ op = 0x34 then
    if lit = none then some (.bb ⟨st, w.extractLsb' 14 7, w.extractLsb' 0 14⟩) else none
  else if (0x10 ≤ op ∧ op ≤ 0x14) ∨ (0x2D ≤ op ∧ op ≤ 0x30) then
    if lit = none then some (.bi ⟨st, w.extractLsb' 14 7, w.extractLsb' 7 7, w.extractLsb' 0 7⟩) else none
  else some (.b3 ⟨st, w.extractLsb' 14 7, w.extractLsb' 7 7, w.extractLsb' 0 7, lit⟩)

/-- A base word and its literal, as an instruction (R39, base form). -/
def decodeBase (w : Word) (lit : Option Dword) : Option Instr :=
  match baseOpsOf w lit with
  | none => none
  | some o => if baseOk (op6Of w) o then Instr.ofBase (op6Of w) o else none

/-! ### The extended form (R19 to R21) -/

/-- XOP, bits [26:17] of word 0. -/
def xopOf (w0 : Word) : Nat := (w0.extractLsb' 17 10).toNat

/-- The fields of the three words of an extended instruction and its literal. -/
def extOf (w0 w1 w2 : Word) (lit : Option Dword) : Ext :=
  { st := w0.extractLsb' 27 3
    d := w0.extractLsb' 7 10
    immb := w0.getLsbD 6
    flg := w0.extractLsb' 0 6
    a := w1.extractLsb' 22 10
    b := w1.extractLsb' 12 10
    c := w1.extractLsb' 2 10
    p := w2.extractLsb' 22 10
    pe := w2.getLsbD 21
    pn := w2.getLsbD 20
    bcm := w2.extractLsb' 18 2
    bcs := w2.extractLsb' 16 2
    bln := w2.extractLsb' 11 5
    ru := w2.getLsbD 10
    x10 := w2.extractLsb' 0 10
    lit := lit }

/-- An extended instruction (R39, extended form); word 1 bits [1:0] must be zero (R20). -/
noncomputable def decodeExt (w0 w1 w2 : Word) (lit : Option Dword) : Option Instr :=
  let x := extOf w0 w1 w2 lit
  if w1.extractLsb' 0 2 = 0 ∧ extOk (xopOf w0) x = true then Instr.ofX (xopOf w0) x else none

/-! ### Instructions -/

/-- The instruction whose words these are, given as many words as LEN asks for (R8). -/
noncomputable def decodeWords (ws : List Word) : Option Instr :=
  match ws with
  | [w0] => if lenOf w0 = 0 then decodeBase w0 none else none
  | [w0, w1, w2] =>
    if lenOf w0 = 1 then decodeExt w0 w1 w2 none
    else if lenOf w0 = 2 then decodeBase w0 (some (litOfWords w1 w2))
    else none
  | [w0, w1, w2, w3, w4] => if lenOf w0 = 3 then decodeExt w0 w1 w2 (some (litOfWords w3 w4)) else none
  | _ => none

/-- The words of a byte sequence, as many as `n` says, with the bytes after them. -/
def takeWords (n : Nat) (bs : List Byte) : Option (List Word × List Byte) :=
  match n with
  | 0 => some ([], bs)
  | n + 1 =>
    match takeWord bs with
    | none => none
    | some (w, r) =>
      match takeWords n r with
      | none => none
      | some (ws, r') => some (w :: ws, r')

/-- Decodes the instruction at the head of a byte sequence; `none` where the bytes are too few, or are no instruction
(R39, R40). -/
noncomputable def decode (bs : List Byte) : Option (Instr × List Byte) :=
  match takeWord bs with
  | none => none
  | some (w0, _) =>
    match takeWords (lenWords (lenOf w0)) bs with
    | none => none
    | some (ws, r) =>
      match decodeWords ws with
      | none => none
      | some i => some (i, r)

/-! ### Encoding -/

def Bool.bit (b : Bool) : BitVec 1 := BitVec.ofBool b

/-- The first word of a base instruction (R13, R14). -/
def encodeBase (op : Nat) (o : BaseOps) : List Word :=
  let o6 : BitVec 6 := BitVec.ofNat 6 op
  match o with
  | .bz o => [(0#2 ++ o.st ++ o6 ++ 0#21 : BitVec 32)]
  | .bj o => [(0#2 ++ o.st ++ o6 ++ o.off : BitVec 32)]
  | .bb o => [(0#2 ++ o.st ++ o6 ++ o.a ++ o.off : BitVec 32)]
  | .bi o => [(0#2 ++ o.st ++ o6 ++ o.d ++ o.a ++ o.imm : BitVec 32)]
  | .b3 o =>
    match o.lit with
    | none => [(0#2 ++ o.st ++ o6 ++ o.d ++ o.a ++ o.b : BitVec 32)]
    | some l => [(2#2 ++ o.st ++ o6 ++ o.d ++ o.a ++ o.b : BitVec 32), l.extractLsb' 0 32, l.extractLsb' 32 32]

/-- The words of an extended instruction (R19 to R21). -/
def encodeExt (n : Nat) (x : Ext) : List Word :=
  let xop : BitVec 10 := BitVec.ofNat 10 n
  let w1 : Word := x.a ++ x.b ++ x.c ++ 0#2
  let w2 : Word := x.p ++ Bool.bit x.pe ++ Bool.bit x.pn ++ x.bcm ++ x.bcs ++ x.bln ++ Bool.bit x.ru ++ x.x10
  match x.lit with
  | none => [(1#2 ++ x.st ++ xop ++ x.d ++ Bool.bit x.immb ++ x.flg : BitVec 32), w1, w2]
  | some l =>
    [(3#2 ++ x.st ++ xop ++ x.d ++ Bool.bit x.immb ++ x.flg : BitVec 32), w1, w2,
      l.extractLsb' 0 32, l.extractLsb' 32 32]

/-- The words of an instruction; an event has none. -/
def encode (i : Instr) : List Word :=
  match i.form with
  | .base op o => encodeBase op o
  | .ext n x => encodeExt n x
  | .event => []

/-- The bytes of an instruction in ascending addresses (R7). -/
def encodeBytes (i : Instr) : List Byte := (encode i).flatMap bytesOfWord

/-- The bytes of a number, low byte first. -/
def bytesOfNat (n w : Nat) : List Byte :=
  match n with
  | 0 => []
  | n + 1 => BitVec.ofNat 8 w :: bytesOfNat n (w >>> 8)

/-- The 20 bytes that the table's numbering of an instruction's bits names: bit 0 is the least significant bit of the
first word, later words follow, and bits at or above `nbits` are zero. -/
def tableBytes (nbits w : Nat) : List Byte := bytesOfNat 20 (w % 2 ^ nbits)

/-- The instruction that the decoder reads from a word of the opcode table. -/
noncomputable def decodeTableWord (nbits w : Nat) : Option Instr :=
  match decode (tableBytes nbits w) with
  | none => none
  | some (i, _) => some i

end Sys2Proof
end

