-- ==== Sys2Proof/Config.lean ====
section
/-! DEFINITION. What an implementation fixes and the manual leaves open: free values, with no body, so that nothing can
be proved of them. The log entry of each says what it stands for. -/

namespace Sys2Proof.Config

/-- DESIGN CHOICE, log 2. The choice among events that no rule orders (R141, R265, and the paragraphs that begin with Latitude). -/
opaque choice : Nat → Nat

/-- DESIGN CHOICE, log 5. The result of a function of R67 on an input for which the interval evaluation does not decide the
rounding. -/
opaque functionResult : Nat → BitVec 32 → BitVec 32

/-- DESIGN CHOICE, log 7. Opaque bytes of the save area (R387): latch blocks, engine entries, operand log entries. -/
opaque opaqueByte : Nat → BitVec 8

/-- DESIGN CHOICE, log 8. The SHAKE256 digest of start-up image k (R397), whose bytes are not given. -/
opaque imageDigest : Nat → BitVec 512

/-- DESIGN CHOICE, log 8. Byte i of the identity public key (R401). -/
opaque identityKeyByte : Nat → BitVec 8

/-- DESIGN CHOICE, log 8. Byte i of the signature made with an identity index over a report (R402). -/
opaque signatureByte : Nat → List (BitVec 8) → Nat → BitVec 8

/-- DESIGN CHOICE, log 6. Which of the values that a word of code has had since its grid was launched a fetch of it returns
(R12). -/
opaque fetchOld : Nat → Nat

/-- DESIGN CHOICE, log 60. Whether a skidding beam (by its number) stops in a cycle (R182). -/
opaque skidStop : Nat → Nat → Nat

/-- DESIGN CHOICE, log 10. Which of the quadrants' instructions of a cycle takes effect next, by the cycle and the number that have
issued in it (R182). -/
opaque issueOrder : Nat → Nat → Nat

/-- DESIGN CHOICE, log 63. The input port, of eight, by which a core's packets reach the queue of a home slice (R136). -/
opaque inPort : Nat → Nat → Nat

/-- DESIGN CHOICE, log 12. Which of the cores that fit a restored team takes it, by the cycle and the team (R106). -/
opaque restoreCore : Nat → Nat → Nat

/-- DESIGN CHOICE, log 9. Bits that a rule leaves open in a result, by a fresh index. -/
opaque freeWord : Nat → BitVec 32

/-- DESIGN CHOICE, log 11. Byte k of the source of member i of a collective, on another device, by a fresh index (R273). -/
opaque collByte : Nat → Nat → Nat → BitVec 8

/-- DESIGN CHOICE, log 11. Whether the other members of a collective disagree with this one, by a fresh index (R273). -/
opaque collMismatch : Nat → Bool

/-- DESIGN CHOICE, log 8. The failure codes that the start-up sequence finds after a RESET of the device, by a fresh index (R400). -/
opaque startCodes : Nat → List (BitVec 16)

/-- DESIGN CHOICE, log 80. Whether the packet of a request, by its identifier, waits at the gateway of another member at a fabric time
(R419). -/
opaque heldElsewhere : Nat → Nat → Bool

/-- DESIGN CHOICE, log 78. The cycles, less one, after which an event whose time is open and that presses comes (R118). -/
opaque patience : Nat

/-- DESIGN CHOICE, log 12. Whether two cores of a die are next to each other on its mesh (R105). -/
opaque meshAdjacent : Nat → Nat → Bool

end Sys2Proof.Config
end

