-- ==== Sys2Proof/Machine/Num.lean ====
section
/-! DEFINITION. Number formats and exact arithmetic (R62 to R80): every operation computes its exact real result, which
`pack` rounds once. -/

namespace Sys2Proof.Machine

/-! ### Formats and values -/

/-- An IEEE format (R62): exponent bits and fraction bits. -/
structure Fmt where
  eb : Nat
  mb : Nat
  deriving DecidableEq, Repr

def Fmt.fp32 : Fmt := ⟨8, 23⟩
def Fmt.fp16 : Fmt := ⟨5, 10⟩
def Fmt.bf16 : Fmt := ⟨8, 7⟩

/-- Exponent of the smallest normal value. -/
def Fmt.emin (f : Fmt) : Int := 2 - 2 ^ (f.eb - 1)

/-- The magnitude code of infinity. -/
def Fmt.infCode (f : Fmt) : Nat := (2 ^ f.eb - 1) * 2 ^ f.mb

/-- The bit of the sign. -/
def Fmt.signBit (f : Fmt) : Nat := 2 ^ (f.eb + f.mb)

/-- The canonical NaN (R62). -/
def Fmt.qnan (f : Fmt) : Nat := f.infCode + 2 ^ (f.mb - 1)

/-- Rounding modes (R24). -/
inductive RMode where
  | rne
  | rz
  | ru
  | rd
  deriving DecidableEq, Repr

/-- The mode of a code from 1 to 4 (R24, R66). -/
def RMode.ofCode (c : Nat) : RMode := if c = 2 then .rz else if c = 3 then .ru else if c = 4 then .rd else .rne

/-- Floating-point exceptions in the bits of `%fflags` (R64). -/
abbrev Flags := BitVec 5

def fNV : Flags := 16
def fDZ : Flags := 8
def fOF : Flags := 4
def fUF : Flags := 2
def fNX : Flags := 1

/-- An operand's value: NaN, infinity, or `m * 2 ^ e` with a sign. -/
inductive FVal where
  | nan
  | inf (neg : Bool)
  | fin (neg : Bool) (m : Nat) (e : Int)
  deriving DecidableEq, Repr

/-- An exact result: NaN (with NV or not), infinity (with DZ or not), or a number. `sticky` says that the true magnitude
lies strictly between `m * 2 ^ e` and `(m + 1) * 2 ^ e`; `m` then has more bits than any destination keeps. -/
inductive XRes where
  | nan (nv : Bool)
  | inf (neg dz : Bool)
  | fin (neg : Bool) (m : Nat) (e : Int) (sticky : Bool)
  deriving DecidableEq, Repr

/-- The value of a bit pattern (R62). -/
def FVal.of (f : Fmt) (bits : Nat) : FVal :=
  let neg := decide (bits / f.signBit % 2 = 1)
  let mag := bits % f.signBit
  let ex := mag / 2 ^ f.mb
  let fr := mag % 2 ^ f.mb
  if mag > f.infCode then .nan
  else if mag = f.infCode then .inf neg
  else if ex = 0 then .fin neg fr (f.emin - f.mb)
  else .fin neg (2 ^ f.mb + fr) (f.emin - f.mb + ex - 1)

/-- A NaN with a zero top fraction bit (R62). -/
def isSnan (f : Fmt) (bits : Nat) : Bool :=
  let mag := bits % f.signBit
  decide (mag > f.infCode) && decide (mag / 2 ^ (f.mb - 1) % 2 = 0)

/-- NV for a signalling NaN among the operands (R65). -/
def snanFlag (f : Fmt) (l : List Nat) : Flags := if l.any (isSnan f) then fNV else 0

/-! ### Rounding (R63, R65) -/

/-- Whether the remainder `r` of a division by `2 ^ sh` rounds the quotient `q` away from zero. -/
def roundsUp (rm : RMode) (neg : Bool) (q r sh : Nat) : Bool :=
  match rm with
  | .rne => decide (2 * r > 2 ^ sh) || (decide (2 * r = 2 ^ sh) && decide (q % 2 = 1))
  | .rz => false
  | .ru => !neg && decide (r ≠ 0)
  | .rd => neg && decide (r ≠ 0)

/-- `m` divided by `2 ^ sh` and rounded; a negative shift multiplies. The second part says whether it is inexact. -/
def roundShift (rm : RMode) (neg : Bool) (m : Nat) (sh : Int) : Nat × Bool :=
  if sh ≤ 0 then (m * 2 ^ (-sh).toNat, false)
  else
    let q := m / 2 ^ sh.toNat
    let r := m % 2 ^ sh.toNat
    (if roundsUp rm neg q r sh.toNat then q + 1 else q, decide (r ≠ 0))

/-- The sign bit of a result. -/
def withSign (f : Fmt) (neg : Bool) (mag : Nat) : Nat := if neg then mag + f.signBit else mag

/-- What an overflow delivers (R63). -/
def overflowCode (f : Fmt) (rm : RMode) (neg : Bool) : Nat :=
  match rm with
  | .rne => f.infCode
  | .rz => f.infCode - 1
  | .ru => if neg then f.infCode - 1 else f.infCode
  | .rd => if neg then f.infCode else f.infCode - 1

/-- round_fmt of R63 on a nonzero magnitude, with the flags of R65. -/
def roundFin (f : Fmt) (rm : RMode) (neg : Bool) (m : Nat) (e : Int) (sticky : Bool) : Nat × Flags :=
  let m4 := 4 * m + (if sticky then 1 else 0)
  let e4 := e - 2
  let ex : Int := e4 + Nat.log2 m4
  let top := max ex f.emin
  let r := roundShift rm neg m4 (top - f.mb - e4)
  let code := (top - f.emin).toNat * 2 ^ f.mb + r.1
  let tiny := decide (ex < f.emin) &&
    !(decide (ex + 1 = f.emin) && decide ((roundShift rm neg m4 (ex - f.mb - e4)).1 ≥ 2 ^ (f.mb + 1)))
  if code ≥ f.infCode then (withSign f neg (overflowCode f rm neg), fOF ||| fNX)
  else (withSign f neg code, (if r.2 then fNX else 0) ||| (if tiny && r.2 then fUF else 0))

/-- The delivered pattern and the exceptions of an exact result (R63, R65). -/
def pack (f : Fmt) (rm : RMode) (x : XRes) : Nat × Flags :=
  match x with
  | .nan nv => (f.qnan, if nv then fNV else 0)
  | .inf neg dz => (withSign f neg f.infCode, if dz then fDZ else 0)
  | .fin neg m e st => if m = 0 ∧ st = false then (withSign f neg 0, 0) else roundFin f rm neg m e st

/-! ### Exact arithmetic -/

/-- A signed number over a common exponent. -/
def signed (neg : Bool) (m : Nat) : Int := if neg then -(m : Int) else m

/-- The exact result of a signed multiple of `2 ^ e`; `zneg` is the sign of an exact zero. -/
def XRes.ofInt (v : Int) (e : Int) (zneg : Bool) : XRes := .fin (if v = 0 then zneg else decide (v < 0)) v.natAbs e false

/-- The value as an exact result. -/
def FVal.toX (v : FVal) : XRes :=
  match v with
  | .nan => .nan false
  | .inf n => .inf n false
  | .fin n m e => .fin n m e false

def FVal.neg (v : FVal) : FVal :=
  match v with
  | .nan => .nan
  | .inf n => .inf (!n)
  | .fin n m e => .fin (!n) m e

/-- Exact addition; the sign of an exact zero as R63 says. -/
def addX (rm : RMode) (a b : FVal) : XRes :=
  match a, b with
  | .nan, _ => .nan false
  | _, .nan => .nan false
  | .inf s, .inf t => if s = t then .inf s false else .nan true
  | .inf s, .fin _ _ _ => .inf s false
  | .fin _ _ _, .inf t => .inf t false
  | .fin s m e, .fin t n k =>
    let lo := min e k
    let v := signed s (m * 2 ^ (e - lo).toNat) + signed t (n * 2 ^ (k - lo).toNat)
    .ofInt v lo (if m = 0 ∧ n = 0 ∧ s = t then s else decide (rm = .rd))

/-- Exact multiplication as a value; `none` for infinity times zero. -/
def mulV (a b : FVal) : Option FVal :=
  match a, b with
  | .nan, _ => some .nan
  | _, .nan => some .nan
  | .inf s, .inf t => some (.inf (s != t))
  | .inf s, .fin t n _ => if n = 0 then none else some (.inf (s != t))
  | .fin s m _, .inf t => if m = 0 then none else some (.inf (s != t))
  | .fin s m e, .fin t n k => some (.fin (s != t) (m * n) (e + k))

/-- Exact multiplication. -/
def mulX (a b : FVal) : XRes :=
  match mulV a b with
  | none => .nan true
  | some v => v.toX

/-- Exact multiply-add: infinity times zero is invalid whatever the addend is. -/
def fmaX (rm : RMode) (a b c : FVal) : XRes :=
  match mulV a b with
  | none => .nan true
  | some p => addX rm p c

/-- A two-operand operation in one format, on bit patterns. -/
def fop2 (f : Fmt) (rm : RMode) (g : FVal → FVal → XRes) (a b : Nat) : Nat × Flags :=
  let r := pack f rm (g (.of f a) (.of f b))
  (r.1, r.2 ||| snanFlag f [a, b])

def faddBits (f : Fmt) (rm : RMode) (a b : Nat) : Nat × Flags := fop2 f rm (addX rm) a b

def fsubBits (f : Fmt) (rm : RMode) (a b : Nat) : Nat × Flags := fop2 f rm (fun u v => addX rm u v.neg) a b

def fmulBits (f : Fmt) (rm : RMode) (a b : Nat) : Nat × Flags := fop2 f rm mulX a b

/-- `a * b + c` rounded once. -/
def ffmaBits (f : Fmt) (rm : RMode) (a b c : Nat) : Nat × Flags :=
  let r := pack f rm (fmaX rm (.of f a) (.of f b) (.of f c))
  (r.1, r.2 ||| snanFlag f [a, b, c])

/-- `c - a * b` rounded once. -/
def ffnmaBits (f : Fmt) (rm : RMode) (a b c : Nat) : Nat × Flags :=
  let r := pack f rm (fmaX rm (FVal.of f a).neg (.of f b) (.of f c))
  (r.1, r.2 ||| snanFlag f [a, b, c])

/-! ### Comparison -/

/-- `a ≤ b` on numbers, zeros equal; false with a NaN. -/
def FVal.le (a b : FVal) : Bool :=
  match a, b with
  | .nan, _ => false
  | _, .nan => false
  | .inf true, _ => true
  | _, .inf false => true
  | .inf false, .inf true => false
  | .inf false, .fin _ _ _ => false
  | .fin _ _ _, .inf true => false
  | .fin s m e, .fin t n k =>
    let lo := min e k
    decide (signed s (m * 2 ^ (e - lo).toNat) ≤ signed t (n * 2 ^ (k - lo).toNat))

def FVal.isNan (a : FVal) : Bool := decide (a = .nan)

/-- Equality of numbers, zeros equal; false with a NaN. -/
def FVal.eq (a b : FVal) : Bool := a.le b && b.le a

/-- `a < b`; false with a NaN. -/
def FVal.lt (a b : FVal) : Bool := a.le b && !b.le a

def FVal.isNeg (a : FVal) : Bool :=
  match a with
  | .nan => false
  | .inf s => s
  | .fin s _ _ => s

/-! ### Conversion to integers (R77) -/

/-- Rounds `m * 2 ^ e` to an integer. -/
def roundToInt (rm : RMode) (neg : Bool) (m : Nat) (e : Int) : Int × Bool :=
  let r := roundShift rm neg m (-e)
  (signed neg r.1, r.2)

/-- A value as an integer in `lo .. hi`, saturated; NaN gives 0 (R77). -/
def toIntSat (rm : RMode) (lo hi : Int) (v : FVal) : Int × Flags :=
  match v with
  | .nan => (0, fNV)
  | .inf s => (if s then lo else hi, fNV)
  | .fin s m e =>
    let r := roundToInt rm s m e
    if r.1 < lo then (lo, fNV) else if r.1 > hi then (hi, fNV) else (r.1, if r.2 then fNX else 0)

/-- An integer as an exact result. -/
def intX (v : Int) : XRes := .ofInt v 0 false

/-! ### Correctly rounded functions (R67) -/

/-- `1 / x` for a finite nonzero x. -/
def rcpFin (neg : Bool) (m : Nat) (e : Int) : XRes :=
  let q := 2 ^ 80 / m
  .fin neg q (-80 - e) (decide (q * m ≠ 2 ^ 80))

/-- `√(m * 2 ^ e)`. -/
def sqrtFin (m : Nat) (e : Int) : XRes :=
  let odd := e % 2
  let m' := m * 2 ^ odd.toNat * 2 ^ 120
  let s := Nat.sqrt m'
  .fin false s ((e - odd - 120) / 2) (decide (s * s ≠ m'))

/-- `1 / √(m * 2 ^ e)` for a nonzero m. -/
def rsqFin (m : Nat) (e : Int) : XRes :=
  let odd := e % 2
  let m' := m * 2 ^ odd.toNat
  let s := Nat.sqrt (2 ^ 160 / m')
  .fin false s (-80 - (e - odd) / 2) (decide (s * s * m' ≠ 2 ^ 160))

/-- Fixed point of the interval evaluation: units of `2 ^ -256`. -/
def fixOne : Nat := 2 ^ 256

/-- A closed interval of fixed-point numbers. -/
structure Ivl where
  lo : Nat
  hi : Nat
  deriving DecidableEq, Repr

def Ivl.mul (a b : Ivl) : Ivl := ⟨a.lo * b.lo / fixOne, a.hi * b.hi / fixOne + 1⟩

def Ivl.divNat (a : Ivl) (n : Nat) : Ivl := ⟨a.lo / n, a.hi / n + 1⟩

def Ivl.add (a b : Ivl) : Ivl := ⟨a.lo + b.lo, a.hi + b.hi⟩

/-- Quotient of positive intervals. -/
def Ivl.div (a b : Ivl) : Ivl := ⟨a.lo * fixOne / b.hi, a.hi * fixOne / b.lo + 1⟩

/-- The exponential series of r in [0, 1]: `n` terms from `term`, then a bound of the tail. -/
def expSeries (r : Ivl) (n k : Nat) (term acc : Ivl) : Ivl :=
  match n with
  | 0 => ⟨acc.lo, acc.hi + 2 * term.hi + 1⟩
  | n + 1 => expSeries r n (k + 1) ((term.mul r).divNat (k + 1)) (acc.add term)

/-- The exponential of r in [0, 1]. -/
def expIvl (r : Ivl) : Ivl := expSeries r 72 0 ⟨fixOne, fixOne⟩ ⟨0, 0⟩

/-- The series of artanh z for z in [0, 1/2]: `n` terms of `z ^ (2k+1) / (2k+1)`. -/
def atanhSeries (z2 : Ivl) (n k : Nat) (pow acc : Ivl) : Ivl :=
  match n with
  | 0 => ⟨acc.lo, acc.hi + 2 * pow.hi + 1⟩
  | n + 1 => atanhSeries z2 n (k + 1) (pow.mul z2) (acc.add (pow.divNat (2 * k + 1)))

def atanhIvl (z : Ivl) : Ivl := atanhSeries (z.mul z) 132 0 z ⟨0, 0⟩

/-- The natural logarithm of 2, as twice artanh (1/3). -/
def ln2Ivl : Ivl := let a := atanhIvl ⟨fixOne / 3, fixOne / 3 + 1⟩; a.add a

/-- Squares an interval `n` times. -/
def Ivl.squares (a : Ivl) (n : Nat) : Ivl :=
  match n with
  | 0 => a
  | n + 1 => Ivl.squares (a.mul a) n

/-- The rounding of an interval of magnitudes in units of `2 ^ e`: the common rounding of its ends taken as inexact, or
none where the ends round apart. -/
def packIvl (rm : RMode) (neg : Bool) (v : Ivl) (e : Int) : Option (Nat × Flags) :=
  let a := pack .fp32 rm (.fin neg v.lo e true)
  let b := pack .fp32 rm (.fin neg v.hi e true)
  if a = b then some a else none

/-- `2 ^ x` for a finite x = (-1)^neg * m * 2^e that is no integer (R67). -/
def exp2Fin (rm : RMode) (neg : Bool) (m : Nat) (e : Int) : Option (Nat × Flags) :=
  if e + Nat.log2 m < -60 then
    some (pack .fp32 rm (.fin false (if neg then 2 ^ 50 - 1 else 2 ^ 50) (-50) true))
  else if e + Nat.log2 m > 10 then
    some (pack .fp32 rm (.fin false (2 ^ 50) (if neg then -2000 else 2000) true))
  else
    let v := signed neg (m * 2 ^ (e + 200).toNat)
    let n := v / 2 ^ 200
    let f := (v % 2 ^ 200).toNat * 2 ^ 56
    packIvl rm false (expIvl (Ivl.mul ⟨f, f⟩ ln2Ivl)) (n - 256)

/-- `log2 x` for x = m * 2^e > 0 that is no power of two (R67). -/
def log2Fin (rm : RMode) (m : Nat) (e : Int) : Option (Nat × Flags) :=
  let k := Nat.log2 m
  let y := m * 2 ^ (256 - k)
  let ex : Int := e + k
  -- y in (1, 2); above 3/2 use y/2 and the next exponent, so that the logarithm's sign is that of the whole
  let big := decide (2 * y > 3 * fixOne)
  let ex' := if big then ex + 1 else ex
  let z : Ivl :=
    if big then ⟨(2 * fixOne - y) * fixOne / (2 * fixOne + y), (2 * fixOne - y) * fixOne / (2 * fixOne + y) + 1⟩
    else ⟨(y - fixOne) * fixOne / (y + fixOne), (y - fixOne) * fixOne / (y + fixOne) + 1⟩
  let a := atanhIvl z
  let l := (a.add a).div ln2Ivl
  let base := ex' * fixOne
  let lo : Int := if big then base - l.hi else base + l.lo
  let hi : Int := if big then base - l.lo else base + l.hi
  if lo > 0 then packIvl rm false ⟨lo.toNat, hi.toNat⟩ (-256)
  else if hi < 0 then packIvl rm true ⟨(-hi).toNat, (-lo).toNat⟩ (-256)
  else none

/-- `tanh x` for a finite nonzero x (R67). -/
def tanhFin (rm : RMode) (neg : Bool) (m : Nat) (e : Int) : Option (Nat × Flags) :=
  if e + Nat.log2 m < -60 then some (pack .fp32 rm (.fin neg (m * 2 ^ 50 - 1) (e - 50) true))
  else if e + Nat.log2 m ≥ 5 then some (pack .fp32 rm (.fin neg (2 ^ 50 - 1) (-50) true))
  else
    -- e^(2|x|) as the 64th power of e^(|x| / 32)
    let x := m * 2 ^ (e + 251).toNat
    let w := Ivl.squares (expIvl ⟨x, x⟩) 6
    packIvl rm neg (Ivl.div ⟨w.lo - fixOne, w.hi - fixOne⟩ ⟨w.lo + fixOne, w.hi + fixOne⟩) (-256)

/-- Whether `m * 2 ^ e` is an integer. -/
def isInteger (m : Nat) (e : Int) : Bool := decide (e ≥ 0) || decide (m % 2 ^ (-e).toNat = 0)

/-- The functions of R67, numbered 0 to 5 in the order of its table. -/
def fnBits (fn : Nat) (rm : RMode) (a : Word) : Nat × Flags :=
  let x := FVal.of .fp32 a.toNat
  let fall (r : Option (Nat × Flags)) : Nat × Flags :=
    match r with
    | some p => p
    | none => ((Config.functionResult (8 * fn + (if rm = .rne then 0 else if rm = .rz then 1 else if rm = .ru then 2
        else 3)) a).toNat, fNX)
  let p := pack .fp32 rm
  let r : Nat × Flags :=
    match x with
    | .nan => p (.nan false)
    | .inf s =>
      match fn with
      | 0 => p (.fin s 0 0 false)
      | 1 => if s then p (.nan true) else p (.fin false 0 0 false)
      | 2 => if s then p (.nan true) else p (.inf false false)
      | 3 => if s then p (.fin false 0 0 false) else p (.inf false false)
      | 4 => if s then p (.nan true) else p (.inf false false)
      | _ => p (.fin s 1 0 false)
    | .fin s m e =>
      if m = 0 then
        match fn with
        | 0 => p (.inf s true)
        | 1 => p (.inf s true)
        | 2 => p (.fin s 0 0 false)
        | 3 => p (.fin false 1 0 false)
        | 4 => p (.inf true true)
        | _ => p (.fin s 0 0 false)
      else
        match fn with
        | 0 => p (rcpFin s m e)
        | 1 => if s then p (.nan true) else p (rsqFin m e)
        | 2 => if s then p (.nan true) else p (sqrtFin m e)
        | 3 =>
          if isInteger m e && decide (e + Nat.log2 m ≤ 10) then
            p (.fin false 1 (signed s (m * 2 ^ e.toNat / 2 ^ (-e).toNat)) false)
          else fall (exp2Fin rm s m e)
        | 4 =>
          if s then p (.nan true)
          else if m = 2 ^ Nat.log2 m then p (intX (e + Nat.log2 m))
          else fall (log2Fin rm m e)
        | _ => fall (tanhFin rm s m e)
  (r.1, r.2 ||| snanFlag .fp32 [a.toNat])

/-! ### Tapered formats (R68, R69) -/

/-- Length of the run of bits of `m` equal to bit `w - 1`, from there downward. -/
def tapRun (m : Nat) (top : Bool) (w : Nat) : Nat :=
  match w with
  | 0 => 0
  | w + 1 => if m.testBit w = top then tapRun m top w + 1 else 0

/-- The decoder of R68 on a magnitude of `w` bits: exponent `2k + e`, fraction and its count of bits. -/
def tapMag (w m : Nat) : Int × Nat × Nat :=
  let top := m.testBit (w - 1)
  let n := tapRun m top w
  let k : Int := if top then (n : Int) - 1 else -(n : Int)
  let left := w - n - 1
  let rest := m % 2 ^ left
  if left = 0 then (2 * k, 0, 0)
  else (2 * k + rest / 2 ^ (left - 1), rest % 2 ^ (left - 1), left - 1)

/-- decode_tap of R68; NaR is NaN. -/
def decodeTap (w bits : Nat) : FVal :=
  let neg := bits.testBit w
  let m := bits % 2 ^ w
  if m = 0 then (if neg then .nan else .fin false 0 0)
  else
    let d := tapMag w m
    .fin neg (2 ^ d.2.2 + d.2.1) (d.1 - d.2.2)

/-- A magnitude's value in units of `2 ^ -20`. -/
def tapUnits (w m : Nat) : Nat :=
  if m = 0 then 0 else let d := tapMag w m; (2 ^ d.2.2 + d.2.1) * 2 ^ (d.1 - d.2.2 + 20).toNat

/-- The greatest magnitude up to `n` whose value is at most `a` units of `2 ^ (-20 - k)`. -/
def tapFloor (w a k n : Nat) : Nat :=
  match n with
  | 0 => 0
  | n + 1 => if tapUnits w (n + 1) * 2 ^ k ≤ a then n + 1 else tapFloor w a k n

/-- encode_tap of R69, `w` = 7 for T8 and 5 for T6. -/
def encodeTap (w : Nat) (v : FVal) : Nat × Flags :=
  let sgn (neg : Bool) (m : Nat) : Nat := if neg then m + 2 ^ w else m
  let top := 2 ^ w - 1
  match v with
  | .nan => (2 ^ w, fNV)
  | .inf s => (sgn s top, fOF ||| fNX)
  | .fin s m e =>
    let k := (-(e + 20)).toNat
    let a := m * 2 ^ (e + 20).toNat
    if a > tapUnits w top * 2 ^ k then (sgn s top, fOF ||| fNX)
    else if m = 0 then (0, 0)
    else
      let lo := tapFloor w a k top
      if tapUnits w lo * 2 ^ k = a then (sgn s lo, 0)
      else
        let mid := (tapUnits w lo + tapUnits w (lo + 1)) * 2 ^ k
        let pick := if 2 * a < mid then lo else if 2 * a > mid then lo + 1 else if lo % 2 = 0 then lo else lo + 1
        if pick = 0 then (0, fUF ||| fNX) else (sgn s pick, fNX)

/-! ### Block scales and the matrix sum (R70 to R72) -/

/-- s8 of R70: `none` masks the block. -/
def s8 (b : Byte) : Option Int := if b = 0x80 then none else some b.toInt

/-- An element of matrix format code `fmt` (0 T8, 1 T6, 2 FP16, 3 BF16). -/
def decodeElem (fmt bits : Nat) : FVal :=
  if fmt = 0 then decodeTap 7 bits
  else if fmt = 1 then decodeTap 5 bits
  else if fmt = 2 then .of .fp16 bits
  else .of .bf16 bits

/-- The exact sum of the products of a chunk: NaN, an infinity, or a signed multiple of a power of two. An infinity of
each sign is NaN (R72). -/
def chunkAdd (acc p : FVal) : FVal :=
  match acc, p with
  | .nan, _ => .nan
  | _, .nan => .nan
  | .inf s, .inf t => if s = t then .inf s else .nan
  | .inf s, .fin _ _ _ => .inf s
  | .fin _ _ _, .inf t => .inf t
  | .fin s m e, .fin t n k =>
    let lo := min e k
    let v := signed s (m * 2 ^ (e - lo).toNat) + signed t (n * 2 ^ (k - lo).toNat)
    .fin (decide (v < 0)) v.natAbs lo

/-- One product of R72, with its scale exponent. -/
def chunkProduct (a b : FVal) (sc : Int) : FVal :=
  match mulV a b with
  | none => .nan
  | some (.fin s m e) => .fin s m (e + sc)
  | some v => v

/-- rne_f32 (acc + sum) of R72. -/
def accAdd (acc : Word) (sum : FVal) : Word :=
  BitVec.ofNat 32 (pack .fp32 .rne (addX .rne (.of .fp32 acc.toNat) sum)).1

/-- The exact sum of a chunk's products. -/
def chunkSum (ps : List FVal) : FVal := ps.foldl chunkAdd (.fin false 0 0)

/-! ### Collectives, telemetry, generator (R75, R78 to R80) -/

/-- One addition of R75 and R76: FP32, RNE. -/
def addRne (a b : Word) : Word := BitVec.ofNat 32 (faddBits .fp32 .rne a.toNat b.toNat).1

/-- One multiply-add step of the telemetry reference (R79). -/
def refStep (acc : Word) (p : FVal) : Word := accAdd acc p

/-- Deviation in units in the last place of the reference (R80). Opposite infinities, and a NaN against an infinity, which R80 does not
name, deviate by 0xFFFFFFFF (DESIGN CHOICE, log 65). -/
def deviation (dev ref : Word) : Nat :=
  match FVal.of .fp32 dev.toNat, FVal.of .fp32 ref.toNat with
  | .nan, .nan => 0
  | .inf s, .inf t => if s = t then 0 else 0xFFFFFFFF
  | .fin s m e, .fin t n k =>
    let ex : Int := if n = 0 then -149 else max (k + Nat.log2 n) (-126) - 23
    let lo := min (min e k) ex
    let d := (signed s (m * 2 ^ (e - lo).toNat) - signed t (n * 2 ^ (k - lo).toNat)).natAbs
    min (d / 2 ^ (ex - lo).toNat) 0xFFFFFFFF
  | _, _ => 0xFFFFFFFF

/-- One round of R78 on (x, k). -/
def rngRound (xk : Word × Word) : Word × Word :=
  let x := xk.1 + xk.2
  let x := x ^^^ (x >>> 16)
  let x := x * 0x4F1BB5C7
  let x := x ^^^ (x >>> 15)
  (x, xk.2 + 0x7C159A3B)

/-- rng of R78. -/
def rng (k x : Word) : Word := (rngRound (rngRound (rngRound (x, k)))).1

end Sys2Proof.Machine
end

