-- ==== Sys2Proof/Machine/Sparse.lean ====
section
/-! DEFINITION. Sparse storage: lists of (key, value) pairs in one canonical form, keys strictly rising and no entry
equal to the default. Memory, register files, scratchpad and tables are all held so. -/

namespace Sys2Proof.Machine

/-- The value at key `k`; the default where no entry names it. -/
def sget {α : Type} (dflt : α) (m : List (Nat × α)) (k : Nat) : α :=
  match m with
  | [] => dflt
  | e :: r => if e.1 = k then e.2 else sget dflt r k

/-- Removes every entry of key `k`. -/
def serase {α : Type} (m : List (Nat × α)) (k : Nat) : List (Nat × α) :=
  match m with
  | [] => []
  | e :: r => if e.1 = k then serase r k else e :: serase r k

/-- Puts an entry at its place. -/
def sput {α : Type} (m : List (Nat × α)) (k : Nat) (v : α) : List (Nat × α) :=
  match m with
  | [] => [(k, v)]
  | e :: r => if k < e.1 then (k, v) :: e :: r else if e.1 = k then (k, v) :: r else e :: sput r k v

/-- Writes `v` at key `k`; writing the default removes the entry. -/
def sset {α : Type} [DecidableEq α] (dflt : α) (m : List (Nat × α)) (k : Nat) (v : α) : List (Nat × α) :=
  if v = dflt then serase m k else sput m k v

/-- Writes a list of (key, value) pairs, in order. -/
def ssetAll {α : Type} [DecidableEq α] (dflt : α) (m : List (Nat × α)) (l : List (Nat × α)) : List (Nat × α) :=
  l.foldl (fun m e => sset dflt m e.1 e.2) m

/-- The canonical form. -/
def swf {α : Type} [DecidableEq α] (dflt : α) (m : List (Nat × α)) : Bool :=
  match m with
  | [] => true
  | e :: r => decide (e.2 ≠ dflt) && (match r with | [] => true | e' :: _ => decide (e.1 < e'.1)) && swf dflt r

/-! ### Tables of objects by identifier -/

/-- The object of identifier `k`, if there is one. -/
def aget {α : Type} (m : List (Nat × α)) (k : Nat) : Option α :=
  match m with
  | [] => none
  | e :: r => if e.1 = k then some e.2 else aget r k

/-- Replaces the object of identifier `k`, or adds it at the end. -/
def aset {α : Type} (m : List (Nat × α)) (k : Nat) (v : α) : List (Nat × α) :=
  match m with
  | [] => [(k, v)]
  | e :: r => if e.1 = k then (k, v) :: r else e :: aset r k v

/-- Removes the object of identifier `k`. -/
def adel {α : Type} (m : List (Nat × α)) (k : Nat) : List (Nat × α) := serase m k

/-! ### Memory -/

/-- Bytes by address. -/
abbrev Memory := List (Nat × BitVec 8)

/-- What an unlisted address reads as (DESIGN CHOICE, log 3). -/
def memDefault : BitVec 8 := 0

/-- One byte. -/
def Memory.read (m : Memory) (a : Nat) : BitVec 8 := sget memDefault m a

/-- Stores one byte. -/
def Memory.write (m : Memory) (a : Nat) (v : BitVec 8) : Memory := sset memDefault m a v

/-- The canonical form of a memory. -/
def Memory.wf (m : Memory) : Bool := swf memDefault m

/-- `n` bytes from address `a`, as a little-endian number (R4). -/
def Memory.readNat (m : Memory) (a n : Nat) : Nat :=
  match n with
  | 0 => 0
  | n + 1 => (m.read a).toNat + 256 * Memory.readNat m (a + 1) n

/-- Stores the `n` low bytes of `v` from address `a`, little-endian (R4). -/
def Memory.writeNat (m : Memory) (a n v : Nat) : Memory :=
  match n with
  | 0 => m
  | n + 1 => Memory.writeNat (m.write a (BitVec.ofNat 8 v)) (a + 1) n (v / 256)

/-- `n` bytes from address `a`. -/
def Memory.readBytes (m : Memory) (a n : Nat) : List (BitVec 8) := (List.range n).map fun i => m.read (a + i)

/-- Stores a list of bytes from address `a`. -/
def Memory.writeBytes (m : Memory) (a : Nat) (bs : List (BitVec 8)) : Memory :=
  match bs with
  | [] => m
  | b :: r => Memory.writeBytes (m.write a b) (a + 1) r

end Sys2Proof.Machine
end

