-- ==== Sys2Proof/Machine/State.lean ====
section
/-! DEFINITION. The state of one Horferin-8 package as plain data, the reasons a step can stop, and the state right after
reset. INVENTORY.md lists each piece with the rule that names it. -/

namespace Sys2Proof.Machine

/-- The model's one fault. -/
inductive Fault where
  /-- A beam instruction was executed with no beam selected, or with a selection that names no beam of a resident team.
  Raised by every instruction's meaning through `Issue.start`; `step` always selects a beam first. Safe: the model stops
  where no hardware situation corresponds. -/
  | noBeam
  deriving DecidableEq, Repr

/-- The reasons an instruction has no meaning. -/
inductive Refusal where
  /-- An instruction that the model does not cover yet, by its mnemonic. Safe. -/
  | notModelled (mnemonic : String)
  deriving DecidableEq, Repr

/-- A beam: the identifier of its team and its number in the team (R96). -/
structure Ref where
  t : Nat
  b : Nat
  deriving DecidableEq, Repr

/-! ### Pages and translation (R120, R366) -/

/-- Page kinds (R120). -/
inductive PKind where
  | hbm
  | cxl
  | host
  | peer
  | multicast
  deriving DecidableEq, Repr

/-- A valid leaf (R366), with the level it was found at (R365). -/
structure Leaf where
  tenant : BitVec 16
  frame  : BitVec 32
  kind   : PKind
  w      : Bool
  x      : Bool
  rd     : Bool
  pin    : Bool
  aux    : Nat
  level  : Nat
  deriving DecidableEq, Repr

/-- Where a cached translation lies (R124, R369). -/
inductive TlbAt where
  | lane (r : Ref) (l : Nat)
  | core (c : Nat)
  | die (d : Nat)
  deriving DecidableEq, Repr

/-- A cached valid leaf, tagged with function and generation (R369). `page` is the virtual address shifted right by the
page's offset bits. -/
structure TlbEntry where
  place : TlbAt
  func  : Nat
  gen   : BitVec 16
  page  : Nat
  leaf  : Leaf
  deriving DecidableEq, Repr

/-! ### Effects that have not landed yet -/

/-- A pending fixed-latency effect (R83, R86, R178, R201): registers by key 32 * register + lane, flags to OR, or a
special register to write. `names` are the destinations whatever the masks held (R86); the effects that are no register result
of a fixed latency (`SWR`, the lanes of a division) have none. -/
structure Fix where
  ready : Nat
  regs  : List (Nat × Word)
  names : List Nat
  flags : BitVec 5
  sreg  : Option (Nat × List (Nat × Word))
  deriving DecidableEq, Repr

/-- A scoreboarded result (R84): pending registers, values received and not yet written, parts still outstanding, the
cycle from which it may be written; `exact` where a rule gives that cycle as the one in which it is written; `after` the
acknowledgements that its route delivers first (R135). -/
structure Pend where
  id    : Nat
  ready : Nat
  names : List Nat
  vals  : List (Nat × Word)
  wait  : Nat
  exact : Bool
  after : List Nat
  deriving DecidableEq, Repr

/-! ### Packets (R225, R135, R137) -/

/-- Operations that a packet carries (R225). A collimated store's group is not known while all its lanes are in the operand log. -/
inductive POp where
  | load
  | store
  | atom (op : Nat)
  | red (op : Nat)
  | mcst (group : Option Nat)
  | prefetch
  | watch
  deriving DecidableEq, Repr

/-- One lane's element in a packet: virtual and physical address, size in bytes, operand, compare value, first destination register
and whether the loaded value is sign-extended. -/
structure Elem where
  lane : Nat
  va   : Nat
  pa   : Nat
  size : Nat
  val  : Nat
  cmp  : Nat
  reg  : Nat
  sx   : Bool
  deriving DecidableEq, Repr

/-- A request packet in flight. `target` is the fabric id of a peer, or none for this device. `after` marks a release: every earlier access
of the beam comes before it (R143); `acq` an acquire (R144), at scope `scope`. `behind` are the packets to which it lost an arbitration at
its home slice (R136). `sentAt` is the issue cycle of its instruction, which gives its place in program order. `pc` is the address of its
instruction; `job` the job that sent it, if one did. -/
structure Packet where
  id      : Nat
  src     : Ref
  core    : Nat
  func    : Nat
  tenant  : BitVec 16
  gen     : BitVec 16
  part    : Nat
  kind    : PKind
  target  : Option Nat
  op      : POp
  elems   : List Elem
  pend    : Option Nat
  after   : Option Nat
  acq     : Bool
  scope   : Nat
  ro      : Bool
  mgmt    : Bool
  age     : Nat
  behind  : List Nat
  slack   : Nat
  pri     : Nat
  sentAt  : Nat
  pc      : Dword
  job     : Option Nat
  deriving DecidableEq, Repr

/-- An acknowledgement on its way to the beam that issued the packet (R147, R148): the device and slice that it comes from, the
core that it goes to, the slack tag of its request (R137). -/
structure Ack where
  id     : Nat
  src    : Ref
  sentAt : Nat
  place  : Option Nat × Nat
  core   : Nat
  slack  : Nat
  deriving DecidableEq, Repr

/-- Who waits on a watch (R241, R346). -/
inductive Watcher where
  | beam (r : Ref) (pend : Nat)
  | node (replay n : Nat)
  deriving DecidableEq, Repr

/-- A watch held at a home slice (R241). `hit` is set by the next write applied to the line. `va` is its virtual address, `func` and
`gen` the function and generation of its translation (R371), which a shootdown in progress has removed where `cut` is set (R370). -/
structure Watch where
  who  : Watcher
  kind : PKind
  pa   : Nat
  size : Nat
  hit  : Bool
  va   : Nat
  func : Nat
  gen  : BitVec 16
  cut  : Bool
  deriving DecidableEq, Repr

/-! ### Jobs (R265, R267, R273, R314) -/

/-- What a job does. A copy, a gather and a stage move the segments of `segs`; a collective reads its source and then
writes its result (R273, R315). -/
inductive JKind where
  | copy
  | gather
  | coll (op n me : Nat) (ring : List Nat) (tag : Nat)
  | stage (v waitf : Bool) (n p0 layer : Nat)
  deriving DecidableEq, Repr

/-- One contiguous move: source and destination addresses (of a queue slot: offsets from its start) and length. -/
structure JSeg where
  src : Nat
  dst : Nat
  len : Nat
  deriving DecidableEq, Repr

/-- A job that has not completed. `segs` are the moves still to be made, the first in progress: `buf` holds its source bytes read so far and
`put` counts its bytes written; `cache` holds the lines read of which more is needed, by virtual line for a gather and by physical line for
a stage (R153, R295). `moved` counts bytes written in all; `busy` is a read from another device or a translation fault that it waits for,
`out` the writes to other devices that are not acknowledged (R265); `after` the release that it waits for, by the issue cycle and the cycle
of the last scratchpad access before it (R143, R152); `addedAt` is the cycle in which it came into the job table (R271); `got` says that the
collective's other members have arrived. -/
structure Job where
  id     : Nat
  die    : Nat
  core   : Nat
  team   : Option Nat
  beam   : Nat
  node   : Option (Nat × Nat)
  handle : Nat
  func   : Nat
  part   : Nat
  tenant : BitVec 16
  kind   : JKind
  len    : Nat
  from_  : Nat
  dst    : Nat
  fps    : List Dword
  queue  : Option Nat
  slot   : Option Nat
  segs   : List JSeg
  buf    : List Byte
  cache  : List (Nat × List Byte)
  put    : Nat
  moved  : Nat
  busy   : Option Nat
  out    : List Nat
  after  : Option (Nat × Nat)
  addedAt : Nat
  got    : Bool
  status : Nat
  deriving DecidableEq, Repr

/-! ### Beams -/

/-- Wait states (R109, R171). -/
inductive Status where
  | ready
  | yielded (limit : Nat) (sibs : List Ref)
  | bar
  | named (bar : Nat) (tok : Word)
  | jwait (h : Nat)
  | jsleep (h : Nat) (cont : Dword)
  | watch (pend : Nat) (mask : Word) (limit : Option Nat) (d size : Nat)
  | xchg (tag : Nat) (mask : BitVec 32) (vals : List (Nat × Word)) (d : Nat) (pend : Nat)
  | qacq (q d pend : Nat)
  | qwait (q d pend : Nat)
  | kvpub (ctx layer first count seq : Nat) (tenant : BitVec 16)
  | kvwait (ctx layer target d pend : Nat) (tenant : BitVec 16)
  | pacap (d pend : Nat)
  | board (ch q layer tile count d pend : Nat)
  | mwait (ids : List Nat)
  | region
  | fault (id : Nat)
  | upgrade
  | retired
  deriving DecidableEq, Repr

/-- What a trap in the team has done to a beam (R182, R381). -/
inductive Halt where
  | run
  | skidding (left since : Nat)
  | stopped
  deriving DecidableEq, Repr

/-- A microprogram call in progress (R92, R93): entry, current body word, number of
body words, parameters p0 to p7, address after the call. -/
structure CallCtx where
  entry  : Nat
  word   : Nat
  last   : Nat
  params : List Nat
  next   : Dword
  deriving DecidableEq, Repr

/-- A context descriptor (R294). -/
structure KDesc where
  btb    : Nat
  fra    : Nat
  log2b  : Nat
  fmt    : Nat
  layers : Nat
  heads  : Nat
  dim    : Nat
  nblk   : Nat
  pos    : Nat
  cmt    : Nat
  hwm    : Nat
  vgen   : BitVec 12
  spois  : Bool
  dead   : Bool
  tenant : BitVec 16
  deriving DecidableEq, Repr

/-- What one lane of a `KVW`, `KVR` or `KVRT` asks for (R303, R304): the context's virtual address, the lane's tenant, position,
element and layer, the operand's top bits and node, the unit to write and its width, keys or values; and the descriptor reading with
its physical address, once it has been made (R295). -/
structure KvArg where
  lane   : Nat
  ctx    : Nat
  tenant : BitVec 16
  pos    : Nat
  el     : Nat
  layer  : Nat
  high   : Nat
  node   : Nat
  unit   : Nat
  v      : Bool
  width  : Nat
  desc   : Option (Nat × KDesc)
  deriving DecidableEq, Repr

/-- One lane of a key-value instruction that has passed its checks: what it asks for, the descriptor reading and its physical
address, whether the position has a slot, the physical addresses of the tag word and of the unit's elements with the kinds of their
pages, the generation of the tenant under which they were translated (R371); what its checks read: the physical addresses of descriptor
and block table entry, and the virtual addresses that it translated, in order (R124). -/
structure KvLane where
  arg   : KvArg
  d     : KDesc
  desc  : Nat
  there : Bool
  tag   : Nat
  tagk  : PKind
  els   : List (Nat × PKind)
  gen   : BitVec 16
  vas   : List Nat
  deriving DecidableEq, Repr

/-- Long instructions (R90, R192, R226, R273, R305, R325): what the remaining sub-steps do, with every operand latched. An access of more
than eight packets, or a `KVW` or `KVR`, holds its groups or lanes and, where a trap stopped it, those that had faulted. A `KVR` holds the
contexts that the lanes of the beam name (R317). A `REGION` holds its base, the sub-step at which the instruction was issued (its earlier
ones are never performed), the one from which it runs now, and the cycle in which it started, none while a write is pending (R90). A `PALD`
holds the cycle in which its sub-step began, none while it waits for its port (R325). A `GATJ` holds its job with the rows read so far, its
index list and its result. -/
inductive Long where
  | div (op d : Nat) (a b : List Word) (mask : BitVec 32) (pend step : Nat)
  | coal (inst : Nat) (groups : List (List Packet)) (rest : List Elem) (step : Nat)
  | kvw (inst : Nat) (lanes : List KvLane) (rest : List KvArg) (step : Nat)
  | kvr (lanes : List KvLane) (rest : List KvArg) (named : List (Nat × Nat)) (d pend step : Nat)
  | region (vbase first step : Nat) (start : Option Nat)
  | pald (base step : Nat) (start : Option Nat)
  | gatj (job : Job) (idx rowb entries d pend step : Nat)
  deriving DecidableEq, Repr

/-- The per-lane key-value instructions. -/
inductive KvKind where
  | write
  | read
  | tag
  deriving DecidableEq, Repr

/-- The lanes of a key-value instruction that met a translation fault (R372), its first result register, the contexts that the
beam's lanes name (R317), and the 64 KiB pages that each lane accesses; none of a lane whose block is not known yet. -/
structure KvFault where
  kind  : KvKind
  d     : Nat
  args  : List KvArg
  named : List (Nat × Nat)
  pages : List (Nat × Option (List Nat))
  deriving DecidableEq, Repr

/-- A translation fault and the operand log entry behind it (R372, R373). `packet` holds the faulted lanes of one page of
one instruction (`inst`); their `pa` fields hold virtual addresses until replay; `kv` the lanes of a key-value instruction. With
`retry` it has no lanes: a fetch, or
an instruction of which nothing was performed; its beam waits and issues it again. `upgrade` says that it waits for an upgrade of its
page, `stalls` that its beam issues nothing until it has been replayed (R375). `long` is the instruction with the packets that it has
sent in groups (R226), as it stands once its other lanes are performed. -/
structure LogEntry where
  id      : Nat
  inst    : Nat
  core    : Nat
  packet  : Packet
  va      : Nat
  func    : Nat
  write   : Bool
  retry   : Bool
  fetch   : Bool
  raised  : Nat
  answer  : Option Bool
  upgrade : Bool
  stalls  : Bool
  long    : Option Long
  kv      : Option KvFault
  deriving DecidableEq, Repr

/-- A long instruction in progress: its address, the cycle it issued in, the cycle from which its next sub-step counts (that of
its issue or of its resumption), what it does. -/
structure LongRun where
  pc    : Dword
  at_   : Nat
  since : Nat
  op    : Long
  deriving DecidableEq, Repr

/-- A trap raised by an instruction already issued, recorded at pre-emption (R385), with what a report of it would name
(R383). -/
structure PTrap where
  cause : Nat
  arg   : Nat
  epc   : Dword
  prog  : Option Nat
  peer  : Nat
  info  : Nat
  deriving DecidableEq, Repr

/-- One beam (R94, R179). Registers and tenants are keyed by 32 * register + lane, and by lane. `waitPc` is the address of
the instruction it waits in; `reuse` the A group that its quadrant's reuse latch holds (first register, length, format:
R254); `latched` a long instruction stopped by a halt, `trapped` one that the beam's own trap stopped (R226); `resume` the
sub-step at which the next instruction resumes (R183); `scrAt` the cycle by which its scratchpad accesses have been performed
(R128). -/
structure Beam where
  consumer  : Bool
  budget    : Nat
  entry     : Dword
  reuse     : Option (Nat × Nat × Nat)
  pc        : Dword
  waitPc    : Dword
  main      : List (Nat × Word)
  win       : List (Nat × Word)
  wb        : BitVec 10
  dirty     : BitVec 4
  exm       : Word
  lvm       : Word
  eexm      : Word
  pix       : Word
  cause     : Word
  epc       : Dword
  skid      : BitVec 2
  tvec      : Word
  fflags    : BitVec 5
  rmode     : BitVec 3
  chk       : BitVec 1
  tele      : BitVec 4
  orc       : BitVec 11
  jstat     : Word
  tenant    : List (Nat × BitVec 16)
  issueAt   : Nat
  lastIssue : Option Nat
  scrAt     : Nat
  fix       : List Fix
  pends     : List Pend
  status    : Status
  halt      : Halt
  mcall     : Option CallCtx
  longs     : List LongRun
  latched   : Option LongRun
  trapped   : Option LongRun
  resume    : Option Nat
  sibProg   : Bool
  ptrap     : Option PTrap
  deriving DecidableEq, Repr

/-! ### Teams -/

/-- Slot states (R277). -/
inductive SlotSt where
  | free
  | acquired
  | full
  | held
  deriving DecidableEq, Repr

/-- One queue slot (R277): its state, status word, whether an engine acquired it, and the POISON mark of R253. -/
structure Slot where
  st     : SlotSt
  status : Word
  engine : Bool
  poison : Bool
  deriving DecidableEq, Repr

/-- A queue (R276, R277). -/
structure Queue where
  inst  : Bool
  ctrl  : Word
  p     : Nat
  c     : Nat
  slots : List (Nat × Slot)
  deriving DecidableEq, Repr

/-- A named barrier (R174). -/
structure NBar where
  exp : Nat
  cnt : Nat
  ph  : Word
  deriving DecidableEq, Repr

/-- A tile slot (R231): base byte offset and rows; zero rows means cleared. -/
structure TileSlot where
  base : Nat
  rows : Nat
  deriving DecidableEq, Repr

/-- Team-word writes (R175). -/
inductive TwOp where
  | write (v : Word)
  | add (v : Word)
  | cas (e v : Word)
  deriving DecidableEq, Repr

/-- A team-word write that has issued and is not yet applied (R176). -/
structure TwWrite where
  due  : Nat
  beam : Nat
  word : Nat
  op   : TwOp
  mask : BitVec 32
  d    : Nat
  pend : Option Nat
  deriving DecidableEq, Repr

/-- What becomes of a tile that a stop refuses after its passing (R287): back to the request's set; a CANCELLED slot, where
the request has ended at a lap boundary (R284); nothing, where the request was cancelled (R291). -/
inductive Refused where
  | toSet
  | toDrop
  | gone
  deriving DecidableEq, Repr

/-- A Halo board request (R285, R290): the tiles not yet captured, the tiles captured and not committed, those to be
delivered as CANCELLED (R284), those whose last attempt failed its CRC; the ring cycle at which it is to register and the one
at which it did; where a refused tile goes. -/
structure Board where
  ch       : Nat
  q        : Nat
  layer    : Nat
  tiles    : List Nat
  captured : List Nat
  drop     : List Nat
  crcFail  : List Nat
  tenant   : BitVec 16
  due      : Nat
  regAt    : Option Nat
  back     : Refused
  deriving DecidableEq, Repr

/-- An `HCANCEL` on its way to the stop (R291): the ring cycle at which it arrives, the board id, the beam with its register and
result. -/
structure Cancel where
  due  : Nat
  id   : Nat
  beam : Nat
  d    : Nat
  pend : Nat
  deriving DecidableEq, Repr

/-- Prism control states (R320). -/
inductive PState where
  | idle
  | loaded
  | running
  | done
  deriving DecidableEq, Repr

/-- The Prism array as its owner sees it (R320); `doneAt` is the cycle at which the window ends or ended (R327). -/
structure Prism where
  state  : PState
  max    : Bool
  w      : BitVec 8
  delays : List (Nat × Byte)
  ins    : List (Nat × Byte)
  outs   : List (Nat × Byte)
  wins   : List (Nat × Byte)
  doneAt : Nat
  deriving DecidableEq, Repr

/-- Team life (R101, R112, R384). -/
inductive Life where
  | resident (core : Nat)
  | draining (core : Nat) (since : Nat)
  | saved
  deriving DecidableEq, Repr

/-- Kinds of matrix engine entries (R245). -/
inductive EKind where
  | mma
  | mmasp (n : Nat)
  | accz
  | accld
  | accst
  | acccvt
  | ldmeta
  deriving DecidableEq, Repr

/-- An accepted matrix engine entry with its latched operands (R244, R251). `rega` and `regc` are the A and C groups, or the
register results; `tele` is not 0 where telemetry recomputes it, with the reference accumulators in `ref` and the tile's own, as its last
sub-step left them, in `got` (R79); `tenant` is the tag of its lowest latched lane. `at_` is the cycle of its acceptance, `issued` that of
its instruction; `again` says that a restore accepted it (R255), `counted` that it has its sequence number (R79). -/
structure Entry where
  id      : Nat
  src     : Ref
  quad    : Nat
  kind    : EKind
  tile    : Nat
  slab    : Nat
  mask    : BitVec 32
  fmt     : Nat
  scl     : Bool
  bs      : Nat
  rnd     : Nat
  b0      : Nat
  m0      : Nat
  units   : Nat
  rega    : List (Nat × Word)
  regc    : List (Nat × Word)
  scales  : List Word
  d       : Nat
  pend    : Option Nat
  pix     : Nat
  started : Bool
  start   : Nat
  served  : Bool
  at_     : Nat
  issued  : Nat
  again   : Bool
  counted : Bool
  seq     : Nat
  tele    : BitVec 4
  tenant  : BitVec 16
  ref     : List (Nat × Word)
  got     : List (Nat × Word)
  deriving DecidableEq, Repr

/-- A `QCOMMIT` that has issued and whose release is not performed yet (R143, R154): the beam, its issue cycle, the cycle by which
the beam's scratchpad accesses before it are performed, the slot and its tag. -/
structure Commit where
  beam   : Nat
  sentAt : Nat
  scrAt  : Nat
  q      : Nat
  slot   : Nat
  tag    : Nat
  deriving DecidableEq, Repr

/-- Where a team's own state can have an uncorrectable error (R380): a register of beam k in its file or in its window slot, a word of
the scratchpad, an accumulator element, a byte of the metadata memory. Only the outside sets them (DESIGN CHOICE, log 69). -/
inductive Spot where
  | file (k n : Nat)
  | slot (k n : Nat)
  | scratch (word : Nat)
  | acc (key : Nat)
  | metam (at_ : Nat)
  deriving DecidableEq, Repr

/-- One placed team. `bad` are its uncorrectable errors (R380); `nextH` is the last job handle given; `stats` the statuses kept, `unseen`
the status words of failed jobs that no beam has observed (R274, R275); `entries` the matrix entries saved with it (R255), `owed` the
operand log entries that a restore has still to replay before the team issues (R390). -/
structure Team where
  grid     : Nat
  index    : Nat
  life     : Life
  since    : Nat
  savedAt  : Nat
  area     : Nat
  beams    : List Beam
  scratch  : Memory
  acc      : List (Nat × Word)
  metam    : Memory
  tw       : List (Nat × Word)
  twq      : List TwWrite
  bars     : List (Nat × NBar)
  arrived  : BitVec 16
  tiles    : List (Nat × TileSlot)
  tileq    : List (Nat × Nat × TileSlot)
  queues   : List (Nat × Queue)
  commits  : List Commit
  nextH    : Nat
  stats    : List (Nat × Word)
  unseen   : List Word
  boards   : List (Nat × Board)
  cancels  : List Cancel
  prism    : Prism
  handler  : Option Nat
  stopped  : Bool
  entries  : List Entry
  bad      : List Spot
  owed     : List Nat
  deriving DecidableEq, Repr

/-! ### Cores -/

/-- One core. `engSeq` counts the tiles of each function (R79); `divFree` and `ports` give, for each quadrant, the cycle from which its
divider (R192) and its scratchpad port (R128) are free; `cinv` the completions of its last `CINV`s (R240); `bad` the words of its control
store with an uncorrectable error (R380). -/
structure Core where
  image   : Option (Nat × Dword)
  store   : List (Nat × Word)
  lens    : List (Nat × Nat)
  entries : List Entry
  engSeq  : List (Nat × Nat)
  engFree : Nat
  divFree : List (Nat × Nat)
  ports   : List (Nat × Nat)
  cinv    : List Nat
  quads   : List (Nat × Nat)
  bad     : List Nat
  deriving DecidableEq, Repr

/-- A line of a core's read-only cache, with the cycle in which it was filled (R123, R240). -/
structure RoLine where
  core  : Nat
  line  : Nat
  at_   : Nat
  bytes : List Byte
  deriving DecidableEq, Repr

/-! ### Launch and scheduling -/

/-- The launch record (R347). -/
structure Launch where
  gx     : Nat
  gy     : Nat
  gz     : Nat
  np     : Nat
  nc     : Nat
  preg   : Nat
  creg   : Nat
  paired : Bool
  tele   : BitVec 4
  pool   : Word
  tvec   : Word
  pentry : Dword
  centry : Dword
  image  : Dword
  tenant : BitVec 16
  gang   : Nat
  nrange : Nat
  ranges : Dword
  deriving DecidableEq, Repr

/-- A running grid (R346). `producer` is the node that PNODE names (R104); `tpri` the priority that its function had when it
started (R363); `mark` orders its start among the writes of code (R12). -/
structure Grid where
  func     : Nat
  part     : Nat
  replay   : Nat
  node     : Nat
  launch   : Launch
  producer : Option Nat
  next     : Nat
  retired  : Nat
  fatal    : Bool
  prio     : Nat
  cap      : Nat
  trap     : Bool
  tar      : Bool
  tpri     : BitVec 2
  mark     : Nat
  order    : Nat
  ranges   : List (Nat × Nat)
  deriving DecidableEq, Repr

inductive NState where
  | waiting
  | started
  | complete
  deriving DecidableEq, Repr

/-- A node of a replay with the command processor's own patched copy of it (R344, R345); `failed` says that it was refused,
or that its grid ended before all its teams had been placed (R350); `polled` is the fabric time at which a WAIT last read its location
(R346). -/
structure Node where
  bytes  : List Byte
  state  : NState
  failed : Bool
  polled : Nat
  deriving DecidableEq, Repr

structure Replay where
  func    : Nat
  graph   : Dword
  started : Bool
  slots   : List (Nat × Dword)
  prio    : Nat
  nodes   : List (Nat × Node)
  code    : Nat
  node    : Nat
  order   : Nat
  deriving DecidableEq, Repr

/-- A gang slice table entry (R357). -/
structure GangEntry where
  start   : Nat
  len     : Nat
  gang    : Nat
  pmask   : BitVec 12
  members : List Nat
  deriving DecidableEq, Repr

/-- A slice that has ended before its one decision (R359): its cycle and entry, the members whose ARRIVED its leader holds, and whether
this member has sent its own. -/
structure Trial where
  cyc   : Nat
  idx   : Nat
  entry : GangEntry
  held  : List Nat
  sent  : Bool
  deriving DecidableEq, Repr

/-- The slice table (R357) and its state. `cur` is the slice in progress, with what the leader holds and has decided (R359); `past` are
slices that have ended undecided. -/
structure Gang where
  en      : Bool
  err     : Bool
  base    : Dword
  epoch   : Dword
  period  : Word
  count   : Word
  table   : List GangEntry
  cur     : Option (Nat × Nat)
  next    : Nat × Nat
  closed  : BitVec 12
  held    : List Nat
  sent    : Bool
  decided : Bool
  off     : Bool
  past    : List Trial
  deriving DecidableEq, Repr

/-! ### Functions and partitions -/

/-- FCFG.STATE (R363). -/
inductive FState where
  | off
  | run
  | reset
  | drained
  deriving DecidableEq, Repr

/-- A fetched mailbox command (R394). -/
structure Cmd where
  opc   : Nat
  tag   : BitVec 16
  len   : Nat
  daddr : Dword
  haddr : Dword
  value : Dword
  nonce : List Byte
  resv  : Bool
  deriving DecidableEq, Repr

/-- The registers of one function: FCFG and its set (R363), budget (R353), mailbox (R393), event ring (R427), graph
parameter slots (R345), and its telemetry ring (R81). -/
structure Func where
  state   : FState
  tar     : Bool
  cmode   : Bool
  cap     : BitVec 2
  tpri    : BitVec 2
  part    : BitVec 4
  ftag    : BitVec 16
  asroot  : Dword
  peert   : Dword
  gen     : BitVec 16
  stale   : Word
  hbmq    : Word
  ftmo    : Word
  refill  : Word
  bcap    : Word
  loan    : Word
  dmax    : Word
  bal     : Int
  debt    : Nat
  mbcqb   : Dword
  mbcpb   : Dword
  irqen   : Bool
  irqv    : BitVec 11
  en      : Bool
  log2n   : BitVec 4
  mbtail  : Word
  mbhead  : Word
  mbctail : Word
  mbchead : Word
  cmd     : Option Cmd
  resetTag : List (Nat × BitVec 16)
  evb     : Dword
  evirqen : Bool
  evirqv  : BitVec 11
  even_   : Bool
  evlog2n : BitVec 4
  evtail  : Word
  evhead  : Word
  evlost  : Word
  evseq   : Word
  slots   : List (Nat × Dword)
  telbase : Dword
  teln    : Nat
  telat   : Nat
  telover : Nat
  deriving DecidableEq, Repr

/-- The registers of one partition (R361). -/
structure Part where
  pblk : Word
  pway : BitVec 16
  base : List (Nat × BitVec 22)
  lim  : List (Nat × BitVec 22)
  deriving DecidableEq, Repr

/-! ### The Halo (R279 to R288) -/

structure Seg where
  from_ : Dword
  layer : Nat
  pmask : BitVec 12
  ntile : Nat
  tbase : Nat
  deriving DecidableEq, Repr

structure Sched where
  addr : Dword
  sid  : BitVec 16
  free : Bool
  segs : List Seg
  deriving DecidableEq, Repr

/-- A tile read from its source and not yet past every stop (R288): its index in the lap, its POISON bit, its payload and the CRC of
it that its header carries (R280). -/
structure Injected where
  idx     : Nat
  poison  : Bool
  payload : List Byte
  crc     : Dword
  deriving DecidableEq, Repr

/-- One channel's registers (R283); `lap` is the lap that runs, or the next one while the channel is stopped. -/
structure Chan where
  thr   : BitVec 5
  run   : Bool
  runs  : Bool
  sched : Option Sched
  pend  : Option Sched
  hnext : Dword
  sid   : BitVec 16
  code  : BitVec 8
  psn   : BitVec 16
  crcf  : BitVec 16
  lap   : Word
  inj   : List Injected
  deriving DecidableEq, Repr

/-- A captured tile in a stop buffer (R286), with its header's fields (R280; its channel is that of the stop) and the MODE of the
schedule that it passed under: the requests (team, board id) that captured it; once its CRC is checked, the
slots acquired (team, board id, slot, status) and the requests still waiting for one (team, board id, status); the ring cycle
at which its bus transfer began. -/
structure StopEntry where
  lap     : Word
  sid     : BitVec 16
  layer   : Nat
  tile    : Nat
  poison  : Bool
  crc     : Dword
  free    : Bool
  passAt  : Nat
  reqs    : List (Nat × Nat)
  checked : Bool
  slots   : List (Nat × Nat × Nat × Nat)
  todo    : List (Nat × Nat × Nat)
  payload : List Byte
  busAt   : Option Nat
  deriving DecidableEq, Repr

/-- One stop (R279): tiles passed in this lap, the ring cycles of the last passing and of the next (R282), and its buffer. -/
structure Stop where
  passed  : Nat
  last    : Nat
  due     : Nat
  entries : List StopEntry
  deriving DecidableEq, Repr

/-! ### The fabric (R406 to R429) -/

/-- Link states (R424). -/
inductive LState where
  | down
  | train
  | up
  | drain
  | drained
  | held
  | dark
  | relock
  | failed
  deriving DecidableEq, Repr

/-- A sequenced flit held for replay (R411): sequence number, marker or data, times resent, its 176 payload bytes. -/
structure Flit where
  seq     : BitVec 16
  marker  : Bool
  resent  : Nat
  payload : List Byte
  deriving DecidableEq, Repr

/-- The place of a flit in its optical link's stream (R410): the fabric time of the stream's restart, the banks that it runs on, the
number of flits before it. -/
structure FlitPlace where
  start : Nat
  banks : BitVec 3
  n     : Nat
  deriving DecidableEq, Repr

/-- One optical link (0 to 95) or electrical port (96 to 103). `out` holds the flits that have left and `places` their places in the
stream; `start` is the fabric time of the stream's restart, `next` the number of flits since and `upTo` the fabric time up to which the
slots have gone by (R410). `ctl` are the unsequenced flits that are to be sent, by type and NAK, `resends` the buffered flits that are to be resent,
`marker` a marker that is to follow the last data flit (R418); `rxq` is the receive buffer: whether a flit is a marker, its SEQ and its
payload (R412). `absent` are the banks whose light was not there in training (R416). `restripe` is the bank set of a restripe in progress and `losses`
the banks whose light was lost, with the fabric times (R417); `rx` is the receiver's bank set and `dark` the banks that it sees
dark; `since` and `nakAt` are the fabric times of the last state change and the last NAK. -/
structure Link where
  banken  : BitVec 3
  state   : LState
  mack    : Bool
  cerr    : Bool
  banks   : BitVec 3
  lost    : BitVec 3
  lpeer   : Word
  nextSeq : BitVec 16
  lastAck : BitVec 16
  allowIn : BitVec 16
  crc     : Word
  rpl     : Word
  restr   : BitVec 16
  naks    : BitVec 16
  tx      : Dword
  buf     : List Flit
  exp     : BitVec 16
  nakked  : Bool
  fwd     : BitVec 16
  granted : BitVec 16
  waiting : List (List Byte)
  out     : List (List Byte)
  places  : List FlitPlace
  start   : Nat
  next    : Nat
  upTo    : Nat
  ctl     : List (Nat × Bool × List Byte)
  resends : List Flit
  marker  : Bool
  rxq     : List (Bool × BitVec 16 × List Byte)
  absent  : BitVec 3
  restripe : Option (BitVec 3)
  losses  : List (Nat × Nat)
  rx      : BitVec 3
  dark    : BitVec 3
  since   : Nat
  nakAt   : Nat
  deriving DecidableEq, Repr

/-- A stamped collimated store on its way to this member's replica (R157, R243): stamp, line, bytes by offset, and whose
lanes sent it if this device did. -/
structure Stamped where
  stamp : Nat
  line  : Nat
  bytes : List (Nat × Byte)
  src   : Option Ref
  lanes : List Nat
  deriving DecidableEq, Repr

/-- A multicast group as this member holds it (R157, R243, R420): its control line's address, its member count, the last
stamp given, the stamped stores not yet applied, and APPLIED. -/
structure Group where
  members : Nat
  base    : Nat
  stamp   : Nat
  queue   : List Stamped
  applied : Nat
  deriving DecidableEq, Repr

/-- A remote request that has left and is not acknowledged (R413). -/
structure Remote where
  packet : Packet
  sentNs : Nat
  deriving DecidableEq, Repr

/-- A recompute that telemetry asks for (R79): the results and the reference values of its elements, by row and column. -/
structure TeleJob where
  func   : Nat
  tenant : BitVec 16
  coll   : Bool
  unit   : Nat
  seq    : Nat
  tele   : BitVec 4
  fmt    : Nat
  got    : List (Nat × Nat × Word)
  ref    : List (Nat × Nat × Word)
  deriving DecidableEq, Repr

/-- A read-duplication upgrade in progress (R375): the log entry that waits for it, its page, the holders, and the fabric time of
the grant. The acknowledgements reach the writer's service core together (DESIGN CHOICE, log 70). -/
structure Upgrade where
  log     : Nat
  va      : Nat
  func    : Nat
  holders : List Nat
  granted : Option Nat
  deriving DecidableEq, Repr

/-- Messages of the read-duplication protocol (R375). -/
inductive RdKind where
  | upgrade
  | grant
  | invalidate
  | ack
  deriving DecidableEq, Repr

/-- One such message on its way to another device; the manual does not give its bytes. -/
structure RdMsg where
  kind   : RdKind
  dst    : Nat
  writer : Nat
  va     : Dword
  deriving DecidableEq, Repr

/-- A grant that this device made as the home holder, and is not over (R375): the function and address of the page, the writer. -/
structure RdGrant where
  func   : Nat
  va     : Nat
  writer : Nat
  deriving DecidableEq, Repr

/-- An invalidate that has reached this holder and is not acknowledged yet (R375), with the fabric time at which it came and whether
its silence has been recorded. -/
structure RdHeld where
  id     : Nat
  func   : Nat
  va     : Nat
  writer : Nat
  since  : Nat
  told   : Bool
  deriving DecidableEq, Repr

/-- Gang messages (R359). -/
inductive GangKind where
  | arrived
  | opened
  | forfeit
  deriving DecidableEq, Repr

/-- A gang message that this device sent: its kind, its receiver, the gang, the cycle and, with FORFEIT, the late chips (R359). -/
structure GangMsg where
  kind : GangKind
  dst  : Nat
  gang : Nat
  n    : Nat
  late : List Nat
  deriving DecidableEq, Repr

/-- A page that is being migrated (R374): the function whose leaf maps it, its address and size, the place of its leaf, where its
lines lie, where they go, and the kind of that memory. -/
structure Move where
  func : Nat
  va   : Nat
  size : Nat
  pte  : Nat
  old  : Nat
  new  : Nat
  kind : PKind
  deriving DecidableEq, Repr

/-- Device states (R393). -/
inductive DState where
  | boot
  | run
  | safe
  deriving DecidableEq, Repr

/-- What a word of memory held before a write made while grids ran (R12): its mark in the order of writes and launches, whether it
lies in host memory, its address, its four bytes. -/
structure OldCode where
  mark  : Nat
  host  : Bool
  pa    : Nat
  bytes : List Byte
  deriving DecidableEq, Repr

/-- What is in flight or cached in the memory system. `badLines` are lines with an uncorrectable error; `codeOld` holds what
words written while a grid ran held before (R12); `turns` the input port that won last at a slice's queue (R136), `mgmtAt` the
cycle in which a management packet last won there (R137). -/
structure Net where
  packets  : List Packet
  acks     : List Ack
  remotes  : List Remote
  sent     : List (List Byte)
  watches  : List Watch
  tlb      : List TlbEntry
  roCache  : List RoLine
  log      : List LogEntry
  upgrades : List Upgrade
  rdSent   : List RdMsg
  rdGrants : List RdGrant
  rdHeld   : List RdHeld
  gangSent : List GangMsg
  moves    : List Move
  badLines : List Nat
  codeOld  : List OldCode
  turns    : List (Nat × Nat)
  mgmtAt   : List (Nat × Nat)
  deriving DecidableEq, Repr

/-- Work that is not a team: replays, multicast groups, telemetry; `collSeq` counts the tiles of a function on a collective engine,
by 64 * engine + function (R79). -/
structure Work where
  replays : List (Nat × Replay)
  groups  : List (Nat × Group)
  teleq   : List TeleJob
  collSeq : List (Nat × Nat)
  deriving DecidableEq, Repr

/-- The register blocks of the PF window that hold no state of another unit: functions, partitions, shootdown (R370), scheduler (R353, R386;
`preGo`: the partition of the commanded pre-emption in progress; `room`: the cores on which room is held for a grid's next team, R352), gang
(R358), power (R404) with what is gated and waking (R132, R133). -/
structure Regs where
  funcs    : List (Nat × Func)
  parts    : List (Nat × Part)
  sdBusy   : Bool
  sdMode   : BitVec 2
  sdFunc   : BitVec 6
  sdVa     : Dword
  sdLen    : Word
  sdMark   : Option Nat
  quantum  : Word
  jcost    : Word
  pcap     : Word
  pool     : Nat
  saveBase : Dword
  saveLen  : Word
  room     : List (Nat × Nat)
  preBusy  : Bool
  prePart  : BitVec 4
  preGo    : BitVec 4
  gang     : Gang
  pgBusy   : Bool
  pgKind   : BitVec 2
  pgGrp    : BitVec 3
  pgUnit   : BitVec 10
  pgMask   : BitVec 16
  pgStat   : BitVec 2
  ways     : List (Nat × BitVec 16)
  granules : List (Nat × BitVec 128)
  waking   : List (Nat × Nat)
  deriving DecidableEq, Repr

/-- The Halo: the ring cycle that it has reached, channels, stops keyed by 32 * channel + block, and the ring cycle from which each
block's delivery bus is free (R279). -/
structure Halo where
  now     : Nat
  chans   : List (Nat × Chan)
  stops   : List (Nat × Stop)
  busFree : List (Nat × Nat)
  deriving DecidableEq, Repr

/-- The fabric side: links and ports, route table words, capability table, fabric time lock (R406 to R425). -/
structure Fab where
  dev    : BitVec 11
  links  : List (Nat × Link)
  routes : List (Nat × Word)
  caps   : List (Nat × Word)
  ftLock : Bool
  ftErr  : BitVec 16
  deriving DecidableEq, Repr

/-- Start-up, power state and identity (R393 to R403); `boot` holds the failing codes that a start-up sequence in progress will
find (a power-on, PERST# or reset begins one); the bus address that the host
gave the PF's BAR 2 (R426), and the MSI-X vectors sent, newest first. -/
structure Sys where
  dstate  : DState
  boot    : Option (List (BitVec 16))
  codes   : List (BitVec 16)
  mr      : List (Nat × BitVec 512)
  d3hot   : Bool
  idBlock : Option Nat
  idBurnt : Nat
  idNext  : Nat
  bar2    : Option Nat
  msix    : List (Nat × Nat)
  deriving DecidableEq, Repr

/-- The package. `agenda`, `cur`, `spent`, `free` and `nextId` are the model's own (logs 2 and 5): the agenda holds the events that come
next, `none` letting the machine make a step of its own between them; `spent` says that no further instruction issues in this cycle. -/
structure State where
  clock   : Nat
  ftime   : Nat
  free    : Nat
  nextId  : Nat
  cur     : Option Ref
  spent   : Bool
  agenda  : List (Option Instr)
  mem     : Memory
  hostMem : Memory
  net     : Net
  teams   : List (Nat × Team)
  cores   : List (Nat × Core)
  grids   : List (Nat × Grid)
  jobs    : List Job
  work    : Work
  regs    : Regs
  halo    : Halo
  fab     : Fab
  sys     : Sys
  deriving DecidableEq, Repr

/-! ### Values before anything is written -/

/-- A function after reset (R353, R363, R393, R427); registers with no stated value are 0 (DESIGN CHOICE, log 4). -/
def Func.init : Func :=
  { state := .off, tar := false, cmode := false, cap := 0, tpri := 0, part := 0, ftag := 0, asroot := 0, peert := 0,
    gen := 0, stale := 0, hbmq := 0, ftmo := 0, refill := 0xFFFFFFFF, bcap := 0, loan := 0, dmax := 0, bal := 0,
    debt := 0, mbcqb := 0, mbcpb := 0, irqen := false, irqv := 0, en := false, log2n := 4, mbtail := 0, mbhead := 0,
    mbctail := 0, mbchead := 0, cmd := none, resetTag := [], evb := 0, evirqen := false, evirqv := 0, even_ := false,
    evlog2n := 4, evtail := 0, evhead := 0, evlost := 0, evseq := 0, slots := [], telbase := 0, teln := 0, telat := 0,
    telover := 0 }

/-- A partition after reset (DESIGN CHOICE, log 4). -/
def Part.init : Part := { pblk := 0, pway := 0, base := [], lim := [] }

/-- A Halo channel after reset (R282, R283). -/
def Chan.init : Chan :=
  { thr := 16, run := false, runs := false, sched := none, pend := none, hnext := 0, sid := 0, code := 0, psn := 0,
    crcf := 0, lap := 0, inj := [] }

/-- A stop with nothing passing. -/
def Stop.init : Stop := { passed := 0, last := 0, due := 0, entries := [] }

/-- A link after reset (R423, R424). -/
def Link.init : Link :=
  { banken := 7, state := .down, mack := false, cerr := false, banks := 0, lost := 0, lpeer := 0, nextSeq := 0,
    lastAck := 0, allowIn := 0, crc := 0, rpl := 0, restr := 0, naks := 0, tx := 0, buf := [], exp := 0,
    nakked := false, fwd := 0, granted := 0, waiting := [], out := [], places := [], start := 0, next := 0, upTo := 0, ctl := [],
    resends := [], marker := false, rxq := [], absent := 0, restripe := none, losses := [], rx := 0,
    dark := 0, since := 0, nakAt := 0 }

/-- A core with an empty control store and an idle engine. -/
def Core.init : Core :=
  { image := none, store := [], lens := [], entries := [], engSeq := [], engFree := 0, divFree := [], ports := [],
    cinv := [], quads := [], bad := [] }

/-- A queue that is not installed (R98). -/
def Queue.init : Queue := { inst := false, ctrl := 0, p := 0, c := 0, slots := [] }

/-- A free slot with status OK (R276). -/
def Slot.init : Slot := { st := .free, status := 0, engine := false, poison := false }

/-- A named barrier at team start (R174). -/
def NBar.init : NBar := { exp := 0, cnt := 0, ph := 0 }

/-- A cleared tile slot (R231). -/
def TileSlot.init : TileSlot := { base := 0, rows := 0 }

/-- What every delay, input, output and winner of the Prism array holds at placement (R320). -/
def prismDefault : Byte := 255

/-- The Prism array at placement (R320). -/
def Prism.init : Prism :=
  { state := .idle, max := false, w := 255, delays := [], ins := [], outs := [], wins := [], doneAt := 0 }

/-- The gang registers after reset (R358). -/
def Gang.init : Gang :=
  { en := false, err := false, base := 0, epoch := 0, period := 0, count := 0, table := [], cur := none, next := (0, 0),
    closed := 0, held := [], sent := false, decided := false, off := false, past := [] }

/-- Nothing in flight and nothing cached. -/
def Net.init : Net :=
  { packets := [], acks := [], remotes := [], sent := [], watches := [], tlb := [], roCache := [], log := [],
    upgrades := [], rdSent := [], rdGrants := [], rdHeld := [], gangSent := [], moves := [], badLines := [], codeOld := [], turns := [], mgmtAt := [] }

/-- No work. -/
def Work.init : Work := { replays := [], groups := [], teleq := [], collSeq := [] }

/-- The register blocks after reset (R353, R358, R363, R370, R386, R404; DESIGN CHOICE, log 4). -/
def Regs.init : Regs :=
  { funcs := [], parts := [], sdBusy := false, sdMode := 0, sdFunc := 0, sdVa := 0, sdLen := 0, sdMark := none, quantum := 2000,
    jcost := 16, pcap := 0, pool := 0, saveBase := 0, saveLen := 0, room := [], preBusy := false, prePart := 0, preGo := 0,
    gang := Gang.init, pgBusy := false, pgKind := 0, pgGrp := 0, pgUnit := 0, pgMask := 0, pgStat := 0, ways := [],
    granules := [], waking := [] }

/-- The Halo after reset (R283): both channels stopped. -/
def Halo.init : Halo := { now := 0, chans := [], stops := [], busFree := [] }

/-- The fabric side after reset (R423 to R425; DESIGN CHOICE, log 4). -/
def Fab.init : Fab := { dev := 0, links := [], routes := [], caps := [], ftLock := false, ftErr := 0 }

/-- The start-up sequence has not ended (R397). -/
def Sys.init : Sys :=
  { dstate := .boot, boot := none, codes := [], mr := [], d3hot := false, idBlock := none, idBurnt := 0, idNext := 0, bar2 := none, msix := [] }

/-- The package right after power-on or reset: the start-up sequence has not ended (R397), no team is placed, every
register holds its reset value, and those with none stated hold 0 (DESIGN CHOICE, log 4). -/
def State.reset : State :=
  { clock := 0, ftime := 0, free := 0, nextId := 0, cur := none, spent := false, agenda := [], mem := [], hostMem := [],
    net := Net.init, teams := [], cores := [], grids := [], jobs := [], work := Work.init, regs := Regs.init,
    halo := Halo.init, fab := Fab.init, sys := Sys.init }

end Sys2Proof.Machine
end

