-- ==== Sys2Proof/Machine/Ops.lean ====
section
/-! DEFINITION. Named operations over the state: teams, beams and registers, landing of fixed-latency results, event
records, and taking an exception with the return from it. -/

namespace Sys2Proof.Machine

/-! ### Teams, beams, grids, functions -/

def State.team? (s : State) (t : Nat) : Option Team := aget s.teams t

def State.beam? (s : State) (r : Ref) : Option Beam :=
  match s.team? r.t with
  | none => none
  | some T => T.beams[r.b]?

def State.setTeam (s : State) (t : Nat) (T : Team) : State := { s with teams := aset s.teams t T }

def Team.setBeam (T : Team) (k : Nat) (b : Beam) : Team := { T with beams := T.beams.set k b }

def State.setBeam (s : State) (r : Ref) (b : Beam) : State :=
  match s.team? r.t with
  | none => s
  | some T => s.setTeam r.t (T.setBeam r.b b)

def State.modTeam (s : State) (t : Nat) (f : Team → Team) : State :=
  match s.team? t with
  | none => s
  | some T => s.setTeam t (f T)

def State.modBeam (s : State) (r : Ref) (f : Beam → Beam) : State :=
  match s.beam? r with
  | none => s
  | some b => s.setBeam r (f b)

def State.grid? (s : State) (g : Nat) : Option Grid := aget s.grids g

def State.setGrid (s : State) (g : Nat) (G : Grid) : State := { s with grids := aset s.grids g G }

/-- The grid of a team. -/
def State.gridOf (s : State) (T : Team) : Option Grid := s.grid? T.grid

/-- The registers of function f. -/
def State.func (s : State) (f : Nat) : Func := (aget s.regs.funcs f).getD Func.init

def State.setFunc (s : State) (f : Nat) (F : Func) : State :=
  { s with regs := { s.regs with funcs := aset s.regs.funcs f F } }

def State.part (s : State) (p : Nat) : Part := (aget s.regs.parts p).getD Part.init

def State.core (s : State) (c : Nat) : Core := (aget s.cores c).getD Core.init

def State.setCore (s : State) (c : Nat) (C : Core) : State := { s with cores := aset s.cores c C }

def State.chan (s : State) (c : Nat) : Chan := (aget s.halo.chans c).getD Chan.init

def State.setChan (s : State) (c : Nat) (C : Chan) : State :=
  { s with halo := { s.halo with chans := aset s.halo.chans c C } }

def State.link (s : State) (l : Nat) : Link := (aget s.fab.links l).getD Link.init

def State.setLink (s : State) (l : Nat) (L : Link) : State :=
  { s with fab := { s.fab with links := aset s.fab.links l L } }

/-- A fresh identifier. -/
def State.fresh (s : State) : Nat × State := (s.nextId, { s with nextId := s.nextId + 1 })

/-- The core a team occupies. -/
def Team.core? (T : Team) : Option Nat :=
  match T.life with
  | .resident c => some c
  | .draining c _ => some c
  | .saved => none

def Team.coreId (T : Team) : Nat := T.core?.getD 0

/-- The function that replayed the team's graph. -/
def State.funcOf (s : State) (T : Team) : Nat := (s.gridOf T).elim 0 (·.func)

def State.partOf (s : State) (T : Team) : Nat := (s.gridOf T).elim 0 (·.part)

/-! ### Pool figures (R101, R102) -/

def poolScr (w : Word) : Nat := (w.extractLsb' 0 8).toNat
def poolAcc (w : Word) : Nat := (w.extractLsb' 8 5).toNat
def poolPrism (w : Word) : Bool := w.getLsbD 13
def poolNq (w : Word) : Nat := (w.extractLsb' 14 4).toNat

/-- Scratchpad bytes of a team (R125). -/
def State.scrBytes (s : State) (T : Team) : Nat := (s.gridOf T).elim 0 fun g => 16384 * poolScr g.launch.pool

def State.accTiles (s : State) (T : Team) : Nat := (s.gridOf T).elim 0 fun g => poolAcc g.launch.pool

def State.nqOf (s : State) (T : Team) : Nat := (s.gridOf T).elim 0 fun g => poolNq g.launch.pool

def State.prismOf (s : State) (T : Team) : Bool := (s.gridOf T).elim false fun g => poolPrism g.launch.pool

/-! ### Registers (R88) -/

def regKey (n l : Nat) : Nat := 32 * n + l

/-- Register v(n) lies in the window. -/
def Beam.inWin (b : Beam) (n : Nat) : Bool := decide (b.wb.toNat ≤ n) && decide (n < b.wb.toNat + 128)

/-- The architectural value of v(n) in lane l. -/
def Beam.rd (b : Beam) (n l : Nat) : Word :=
  if b.inWin n then sget 0 b.win (regKey n l) else sget 0 b.main (regKey n l)

/-- A write of v(n) releases a reuse latch that holds it (R254). -/
def reuseAfter (u : Option (Nat × Nat × Nat)) (n : Nat) : Option (Nat × Nat × Nat) :=
  match u with
  | none => none
  | some (r, len, f) => if r ≤ n ∧ n < r + len then none else some (r, len, f)

/-- Writes v(n) in lane l; a write of the window makes its group dirty (R90). -/
def Beam.wr (b0 : Beam) (n l : Nat) (v : Word) : Beam :=
  let b := { b0 with reuse := reuseAfter b0.reuse n }
  if b.inWin n then
    { b with win := sset 0 b.win (regKey n l) v,
             dirty := b.dirty ||| BitVec.ofNat 4 (2 ^ ((n - b.wb.toNat) / 32)) }
  else { b with main := sset 0 b.main (regKey n l) v }

/-- Writes values by key, in order. -/
def Beam.wrAll (b : Beam) (l : List (Nat × Word)) : Beam := l.foldl (fun b e => b.wr (e.1 / 32) (e.1 % 32) e.2) b

/-- A pair's value in lane l (R26). -/
def Beam.rdPair (b : Beam) (n l : Nat) : Dword := b.rd (n + 1) l ++ b.rd n l

/-- The low and high words of a pair. -/
def pairWords (n l : Nat) (v : Dword) : List (Nat × Word) :=
  [(regKey n l, v.setWidth 32), (regKey (n + 1) l, (v >>> 32).setWidth 32)]

/-! ### Masks -/

/-- Lane l of a mask. -/
def maskBit (m : Word) (l : Nat) : Bool := m.getLsbD l

/-- The mask of the lanes that satisfy `p`. -/
def maskOf (p : Nat → Bool) : Word := lanes.foldl (fun m l => if p l then m ||| BitVec.ofNat 32 (2 ^ l) else m) 0

/-- The lowest lane of a mask; 0 of an empty one. -/
def lowestLane (m : Word) : Nat := (lanes.find? fun l => maskBit m l).getD 0

/-! ### The cause register (R180) -/

def causeInh (c : Word) : Bool := c.getLsbD 17
def causePixv (c : Word) : Bool := c.getLsbD 18

/-- The cause register after entry: SCAP stays (R182). -/
def causeEntry (c : Word) (code arg : Nat) (pixv : Bool) : Word :=
  (c &&& 0x10000#32) ||| BitVec.ofNat 32 (code % 256 + 256 * (arg % 256) + 2 ^ 17 + (if pixv then 2 ^ 18 else 0))

/-! ### Landing of fixed-latency results (R83, R86, R178) -/

/-- A write of a special register by `SWR` takes its effect (R178, R179). Per-lane values come by lane; the others take
the first. -/
def Beam.setSreg (b : Beam) (n : Nat) (vs : List (Nat × Word)) : Beam :=
  let v : Word := match vs with | [] => 0 | e :: _ => e.2
  match n with
  | 0x0F => { b with tenant := ssetAll 0 b.tenant (vs.map fun e => (e.1, e.2.setWidth 16)) }
  | 0x13 => { b with pix := v }
  | 0x14 => { b with cause := (b.cause &&& 0x20000#32) ||| (v &&& 0x5FFFF#32) }
  | 0x15 => { b with epc := (b.epc.extractLsb' 32 32 : BitVec 32) ++ v }
  | 0x16 => { b with epc := v ++ (b.epc.extractLsb' 0 32 : BitVec 32) }
  | 0x18 => if v.extractLsb' 0 2 = 0 then { b with tvec := v } else b
  | 0x19 => { b with eexm := v }
  | 0x1A => { b with fflags := v.setWidth 5 }
  | 0x1B => let m := v.setWidth 3; if 1 ≤ m.toNat ∧ m.toNat ≤ 4 then { b with rmode := m } else b
  | 0x1C => { b with chk := v.setWidth 1 }
  | _ => b

/-- One pending effect lands. -/
def Beam.landOne (b : Beam) (f : Fix) : Beam :=
  let b := b.wrAll f.regs
  let b := { b with fflags := b.fflags ||| f.flags }
  match f.sreg with
  | none => b
  | some (n, vs) => b.setSreg n vs

/-- Lands the effects whose cycle is at or before `now`, in order. -/
def landList (b : Beam) (now : Nat) (l : List Fix) : Beam :=
  match l with
  | [] => { b with fix := [] }
  | f :: r => if f.ready ≤ now then landList (b.landOne f) now r else { b with fix := f :: r }

def Beam.land (b : Beam) (now : Nat) : Beam := landList b now b.fix

/-- The latest ready cycle of the beam's pending fixed-latency results; other pending effects do not count (R87, R92). -/
def Beam.lastReady (b : Beam) : Nat := (b.fix.filter fun f => decide (f.names ≠ [])).foldl (fun m f => max m f.ready) 0

/-- The beam issues nothing before every pending fixed-latency result is ready (R87). -/
def Beam.afterFixed (b : Beam) : Beam := { b with issueAt := max b.issueAt b.lastReady }

/-- Adds an effect in order of ready cycle, after those of the same cycle; a special register write goes before the
flags of that cycle (R201). -/
def insertFix (f : Fix) (l : List Fix) : List Fix :=
  match l with
  | [] => [f]
  | g :: r =>
    if f.ready < g.ready ∨ (f.ready = g.ready ∧ f.sreg.isSome ∧ g.sreg.isNone) then f :: g :: r else g :: insertFix f r

/-! ### Scoreboard (R84) -/

/-- The registers marked pending. -/
def Beam.pendNames (b : Beam) : List Nat := b.pends.flatMap (·.names)

/-- Adds values to a pending result and lowers its outstanding parts. -/
def Beam.pendAdd (b : Beam) (id : Nat) (vs : List (Nat × Word)) (parts : Nat) : Beam :=
  { b with pends := b.pends.map fun p => if p.id = id then { p with vals := p.vals ++ vs, wait := p.wait - parts } else p }

/-- Drops a pending result whose instruction is withdrawn. -/
def Beam.pendDrop (b : Beam) (id : Nat) : Beam := { b with pends := b.pends.filter fun p => p.id ≠ id }

/-! ### Writes of words that may be code (R12) -/

/-- Remembers what the words of a range held before a write of it while a grid runs. -/
def State.keepOld (s : State) (host : Bool) (pa n : Nat) : State :=
  if s.grids = [] then s
  else
    let m := if host then s.hostMem else s.mem
    let old (i : Nat) : OldCode :=
      let a := 4 * (pa / 4 + i)
      { mark := s.nextId, host := host, pa := a, bytes := m.readBytes a 4 }
    { s with net := { s.net with codeOld := s.net.codeOld ++ (List.range ((pa % 4 + n + 3) / 4)).map old } }

/-- A write to host memory. -/
def State.hostPut (s : State) (pa : Nat) (bytes : List Byte) : State :=
  let s1 := s.keepOld true pa bytes.length
  { s1 with hostMem := s.hostMem.writeBytes pa bytes }

/-! ### Event records (R427, R428) -/

/-- `n` bytes of a number, little-endian. -/
def leBytes (n v : Nat) : List Byte :=
  match n with
  | 0 => []
  | n + 1 => BitVec.ofNat 8 v :: leBytes n (v / 256)

/-- A number from bytes, low byte first. -/
def leNat (l : List Byte) : Nat := l.foldr (fun b v => b.toNat + 256 * v) 0

/-- `n` bytes of a list from an offset, as a number. -/
def natAt (l : List Byte) (off n : Nat) : Nat := leNat ((l.drop off).take n)

/-- The CRC-64 of R280: polynomial 0x42F0E1EBA9EA3693, initial value 0, no reflection. -/
def crcBit (c : BitVec 64) : BitVec 64 := if c.getLsbD 63 then (c <<< 1) ^^^ 0x42F0E1EBA9EA3693#64 else c <<< 1

def crcByte (c : BitVec 64) (b : Byte) : BitVec 64 :=
  (List.range 8).foldl (fun c _ => crcBit c) (c ^^^ (b.setWidth 64 <<< 56))

def crc64 (l : List Byte) : BitVec 64 := l.foldl crcByte 0

/-- Adds to a 32-bit counter that saturates. -/
def satAdd (c : Word) (n : Nat) : Word := BitVec.ofNat 32 (Nat.min (c.toNat + n) 0xFFFFFFFF)

def satAdd16 (c : BitVec 16) (n : Nat) : BitVec 16 := BitVec.ofNat 16 (Nat.min (c.toNat + n) 0xFFFF)

/-- Sends an MSI-X vector of a function. -/
def State.sendMsix (s : State) (f v : Nat) : State := { s with sys := { s.sys with msix := (f, v) :: s.sys.msix } }

/-- Raises a record of `kind` on f's ring; `body` holds bytes 16 to 63. -/
def State.record (s : State) (f kind : Nat) (body : List Byte) : State :=
  let F := s.func f
  let n := 2 ^ F.evlog2n.toNat
  if F.even_ = true ∧ (F.evtail - F.evhead).toNat < n then
    let start := (F.evtail - F.evseq).toNat
    let pass := (start % n + F.evseq.toNat) / n
    let bytes := leBytes 1 kind ++ leBytes 1 (if pass % 2 = 0 then 1 else 0) ++ leBytes 2 s.fab.dev.toNat ++
      leBytes 4 F.evseq.toNat ++ leBytes 8 s.ftime ++ body
    let s1 := s.hostPut (F.evb.toNat + 64 * (F.evtail.toNat % n)) bytes
    let s2 := s1.setFunc f { F with evtail := F.evtail + 1, evseq := F.evseq + 1 }
    if F.evirqen then s2.sendMsix f F.evirqv.toNat else s2
  else s.setFunc f { F with evlost := if F.evlost = 0xFFFFFFFF then F.evlost else F.evlost + 1 }

/-- The contents of a REPORT record (R383). -/
structure Report where
  kind  : Nat
  cause : Nat
  arg   : Nat
  beam  : Nat
  func  : Nat
  part  : Nat
  team  : Nat
  core  : Nat
  peer  : Nat
  graph : Nat
  node  : Nat
  epc   : Nat
  info  : Nat
  deriving DecidableEq, Repr

def State.report (s : State) (p : Report) : State :=
  s.record p.func 1 (leBytes 1 p.kind ++ leBytes 1 p.cause ++ leBytes 1 p.arg ++ leBytes 1 p.beam ++ leBytes 1 p.func ++
    leBytes 1 p.part ++ leBytes 2 0 ++ leBytes 4 p.team ++ leBytes 2 p.core ++ leBytes 2 p.peer ++ leBytes 8 p.graph ++
    leBytes 2 p.node ++ leBytes 6 0 ++ leBytes 8 p.epc ++ leBytes 8 p.info)

/-- A report about a team of a grid. -/
def State.teamReport (s : State) (T : Team) (kind cause arg beam peer epc info : Nat) : State :=
  match s.gridOf T with
  | none => s
  | some g =>
    let graph := (aget s.work.replays g.replay).elim 0 fun r => r.graph.toNat
    s.report { kind := kind, cause := cause, arg := arg, beam := beam, func := g.func, part := g.part, team := T.index,
               core := T.coreId, peer := peer, graph := graph, node := g.node, epc := epc, info := info }

/-! ### Fatal stops (R383) -/

/-- Records the first failure of a replay (R350): it starts no further node. -/
def State.failReplay (s : State) (r code node : Nat) : State :=
  match aget s.work.replays r with
  | none => s
  | some R =>
    if R.code ≤ 1 then { s with work := { s.work with replays := aset s.work.replays r { R with code := code, node := node } } }
    else s

/-- Cancels a job (R377): it performs no further access and completes with STATUS 5. -/
def Job.cancel (j : Job) : Job := if j.status = 0 then { j with status := 5 } else j

/-- Ends every board request of a team as `HCANCEL` does (R291, R377): captured tiles are still delivered. -/
def Team.cancelBoards (T : Team) : Team :=
  let cut (e : Nat × Board) : Nat × Board := (e.1, { e.2 with tiles := [], drop := [], back := .gone })
  { T with boards := (T.boards.map cut).filter fun e => decide (e.2.captured ≠ []) }

/-- Ends a grid: its teams stop issuing for good, its jobs and board requests are cancelled, CODE 9 is recorded. -/
def State.endGrid (s : State) (g : Nat) : State :=
  match s.grid? g with
  | none => s
  | some G =>
    let ids := (s.teams.filter fun e => decide (e.2.grid = g)).map (·.1)
    let stop (e : Nat × Team) : Nat × Team :=
      if e.2.grid = g then (e.1, { e.2.cancelBoards with stopped := true }) else e
    let s1 := { s with
      teams := s.teams.map stop
      jobs := s.jobs.map fun (j : Job) => if j.team.any (ids.contains ·) then j.cancel else j }
    (s1.setGrid g { G with fatal := true }).failReplay G.replay 9 G.node

/-- A fatal stop: the grid ends and one report is raised. -/
def State.fatalStop (s : State) (r : Ref) (cause arg : Nat) (epc : Dword) (peer info : Nat) : State :=
  match s.team? r.t with
  | none => s
  | some T => (s.endGrid T.grid).teamReport T 1 cause arg r.b peer epc.toNat info

/-! ### Causes (R379) -/

def cILLEGAL : Nat := 1
def cREGBOUND : Nat := 2
def cSTALLSHORT : Nat := 3
def cMISALIGN : Nat := 4
def cPROT : Nat := 5
def cMEMFAULT : Nat := 6
def cPOISON : Nat := 7
def cKVPOISON : Nat := 8
def cKVTAG : Nat := 9
def cFOOTPRINT : Nat := 10
def cHALOTILE : Nat := 11
def cSCOPECAP : Nat := 12
def cUNSUPP : Nat := 13
def cREMOTEFATAL : Nat := 14
def cPASTATE : Nat := 15
def cSOFT : Nat := 16
def cBREAK : Nat := 17

/-- `POISON` from an uncorrectable error in the team's own state, which is fatal (R380). Its code in the 8 bits of a report or of
`%cause` is that of `POISON`. -/
def cPOISONOWN : Nat := 256 + cPOISON

/-! ### Errors in a team's own state (R380) -/

/-- A read of registers of beam k meets an uncorrectable error: in the window slot where it holds them, in the file otherwise. -/
def Team.badRegs (T : Team) (k : Nat) (b : Beam) (names : List Nat) : Bool :=
  T.bad.any fun x =>
    match x with
    | .file i n => decide (i = k) && names.contains n && !b.inWin n
    | .slot i n => decide (i = k) && names.contains n && b.inWin n
    | _ => false

/-- A read of bytes `[lo, lo + n)` of the scratchpad meets an uncorrectable error. -/
def Team.badScratch (T : Team) (lo n : Nat) : Bool :=
  T.bad.any fun x => match x with | .scratch w => decide (lo < 4 * w + 4) && decide (4 * w < lo + n) | _ => false

/-! ### The halt (R182, R381, R382) -/

/-- The sub-step a long instruction reached. -/
def Long.step (o : Long) : Nat :=
  match o with
  | .div _ _ _ _ _ _ n => n
  | .coal _ _ _ n => n
  | .kvw _ _ _ n => n
  | .kvr _ _ _ _ _ n => n
  | .region _ _ n _ => n
  | .pald _ n _ => n
  | .gatj _ _ _ _ _ _ n => n

/-- A long instruction has scratchpad left to read: the rows of a `PALD` (R325), the index list of a `GATJ` (R273). -/
def Long.scrReads (o : Long) : Bool :=
  match o with
  | .pald _ n _ => decide (n < 8)
  | .gatj _ _ _ entries _ _ n => decide (32 * n < entries)
  | _ => false

/-- A long instruction of the beam has scratchpad left to read: the beam's later scratchpad accesses come after it (R149). -/
def Beam.scrReading (b : Beam) : Bool := b.longs.any fun l => l.op.scrReads

/-! ### Lanes of key-value instructions (R303 to R305) -/

def KvLane.lane (k : KvLane) : Nat := k.arg.lane
def KvLane.ctx (k : KvLane) : Nat := k.arg.ctx
def KvLane.pos (k : KvLane) : Nat := k.arg.pos
def KvLane.layer (k : KvLane) : Nat := k.arg.layer
def KvLane.unit (k : KvLane) : Nat := k.arg.unit
def KvLane.tenant (k : KvLane) : BitVec 16 := k.d.tenant

/-- The position is committed (R299). -/
def KvLane.committed (k : KvLane) : Bool := decide (k.arg.pos < k.d.cmt)

/-- Element size in bytes (R294). -/
def KDesc.es (d : KDesc) : Nat := if d.fmt = 2 then 1 else 2
def KvLane.es (k : KvLane) : Nat := k.d.es

/-- The identifier of a long memory instruction, by which its packets, its log entries and its result know it. -/
def Long.inst (o : Long) : Option Nat :=
  match o with
  | .coal i _ _ _ => some i
  | .kvw i _ _ _ => some i
  | .kvr _ _ _ _ i _ => some i
  | _ => none

/-- The parts of its result that a long memory instruction has not asked for: packets to send, sub-steps to read. -/
def Long.left (o : Long) : Nat :=
  match o with
  | .coal _ gs _ n => (gs.drop n).flatten.length
  | .kvr _ _ _ _ _ n => Nat.max 1 (4 - n)
  | _ => 0

/-- The long instruction that the beam issued last, if it has not finished; after a restore, the one that goes on. -/
def Beam.lastLong (b : Beam) : Option LongRun :=
  match b.longs.getLast? with
  | none => none
  | some l => if b.lastIssue = some l.at_ ∨ b.lastIssue = none then some l else none

/-- `%pix` holds the sub-step that runs (R192, R305, R325); in a handler it is left to the handler (R183, DEDUCED, log 57), and what a
stop has recorded in it stays while an earlier long instruction runs to its end (R381). -/
def Beam.atStep (b : Beam) (n : Nat) : Beam :=
  if causeInh b.cause = true ∨ b.halt = .stopped ∨ b.latched.isSome = true then b else { b with pix := BitVec.ofNat 32 n }

/-- The sub-steps of a `REGION` from sub-step `n` on (R90): write-backs of dirty groups, then copies. -/
def regionSteps (dirty : BitVec 4) (n : Nat) : List Nat :=
  (List.range 8).filter fun g => decide (n ≤ g) && (decide (4 ≤ g) || dirty.getLsbD g)

/-- The cycles that a `REGION` takes from sub-step `n` on. -/
def Beam.regionTime (b : Beam) (n : Nat) : Nat := 8 + 16 * (regionSteps b.dirty n).length

/-- The sub-step that a `REGION` which started at sub-step `n` has reached by cycle `now`: 8 setup cycles, then 16 for each
sub-step. -/
def Beam.regionAt (b : Beam) (n : Nat) (start : Option Nat) (now : Nat) : Nat :=
  match start with
  | none => n
  | some s => ((regionSteps b.dirty n).drop ((now - s - 8) / 16)).headD 8

/-- No write to a register of the beam is pending (R90). -/
def Beam.noWrites (b : Beam) : Bool := decide (b.pends = []) && b.fix.all fun f => decide (f.names = [])

/-- A waiting `REGION` starts in the cycle in which no write is pending any more (R90). -/
def Beam.regionBegin (b : Beam) (now : Nat) : Beam :=
  let go (l : LongRun) : LongRun :=
    match l.op with
    | .region v f n none => { l with op := .region v f n (some now) }
    | _ => l
  if b.status = .region ∧ b.noWrites = true then { b with longs := b.longs.map go } else b

/-- A long instruction as it is stopped at cycle `now`. -/
def Beam.stopLong (b : Beam) (l : LongRun) (now : Nat) : LongRun :=
  match l.op with
  | .region v f n st => { l with op := .region v f (b.regionAt n st now) none }
  | _ => l

/-- The results that a stopped memory instruction has not asked for are awaited no longer (R226). -/
def Beam.cutPend (b : Beam) (l : LongRun) : Beam := l.op.inst.elim b fun i => b.pendAdd i [] l.op.left

/-- Stops a beam where it stands: what it records in `%epc` and `%pix`, and whether its last instruction is a long one
stopped part way (R381). -/
def Beam.stop (b : Beam) (now : Nat) : Beam :=
  let b := { b with halt := .stopped }
  match b.lastLong with
  | some l =>
    let m := b.stopLong l now
    { b.cutPend l with longs := b.longs.dropLast, latched := some m, epc := m.pc, pix := BitVec.ofNat 32 m.op.step, sibProg := true }
  | none =>
    match b.mcall with
    | some c => { b with epc := b.pc, pix := BitVec.ofNat 32 c.word, sibProg := true }
    | none => { b with epc := b.pc }

/-- Withdraws the watch of a beam waiting at `WAITM`, and a held `KVWAIT` or `KVPUB`: the instruction issues again from
its start; a withdrawn `KVPUB` leaves `%orc` (R381, R384). -/
def Beam.withdraw (b : Beam) : Beam :=
  match b.status with
  | .watch p _ _ _ _ => { b.pendDrop p with status := .ready, pc := b.waitPc }
  | .kvwait _ _ _ _ p _ => { b.pendDrop p with status := .ready, pc := b.waitPc }
  | .kvpub _ _ _ _ _ _ => { b with status := .ready, pc := b.waitPc, orc := b.orc - 1 }
  | _ => b

/-- Drops the watches a beam holds. -/
def State.dropWatches (s : State) (r : Ref) : State :=
  { s with net := { s.net with watches := s.net.watches.filter fun w =>
      match w.who with
      | .beam q _ => decide (q ≠ r)
      | .node _ _ => true } }

/-- A beam stops in a wait: a yielded one is ready again, a watch or a held context operation is withdrawn. -/
def Beam.stopWait (b : Beam) (now : Nat) : Beam :=
  match b.status with
  | .yielded _ _ => ({ b with status := .ready } : Beam).stop now
  | _ => b.withdraw.stop now

/-- How many instructions a beam may issue after the halt (R182): none after a long one that is stopped (R381). -/
def Beam.skidLeft (b : Beam) : Nat := if b.lastLong.isSome then 0 else 3

/-- The halt reaches a sibling: a beam with nothing in the way of issue may skid, one whose last instruction is a long one
stops at its next sub-step boundary, every other stops. -/
def Beam.halted (b0 : Beam) (now : Nat) : Beam :=
  let b := { b0 with reuse := none }
  match b.halt with
  | .stopped => b
  | _ =>
    match b.status with
    | .retired => b
    | .ready => { b with halt := .skidding b.skidLeft now, skid := 0 }
    | .region => { b with halt := .skidding 0 now, skid := 0 }
    | _ => { b.stopWait now with skid := 0 }

/-- The stopped long instruction of a beam goes on from its sub-step at cycle `now`: a `REGION` takes its setup cycles again
(R90), a memory instruction is issued again with the operands it latched (R226, R305). -/
def Beam.goOn (b : Beam) (now : Nat) : Beam :=
  match b.latched with
  | none => b
  | some l =>
    match l.op.inst with
    | some _ => { b with pc := l.pc, resume := some l.op.step }
    | none => ({ b with latched := none, longs := b.longs ++ [{ l with at_ := b.lastIssue.getD 0, since := now }] }).regionBegin now

/-- A beam stopped inside a microprogram fetches its `MCALL` again, which resumes at the body word reached (R93). -/
def Beam.recall (b : Beam) : Beam :=
  match b.mcall with
  | none => b
  | some c => { b with mcall := none, resume := some c.word }

/-- A sibling resumes after the handler (R183), with no fixed-latency result pending (R87). -/
def Beam.resumed (b : Beam) (now : Nat) : Beam :=
  match b.halt with
  | .run => b
  | _ => { (b.goOn now).recall.afterFixed with halt := .run, sibProg := false }

/-- Every sibling of beam k resumes; the team has no handler. -/
def Team.resumeSiblings (T : Team) (k now : Nat) : Team :=
  { T with beams := T.beams.mapIdx fun i b => if i = k then b else b.resumed now, handler := none }

/-! ### Taking an exception (R182) -/

/-- Fatal causes (R379, R380). -/
def fatalCause (c : Nat) : Bool := decide (c = cREMOTEFATAL) || decide (c = cPOISONOWN)

/-- A beam leaves its wait for a trap that an earlier instruction of it raised: what the waiting instruction had still to write is no longer
pending. A `REGION` and a `PACAP`, whose ends the machine's own time brings, run to their ends first (R382; DESIGN CHOICE, log 79). -/
def Beam.quit (b : Beam) : Beam :=
  match b.status with
  | .region => b
  | .pacap _ _ => b
  | .watch p _ _ _ _ => { b.pendDrop p with status := .ready }
  | .kvwait _ _ _ _ p _ => { b.pendDrop p with status := .ready }
  | .kvpub _ _ _ _ _ _ => { b with status := .ready, orc := b.orc - 1 }
  | .xchg _ _ _ _ p => { b.pendDrop p with status := .ready }
  | .qacq _ _ p => { b.pendDrop p with status := .ready }
  | .qwait _ _ p => { b.pendDrop p with status := .ready }
  | .board _ _ _ _ _ _ p => { b.pendDrop p with status := .ready }
  | _ => { b with status := .ready }

/-- Beam k of the team enters its handler, whose first instruction issues with no fixed-latency result pending (R87). `pix` is
the sub-step reached where the instruction has made progress. -/
def Beam.enter (b0 : Beam) (cause arg : Nat) (epc : Dword) (pix : Option Nat) : Beam :=
  let b := b0.afterFixed.quit
  { b with
    reuse := none
    cause := causeEntry b.cause cause arg pix.isSome
    pix := match pix with | some n => BitVec.ofNat 32 n | none => b.pix
    epc := epc
    eexm := b.exm
    exm := b.lvm
    skid := 0
    pc := (b.entry.extractLsb' 32 32 : BitVec 32) ++ b.tvec
    mcall := none
    resume := none }

/-- Trap entry: a skidding or stopped sibling stops before the instruction without trapping; a fatal cause, a cause inside
a handler or without a handler stops the team; otherwise the siblings are halted and the beam enters its handler. -/
def State.takeTrap (s : State) (r : Ref) (cause arg : Nat) (epc : Dword) (pix : Option Nat) (peer info : Nat) : State :=
  match s.team? r.t with
  | none => s
  | some T =>
    match T.beams[r.b]? with
    | none => s
    | some b =>
      if b.halt ≠ .run then
        s.setBeam r (if b.lastLong.isSome then { b with halt := .skidding 0 s.clock } else b.stop s.clock)
      else if fatalCause cause = true ∨ causeInh (b.land s.clock).cause = true ∨ (b.land s.clock).tvec = 0 then
        s.fatalStop r cause arg epc peer info
      else
        let T1 := { T with
          beams := T.beams.mapIdx fun i c => if i = r.b then (c.land s.clock).enter cause arg epc pix else c.halted s.clock
          handler := some r.b }
        let drop := T.beams.mapIdx fun i c => if i ≠ r.b ∧ c.halt ≠ .stopped then [⟨r.t, i⟩] else ([] : List Ref)
        drop.flatten.foldl State.dropWatches (s.setTeam r.t T1)

/-- A trap of an instruction that issued earlier: in a team that is not running, or a beam that is halted, it is recorded and
entered when the beam goes on (R385). A beam with no live lane only waits to retire (R164): nothing is trapped in it. -/
def State.lateTrap (s : State) (r : Ref) (cause arg : Nat) (epc : Dword) (pix : Option Nat) (peer info : Nat) : State :=
  match s.team? r.t with
  | none => s
  | some T =>
    match T.beams[r.b]? with
    | none => s
    | some b =>
      let runs : Bool := match T.life with | .resident _ => decide (b.halt = .run) | _ => false
      if T.stopped then s
      else if fatalCause cause then s.fatalStop r cause arg epc peer info
      else if b.lvm = 0 then s
      else if runs then s.takeTrap r cause arg epc pix peer info
      else s.setBeam r { b.quit with ptrap := some (b.ptrap.getD ⟨cause, arg, epc, pix, peer, info⟩) }

/-- The recorded trap of a beam is entered. -/
def State.enterPending (s : State) (r : Ref) : State :=
  match s.beam? r with
  | none => s
  | some b =>
    match b.ptrap with
    | none => s
    | some p => (s.setBeam r { b with ptrap := none }).takeTrap r p.cause p.arg p.epc p.prog p.peer p.info

/-! ### Returning from an exception (R183) -/

/-- The handler's beam after a return to an aligned target. -/
def Beam.leave (b : Beam) : Beam :=
  { b with
    exm := b.eexm
    cause := b.cause &&& 0x1FFFF#32
    resume := if causePixv b.cause then some b.pix.toNat else none
    pc := b.epc }

/-- The return: the handler's beam leaves, no fixed-latency result of it is pending when it resumes (R87), and its
siblings resume. -/
def State.eret (s : State) (r : Ref) : State :=
  s.modTeam r.t fun T =>
    Team.resumeSiblings { T with beams := T.beams.mapIdx fun i b =>
      if i = r.b then b.leave.afterFixed else b } r.b s.clock

/-- The handler's beam has no live lane left: INH is cleared and the siblings resume (R183). -/
def State.handlerGone (s : State) (r : Ref) : State :=
  s.modTeam r.t fun T =>
    Team.resumeSiblings { T with beams := T.beams.mapIdx fun i b =>
      if i = r.b then { b with cause := b.cause &&& 0xFFFDFFFF#32 } else b } r.b s.clock

end Sys2Proof.Machine
end

