-- ==== Sys2Proof/Machine/PrismOps.lean ====
section
/-! DEFINITION. The Prism array's evaluation (R319) and the end of a window (R327, R328). -/

namespace Sys2Proof.Machine

def Prism.delay (p : Prism) (i j : Nat) : Nat := (sget prismDefault p.delays (64 * i + j)).toNat

def Prism.inp (p : Prism) (i : Nat) : Nat := (sget prismDefault p.ins i).toNat

/-- The inputs connected to output j. -/
def Prism.connected (p : Prism) (j : Nat) : List Nat := (List.range 64).filter fun i => p.delay i j ≠ 255

/-- R319: the time of output j, 255 where it never rises, before the window is applied. -/
def Prism.arrival (p : Prism) (j : Nat) : Nat :=
  let c := p.connected j
  let sum (i : Nat) : Nat := p.inp i + p.delay i j
  if p.max then
    if c.any fun i => decide (p.inp i = 255) then 1000
    else match c with | [] => 1000 | i :: r => r.foldl (fun m k => Nat.max m (sum k)) (sum i)
  else
    match c.filter fun i => decide (p.inp i ≠ 255) with
    | [] => 1000
    | i :: r => r.foldl (fun m k => Nat.min m (sum k)) (sum i)

/-- R319: time and winner of output j. -/
def Prism.evaluate (p : Prism) (j : Nat) : Nat × Nat :=
  let t := p.arrival j
  if t ≥ p.w.toNat then (255, 255)
  else (t, ((p.connected j).find? fun i => decide (p.inp i ≠ 255) && decide (p.inp i + p.delay i j = t)).getD 255)

/-- The outputs and winners of every output, latched together (R327). -/
def Prism.latch (p : Prism) : Prism :=
  let r := (List.range 64).map fun j => (j, p.evaluate j)
  { p with
    state := .done
    outs := ssetAll prismDefault [] (r.map fun e => (e.1, BitVec.ofNat 8 e.2.1))
    wins := ssetAll prismDefault [] (r.map fun e => (e.1, BitVec.ofNat 8 e.2.2)) }

/-- What `PACAP` delivers to lane l (R328). -/
def Prism.result (p : Prism) (l : Nat) : Word :=
  sget prismDefault p.wins (2 * l + 1) ++ sget prismDefault p.wins (2 * l) ++ sget prismDefault p.outs (2 * l + 1) ++
    sget prismDefault p.outs (2 * l)

/-- Results delivered to every lane of register d. -/
def Prism.results (p : Prism) (d : Nat) : List (Nat × Word) := lanes.map fun l => (regKey d l, p.result l)

/-- Serves a beam that waits at `PACAP` (R328). -/
def Beam.servePacap (b : Beam) (p : Prism) : Beam :=
  match b.status with
  | .pacap d id =>
    { b with
      status := .ready
      pends := b.pends.map fun q =>
        if q.id = id then { q with vals := p.results d, wait := 0, ready := p.doneAt + 4 } else q }
  | _ => b

/-- Whether some beam waits at `PACAP`. -/
def Team.pacapWaits (T : Team) : Bool :=
  T.beams.any fun b => match b.status with | .pacap _ _ => true | _ => false

/-- The window ends: the results are latched; every `PACAP` that waits is served and the array is idle again. -/
def Team.prismEnd (T : Team) : Team :=
  let p := T.prism.latch
  if T.pacapWaits then
    { T with prism := { p with state := .idle }, beams := T.beams.map fun b => b.servePacap p }
  else { T with prism := p }

/-- A `PALD` of the team is still running, or stopped by a halt (R321). -/
def Team.paldRuns (T : Team) : Bool :=
  T.beams.any fun b => (b.longs ++ b.latched.toList).any fun l => match l.op with | .pald _ _ _ => true | _ => false

end Sys2Proof.Machine
end

