-- ==== Sys2Proof/Machine/Operands.lean ====
section
/-! DEFINITION. Operands of an issuing instruction: base words as extended ones with absolute registers (R15, R32), the
registers an instruction names (R27), its far operands (R89), its class of latency (R83), the active lanes (R28) and
the values its source fields read (R29). -/

namespace Sys2Proof.Machine

/-! ### Base words in the extended form (R15, R16, R32) -/

/-- An extended instruction with every field zero. -/
def Ext.zero : Ext :=
  { st := 0, d := 0, immb := false, flg := 0, a := 0, b := 0, c := 0, p := 0, pe := false, pn := false, bcm := 0,
    bcs := 0, bln := 0, ru := false, x10 := 0, lit := none }

/-- The register a window index names: a parameter inside a body, v(`%wb` + w) otherwise (R15). -/
def Beam.winReg (b : Beam) (w : BitVec 7) : BitVec 10 :=
  match b.mcall with
  | some c => if 120 ≤ w.toNat then BitVec.ofNat 10 (c.params.getD (w.toNat - 120) 0) else b.wb + w.setWidth 10
  | none => b.wb + w.setWidth 10

/-- The imm7 field as the twin's immediate (R16): signed for `ADDI` and `ANDI`. -/
def imm7Ext (op : Nat) (imm : BitVec 7) : BitVec 10 :=
  if op = 0x10 ∨ op = 0x14 then imm.signExtend 10 else imm.setWidth 10

/-- The twin that a base word behaves as (R32). -/
def Beam.baseExt (b : Beam) (op : Nat) (o : BaseOps) : Ext :=
  match o with
  | .b3 o =>
    { Ext.zero with
      st := o.st, d := b.winReg o.d, a := b.winReg o.a,
      b := if o.lit.isSome then 0 else b.winReg o.b, immb := o.lit.isSome, lit := o.lit }
  | .bi o =>
    { Ext.zero with
      st := o.st, d := b.winReg o.d, a := b.winReg o.a, b := imm7Ext op o.imm, immb := true }
  | .bb o =>
    { Ext.zero with st := o.st, a := b.winReg o.a, immb := true, lit := some (o.off.signExtend 64) }
  | .bj o => { Ext.zero with st := o.st, immb := true, lit := some (o.off.signExtend 64) }
  | .bz o => { Ext.zero with st := o.st }

/-- Bytes of a base instruction (R8). -/
def baseBytes (o : BaseOps) : Nat :=
  match o with
  | .b3 o => if o.lit.isSome then 12 else 4
  | _ => 4

/-! ### Registers named -/

/-- How many registers a field names. -/
def useLen (u : Use) : Nat :=
  match u with
  | .no => 0
  | .src n _ => n
  | .dst n _ => n
  | .acc n _ => n

def useReads (u : Use) : Bool :=
  match u with
  | .src _ _ => true
  | .acc _ _ => true
  | _ => false

def useWrites (u : Use) : Bool :=
  match u with
  | .dst _ _ => true
  | .acc _ _ => true
  | _ => false

/-- The registers of a field. -/
def useRegs (u : Use) (v : BitVec 10) : List Nat := (List.range (useLen u)).map fun i => v.toNat + i

/-- The fields of an instruction that name registers: their use and their first register. An immediate names none. -/
def namedFields (g : Sig) (x : Ext) : List (Use × BitVec 10) :=
  [(g.d, x.d), (g.a, x.a), (if x.immb then .no else g.b, x.b), (g.c, x.c), (if x.pe then .src 1 1 else .no, x.p)]

/-- Every register that the instruction reads. -/
def readNames (g : Sig) (x : Ext) : List Nat :=
  (namedFields g x).flatMap fun e => if useReads e.1 then useRegs e.1 e.2 else []

/-- Every register that the instruction writes. -/
def writeNames (g : Sig) (x : Ext) : List Nat := if useWrites g.d then useRegs g.d x.d else []

/-- Every name lies below the budget (R27). -/
def inBudget (g : Sig) (x : Ext) (budget : Nat) : Bool :=
  (namedFields g x).all fun e => decide (useLen e.1 = 0) || decide (e.2.toNat + useLen e.1 ≤ budget)

/-- The blocks of 32 registers that a group touches. -/
def groupBlocks (n len : Nat) : List Nat := (List.range ((n + len - 1) / 32 - n / 32 + 1)).map fun i => n / 32 + i

/-- Far operands of one field (R89). -/
def farOf (b : Beam) (u : Use) (v : BitVec 10) : Nat :=
  let n := useLen u
  if n = 0 then 0
  else if n ≤ 2 then (if b.inWin v.toNat then 0 else 1)
  else ((groupBlocks v.toNat n).filter fun k => !b.inWin (32 * k)).length

/-- The far-operand count (R89). -/
def farCount (b : Beam) (g : Sig) (x : Ext) : Nat := (namedFields g x).foldl (fun m e => m + farOf b e.1 e.2) 0

/-! ### Latency classes (R83) -/

/-- The fixed latency of an extended opcode; `none` for the variable-latency ones and those that write no register. -/
def fixedLat (n : Nat) : Option Nat :=
  if n = 0x2F then some 3
  else if (0x01 ≤ n ∧ n ≤ 0x1B) ∨ n = 0x38 ∨ n = 0x3C ∨ n = 0x3D ∨ n = 0x3E ∨ n = 0x04D ∨ n = 0x082 ∨ n = 0x083 ∨
    (0x085 ≤ n ∧ n ≤ 0x08D) ∨ (0x09C ≤ n ∧ n ≤ 0x0A1) then some 4
  else if (0x1C ≤ n ∧ n ≤ 0x2C) ∨ n = 0x080 ∨ n = 0x081 ∨ n = 0x084 ∨ (0x092 ≤ n ∧ n ≤ 0x095) ∨
    (0x100 ≤ n ∧ n ≤ 0x108) ∨ (0x10F ≤ n ∧ n ≤ 0x118) then some 6
  else if n = 0x09B then some 8
  else if n = 0x3A ∨ n = 0x3B ∨ (0x096 ≤ n ∧ n ≤ 0x099) ∨ (0x119 ≤ n ∧ n ≤ 0x11D) then some 12
  else if 0x109 ≤ n ∧ n ≤ 0x10E then some 14
  else none

/-! ### The issuing instruction -/

/-- What an issuing instruction sees: its beam and team as they are at the issue cycle, its opcode and fields, what its
fields mean, its length in bytes, its far-operand count and its active lanes. -/
structure Env where
  r   : Ref
  T   : Team
  b   : Beam
  n   : Nat
  x   : Ext
  g   : Sig
  len : Nat
  far : Nat
  act : Word
  now : Nat
  deriving DecidableEq, Repr

/-- The active lanes (R28). -/
def activeMask (b : Beam) (x : Ext) : Word :=
  let m := b.exm &&& b.lvm
  if x.pe then m &&& maskOf fun l => (b.rd x.p.toNat l).getLsbD 0 != x.pn else m

namespace Env

/-- Lane l is active. -/
def active (e : Env) (l : Nat) : Bool := maskBit e.act l

/-- The active lanes, ascending. -/
def activeLanes (e : Env) : List Nat := lanes.filter e.active

def anyActive (e : Env) : Bool := decide (e.act ≠ 0)

/-- The lowest active lane; the lowest live one where no lane is active, which only a control instruction or one that acts for its
beam reads (R29, DESIGN CHOICE, log 58). -/
def firstActive (e : Env) : Nat := if e.act = 0 then lowestLane e.b.lvm else lowestLane e.act

/-- The lane from which field `f` (0 A, 1 B, 2 C) is read for lane l (R29). -/
def lane (e : Env) (f l : Nat) : Nat :=
  if e.x.bcm ≠ 0 ∧ e.x.bcs.toNat = f then (if e.x.bcm = 1 then e.x.bln.toNat else e.firstActive) else l

/-- operand(A, l) of R29. -/
def a (e : Env) (l : Nat) : Word := e.b.rd e.x.a.toNat (e.lane 0 l)

/-- operand(B, l) of R29. -/
def bv (e : Env) (l : Nat) : Word := if e.x.immb then e.x.immWord else e.b.rd e.x.b.toNat (e.lane 1 l)

/-- operand(C, l) of R29. -/
def c (e : Env) (l : Nat) : Word := e.b.rd e.x.c.toNat (e.lane 2 l)

/-- The old value of D. -/
def dOld (e : Env) (l : Nat) : Word := e.b.rd e.x.d.toNat l

/-- The A pair. -/
def aPair (e : Env) (l : Nat) : Dword := e.b.rdPair e.x.a.toNat (e.lane 0 l)

/-- The B pair, or the 64-bit immediate. -/
def bPair (e : Env) (l : Nat) : Dword := if e.x.immb then e.x.immDword else e.b.rdPair e.x.b.toNat (e.lane 1 l)

/-- Register `A + i` in lane l. -/
def aReg (e : Env) (i l : Nat) : Word := e.b.rd (e.x.a.toNat + i) (e.lane 0 l)

/-- Register `C + i` in lane l. -/
def cReg (e : Env) (i l : Nat) : Word := e.b.rd (e.x.c.toNat + i) (e.lane 2 l)

/-- The lane whose value stands for the whole beam (R163): the lowest live lane, or the broadcast lane. -/
def liveLane (e : Env) : Nat :=
  if e.x.bcm = 1 then e.x.bln.toNat
  else if e.x.bcm = 2 ∧ e.act ≠ 0 then e.firstActive
  else lowestLane e.b.lvm

/-- A of the beam (R163). -/
def aLive (e : Env) : Word := e.b.rd e.x.a.toNat e.liveLane

/-- The A pair of the beam (R163). -/
def aPairLive (e : Env) : Dword := e.b.rdPair e.x.a.toNat e.liveLane

/-- Register `n` of the beam in the lowest live lane. -/
def regLive (e : Env) (n : Nat) : Word := e.b.rd n (lowestLane e.b.lvm)

/-- The address of the instruction; inside a body, of the `MCALL` (R93). -/
def pc (e : Env) : Dword := e.b.pc

/-- The next sequential address (R7). -/
def nextPc (e : Env) : Dword := e.b.pc + BitVec.ofNat 64 e.len

/-- The earliest cycle of the beam's next issue (R82). -/
def next (e : Env) : Nat := e.now + 1 + e.x.st.toNat + 4 * e.far

/-- The ready cycle of a fixed-latency result (R83). -/
def readyAt (e : Env) : Nat := e.now + 4 * e.far + (fixedLat e.n).getD 0

end Env

end Sys2Proof.Machine
end

