-- ==== Sys2Proof/Machine/Flags.lean ====
section
/-! DEFINITION. The computation of `%fflags` over lanes and elements (R64, R65), and the rounding mode an instruction
selects (R24, R63). -/

namespace Sys2Proof.Machine

/-- The exceptions of every active lane, ORed (R65). -/
def lanesFlags (ls : List Nat) (f : Nat → Flags) : Flags := ls.foldl (fun m l => m ||| f l) 0

/-- A packed operation: both halves, and the exceptions of either (R63, R65). -/
def packed2 (f : Nat → Nat → Nat × Flags) (a b : Word) : Word × Flags :=
  let lo := f (a.toNat % 65536) (b.toNat % 65536)
  let hi := f (a.toNat / 65536) (b.toNat / 65536)
  (BitVec.ofNat 32 (lo.1 + 65536 * hi.1), lo.2 ||| hi.2)

/-- A packed operation of three operands. -/
def packed3 (f : Nat → Nat → Nat → Nat × Flags) (a b c : Word) : Word × Flags :=
  let lo := f (a.toNat % 65536) (b.toNat % 65536) (c.toNat % 65536)
  let hi := f (a.toNat / 65536) (b.toNat / 65536) (c.toNat / 65536)
  (BitVec.ofNat 32 (lo.1 + 65536 * hi.1), lo.2 ||| hi.2)

/-- The rounding mode of X10 [2:0]: code 0 selects `%rmode` (R24, R63). -/
def Env.rmode (e : Env) : RMode :=
  if e.x.xf 0 3 = 0 then RMode.ofCode e.b.rmode.toNat else RMode.ofCode (e.x.xf 0 3)

end Sys2Proof.Machine
end

