-- ==== Sys2Proof/Machine/Issue.lean ====
section
/-! DEFINITION. Issue (R27, R39, R82 to R87, R107): what every instruction of a beam does before and after its own effect.
`Issue.start` decides whether the instruction issues, waits or traps; `Issue.finish` moves the beam on. -/

namespace Sys2Proof.Machine

/-! ### What has come due by the issue cycle -/

/-- A team-word write is applied (R175, R176): its read and its write are one step. -/
def TwWrite.result (w : TwWrite) (old : Word) : Word :=
  match w.op with
  | .write v => v
  | .add v => old + v
  | .cas e v => if old = e then v else old

/-- The oldest team-word write is applied; `TWADD` and `TWCAS` return the old value to their active lanes (R176). -/
def Team.applyTw (T : Team) (w : TwWrite) : Team :=
  let old := sget 0 T.tw w.word
  let T1 := { T with tw := sset 0 T.tw w.word (w.result old) }
  match w.pend with
  | none => T1
  | some id =>
    match T1.beams[w.beam]? with
    | none => T1
    | some b =>
      T1.setBeam w.beam (b.pendAdd id ((lanes.filter fun l => maskBit w.mask l).map fun l => (regKey w.d l, old)) 1)

/-- Applies the writes due by `now`, in order. -/
def applyTws (T : Team) (now : Nat) (l : List TwWrite) : Team :=
  match l with
  | [] => { T with twq := [] }
  | w :: r => if w.due ≤ now then applyTws (T.applyTw w) now r else { T with twq := w :: r }

/-- Puts a write in order of due cycle, then beam index (R176). -/
def insertTw (w : TwWrite) (l : List TwWrite) : List TwWrite :=
  match l with
  | [] => [w]
  | v :: r => if w.due < v.due ∨ (w.due = v.due ∧ w.beam < v.beam) then w :: v :: r else v :: insertTw w r

/-- The end of a Prism window whose cycle has come (R327). -/
def Team.prismDue (T : Team) (now : Nat) : Team :=
  if T.prism.state = .running ∧ T.prism.doneAt ≤ now then T.prismEnd else T

/-- Tile declarations whose 4 cycles have passed take their effect (R231). -/
def Team.tileDue (T : Team) (now : Nat) : Team :=
  { T with
    tiles := ssetAll TileSlot.init T.tiles ((T.tileq.filter fun q => decide (q.1 ≤ now)).map (·.2))
    tileq := T.tileq.filter fun q => decide (now < q.1) }

/-- Brings a team and its beam k up to cycle `now`. -/
def Team.settle (T : Team) (now k : Nat) : Team :=
  let T1 := ((applyTws T now T.twq).tileDue now).prismDue now
  match T1.beams[k]? with
  | none => T1
  | some b => T1.setBeam k (b.land now)

/-! ### Whether a beam may issue (R107) -/

/-- No sibling of beam k still skids: the handler's first instruction comes after the halt (R182). -/
def Team.quiet (T : Team) (k : Nat) : Bool :=
  decide (T.handler ≠ some k) ||
    T.beams.all fun b => match b.halt with | .skidding _ _ => false | _ => true

/-- The gang gate of a partition is closed (R359). -/
def State.gateClosed (s : State) (p : Nat) : Bool := s.regs.gang.closed.getLsbD p

def Team.isResident (T : Team) : Bool :=
  match T.life with
  | .resident _ => true
  | _ => false

/-- The halt leaves the beam an instruction to issue, as it does in the cycle of the trap itself (R182), and no trap waits to be
entered. -/
def Beam.canGo (b : Beam) (now : Nat) : Bool :=
  (match b.halt with
   | .run => true
   | .skidding left since => decide (left ≠ 0) || decide (now ≤ since)
   | .stopped => false) && b.ptrap.isNone

/-- A beam is ready but for its instruction's registers (R107). -/
def Beam.mayIssue (b : Beam) (now : Nat) : Bool :=
  decide (b.status = .ready) && b.canGo now && decide (b.lvm ≠ 0) && decide (b.issueAt ≤ now)

/-- The operand log entries that a restore had to replay are not all replayed (R390). -/
def State.owes (s : State) (T : Team) : Bool := T.owed.any fun i => s.net.log.any fun g => decide (g.id = i)

def State.mayIssue (s : State) (T : Team) (b : Beam) (k : Nat) : Bool :=
  T.isResident && !T.stopped && T.quiet k && !s.gateClosed (s.partOf T) && !s.sys.d3hot && !s.owes T && b.mayIssue s.clock

/-- The scoreboard blocks an instruction that reads or writes a pending register (R84). -/
def Beam.blocked (b : Beam) (g : Sig) (x : Ext) : Bool :=
  let p := b.pendNames
  (readNames g x ++ writeNames g x).any fun n => p.contains n

/-- A fixed-latency hazard at cycle `now` (R86). `own` is the ready cycle of the instruction's own result, none for a
variable-latency writer. -/
def Beam.hazard (b : Beam) (g : Sig) (x : Ext) (now : Nat) (own : Option Nat) : Bool :=
  b.fix.any fun f =>
    decide (f.ready > now) && (f.names.any fun n => (readNames g x).contains n) ||
    (f.names.any fun n => (writeNames g x).contains n) &&
      (match own with | some c => decide (f.ready ≥ c) | none => true)

/-- What an instruction's own part answers: it is done, it is done and the PC moves to `pc`, it traps (with an argument,
an address other than its own, a sub-step reached, an address to report), it traps having changed the state, another device
or plane that it needs cannot be reached (R236, R242, R407), it is held before issue, or it does not issue and the beam waits. -/
inductive Res where
  | done (s : State)
  | jump (s : State) (pc : Dword)
  | trap (cause arg : Nat) (epc : Option Dword) (pix : Option Nat) (info : Nat)
  | late (s : State) (cause : Nat) (pix : Option Nat) (info : Nat)
  | remote (info peer : Nat)
  | hold
  | wait (s : State)
  deriving DecidableEq, Repr

/-- A precise trap at the instruction's own address. -/
def Res.trapOwn (cause : Nat) : Res := .trap cause 0 none none 0

/-- How an attempt to issue begins. -/
inductive Start where
  | noBeam
  | hold (s : State)
  | trap (e : Env) (s : State) (cause : Nat)
  | go (e : Env) (s : State)
  deriving DecidableEq, Repr

/-- Not issued in this cycle; the next is tried. -/
def Issue.heldUntil (s : State) (r : Ref) (c : Nat) : State := s.modBeam r fun b => { b with issueAt := max b.issueAt c }

/-- An instruction of a running beam that traps has issued: the beam and its quadrant go on from there (R82, R108). A sibling
stops before such an instruction (R182). What a resumed long instruction had latched is kept for its next issue (R226). -/
def Issue.issued (s : State) (r : Ref) (next : Nat) : State :=
  s.modBeam r fun b =>
    if b.halt = .run then
      { b with issueAt := max b.issueAt next, lastIssue := some s.clock, latched := none,
               trapped := if b.latched.any (fun l => decide (l.pc = b.pc)) then b.latched else b.trapped }
    else b

/-- A trap of the instruction at the beam's PC (R182); inside a body it reports as R93 states. -/
def Issue.trap (s : State) (r : Ref) (cause arg : Nat) (epc : Option Dword) (pix : Option Nat) (info : Nat) : State :=
  match s.beam? r with
  | none => s
  | some b =>
    let p := match b.mcall with | some c => some c.word | none => pix
    s.takeTrap r cause arg (epc.getD b.pc) p 0 info

/-- `REMOTEFATAL` at issue, with the address and the fabric id of the other end (R383). -/
def Issue.trapRemote (s : State) (r : Ref) (info peer : Nat) : State :=
  match s.beam? r with
  | none => s
  | some b => s.takeTrap r cREMOTEFATAL 0 b.pc none peer info

/-- The lanes whose `%tenant` is written by effects that are due (R178). -/
def tenantLanes (l : List Fix) (now : Nat) : List Nat :=
  (l.filter fun f => decide (f.ready ≤ now)).flatMap fun f =>
    match f.sreg with
    | some (0x0F, vs) => vs.map (·.1)
    | _ => []

/-- A write of `%tenant` clears the last-page registers of its lanes (R124). -/
def State.dropPages (s : State) (r : Ref) (ls : List Nat) : State :=
  if ls = [] then s
  else
    let keep (e : TlbEntry) : Bool := match e.place with | .lane q l => decide (q ≠ r) || !ls.contains l | _ => true
    { s with net := { s.net with tlb := s.net.tlb.filter keep } }

/-- The selected beam, up to date. -/
def Issue.select (s : State) : Option (Ref × Team × Beam × State) :=
  match s.cur with
  | none => none
  | some r =>
    match s.team? r.t with
    | none => none
    | some T0 =>
      let T := T0.settle s.clock r.b
      match T.beams[r.b]? with
      | none => none
      | some b =>
        let ls := (T0.beams[r.b]?).elim [] fun b0 => tenantLanes b0.fix s.clock
        some (r, T, b, (s.setTeam r.t T).dropPages r ls)

/-- The checks at issue, in the order of R39, on an instruction whose words are legal; then its registers are read, where an
uncorrectable error is fatal (R380). -/
def Issue.start (s : State) (n : Nat) (sig : Ext → Option Sig) (len : Nat) (mk : Beam → Ext) : Start :=
  match Issue.select s with
  | none => .noBeam
  | some (r, T, b, s1) =>
    let x := mk b
    let g := (sig x).getD {}
    let far := farCount b g x
    let e : Env := { r := r, T := T, b := b, n := n, x := x, g := g, len := len, far := far, act := activeMask b x,
                     now := s1.clock }
    if s1.mayIssue T b r.b = false ∨ b.blocked g x = true then .hold (Issue.heldUntil s1 r (s1.clock + 1))
    else if inBudget g x b.budget = false then .trap e s1 cREGBOUND
    else if b.chk = 1 ∧ b.hazard g x s1.clock ((fixedLat n).map (s1.clock + 4 * far + ·)) = true then
      .trap e s1 cSTALLSHORT
    else if T.badRegs r.b b (readNames g x) then .trap e s1 cPOISONOWN
    else .go e s1

/-! ### After the effect (R82, R92, R182) -/

/-- The PC and the place in a body after an instruction (R7, R92). Only `ERET` leaves a sub-step to resume at (R183). -/
def Beam.advance (b : Beam) (e : Env) (pc : Option Dword) : Beam :=
  let b := { b with issueAt := max b.issueAt e.next, lastIssue := some e.now, waitPc := e.b.pc, latched := none,
                    trapped := if causeInh e.b.cause then b.trapped else none,
                    resume := if e.n = 0x050 then b.resume else none }
  match e.b.mcall with
  | none => { b with pc := pc.getD (b.pc + BitVec.ofNat 64 e.len) }
  | some c =>
    if c.last ≤ c.word + 1 then
      { b with mcall := none, pc := c.next, issueAt := max b.issueAt b.lastReady }
    else { b with mcall := some { c with word := c.word + 1 } }

/-- A beam that issues during its skid counts the instruction, and stops after the third (R182); after a long one, at that
one's next sub-step boundary (R381). An instruction of the trap's own cycle counts nothing. -/
def Beam.skidOne (b : Beam) (now : Nat) : Beam :=
  match b.halt with
  | .skidding left since =>
    if now ≤ since then { b with halt := .skidding b.skidLeft since }
    else
      let c := { b with skid := b.skid + 1 }
      if c.lastLong.isSome ∨ c.status = .region then { c with halt := .skidding 0 now }
      else if left ≤ 1 then c.stopWait now
      else { c with halt := .skidding (left - 1) since }
  | _ => b

def Issue.finish (e : Env) (s : State) (pc : Option Dword) : State :=
  s.modBeam e.r fun b => (b.advance e pc).skidOne e.now

/-- The instruction's own part holds it before issue: no check of the issue has been made then (R82, R84). -/
def Res.isHold (r : Res) : Bool :=
  match r with
  | .hold => true
  | _ => false

/-- An attempt to issue, to its end. -/
def Issue.conclude (st : Start) (body : Env → State → Res) : Host.Outcome State Fault Refusal :=
  match st with
  | .noBeam => .fault .noBeam
  | .hold s => .next s
  | .trap e s c =>
    if (body e s).isHold then .next (Issue.heldUntil s e.r (s.clock + 1))
    else .next (Issue.trap (Issue.issued s e.r e.next) e.r c 0 none none 0)
  | .go e s =>
    match body e s with
    | .done s' => .next (Issue.finish e s' none)
    | .jump s' pc => .next (Issue.finish e s' (some pc))
    | .trap c arg epc pix info => .next (Issue.trap (Issue.issued s e.r e.next) e.r c arg epc pix info)
    | .remote info peer => .next (Issue.trapRemote (Issue.issued s e.r e.next) e.r info peer)
    | .late s' c pix info => .next (Issue.trap (Issue.issued s' e.r e.next) e.r c 0 none pix info)
    | .hold => .next (Issue.heldUntil s e.r (s.clock + 1))
    | .wait s' => .next s'

/-- Issues extended opcode `n`. -/
def Issue.ext (n : Nat) (x : Ext) (body : Env → State → Res) (s : State) : Host.Outcome State Fault Refusal :=
  Issue.conclude (Issue.start s n (xsig n) x.bytes fun _ => x) body

/-- Issues base opcode `op`, or the body word it is. -/
def Issue.base (op : Nat) (o : BaseOps) (body : Env → State → Res) (s : State) : Host.Outcome State Fault Refusal :=
  Issue.conclude (Issue.start s op (xsig op) (baseBytes o) fun b => b.baseExt op o) body

/-! ### Results -/

/-- A fixed-latency result: values by register key, and exceptions (R83, R65). -/
def Env.fixed (e : Env) (s : State) (vals : List (Nat × Word)) (flags : Flags) : State :=
  s.modBeam e.r fun b =>
    { b with fix := insertFix ⟨e.readyAt, vals, writeNames e.g e.x, flags, none⟩ b.fix }

/-- A fixed-latency result in D of each active lane. With no active lane it writes nothing (R29); the write is pending all the
same, by its cycle and its names (R86, log 38). -/
def Env.fixedLanes (e : Env) (s : State) (f : Nat → Word) (flags : Flags) : Res :=
  .done (e.fixed s (e.activeLanes.map fun l => (regKey e.x.d.toNat l, f l)) flags)

/-- A fixed-latency pair in D and D + 1 of each active lane. -/
def Env.fixedPairs (e : Env) (s : State) (f : Nat → Dword) : Res :=
  .done (e.fixed s (e.activeLanes.flatMap fun l => pairWords e.x.d.toNat l (f l)) 0)

/-- Marks registers pending for a result in `wait` parts (R84). The identifier is the state's next one. -/
def Env.pendingAt (e : Env) (s : State) (names : List Nat) (vals : List (Nat × Word)) (wait ready : Nat) (exact : Bool) : State :=
  let p := { s with nextId := s.nextId + 1 }
  p.modBeam e.r fun b =>
    { b with pends := b.pends ++ [{ id := s.nextId, ready := ready, names := names, vals := vals, wait := wait, exact := exact, after := [] }] }

/-- A pending result that no rule gives a cycle of its own. -/
def Env.pending (e : Env) (s : State) (names : List Nat) (vals : List (Nat × Word)) (wait ready : Nat) : State :=
  e.pendingAt s names vals wait ready false

end Sys2Proof.Machine
end

