-- ==== Sys2Proof/Machine/Translate.lean ====
section
/-! DEFINITION. Where a line lives (R121), page tables and peer tables (R365 to R368), cached translations (R124, R369),
and the translation of one access. -/

namespace Sys2Proof.Machine

/-! ### Physical addresses and homes (R121) -/

def hbmTop : Nat := 0x010000000000
def cxlBase : Nat := 0x100000000000
def cxlTop : Nat := 0x200000000000

def inHbm (pa : Nat) : Bool := decide (pa < hbmTop)
def inCxl (pa : Nat) : Bool := decide (cxlBase ≤ pa) && decide (pa < cxlTop)

/-- The 128-byte line of an address. -/
def lineOf (pa : Nat) : Nat := pa / 128

/-- Nibble of `pa` from bit `lo`. -/
def nib (pa lo : Nat) : Nat := pa >>> lo % 16

def fold (pa : Nat) : Nat :=
  nib pa 7 ^^^ nib pa 11 ^^^ nib pa 20 ^^^ nib pa 24 ^^^ nib pa 28 ^^^ nib pa 32 ^^^ nib pa 36

def homeDie (k : PKind) (pa : Nat) : Nat :=
  let cxl : Nat := [0, 1, 6, 7].getD (pa >>> 16 % 4) 0
  match k with
  | .hbm => nib pa 16 / 2
  | .cxl => cxl
  | .host => pa >>> 16 % 2
  | .multicast => if inHbm pa then nib pa 16 / 2 else cxl
  | .peer => 0

def homeSlice (k : PKind) (pa : Nat) : Nat := 16 * homeDie k pa + fold pa

/-! ### Page tables (R365 to R367) -/

/-- What a translation comes to: a leaf and a physical address, an invalid entry (R372), an unresolvable one, or a page
that the requester may not reach (R362, R377). -/
inductive Xlat where
  | ok (leaf : Leaf) (pa : Nat)
  | invalid
  | memfault
  | prot
  deriving DecidableEq, Repr

/-- Bits of the offset in a page of the level (R365). -/
def pageBits (level : Nat) : Nat := 16 + 10 * level

/-- A page-table entry as it is met at a level. -/
inductive Pte where
  | invalid
  | table (a : Nat)
  | leaf (l : Leaf)
  | bad
  deriving DecidableEq, Repr

def pkindOf (n : Nat) : PKind :=
  if n = 0 then .hbm else if n = 1 then .cxl else if n = 2 then .host else if n = 3 then .peer else .multicast

/-- A valid leaf's fields (R366). -/
def leafOf (e : Dword) (level : Nat) : Leaf :=
  { tenant := e.extractLsb' 48 16, frame := e.extractLsb' 16 32, kind := pkindOf (e.extractLsb' 13 3).toNat,
    w := e.getLsbD 12, x := e.getLsbD 11, rd := e.getLsbD 10, pin := e.getLsbD 9, aux := (e.extractLsb' 2 6).toNat,
    level := level }

/-- R366 and R367: what an entry of a level is. -/
def pteOf (e : Dword) (level : Nat) : Pte :=
  if e.getLsbD 0 = false then .invalid
  else if e.getLsbD 1 then
    let l := leafOf e level
    let base := l.frame.toNat * 65536
    if level = 3 ∨ e.getLsbD 8 = true ∨ (e.extractLsb' 13 3).toNat ≥ 5 ∨ l.frame.toNat % 2 ^ (10 * level) ≠ 0 ∨
      (l.kind = .multicast ∧ inHbm base = false ∧ inCxl base = false) then .bad
    else .leaf l
  else
    let a := (e.extractLsb' 13 35).toNat * 8192
    if level = 0 ∨ e.extractLsb' 48 16 ≠ 0 ∨ e.extractLsb' 2 11 ≠ 0 ∨ inHbm a = false then .bad else .table a

/-- The address of the entry of a level (R365). -/
def pteAddr (table va level : Nat) : Nat := table + 8 * (va >>> pageBits level % 1024)

/-- A walk of `fuel` levels from `table` (R365). -/
def walkFrom (m : Memory) (fuel : Nat) (table va : Nat) : Pte :=
  match fuel with
  | 0 => .bad
  | n + 1 =>
    match pteOf (BitVec.ofNat 64 (m.readNat (pteAddr table va n) 8)) n with
    | .table a => walkFrom m n a va
    | p => p

/-! ### Peer tables (R368) -/

/-- One peer table entry. -/
structure PeerEnt where
  log2s : Nat
  npeer : Nat
  group : Nat
  ids   : List Nat
  deriving DecidableEq, Repr

/-- The entry that AUX names; none where a field is out of range: an ID of 2,048 or more is no fabric id (R406). -/
def State.peerEnt (s : State) (f aux : Nat) : Option PeerEnt :=
  let a := (s.func f).peert.toNat + 128 * aux
  let l := s.mem.readNat a 1
  let n := s.mem.readNat (a + 1) 1
  let ids := (List.range n).map fun i => s.mem.readNat (a + 64 + 2 * i) 2
  if 12 ≤ l ∧ l ≤ 36 ∧ 1 ≤ n ∧ n ≤ 32 ∧ s.mem.readNat (a + 4) 60 = 0 ∧ ids.all (fun i => decide (i < 2048)) = true then
    some { log2s := l, npeer := n, group := s.mem.readNat (a + 2) 2, ids := ids }
  else none

/-- The peer that an address of a peer page goes to. -/
def PeerEnt.peer (p : PeerEnt) (va : Nat) : Nat := p.ids.getD (va >>> p.log2s % p.npeer) 0

/-! ### Functions and partitions (R361, R362, R371, R377) -/

/-- Page `[pa, pa + size)` lies inside an enabled range of partition p. -/
def Part.covers (p : Part) (pa size : Nat) : Bool :=
  (List.range 4).any fun r =>
    let b := (sget 0 p.base r).toNat * 2 ^ 26
    let l := (sget 0 p.lim r).toNat * 2 ^ 26
    decide (b ≤ pa) && decide (pa + size ≤ l)

/-- The function whose tag is `t`, if one was configured (R363, R364). -/
def State.ownerOf (s : State) (t : BitVec 16) : Option Nat :=
  (s.regs.funcs.find? fun e => decide (e.2.ftag = t) && decide (e.2.state ≠ .off)).map (·.1)

/-- A leaf's tag belongs to a function that is being reset (R377 step 6). -/
def State.fenced (s : State) (t : BitVec 16) : Bool :=
  s.regs.funcs.any fun e => decide (e.2.ftag = t) && (decide (e.2.state = .reset) || decide (e.2.state = .drained))

/-- A walk of function f for a requester of partition p. -/
def State.walk (s : State) (f p : Nat) (va : Nat) : Xlat :=
  match walkFrom s.mem 4 (s.func f).asroot.toNat va with
  | .invalid => .invalid
  | .table _ => .memfault
  | .bad => .memfault
  | .leaf l =>
    let size := 2 ^ pageBits l.level
    let base := l.frame.toNat * 65536
    let needPeer := decide (l.kind = .peer) || decide (l.kind = .multicast) || l.rd
    if needPeer = true ∧ (s.peerEnt f l.aux).isNone then .memfault
    else if s.fenced l.tenant then .prot
    else if (l.kind = .hbm ∨ l.kind = .cxl) ∧ (s.part p).covers base size = false then .prot
    else .ok l (base + va % size)

/-! ### Cached translations (R124, R369) -/

def TlbEntry.hit (e : TlbEntry) (place : TlbAt) (f va : Nat) : Bool :=
  decide (e.place = place) && decide (e.func = f) && decide (e.page = va >>> pageBits e.leaf.level)

/-- Keeps the newest `n` entries of a place. -/
def capPlace (place : TlbAt) (n : Nat) (l : List TlbEntry) : List TlbEntry :=
  match l with
  | [] => []
  | e :: r =>
    if e.place = place then (match n with | 0 => capPlace place 0 r | n + 1 => e :: capPlace place n r)
    else e :: capPlace place n r

/-- Caches a valid leaf. -/
def State.tlbAdd (s : State) (place : TlbAt) (size f va : Nat) (l : Leaf) : State :=
  let gen := ((s.ownerOf l.tenant).elim (s.func f).gen fun o => (s.func o).gen)
  let e : TlbEntry := { place := place, func := f, gen := gen, page := va >>> pageBits l.level, leaf := l }
  { s with net := { s.net with tlb := capPlace place size (e :: s.net.tlb.filter fun o => !o.hit place f va) } }

/-- A walk's result enters the core TLB and the die TLB. -/
def State.walkFill (s : State) (core f va : Nat) (l : Leaf) : State :=
  (s.tlbAdd (.die (core / 128)) 32768 f va l).tlbAdd (.core core) 512 f va l

/-- Who translates: a lane of a beam, or a core for a fetch; with the function and the partition. -/
structure Requester where
  lane : Option (Ref × Nat)
  core : Nat
  func : Nat
  part : Nat
  deriving DecidableEq, Repr

/-- The cached translation of an address: the lane's last page, then the core TLB, then the die TLB. -/
def State.cached (s : State) (q : Requester) (va : Nat) : Option TlbEntry :=
  let at? (p : TlbAt) : Option TlbEntry := s.net.tlb.find? fun e => e.hit p q.func va
  match q.lane.elim none fun (e : Ref × Nat) => at? (.lane e.1 e.2) with
  | some e => some e
  | none =>
    match at? (.core q.core) with
    | some e => some e
    | none => at? (.die (q.core / 128))

/-- The physical address under a leaf. -/
def Leaf.pa (l : Leaf) (va : Nat) : Nat := l.frame.toNat * 65536 + va % 2 ^ pageBits l.level

/-- Remembers the lane's last page. -/
def State.lastPage (s : State) (q : Requester) (va : Nat) (l : Leaf) : State :=
  match q.lane with
  | none => s
  | some (r, i) => s.tlbAdd (.lane r i) 1 q.func va l

/-- The page of an address is being migrated: accesses to it fault (R374). -/
def State.moving (s : State) (func va : Nat) : Bool :=
  s.net.moves.any fun m => decide (m.func = func) && decide (m.va ≤ va) && decide (va < m.va + m.size)

/-- Translates one address (R124). -/
def State.translate (s : State) (q : Requester) (va : Nat) : Xlat × State :=
  if s.moving q.func va then (.invalid, s)
  else
  match s.cached q va with
  | some e => (.ok e.leaf (e.leaf.pa va), s.lastPage q va e.leaf)
  | none =>
    match s.walk q.func q.part va with
    | .ok l pa => (.ok l pa, (s.walkFill q.core q.func va l).lastPage q va l)
    | x => (x, s)

/-- The requester of a lane of team T. -/
def State.laneReq (s : State) (r : Ref) (T : Team) (l : Nat) : Requester :=
  { lane := some (r, l), core := T.coreId, func := s.funcOf T, part := s.partOf T }

end Sys2Proof.Machine
end

