-- ==== Sys2Proof/Machine/Fetch.lean ====
section
/-! DEFINITION. Fetching an instruction's words (R7, R11, R12), and the registers of a beam's next instruction, which the
scoreboard looks at (R84, R107). -/

namespace Sys2Proof.Machine

/-- A fetch gives bytes, fails (R11), or meets an invalid page at an address (R372). -/
inductive Fetched where
  | bytes (l : List Byte)
  | fail
  | fault (va : Nat)
  deriving DecidableEq, Repr

def State.fetchReq (s : State) (T : Team) : Requester :=
  { lane := none, core := T.coreId, func := s.funcOf T, part := s.partOf T }

/-- What a code word held before each write of it since a grid was launched, the oldest first (R12). -/
def State.oldWords (s : State) (mark : Nat) (host : Bool) (pa : Nat) : List (List Byte) :=
  (s.net.codeOld.filter fun o => decide (mark < o.mark) && decide (o.host = host) && decide (o.pa = pa)).map (·.bytes)

/-- The bytes of a code word at a physical address, for a grid launched at `mark`. A word written since reads as before a write or
as after it (R12, DESIGN CHOICE, log 6); a word of another device is free (log 9). -/
def State.codeWord (s : State) (mark : Nat) (k : PKind) (pa : Nat) : List Byte × State :=
  if k = .peer then (bytesOfWord (Config.freeWord s.free), { s with free := s.free + 1 })
  else
    let host := decide (k = .host)
    let cur := if host then s.hostMem.readBytes pa 4 else s.mem.readBytes pa 4
    match s.oldWords mark host pa with
    | [] => (cur, s)
    | l => (l.getD (Config.fetchOld s.free % (l.length + 1)) cur, { s with free := s.free + 1 })

/-- One word of code: the address has bits [63:56] zero, the page is valid, of the grid's tenant and executable (R11, R364,
R367). -/
def State.fetchWord (s : State) (T : Team) (va : Dword) : Fetched × State :=
  if va.extractLsb' 56 8 ≠ 0 then (.fail, s)
  else
    match s.translate (s.fetchReq T) va.toNat with
    | (.ok l pa, s1) =>
      let tenant := (s.gridOf T).elim 0 fun g => g.launch.tenant
      if l.x = true ∧ l.tenant = tenant then
        let w := s1.codeWord ((s.gridOf T).elim 0 (·.mark)) l.kind pa
        (.bytes w.1, w.2)
      else (.fail, s1)
    | (.invalid, s1) => (.fault va.toNat, s1)
    | (_, s1) => (.fail, s1)

/-- `n` words from an address. -/
def State.fetchWords (s : State) (T : Team) (va : Dword) (n : Nat) : Fetched × State :=
  match n with
  | 0 => (.bytes [], s)
  | n + 1 =>
    match s.fetchWord T va with
    | (.bytes b, s1) =>
      match s1.fetchWords T (va + 4) n with
      | (.bytes r, s2) => (.bytes (b ++ r), s2)
      | x => x
    | x => x

/-- The bytes of the instruction at `va`, as many words as LEN of the first says (R8); each word is fetched once. -/
def State.fetch (s : State) (T : Team) (va : Dword) : Fetched × State :=
  match s.fetchWord T va with
  | (.bytes b, s1) =>
    match takeWord b with
    | none => (.fail, s1)
    | some (w0, _) =>
      match s1.fetchWords T (va + 4) (lenWords (lenOf w0) - 1) with
      | (.bytes r, s2) => (.bytes (b ++ r), s2)
      | x => x
  | x => x

/-- The body word that a beam executes next (R91). -/
def State.bodyWord (s : State) (T : Team) (c : CallCtx) : Word :=
  sget 0 (s.core T.coreId).store (32 * c.entry + c.word)

/-- The opcode of the next instruction, extended or base, as far as it can be fetched. -/
def State.peekOp (s : State) (T : Team) (b : Beam) : Option Nat :=
  match b.mcall with
  | some c => some (op6Of (s.bodyWord T c))
  | none =>
    match (s.fetch T b.pc).1 with
    | .bytes bs => (takeWord bs).map fun w => if lenOf w.1 = 0 ∨ lenOf w.1 = 2 then op6Of w.1 else xopOf w.1
    | _ => none

/-- The next instruction's fields as far as its words tell; none where they are no instruction. -/
def State.peek (s : State) (T : Team) (b : Beam) : Option (Sig × Ext) :=
  match b.mcall with
  | some c =>
    let w := s.bodyWord T c
    (baseOpsOf w none).map fun o => let x := b.baseExt (op6Of w) o; ((xsig (op6Of w) x).getD {}, x)
  | none =>
    match (s.fetch T b.pc).1 with
    | .fail => none
    | .fault _ => none
    | .bytes bs =>
      match takeWord bs with
      | none => none
      | some (w0, r) =>
        let lit (r : List Byte) : Option Dword :=
          match takeWords 2 r with
          | some ([lo, hi], _) => some (litOfWords lo hi)
          | _ => none
        if lenOf w0 = 0 ∨ lenOf w0 = 2 then
          (baseOpsOf w0 (lit r)).map fun o => let x := b.baseExt (op6Of w0) o; ((xsig (op6Of w0) x).getD {}, x)
        else
          match takeWords 2 r with
          | some ([w1, w2], r2) =>
            let x := extOf w0 w1 w2 (lit r2)
            some ((xsig (xopOf w0) x).getD {}, x)
          | _ => none

/-- Two entries of the quadrant are occupied (R244). -/
def State.quadFull (s : State) (core q : Nat) : Bool :=
  decide (((s.core core).entries.filter fun n => decide (n.quad = q)).length ≥ 2)

/-- The instruction of opcode `n` is held as by the scoreboard: one for the matrix engine with the quadrant's entries occupied (R244),
one for the Prism array while a `PALD` runs (R321); an arrival at a barrier while team-word writes or scratchpad reads of the beam
before it are not performed, since the barrier orders them (R150, DEDUCED, log 75). -/
def State.unitHeld (s : State) (T : Team) (b : Beam) (k n : Nat) (x : Ext) : Bool :=
  (decide (0x1C0 ≤ n) && decide (n ≤ 0x1C6) && (decide (n = 0x1C6) || decide (activeMask b x ≠ 0)) && s.quadFull T.coreId (k % 4)) ||
    (decide (0x240 ≤ n) && decide (n ≤ 0x245) && T.paldRuns) ||
    ((decide (n = 0x36) || decide (n = 0x048) || decide (n = 0x049)) && ((T.twq.any fun w => decide (w.beam = k)) || b.scrReading))

/-- A beam is ready (R107). -/
def State.ready (s : State) (T : Team) (b : Beam) (k : Nat) : Bool :=
  s.mayIssue T b k &&
    (match s.peek T b with
     | some (g, x) => !b.blocked g x && !s.unitHeld T b k ((s.peekOp T b).getD 0) x
     | none => true)

/-- The beams of a core's quadrant, with their teams. -/
def State.quadBeams (s : State) (core q : Nat) : List (Ref × Team × Beam) :=
  (s.teams.filter fun e => decide (e.2.core? = some core)).flatMap fun e =>
    (e.2.beams.mapIdx fun i b => (i, b)).filterMap fun p =>
      if p.1 % 4 = q then some (⟨e.1, p.1⟩, e.2, p.2) else none

/-- The other ready beams of a beam's quadrant (R137, R171). -/
def State.readySiblings (s : State) (r : Ref) (core : Nat) : List Ref :=
  ((s.quadBeams core (r.b % 4)).filter fun e => decide (e.1 ≠ r) && s.ready e.2.1 e.2.2 e.1.b).map (·.1)

end Sys2Proof.Machine
end

