-- ==== Sys2Proof/Machine/Control.lean ====
section
/-! DEFINITION. Control, masks, barriers, team words, special registers, traps and return (R90 to R93, R163 to R183). -/

namespace Sys2Proof.Machine

/-! ### No operation and branches (R166, R167) -/

def bodyNop (_ : Env) (s : State) : Res := .done s

def execNop (o : BZ) (s : State) := Issue.base 0x00 (.bz o) bodyNop s
def execNopX (x : Ext) (s : State) := Issue.ext 0x00 x bodyNop s

/-- PC + 4 * offset (R17). -/
def Env.branchTarget (e : Env) : Dword := e.pc + 4 * e.x.immDword

def bodyBra (e : Env) (s : State) : Res := .jump s e.branchTarget

def execBra (o : BJ) (s : State) := Issue.base 0x31 (.bj o) bodyBra s
def execBraX (x : Ext) (s : State) := Issue.ext 0x31 x bodyBra s

/-- The active lanes whose predicate bit is set (R167). -/
def Env.predLanes (e : Env) : List Nat := e.activeLanes.filter fun l => (e.a l).getLsbD 0

def bodyBrIf (taken : Env → Bool) (e : Env) (s : State) : Res := if taken e then .jump s e.branchTarget else .done s

def takenAny (e : Env) : Bool := decide (e.predLanes ≠ [])
def takenAll (e : Env) : Bool := decide (e.activeLanes ≠ []) && decide (e.predLanes = e.activeLanes)
def takenNone (e : Env) : Bool := decide (e.predLanes = [])

def execBrany (o : BB) (s : State) := Issue.base 0x32 (.bb o) (bodyBrIf takenAny) s
def execBranyX (x : Ext) (s : State) := Issue.ext 0x32 x (bodyBrIf takenAny) s
def execBrall (o : BB) (s : State) := Issue.base 0x33 (.bb o) (bodyBrIf takenAll) s
def execBrallX (x : Ext) (s : State) := Issue.ext 0x33 x (bodyBrIf takenAll) s
def execBrnone (o : BB) (s : State) := Issue.base 0x34 (.bb o) (bodyBrIf takenNone) s
def execBrnoneX (x : Ext) (s : State) := Issue.ext 0x34 x (bodyBrIf takenNone) s

/-! ### Calls and jumps (R10, R168) -/

/-- Writes the link into the D pair of all 32 lanes; the link is scoreboarded. -/
def Env.link (e : Env) (s : State) : State :=
  e.pending s (writeNames e.g e.x) (lanes.flatMap fun l => pairWords e.x.d.toNat l e.nextPc) 0 (e.now + 1)

/-- A register target that is not a multiple of 4 is `MISALIGN`, and nothing is done (R10). -/
def jumpTo (t : Dword) (s : State) : Res := if t.extractLsb' 0 2 ≠ 0 then Res.trapOwn cMISALIGN else .jump s t

def bodyCall (e : Env) (s : State) : Res := .jump (e.link s) e.branchTarget
def bodyCallr (e : Env) (s : State) : Res :=
  if e.aPairLive.extractLsb' 0 2 ≠ 0 then Res.trapOwn cMISALIGN else .jump (e.link s) e.aPairLive
def bodyJmpr (e : Env) (s : State) : Res := jumpTo e.aPairLive s

def execCall (x : Ext) (s : State) := Issue.ext 0x040 x bodyCall s
def execCallr (x : Ext) (s : State) := Issue.ext 0x041 x bodyCallr s
def execRet (x : Ext) (s : State) := Issue.ext 0x042 x bodyJmpr s
def execJmpr (x : Ext) (s : State) := Issue.ext 0x043 x bodyJmpr s

/-! ### Masks and exit (R169, R170) -/

/-- The lanes, live or not, whose A has bit 0 set. -/
def Env.aBits (e : Env) : Word := maskOf fun l => (e.a l).getLsbD 0

def bodyMaskp (e : Env) (s : State) : Res := .done (s.modBeam e.r fun b => { b with exm := b.exm &&& e.aBits })
def bodyGetm (e : Env) (s : State) : Res :=
  .done (e.fixed s (lanes.map fun l => (regKey e.x.d.toNat l, e.b.exm)) 0)
def bodySetm (e : Env) (s : State) : Res := .done (s.modBeam e.r fun b => { b with exm := e.aLive })

/-- The beams that count at `BAR` and have not arrived (R110, R173). -/
def Team.barMissing (T : Team) : Bool :=
  (T.beams.mapIdx fun i b => decide (b.status ≠ .retired) && decide (b.lvm ≠ 0) && !T.arrived.getLsbD i).any id

/-- The team barrier's phase completes when no beam is missing (R173): every arrival is taken back. -/
def Team.barCheck (T : Team) : Team := if T.arrived ≠ 0 ∧ T.barMissing = false then { T with arrived := 0 } else T

/-- Clears live lanes; a beam left without one counts as arrived at `BAR`, and ends the handler it ran (R164, R183). -/
def State.clearLanes (s : State) (r : Ref) (m : Word) : State :=
  let s1 := s.modBeam r fun b => { b with lvm := b.lvm &&& ~~~m }
  match s1.beam? r with
  | none => s1
  | some b =>
    if b.lvm = 0 then
      let s2 := s1.modTeam r.t Team.barCheck
      if causeInh b.cause then s2.handlerGone r else s2
    else s1

def bodyExit (e : Env) (s : State) : Res := .done (s.clearLanes e.r e.act)

def execMaskp (o : B3) (s : State) := Issue.base 0x37 (.b3 o) bodyMaskp s
def execMaskpX (x : Ext) (s : State) := Issue.ext 0x37 x bodyMaskp s
def execGetm (o : B3) (s : State) := Issue.base 0x38 (.b3 o) bodyGetm s
def execGetmX (x : Ext) (s : State) := Issue.ext 0x38 x bodyGetm s
def execSetm (o : B3) (s : State) := Issue.base 0x39 (.b3 o) bodySetm s
def execSetmX (x : Ext) (s : State) := Issue.ext 0x39 x bodySetm s
def execExit (o : BZ) (s : State) := Issue.base 0x35 (.bz o) bodyExit s
def execExitX (x : Ext) (s : State) := Issue.ext 0x35 x bodyExit s

/-! ### Yielding (R171) -/

/-- A beam enters a wait state. -/
def Env.wait (e : Env) (s : State) (w : Status) : State := s.modBeam e.r fun b => { b with status := w }

def bodyYield (e : Env) (s : State) : Res :=
  .done (e.wait s (.yielded (e.now + 8) (s.readySiblings e.r e.T.coreId)))

def execYield (x : Ext) (s : State) := Issue.ext 0x044 x bodyYield s

/-! ### Windows and macro calls (R90, R92, R93) -/

/-- A register that a `REGION` copies, from a dirty group of the slot or from the file, has an uncorrectable error (R380). -/
def Env.regionBad (e : Env) (vbase : Nat) : Bool :=
  e.T.bad.any fun x =>
    match x with
    | .slot i n => decide (i = e.r.b) && e.b.inWin n && e.b.dirty.getLsbD ((n - e.b.wb.toNat) / 32)
    | .file i n => decide (i = e.r.b) && decide (vbase ≤ n) && decide (n < vbase + 128)
    | _ => false

/-- `REGION`: the beam waits for its completion; a base whose window passes the budget is `REGBOUND`. Resumed by `ERET` at a
sub-step past the last, it takes its setup cycles and has no sub-step left (DESIGN CHOICE, log 59). -/
def bodyRegion (e : Env) (s : State) : Res :=
  let vbase := e.x.immWord.toNat
  if vbase + 127 ≥ e.b.budget then Res.trapOwn cREGBOUND
  else if e.regionBad vbase then Res.trapOwn cPOISONOWN
  else
    let first := e.b.resume.getD 0
    .done (s.modBeam e.r fun b =>
      (({ b with status := .region, longs := b.longs ++ [⟨e.pc, e.now, e.now, .region vbase first first none⟩] } : Beam).regionBegin
        e.now).atStep first)

def execRegion (x : Ext) (s : State) := Issue.ext 0x046 x bodyRegion s

/-- The parameters of an `MCALL` (R37). -/
def Env.params (e : Env) : List Nat :=
  let l := (e.x.lit.getD 0).toNat
  [e.x.d.toNat, e.x.a.toNat, e.x.b.toNat, e.x.c.toNat, e.x.p.toNat, l % 1024, l / 2 ^ 10 % 1024, l / 2 ^ 20 % 1024]

/-- The entry index of an `MCALL` (R37). -/
def Env.entryOf (e : Env) : Nat := (e.x.lit.getD 0).toNat / 2 ^ 30 % 128

/-- `MCALL` (R92, R93). Resumed by `ERET` at a body word past the entry's last, it completes with no body word (DESIGN CHOICE,
log 59). -/
def bodyMcall (e : Env) (s : State) : Res :=
  let len := sget 0 (s.core e.T.coreId).lens e.entryOf
  if e.params.any fun p => decide (p ≥ e.b.budget) then Res.trapOwn cREGBOUND
  else if len = 0 then Res.trapOwn cILLEGAL
  else
    let first := e.b.resume.getD 0
    if first ≥ len then .done s
    else .jump (s.modBeam e.r fun b =>
      { b with mcall := some { entry := e.entryOf, word := first, last := len, params := e.params, next := e.nextPc }
               issueAt := max b.issueAt b.lastReady }) e.pc

def execMcall (x : Ext) (s : State) := Issue.ext xopMcall x bodyMcall s

/-! ### Barriers (R173, R174) -/

/-- `BAR`: the beam arrives; it waits unless its arrival completes the phase. -/
def bodyBar (e : Env) (s : State) : Res :=
  let T1 := { e.T with arrived := e.T.arrived ||| BitVec.ofNat 16 (2 ^ e.r.b) }
  let s1 := s.setTeam e.r.t T1.barCheck
  .done (if T1.barMissing then e.wait s1 .bar else s1)

def execBar (o : BZ) (s : State) := Issue.base 0x36 (.bz o) bodyBar s
def execBarX (x : Ext) (s : State) := Issue.ext 0x36 x bodyBar s

/-- One arrival at named barrier `k` with count `n`: the token and the team after it (R174). -/
def Team.arrive (T : Team) (k n : Nat) : Word × Team :=
  let q := sget NBar.init T.bars k
  let exp := if q.cnt = 0 then n else q.exp
  let q' := if q.cnt + 1 = exp then { exp := exp, cnt := 0, ph := q.ph + 1 } else { exp := exp, cnt := q.cnt + 1, ph := q.ph }
  (q.ph, { T with bars := sset NBar.init T.bars k q' })

/-- Barrier number and count of `BARN`, `ARRIVE` and `WAITB` (R165). -/
def Env.barNum (e : Env) : Nat := e.x.xf 0 4
def Env.barCnt (e : Env) : Nat := e.x.xf 4 4 + 1

def State.phase (s : State) (t k : Nat) : Word := (s.team? t).elim 0 fun T => (sget NBar.init T.bars k).ph

def bodyArrive (e : Env) (s : State) : Res :=
  let p := e.T.arrive e.barNum e.barCnt
  .done (e.pending (s.setTeam e.r.t p.2) (writeNames e.g e.x) (lanes.map fun l => (regKey e.x.d.toNat l, p.1)) 0
    (e.now + 1))

def bodyBarn (e : Env) (s : State) : Res :=
  let p := e.T.arrive e.barNum e.barCnt
  let s1 := s.setTeam e.r.t p.2
  .done (if s1.phase e.r.t e.barNum = p.1 then e.wait s1 (.named e.barNum p.1) else s1)

def bodyWaitb (e : Env) (s : State) : Res :=
  .done (if s.phase e.r.t e.barNum = e.aLive then e.wait s (.named e.barNum e.aLive) else s)

def execBarn (x : Ext) (s : State) := Issue.ext 0x048 x bodyBarn s
def execArrive (x : Ext) (s : State) := Issue.ext 0x049 x bodyArrive s
def execWaitb (x : Ext) (s : State) := Issue.ext 0x04A x bodyWaitb s

/-! ### Acquires (R144) -/

/-- An entry of the log belongs to this beam. -/
def LogEntry.of (g : LogEntry) (r : Ref) : Bool := decide (g.packet.src = r) && g.packet.job.isNone

/-- The packets of the beam's long accesses that have not been sent (R226). -/
def Beam.unsent (b : Beam) : List Packet :=
  b.longs.flatMap fun l => match l.op with | .coal _ gs _ n => (gs.drop n).flatten | _ => []

/-- An acquire of the beam has not read its value yet: no later access is performed (R144). -/
def State.acquiring (s : State) (r : Ref) : Bool :=
  (s.net.packets.any fun p => decide (p.src = r) && p.acq) || (s.net.remotes.any fun m => decide (m.packet.src = r) && m.packet.acq) ||
    (s.net.log.any fun g => g.of r && g.packet.acq) || (s.beam? r).elim false fun b => b.unsent.any (·.acq)

/-! ### Team words (R175, R176) -/

/-- `TWRD`: the value after the applications of the issue cycle; a team word access waits for an acquire of the beam (R144). -/
def bodyTwrd (e : Env) (s : State) : Res :=
  if s.acquiring e.r then .hold else e.fixedLanes s (fun _ => sget 0 e.T.tw e.x.immWord.toNat) 0

/-- Queues a write for cycle t + 3. -/
def Env.twWrite (e : Env) (s : State) (word : Nat) (op : TwOp) (pend : Option Nat) : State :=
  s.modTeam e.r.t fun T =>
    { T with twq := insertTw ⟨e.now + 3, e.r.b, word, op, e.act, e.x.d.toNat, pend⟩ T.twq }

def bodyTwwr (e : Env) (s : State) : Res :=
  if e.anyActive then
    if s.acquiring e.r then .hold else .done (e.twWrite s e.x.immWord.toNat (.write (e.a e.firstActive)) none)
  else .done s

/-- `TWADD` and `TWCAS`: the old value comes back to every active lane, no earlier than cycle t + 4. -/
def bodyTwRmw (op : Env → TwOp) (e : Env) (s : State) : Res :=
  if e.anyActive then
    if s.acquiring e.r then .hold
    else .done (e.twWrite (e.pending s (writeNames e.g e.x) [] 1 (e.now + 4)) (e.x.xf 0 4) (op e) (some s.nextId))
  else .done s

def execTwrd (o : BI) (s : State) := Issue.base 0x2F (.bi o) bodyTwrd s
def execTwrdX (x : Ext) (s : State) := Issue.ext 0x2F x bodyTwrd s
def execTwwr (o : BI) (s : State) := Issue.base 0x30 (.bi o) bodyTwwr s
def execTwwrX (x : Ext) (s : State) := Issue.ext 0x30 x bodyTwwr s
def execTwadd (x : Ext) (s : State) := Issue.ext 0x04B x (bodyTwRmw fun e => .add (e.bv e.firstActive)) s
def execTwcas (x : Ext) (s : State) :=
  Issue.ext 0x04C x (bodyTwRmw fun e => .cas (e.a e.firstActive) (e.bv e.firstActive)) s

/-! ### Special registers (R177 to R179) -/

/-- The low 32 bits of a special register as lane l of the beam reads it (R179). -/
def Env.sreg (e : Env) (s : State) (n l : Nat) : Word :=
  let L := (s.gridOf e.T).map (·.launch)
  let gx := L.elim 1 (·.gx)
  let gy := L.elim 1 (·.gy)
  match n with
  | 0x00 => BitVec.ofNat 32 l
  | 0x01 => BitVec.ofNat 32 e.r.b
  | 0x02 => BitVec.ofNat 32 e.T.index
  | 0x03 => 0
  | 0x04 => BitVec.ofNat 32 (e.T.index % gx)
  | 0x05 => BitVec.ofNat 32 (e.T.index / gx % gy)
  | 0x06 => BitVec.ofNat 32 (e.T.index / (gx * gy))
  | 0x07 => BitVec.ofNat 32 gx
  | 0x08 => BitVec.ofNat 32 gy
  | 0x09 => BitVec.ofNat 32 (L.elim 1 (·.gz))
  | 0x0A => if e.b.consumer then 1 else 0
  | 0x0B => BitVec.ofNat 32 e.T.coreId
  | 0x0C => BitVec.ofNat 32 (e.T.coreId / 128)
  | 0x0D => s.fab.dev.setWidth 32
  | 0x0E => BitVec.ofNat 32 (s.partOf e.T)
  | 0x0F => (sget 0 e.b.tenant l).setWidth 32
  | 0x10 => e.b.exm
  | 0x11 => e.b.lvm
  | 0x12 => e.b.wb.setWidth 32
  | 0x13 => e.b.pix
  | 0x14 => e.b.cause
  | 0x15 => e.b.epc.extractLsb' 0 32
  | 0x16 => e.b.epc.extractLsb' 32 32
  | 0x17 => e.b.skid.setWidth 32
  | 0x18 => e.b.tvec
  | 0x19 => e.b.eexm
  | 0x1A => e.b.fflags.setWidth 32
  | 0x1B => e.b.rmode.setWidth 32
  | 0x1C => e.b.chk.setWidth 32
  | 0x1D => e.b.orc.setWidth 32
  | 0x1E => e.b.tele.setWidth 32
  | 0x1F => e.b.jstat
  | 0x20 => BitVec.ofNat 32 s.clock
  | 0x21 => BitVec.ofNat 32 (s.clock / 2 ^ 32)
  | 0x22 => BitVec.ofNat 32 s.ftime
  | 0x23 => BitVec.ofNat 32 (s.ftime / 2 ^ 32)
  | _ => 0

/-- `SRD` (R177): with PAIR, the two halves at one instant. -/
def bodySrd (e : Env) (s : State) : Res :=
  let n := e.x.xf 0 6
  if e.x.ff 0 1 = 1 then e.fixedPairs s fun l => e.sreg s (n + 1) l ++ e.sreg s n l
  else e.fixedLanes s (e.sreg s n) 0

/-- A write of a special register that takes effect 4 cycles after issue (R178). -/
def Env.swrLater (e : Env) (s : State) (n : Nat) (vs : List (Nat × Word)) : State :=
  s.modBeam e.r fun b => { b with fix := insertFix ⟨e.now + 4, [], [], 0, some (n, vs)⟩ b.fix }

/-- `SWR` (R178): `%exm` for the next instruction, the others after 4 cycles; a write of `%tenant` needs the
tenant-assign right, as the function had it when the grid started (R363). With no active lane nothing is written (R29), and a write
of `%orc` is ignored (R147). -/
def bodySwr (e : Env) (s : State) : Res :=
  let n := e.x.xf 0 6
  if e.anyActive then
    if n = 0x0F ∧ (s.gridOf e.T).any (·.tar) = false then Res.trapOwn cPROT
    else if n = 0x10 then .done (s.modBeam e.r fun b => { b with exm := e.a e.firstActive })
    else if n = 0x0F then .done (e.swrLater s n (e.activeLanes.map fun l => (l, e.a l)))
    else .done (e.swrLater s n [(e.firstActive, e.a e.firstActive)])
  else .done s

def execSrd (x : Ext) (s : State) := Issue.ext 0x04D x bodySrd s
def execSwr (x : Ext) (s : State) := Issue.ext 0x04E x bodySwr s

/-! ### Traps and return (R181, R183) -/

def Env.code8 (e : Env) : Nat := e.x.xf 0 8

/-- `TRAP`: cause SOFT, with the next instruction's address. -/
def bodyTrap (e : Env) (_ : State) : Res := .trap cSOFT e.code8 (some e.nextPc) none 0

/-- `BRK`: cause BREAK, with its own address. -/
def bodyBrk (e : Env) (_ : State) : Res := .trap cBREAK e.code8 none none 0

/-- `ERET`: `ILLEGAL` outside a handler; a target that is not a multiple of 4 is `MISALIGN`; otherwise the return. -/
def bodyEret (e : Env) (s : State) : Res :=
  if causeInh e.b.cause = false then Res.trapOwn cILLEGAL
  else if e.b.epc.extractLsb' 0 2 ≠ 0 then Res.trapOwn cMISALIGN
  else .jump (s.eret e.r) e.b.epc

def execTrap (x : Ext) (s : State) := Issue.ext 0x04F x bodyTrap s
def execBrk (x : Ext) (s : State) := Issue.ext 0x051 x bodyBrk s

def execEret (x : Ext) (s : State) := Issue.ext 0x050 x bodyEret s

end Sys2Proof.Machine
end

