-- ==== Sys2Proof/Machine/Integer.lean ====
section
/-! DEFINITION. Integer, address, lane and exchange instructions (R184 to R199). -/

namespace Sys2Proof.Machine

/-! ### Operations on lane values (R185, R186, R188, R190) -/

def boolWord (p : Bool) : Word := if p then 1 else 0

def opMov (_ b : Word) : Word := b
def opAdd (a b : Word) : Word := a + b
def opSub (a b : Word) : Word := a - b
def opMul (a b : Word) : Word := a * b
def opAnd (a b : Word) : Word := a &&& b
def opOr (a b : Word) : Word := a ||| b
def opXor (a b : Word) : Word := a ^^^ b
def opAndn (a b : Word) : Word := a &&& ~~~b
def opShl (a b : Word) : Word := if b.toNat < 32 then a <<< b.toNat else 0
def opShr (a b : Word) : Word := a >>> b.toNat
def opSar (a b : Word) : Word := a.sshiftRight b.toNat
def opMin (a b : Word) : Word := if a.sle b then a else b
def opMax (a b : Word) : Word := if b.sle a then a else b
def opMinu (a b : Word) : Word := if a.ule b then a else b
def opMaxu (a b : Word) : Word := if b.ule a then a else b
def opCeq (a b : Word) : Word := boolWord (a == b)
def opCne (a b : Word) : Word := boolWord (a != b)
def opClt (a b : Word) : Word := boolWord (a.slt b)
def opCle (a b : Word) : Word := boolWord (a.sle b)
def opCltu (a b : Word) : Word := boolWord (a.ult b)
def opCleu (a b : Word) : Word := boolWord (a.ule b)
def opSel (a b d : Word) : Word := if d.getLsbD 0 then a else b
def opMad (a b d : Word) : Word := d + a * b
def opPopc (a : Word) : Word := BitVec.ofNat 32 (lanes.filter fun i => a.getLsbD i).length
def opClz (a : Word) : Word := BitVec.ofNat 32 (if a = 0 then 32 else 31 - Nat.log2 a.toNat)
def opCtz (a : Word) : Word := BitVec.ofNat 32 ((lanes.find? fun i => a.getLsbD i).getD 32)
def opBrev (a : Word) : Word := maskOf fun i => a.getLsbD (31 - i)
def opAbs (a : Word) : Word := if a.getLsbD 31 then -a else a
def opRol (a b : Word) : Word := a.rotateLeft (b.toNat % 32)
def opRor (a b : Word) : Word := a.rotateRight (b.toNat % 32)
def opMulhi (a b : Word) : Word := ((a.signExtend 64 * b.signExtend 64 : BitVec 64) >>> 32).setWidth 32
def opMulhiu (a b : Word) : Word := ((a.setWidth 64 * b.setWidth 64 : BitVec 64) >>> 32).setWidth 32

def opAddp (a b : Dword) : Dword := a + b
def opSubp (a b : Dword) : Dword := a - b
def opMulp (a b : Dword) : Dword := a * b
def opShlp (a : Dword) (c : Word) : Dword := if c.toNat < 64 then a <<< c.toNat else 0
def opShrp (a : Dword) (c : Word) : Dword := a >>> c.toNat
def opSarp (a : Dword) (c : Word) : Dword := a.sshiftRight c.toNat
def opCeqp (a b : Dword) : Word := boolWord (a == b)
def opCltp (a b : Dword) : Word := boolWord (a.slt b)
def opCltup (a b : Dword) : Word := boolWord (a.ult b)

/-- The position of a field spec (R190). -/
def fieldPos (b : Word) : Nat := (b.extractLsb' 0 5).toNat

/-- The width of a field spec (R190). -/
def fieldLen (b : Word) : Nat := min (b.extractLsb' 5 6).toNat (32 - fieldPos b)

def fieldMask (w : Nat) : Word := BitVec.ofNat 32 (2 ^ w - 1)

def opBfxu (a b : Word) : Word := (a >>> fieldPos b) &&& fieldMask (fieldLen b)

def opBfx (a b : Word) : Word :=
  let w := fieldLen b
  let f := opBfxu a b
  if w = 0 then 0 else if f.getLsbD (w - 1) then f ||| ~~~fieldMask w else f

def opBfi (a b d : Word) : Word :=
  let m := fieldMask (fieldLen b)
  (d &&& ~~~(m <<< fieldPos b)) ||| ((a &&& m) <<< fieldPos b)

/-! ### Lane by lane (R184) -/

def bodyA (f : Word → Word) (e : Env) (s : State) : Res := e.fixedLanes s (fun l => f (e.a l)) 0
def bodyAB (f : Word → Word → Word) (e : Env) (s : State) : Res := e.fixedLanes s (fun l => f (e.a l) (e.bv l)) 0
def bodyABD (f : Word → Word → Word → Word) (e : Env) (s : State) : Res :=
  e.fixedLanes s (fun l => f (e.a l) (e.bv l) (e.dOld l)) 0
def bodyPair (f : Dword → Dword → Dword) (e : Env) (s : State) : Res :=
  e.fixedPairs s fun l => f (e.aPair l) (e.bPair l)
def bodyPairShift (f : Dword → Word → Dword) (e : Env) (s : State) : Res :=
  e.fixedPairs s fun l => f (e.aPair l) (e.bv l)
def bodyPairCmp (f : Dword → Dword → Word) (e : Env) (s : State) : Res :=
  e.fixedLanes s (fun l => f (e.aPair l) (e.bPair l)) 0

/-- `LEA` (R189). -/
def bodyLea (e : Env) (s : State) : Res :=
  e.fixedPairs s fun l =>
    let b : Dword := if e.x.ff 0 1 = 1 then (e.bv l).signExtend 64 else (e.bv l).setWidth 64
    e.aPair l + (b <<< e.x.xf 0 3)

def execMov (o : B3) (s : State) := Issue.base 0x01 (.b3 o) (bodyAB opMov) s
def execMovX (x : Ext) (s : State) := Issue.ext 0x01 x (bodyAB opMov) s
def execAdd (o : B3) (s : State) := Issue.base 0x02 (.b3 o) (bodyAB opAdd) s
def execAddX (x : Ext) (s : State) := Issue.ext 0x02 x (bodyAB opAdd) s
def execSub (o : B3) (s : State) := Issue.base 0x03 (.b3 o) (bodyAB opSub) s
def execSubX (x : Ext) (s : State) := Issue.ext 0x03 x (bodyAB opSub) s
def execMul (o : B3) (s : State) := Issue.base 0x04 (.b3 o) (bodyAB opMul) s
def execMulX (x : Ext) (s : State) := Issue.ext 0x04 x (bodyAB opMul) s
def execAnd (o : B3) (s : State) := Issue.base 0x05 (.b3 o) (bodyAB opAnd) s
def execAndX (x : Ext) (s : State) := Issue.ext 0x05 x (bodyAB opAnd) s
def execOr (o : B3) (s : State) := Issue.base 0x06 (.b3 o) (bodyAB opOr) s
def execOrX (x : Ext) (s : State) := Issue.ext 0x06 x (bodyAB opOr) s
def execXor (o : B3) (s : State) := Issue.base 0x07 (.b3 o) (bodyAB opXor) s
def execXorX (x : Ext) (s : State) := Issue.ext 0x07 x (bodyAB opXor) s
def execShl (o : B3) (s : State) := Issue.base 0x08 (.b3 o) (bodyAB opShl) s
def execShlX (x : Ext) (s : State) := Issue.ext 0x08 x (bodyAB opShl) s
def execShr (o : B3) (s : State) := Issue.base 0x09 (.b3 o) (bodyAB opShr) s
def execShrX (x : Ext) (s : State) := Issue.ext 0x09 x (bodyAB opShr) s
def execSar (o : B3) (s : State) := Issue.base 0x0A (.b3 o) (bodyAB opSar) s
def execSarX (x : Ext) (s : State) := Issue.ext 0x0A x (bodyAB opSar) s
def execMin (o : B3) (s : State) := Issue.base 0x0B (.b3 o) (bodyAB opMin) s
def execMinX (x : Ext) (s : State) := Issue.ext 0x0B x (bodyAB opMin) s
def execMax (o : B3) (s : State) := Issue.base 0x0C (.b3 o) (bodyAB opMax) s
def execMaxX (x : Ext) (s : State) := Issue.ext 0x0C x (bodyAB opMax) s
def execMinu (o : B3) (s : State) := Issue.base 0x0D (.b3 o) (bodyAB opMinu) s
def execMinuX (x : Ext) (s : State) := Issue.ext 0x0D x (bodyAB opMinu) s
def execMaxu (o : B3) (s : State) := Issue.base 0x0E (.b3 o) (bodyAB opMaxu) s
def execMaxuX (x : Ext) (s : State) := Issue.ext 0x0E x (bodyAB opMaxu) s
def execAndn (o : B3) (s : State) := Issue.base 0x0F (.b3 o) (bodyAB opAndn) s
def execAndnX (x : Ext) (s : State) := Issue.ext 0x0F x (bodyAB opAndn) s
def execCeq (o : B3) (s : State) := Issue.base 0x15 (.b3 o) (bodyAB opCeq) s
def execCeqX (x : Ext) (s : State) := Issue.ext 0x15 x (bodyAB opCeq) s
def execCne (o : B3) (s : State) := Issue.base 0x16 (.b3 o) (bodyAB opCne) s
def execCneX (x : Ext) (s : State) := Issue.ext 0x16 x (bodyAB opCne) s
def execClt (o : B3) (s : State) := Issue.base 0x17 (.b3 o) (bodyAB opClt) s
def execCltX (x : Ext) (s : State) := Issue.ext 0x17 x (bodyAB opClt) s
def execCle (o : B3) (s : State) := Issue.base 0x18 (.b3 o) (bodyAB opCle) s
def execCleX (x : Ext) (s : State) := Issue.ext 0x18 x (bodyAB opCle) s
def execCltu (o : B3) (s : State) := Issue.base 0x19 (.b3 o) (bodyAB opCltu) s
def execCltuX (x : Ext) (s : State) := Issue.ext 0x19 x (bodyAB opCltu) s
def execCleu (o : B3) (s : State) := Issue.base 0x1A (.b3 o) (bodyAB opCleu) s
def execCleuX (x : Ext) (s : State) := Issue.ext 0x1A x (bodyAB opCleu) s
def execAddi (o : BI) (s : State) := Issue.base 0x10 (.bi o) (bodyAB opAdd) s
def execAddiX (x : Ext) (s : State) := Issue.ext 0x10 x (bodyAB opAdd) s
def execShli (o : BI) (s : State) := Issue.base 0x11 (.bi o) (bodyAB opShl) s
def execShliX (x : Ext) (s : State) := Issue.ext 0x11 x (bodyAB opShl) s
def execShri (o : BI) (s : State) := Issue.base 0x12 (.bi o) (bodyAB opShr) s
def execShriX (x : Ext) (s : State) := Issue.ext 0x12 x (bodyAB opShr) s
def execSari (o : BI) (s : State) := Issue.base 0x13 (.bi o) (bodyAB opSar) s
def execSariX (x : Ext) (s : State) := Issue.ext 0x13 x (bodyAB opSar) s
def execAndi (o : BI) (s : State) := Issue.base 0x14 (.bi o) (bodyAB opAnd) s
def execAndiX (x : Ext) (s : State) := Issue.ext 0x14 x (bodyAB opAnd) s
def execSel (o : B3) (s : State) := Issue.base 0x1B (.b3 o) (bodyABD opSel) s
def execSelX (x : Ext) (s : State) := Issue.ext 0x1B x (bodyABD opSel) s
def execMad (o : B3) (s : State) := Issue.base 0x3C (.b3 o) (bodyABD opMad) s
def execMadX (x : Ext) (s : State) := Issue.ext 0x3C x (bodyABD opMad) s
def execPopc (o : B3) (s : State) := Issue.base 0x3D (.b3 o) (bodyA opPopc) s
def execPopcX (x : Ext) (s : State) := Issue.ext 0x3D x (bodyA opPopc) s
def execClz (o : B3) (s : State) := Issue.base 0x3E (.b3 o) (bodyA opClz) s
def execClzX (x : Ext) (s : State) := Issue.ext 0x3E x (bodyA opClz) s

/-! ### Division and remainder (R191, R192) -/

/-- The value of division `op` (0 `DIVS`, 1 `DIVU`, 2 `REMS`, 3 `REMU`). -/
def divide (op : Nat) (a b : Word) : Word :=
  match op with
  | 0 => if b = 0 then 0xFFFFFFFF else BitVec.ofInt 32 (Int.tdiv a.toInt b.toInt)
  | 1 => if b = 0 then 0xFFFFFFFF else a / b
  | 2 => if b = 0 then a else BitVec.ofInt 32 (Int.tmod a.toInt b.toInt)
  | _ => if b = 0 then a else a % b

/-- The oldest division of a beam that has not ended, at its sub-step. -/
def Beam.divAt (b : Beam) : Option Nat :=
  b.longs.findSome? fun l => match l.op with | .div _ _ _ _ _ _ g => some g | _ => none

/-- A division enters the quadrant's divider with its operands latched; D is pending until the last lanes are written. `%pix` is that of
an earlier division of the beam until that ends. One that `ERET` resumes at a sub-step of 4 or more has none left: it writes nothing
(DESIGN CHOICE, log 59). -/
def bodyDiv (op : Nat) (e : Env) (s : State) : Res :=
  let first := e.b.resume.getD 0
  if e.anyActive = false ∨ first ≥ 4 then .done s
  else
    let run : LongRun := ⟨e.pc, e.now, e.now, .div op e.x.d.toNat (lanes.map e.a) (lanes.map e.bv) e.act s.nextId first⟩
    .done ((e.pendingAt s (writeNames e.g e.x) [] 1 0 true).modBeam e.r fun b =>
      ({ b with longs := b.longs ++ [run] } : Beam).atStep (b.divAt.getD first))

/-- The divisions of a beam that wait for the divider or run: the cycle from which each is there, and its result. -/
def divKeys (b : Beam) : List (Nat × Nat) :=
  b.longs.filterMap fun l => match l.op with | .div _ _ _ _ _ p _ => some (l.since, p) | _ => none

/-- The division that the divider of a quadrant serves: the one that has been there longest, in issue order. -/
def State.divFirst (s : State) (core q : Nat) : Option (Nat × Nat) :=
  ((s.quadBeams core q).flatMap fun e => divKeys e.2.2).foldl (fun m k =>
    match m with
    | none => some k
    | some j => if k.1 < j.1 ∨ (k.1 = j.1 ∧ k.2 < j.2) then some k else some j) none

/-- Sub-step g of a division ends: lanes 8g to 8g + 7 of D are written 4 cycles later, the last of them with D's mark
(R192). -/
def Beam.divStep (b : Beam) (l : LongRun) (done : Nat) : Beam :=
  match l.op with
  | .div op d a v m p g =>
    let vals := (List.range 8).filterMap fun i =>
      let k := 8 * g + i
      if maskBit m k then some (regKey d k, divide op (a.getD k 0) (v.getD k 0)) else none
    if g + 1 < 4 then
      ({ b with
        fix := insertFix ⟨done + 4, vals, [], 0, none⟩ b.fix
        longs := b.longs.map fun o => if o = l then { l with op := .div op d a v m p (g + 1) } else o } : Beam).atStep (g + 1)
    else
      let c : Beam := { b with
        longs := b.longs.filter fun o => decide (o ≠ l)
        pends := b.pends.map fun q => if q.id = p then { q with vals := vals, wait := 0, ready := done + 4 } else q }
      c.divAt.elim c c.atStep
  | _ => b

/-- A halt keeps the beam's last long instruction from beginning a sub-step in cycle `start` (R381). -/
def Beam.held (b : Beam) (l : LongRun) (start : Nat) : Bool :=
  match b.halt with
  | .skidding 0 since => decide (b.lastLong = some l) && decide (since ≤ start)
  | _ => false

/-- DIVIDER_SUBSTEP: the divider of the beam's quadrant does the next sub-step of the beam's division, if that is the one
it serves and 8 cycles have passed. -/
def execDividerSubstep (t b : Nat) (s : State) : Host.Outcome State Fault Refusal :=
  match s.team? t with
  | none => .next s
  | some T =>
    match T.beams[b]? with
    | none => .next s
    | some bm =>
      let q := b % 4
      let first := s.divFirst T.coreId q
      let run := bm.longs.find? fun l => match l.op with | .div _ _ _ _ _ p _ => decide (first = some (l.since, p)) | _ => false
      let C := s.core T.coreId
      match run with
      | none => .next s
      | some l =>
        let done := max l.since (sget 0 C.divFree q) + 8
        if s.clock < done ∨ bm.held l (done - 8) = true then .next s
        else .next ((s.setTeam t (T.setBeam b (bm.divStep l done))).setCore T.coreId { C with divFree := sset 0 C.divFree q done })

/-! ### Across lanes (R193 to R196) -/

/-- The lane a shuffle reads for lane l; none where it is out of range. -/
def srcShfl (_ : Nat) (b : Word) : Option Nat := some (b.extractLsb' 0 5).toNat
def srcShflx (l : Nat) (b : Word) : Option Nat := some ((BitVec.ofNat 5 l) ^^^ (b.extractLsb' 0 5 : BitVec 5)).toNat
def srcShflu (l : Nat) (b : Word) : Option Nat := if b.toNat ≤ l then some (l - b.toNat) else none
def srcShfld (l : Nat) (b : Word) : Option Nat := if l + b.toNat ≤ 31 then some (l + b.toNat) else none

/-- A shuffle: D[l] = A of the source lane, or A[l] (R193). -/
def bodyShfl (src : Nat → Word → Option Nat) (e : Env) (s : State) : Res :=
  e.fixedLanes s (fun l => e.a ((src l (e.bv l)).getD l)) 0

/-- The active lanes whose A has bit 0 set, as a mask. -/
def Env.ballot (e : Env) : Word := maskOf fun l => e.active l && (e.a l).getLsbD 0

def bodyVote (e : Env) (s : State) : Res :=
  let m := e.ballot
  let r := if e.x.xf 0 2 = 0 then boolWord (m != 0) else if e.x.xf 0 2 = 1 then boolWord (m == e.act) else m
  e.fixedLanes s (fun _ => r) 0

def bodyMatch (e : Env) (s : State) : Res :=
  e.fixedLanes s (fun l => maskOf fun k => e.active k && decide (e.a k = e.a l)) 0

/-- A fold over the active lanes in ascending order (R195). -/
def Env.fold (e : Env) (f : Word → Word → Word) : Word :=
  match e.activeLanes with
  | [] => 0
  | l :: r => r.foldl (fun m k => f m (e.a k)) (e.a l)

def bodyFold (f : Word → Word → Word) (e : Env) (s : State) : Res := e.fixedLanes s (fun _ => e.fold f) 0

/-- Operation and identity of a `SCAN` (R196). -/
def scanOp (n : Nat) : Word → Word → Word := if n = 0 then opAdd else if n = 1 then opMax else opMin
def scanId (n : Nat) : Word := if n = 0 then 0 else if n = 1 then 0x80000000 else 0x7FFFFFFF

/-- The prefix of the active lanes below l, l itself included unless the form is exclusive. -/
def Env.scanAt (e : Env) (l : Nat) : Word :=
  let n := e.x.xf 0 2
  (e.activeLanes.filter fun k => if e.x.xf 2 1 = 1 then decide (k < l) else decide (k ≤ l)).foldl
    (fun m k => scanOp n m (e.a k)) (scanId n)

def bodyScan (e : Env) (s : State) : Res := e.fixedLanes s e.scanAt 0

/-! ### Cross-core exchange (R197, R198) -/

/-- What the partner of a waiting beam is found to be. -/
inductive Partner where
  | waiting (mask : Word) (vals : List (Nat × Word)) (d pend : Nat)
  | gone
  | away
  deriving DecidableEq, Repr

/-- The team paired with T. -/
def State.pairOf (s : State) (T : Team) : Option (Nat × Team) :=
  s.teams.find? fun e => decide (e.2.grid = T.grid) && decide (e.2.index = T.index ^^^ 1)

/-- The partner of beam b of team T at a tag. -/
def State.partner (s : State) (T : Team) (b tag : Nat) : Partner :=
  match s.pairOf T with
  | none => .gone
  | some (_, U) =>
    match U.beams[b]? with
    | none => .gone
    | some c =>
      match c.status with
      | .retired => .gone
      | .xchg g m v d p => if g = tag then .waiting m v d p else .away
      | _ => .away

/-- The values that cross: those of the other side in the lanes active on both. -/
def xchgVals (mine other : Word) (vals : List (Nat × Word)) (d : Nat) : List (Nat × Word) :=
  (vals.filter fun e => maskBit mine e.1 && maskBit other e.1).map fun e => (regKey d e.1, e.2)

/-- A waiting exchange completes on one side. -/
def Beam.xchgDone (b : Beam) (pend now : Nat) (vals : List (Nat × Word)) : Beam :=
  { b with
    status := .ready
    pends := b.pends.map fun q => if q.id = pend then { q with vals := vals, wait := 0, ready := now + 16 } else q }

/-- Completes the exchange that beam r waits in, on both sides, if its partner is there or has retired. -/
def State.xchgTry (s : State) (r : Ref) : State :=
  match s.team? r.t, s.beam? r with
  | some T, some b =>
    match b.status with
    | .xchg tag m v d p =>
      match s.partner T r.b tag with
      | .away => s
      | .gone => s.setBeam r (b.xchgDone p s.clock [])
      | .waiting m' v' d' p' =>
        match s.pairOf T with
        | none => s
        | some (u, _) =>
          (s.setBeam r (b.xchgDone p s.clock (xchgVals m m' v' d))).modBeam ⟨u, r.b⟩ fun c =>
            c.xchgDone p' s.clock (xchgVals m' m v d')
    | _ => s
  | _, _ => s

def bodyXchg (e : Env) (s : State) : Res :=
  if (s.gridOf e.T).elim true (fun g => !g.launch.paired) then Res.trapOwn cPROT
  else
    let s1 := e.pending s (writeNames e.g e.x) [] 1 0
    let s2 := e.wait s1 (.xchg e.x.x10.toNat e.act (lanes.map fun l => (l, e.a l)) e.x.d.toNat s.nextId)
    .done (s2.xchgTry e.r)

def execShfl (o : B3) (s : State) := Issue.base 0x2B (.b3 o) (bodyShfl srcShfl) s
def execShflX (x : Ext) (s : State) := Issue.ext 0x2B x (bodyShfl srcShfl) s
def execShflx (o : B3) (s : State) := Issue.base 0x2C (.b3 o) (bodyShfl srcShflx) s
def execShflxX (x : Ext) (s : State) := Issue.ext 0x2C x (bodyShfl srcShflx) s
def execRadd (o : B3) (s : State) := Issue.base 0x3A (.b3 o) (bodyFold opAdd) s
def execRaddX (x : Ext) (s : State) := Issue.ext 0x3A x (bodyFold opAdd) s
def execRmax (o : B3) (s : State) := Issue.base 0x3B (.b3 o) (bodyFold opMax) s
def execRmaxX (x : Ext) (s : State) := Issue.ext 0x3B x (bodyFold opMax) s
def execMulhi (x : Ext) (s : State) := Issue.ext 0x080 x (bodyAB opMulhi) s
def execMulhiu (x : Ext) (s : State) := Issue.ext 0x081 x (bodyAB opMulhiu) s
def execAddp (x : Ext) (s : State) := Issue.ext 0x082 x (bodyPair opAddp) s
def execSubp (x : Ext) (s : State) := Issue.ext 0x083 x (bodyPair opSubp) s
def execMulp (x : Ext) (s : State) := Issue.ext 0x084 x (bodyPair opMulp) s
def execLea (x : Ext) (s : State) := Issue.ext 0x085 x (bodyLea) s
def execAbs (x : Ext) (s : State) := Issue.ext 0x086 x (bodyA opAbs) s
def execRol (x : Ext) (s : State) := Issue.ext 0x087 x (bodyAB opRol) s
def execRor (x : Ext) (s : State) := Issue.ext 0x088 x (bodyAB opRor) s
def execCtz (x : Ext) (s : State) := Issue.ext 0x089 x (bodyA opCtz) s
def execBrev (x : Ext) (s : State) := Issue.ext 0x08A x (bodyA opBrev) s
def execBfx (x : Ext) (s : State) := Issue.ext 0x08B x (bodyAB opBfx) s
def execBfxu (x : Ext) (s : State) := Issue.ext 0x08C x (bodyAB opBfxu) s
def execBfi (x : Ext) (s : State) := Issue.ext 0x08D x (bodyABD opBfi) s
def execDivs (x : Ext) (s : State) := Issue.ext 0x08E x (bodyDiv 0) s
def execDivu (x : Ext) (s : State) := Issue.ext 0x08F x (bodyDiv 1) s
def execRems (x : Ext) (s : State) := Issue.ext 0x090 x (bodyDiv 2) s
def execRemu (x : Ext) (s : State) := Issue.ext 0x091 x (bodyDiv 3) s
def execShflu (x : Ext) (s : State) := Issue.ext 0x092 x (bodyShfl srcShflu) s
def execShfld (x : Ext) (s : State) := Issue.ext 0x093 x (bodyShfl srcShfld) s
def execVote (x : Ext) (s : State) := Issue.ext 0x094 x (bodyVote) s
def execMatchLanes (x : Ext) (s : State) := Issue.ext 0x095 x (bodyMatch) s
def execRmin (x : Ext) (s : State) := Issue.ext 0x096 x (bodyFold opMin) s
def execRminu (x : Ext) (s : State) := Issue.ext 0x097 x (bodyFold opMinu) s
def execRmaxu (x : Ext) (s : State) := Issue.ext 0x098 x (bodyFold opMaxu) s
def execScan (x : Ext) (s : State) := Issue.ext 0x099 x (bodyScan) s
def execXchg (x : Ext) (s : State) := Issue.ext 0x09A x (bodyXchg) s
def execRng (x : Ext) (s : State) := Issue.ext 0x09B x (bodyAB rng) s
def execShlp (x : Ext) (s : State) := Issue.ext 0x09C x (bodyPairShift opShlp) s
def execShrp (x : Ext) (s : State) := Issue.ext 0x09D x (bodyPairShift opShrp) s
def execSarp (x : Ext) (s : State) := Issue.ext 0x09E x (bodyPairShift opSarp) s
def execCeqp (x : Ext) (s : State) := Issue.ext 0x09F x (bodyPairCmp opCeqp) s
def execCltp (x : Ext) (s : State) := Issue.ext 0x0A0 x (bodyPairCmp opCltp) s
def execCltup (x : Ext) (s : State) := Issue.ext 0x0A1 x (bodyPairCmp opCltup) s

end Sys2Proof.Machine
end

