-- ==== Sys2Proof/Machine/FloatOps.lean ====
section
/-! DEFINITION. Floating point, tapered conversion and reductions (R200 to R219). -/

namespace Sys2Proof.Machine

/-- A lane result with its exceptions. -/
abbrev FRes := Nat × Flags

/-- Fixed-latency results with exceptions, lane by lane (R200, R201). -/
def bodyFlagged (f : Env → Nat → FRes) (e : Env) (s : State) : Res :=
  e.fixedLanes s (fun l => BitVec.ofNat 32 (f e l).1) (lanesFlags e.activeLanes fun l => (f e l).2)

/-! ### Arithmetic (R203 to R205) -/

def bodyF2 (f : RMode → Nat → Nat → FRes) : Env → State → Res :=
  bodyFlagged fun e l => f e.rmode (e.a l).toNat (e.bv l).toNat
def bodyF3 (f : RMode → Nat → Nat → Nat → FRes) : Env → State → Res :=
  bodyFlagged fun e l => f e.rmode (e.a l).toNat (e.bv l).toNat (e.c l).toNat
def bodyF3d (f : RMode → Nat → Nat → Nat → FRes) : Env → State → Res :=
  bodyFlagged fun e l => f e.rmode (e.a l).toNat (e.bv l).toNat (e.dOld l).toNat

/-- A packed result as a lane result. -/
def packedRes (p : Word × Flags) : FRes := (p.1.toNat, p.2)

def bodyP2 (f : RMode → Nat → Nat → FRes) : Env → State → Res :=
  bodyFlagged fun e l => packedRes (packed2 (f e.rmode) (e.a l) (e.bv l))
def bodyP3 (f : RMode → Nat → Nat → Nat → FRes) : Env → State → Res :=
  bodyFlagged fun e l => packedRes (packed3 (f e.rmode) (e.a l) (e.bv l) (e.c l))
def bodyP3d (f : RMode → Nat → Nat → Nat → FRes) : Env → State → Res :=
  bodyFlagged fun e l => packedRes (packed3 (f e.rmode) (e.a l) (e.bv l) (e.dOld l))

/-! ### Sign, selection, comparison, class (R206 to R209) -/

/-- The sign bits that `FABS` and `FNEG` act on: bit 31, and bit 15 with PK (R206). -/
def Env.signBits (e : Env) : Word := if e.x.xf 0 1 = 1 then 0x80008000 else 0x80000000
def opFabs (a m : Word) : Word := a &&& ~~~m
def opFneg (a m : Word) : Word := a ^^^ m
def bodyFsign (f : Word → Word → Word) (e : Env) (s : State) : Res := e.fixedLanes s (fun l => f (e.a l) e.signBits) 0

/-- `a` is below `b`, with −0 below +0; no NaN. -/
def FVal.below (a b : FVal) : Bool := a.lt b || (a.eq b && a.isNeg && !b.isNeg)

/-- minimumNumber and maximumNumber (R207): a NaN gives way to the other operand. -/
def fpick (f : Fmt) (big : Bool) (a b : Nat) : FRes :=
  let u := FVal.of f a
  let v := FVal.of f b
  let r := if u.isNan && v.isNan then f.qnan
    else if u.isNan then b
    else if v.isNan then a
    else if big then (if u.below v then b else a)
    else (if v.below u then b else a)
  (r, snanFlag f [a, b])

/-- minimum and maximum (R207): a NaN gives the canonical NaN. -/
def fpickNan (f : Fmt) (big : Bool) (a b : Nat) : FRes :=
  if (FVal.of f a).isNan || (FVal.of f b).isNan then (f.qnan, snanFlag f [a, b]) else fpick f big a b

def bodyFsel (f : Nat → Nat → FRes) : Env → State → Res := bodyFlagged fun e l => f (e.a l).toNat (e.bv l).toNat
def bodyPsel (f : Nat → Nat → FRes) : Env → State → Res := bodyFlagged fun e l => packedRes (packed2 f (e.a l) (e.bv l))

/-- A quiet comparison (R208). -/
def bodyFcmp (f : FVal → FVal → Bool) : Env → State → Res :=
  bodyFlagged fun e l =>
    let a := (e.a l).toNat
    let b := (e.bv l).toNat
    (if f (.of .fp32 a) (.of .fp32 b) then 1 else 0, snanFlag .fp32 [a, b])

/-- The class mask of R209. -/
def fclass (a : Word) : Word :=
  let n := a.toNat
  let neg := a.getLsbD 31
  let mag := n % 2 ^ 31
  let k : Nat :=
    if mag > 0x7F800000 then (if isSnan .fp32 n then 8 else 9)
    else if mag = 0x7F800000 then (if neg then 0 else 7)
    else if mag = 0 then (if neg then 3 else 4)
    else if mag < 0x800000 then (if neg then 2 else 5)
    else (if neg then 1 else 6)
  BitVec.ofNat 32 (2 ^ k)

/-! ### Rounding to integral, functions, scaling (R210 to R212) -/

/-- FP32 rounded to an integral FP32 value (R210). -/
def frnd (rm : RMode) (a : Nat) : FRes :=
  match FVal.of .fp32 a with
  | .nan => (Fmt.fp32.qnan, snanFlag .fp32 [a])
  | .inf _ => (a, 0)
  | .fin s m e =>
    if m = 0 then (a, 0)
    else
      let r := roundShift rm s m (-e)
      ((pack .fp32 rm (.fin s r.1 0 false)).1, if r.2 then fNX else 0)

def bodyFrnd : Env → State → Res := bodyFlagged fun e l => frnd e.rmode (e.a l).toNat
def bodyFn (fn : Nat) : Env → State → Res := bodyFlagged fun e l => fnBits fn e.rmode (e.a l)

/-- `A * 2 ^ n` rounded (R212). Beyond 700 in either direction the rounded result no longer depends on n. -/
def fscl (rm : RMode) (a : Nat) (n : Int) : FRes :=
  let k := max (-700) (min n 700)
  let x : XRes := match FVal.of .fp32 a with
    | .fin s m e => .fin s m (e + k) false
    | v => v.toX
  let r := pack .fp32 rm x
  (r.1, r.2 ||| snanFlag .fp32 [a])

def bodyFscl : Env → State → Res := bodyFlagged fun e l => fscl e.rmode (e.a l).toNat (e.bv l).toInt

/-! ### Conversions (R213 to R216) -/

/-- One element from one format to another. -/
def convert (f g : Fmt) (rm : RMode) (a : Nat) : FRes :=
  let r := pack g rm (FVal.of f a).toX
  (r.1, r.2 ||| snanFlag f [a])

def fmtOf (c : Nat) : Fmt := if c = 0 then .fp32 else if c = 1 then .fp16 else .bf16

def bodyCvtf : Env → State → Res := bodyFlagged fun e l =>
  let sf := e.x.xf 3 2
  let df := e.x.xf 5 2
  let a := (e.a l).toNat
  if sf = 0 then
    let lo := convert .fp32 (fmtOf df) e.rmode a
    let hi := convert .fp32 (fmtOf df) e.rmode (e.bv l).toNat
    (lo.1 + 65536 * hi.1, lo.2 ||| hi.2)
  else if df = 0 then convert (fmtOf sf) .fp32 e.rmode (if e.x.xf 7 1 = 1 then a / 65536 else a % 65536)
  else packedRes (packed2 (fun x _ => convert (fmtOf sf) (fmtOf df) e.rmode x) (e.a l) 0)

/-- FP32 to a 32-bit integer, signed or unsigned (R77, R214). -/
def cvtfi (rm : RMode) (uns : Bool) (a : Nat) : FRes :=
  let r := if uns then toIntSat rm 0 (2 ^ 32 - 1) (.of .fp32 a) else toIntSat rm (-(2 ^ 31)) (2 ^ 31 - 1) (.of .fp32 a)
  ((BitVec.ofInt 32 r.1).toNat, r.2)

def bodyCvtfi : Env → State → Res := bodyFlagged fun e l => cvtfi e.rmode (decide (e.x.xf 3 1 = 1)) (e.a l).toNat
def bodyCvtif : Env → State → Res := bodyFlagged fun e l =>
  pack .fp32 e.rmode (intX (if e.x.xf 3 1 = 1 then ((e.a l).toNat : Int) else (e.a l).toInt))

/-- The magnitude width of FMT, and the width of its slots (R215). -/
def Env.tapW (e : Env) : Nat := if e.x.xf 3 1 = 0 then 7 else 5

/-- The first bit of slot SLOT. -/
def Env.tapPos (e : Env) : Nat := (e.tapW + 1) * e.x.xf 4 2

/-- Low byte of the scale operand. -/
def scaleByte (w : Word) : Byte := w.setWidth 8

/-- A value times a power of two, exactly. -/
def FVal.scale (v : FVal) (k : Int) : FVal :=
  match v with
  | .fin s m e => .fin s m (e + k)
  | v => v

/-- `CVTT` (R215). -/
def bodyCvtt : Env → State → Res := bodyFlagged fun e l =>
  let r : FRes := match s8 (scaleByte (e.bv l)) with
    | none => (0, 0)
    | some k => encodeTap e.tapW ((FVal.of .fp32 (e.a l).toNat).scale (-k))
  let m : Word := BitVec.ofNat 32 (2 ^ (e.tapW + 1) - 1) <<< e.tapPos
  (((e.dOld l &&& ~~~m) ||| (BitVec.ofNat 32 r.1 <<< e.tapPos)).toNat, r.2)

/-- `CVTTF` (R216). -/
def bodyCvttf : Env → State → Res := bodyFlagged fun e l =>
  match s8 (scaleByte (e.bv l)) with
  | none => (0, 0)
  | some k => pack .fp32 e.rmode ((decodeTap e.tapW ((e.a l).toNat >>> e.tapPos % 2 ^ (e.tapW + 1))).scale k).toX

/-! ### Reductions across the beam (R73, R217 to R219) -/

/-- One level of the tree of R73: lane l takes the sum with lane l + n. -/
def redLevel (rm : RMode) (t : List Nat) : List Nat × Flags :=
  let n := t.length / 2
  let r := (List.range n).map fun l => faddBits .fp32 rm (t.getD l 0) (t.getD (l + n) 0)
  (r.map (·.1), (r.map (·.2)).foldl (· ||| ·) 0)

/-- `k` levels. -/
def redTree (rm : RMode) (k : Nat) (t : List Nat) (f : Flags) : Nat × Flags :=
  match k with
  | 0 => (t.headD 0, f)
  | k + 1 => let r := redLevel rm t; redTree rm k r.1 (f ||| r.2)

/-- fredadd of R73: an inactive lane contributes +0. -/
def Env.fredadd (e : Env) : FRes :=
  redTree e.rmode 5 (lanes.map fun l => if e.active l then (e.a l).toNat else 0) 0

def bodyFredadd (e : Env) (s : State) : Res :=
  e.fixedLanes s (fun _ => BitVec.ofNat 32 e.fredadd.1) e.fredadd.2

/-- The active lanes that hold a number. -/
def Env.numLanes (e : Env) : List Nat := e.activeLanes.filter fun l => !(FVal.of .fp32 (e.a l).toNat).isNan

/-- The lane whose value is selected: the lowest that no other passes (R218, R219). -/
def Env.redLane (e : Env) (big : Bool) : Option Nat :=
  match e.numLanes with
  | [] => none
  | l :: r => some (r.foldl (fun m k =>
      let u := FVal.of .fp32 (e.a m).toNat
      let v := FVal.of .fp32 (e.a k).toNat
      if (if big then u.below v else v.below u) then k else m) l)

def Env.redFlags (e : Env) : Flags := lanesFlags e.activeLanes fun l => snanFlag .fp32 [(e.a l).toNat]

def Env.redValue (e : Env) (big : Bool) : Word :=
  match e.redLane big with
  | none => 0x7FC00000
  | some l => e.a l

def bodyFred (big : Bool) (e : Env) (s : State) : Res := e.fixedLanes s (fun _ => e.redValue big) e.redFlags

def bodyFredIdx (big : Bool) (e : Env) (s : State) : Res :=
  let idx : Word := match e.redLane big with | none => 0xFFFFFFFF | some w => e.c w
  .done (e.fixed s (e.activeLanes.flatMap fun l => pairWords e.x.d.toNat l (idx ++ e.redValue big)) e.redFlags)

/-! ### Arms -/

def execFadd (o : B3) (s : State) := Issue.base 0x1C (.b3 o) (bodyF2 (faddBits .fp32)) s
def execFaddX (x : Ext) (s : State) := Issue.ext 0x1C x (bodyF2 (faddBits .fp32)) s
def execFsub (o : B3) (s : State) := Issue.base 0x1D (.b3 o) (bodyF2 (fsubBits .fp32)) s
def execFsubX (x : Ext) (s : State) := Issue.ext 0x1D x (bodyF2 (fsubBits .fp32)) s
def execFmul (o : B3) (s : State) := Issue.base 0x1E (.b3 o) (bodyF2 (fmulBits .fp32)) s
def execFmulX (x : Ext) (s : State) := Issue.ext 0x1E x (bodyF2 (fmulBits .fp32)) s
def execFmac (o : B3) (s : State) := Issue.base 0x1F (.b3 o) (bodyF3d (ffmaBits .fp32)) s
def execFmacX (x : Ext) (s : State) := Issue.ext 0x1F x (bodyF3d (ffmaBits .fp32)) s
def execFmin (o : B3) (s : State) := Issue.base 0x20 (.b3 o) (bodyFsel (fpick .fp32 false)) s
def execFminX (x : Ext) (s : State) := Issue.ext 0x20 x (bodyFsel (fpick .fp32 false)) s
def execFmax (o : B3) (s : State) := Issue.base 0x21 (.b3 o) (bodyFsel (fpick .fp32 true)) s
def execFmaxX (x : Ext) (s : State) := Issue.ext 0x21 x (bodyFsel (fpick .fp32 true)) s
def execFceq (o : B3) (s : State) := Issue.base 0x22 (.b3 o) (bodyFcmp FVal.eq) s
def execFceqX (x : Ext) (s : State) := Issue.ext 0x22 x (bodyFcmp FVal.eq) s
def execFclt (o : B3) (s : State) := Issue.base 0x23 (.b3 o) (bodyFcmp FVal.lt) s
def execFcltX (x : Ext) (s : State) := Issue.ext 0x23 x (bodyFcmp FVal.lt) s
def execFcle (o : B3) (s : State) := Issue.base 0x24 (.b3 o) (bodyFcmp FVal.le) s
def execFcleX (x : Ext) (s : State) := Issue.ext 0x24 x (bodyFcmp FVal.le) s
def execHadd (o : B3) (s : State) := Issue.base 0x25 (.b3 o) (bodyP2 (faddBits .fp16)) s
def execHaddX (x : Ext) (s : State) := Issue.ext 0x25 x (bodyP2 (faddBits .fp16)) s
def execHmul (o : B3) (s : State) := Issue.base 0x26 (.b3 o) (bodyP2 (fmulBits .fp16)) s
def execHmulX (x : Ext) (s : State) := Issue.ext 0x26 x (bodyP2 (fmulBits .fp16)) s
def execHmac (o : B3) (s : State) := Issue.base 0x27 (.b3 o) (bodyP3d (ffmaBits .fp16)) s
def execHmacX (x : Ext) (s : State) := Issue.ext 0x27 x (bodyP3d (ffmaBits .fp16)) s
def execBadd (o : B3) (s : State) := Issue.base 0x28 (.b3 o) (bodyP2 (faddBits .bf16)) s
def execBaddX (x : Ext) (s : State) := Issue.ext 0x28 x (bodyP2 (faddBits .bf16)) s
def execBmul (o : B3) (s : State) := Issue.base 0x29 (.b3 o) (bodyP2 (fmulBits .bf16)) s
def execBmulX (x : Ext) (s : State) := Issue.ext 0x29 x (bodyP2 (fmulBits .bf16)) s
def execBmac (o : B3) (s : State) := Issue.base 0x2A (.b3 o) (bodyP3d (ffmaBits .bf16)) s
def execBmacX (x : Ext) (s : State) := Issue.ext 0x2A x (bodyP3d (ffmaBits .bf16)) s
def execFfma (x : Ext) (s : State) := Issue.ext 0x100 x (bodyF3 (ffmaBits .fp32)) s
def execFnms (x : Ext) (s : State) := Issue.ext 0x101 x (bodyF3 (ffnmaBits .fp32)) s
def execFabs (x : Ext) (s : State) := Issue.ext 0x102 x (bodyFsign opFabs) s
def execFneg (x : Ext) (s : State) := Issue.ext 0x103 x (bodyFsign opFneg) s
def execFminn (x : Ext) (s : State) := Issue.ext 0x104 x (bodyFsel (fpickNan .fp32 false)) s
def execFmaxn (x : Ext) (s : State) := Issue.ext 0x105 x (bodyFsel (fpickNan .fp32 true)) s
def execFcun (x : Ext) (s : State) := Issue.ext 0x106 x (bodyFcmp fun a b => a.isNan || b.isNan) s
def execFclass (x : Ext) (s : State) := Issue.ext 0x107 x (bodyA fclass) s
def execFrnd (x : Ext) (s : State) := Issue.ext 0x108 x (bodyFrnd) s
def execFrcp (x : Ext) (s : State) := Issue.ext 0x109 x (bodyFn 0) s
def execFrsq (x : Ext) (s : State) := Issue.ext 0x10A x (bodyFn 1) s
def execFsqrt (x : Ext) (s : State) := Issue.ext 0x10B x (bodyFn 2) s
def execFexp2 (x : Ext) (s : State) := Issue.ext 0x10C x (bodyFn 3) s
def execFlog2 (x : Ext) (s : State) := Issue.ext 0x10D x (bodyFn 4) s
def execFtanh (x : Ext) (s : State) := Issue.ext 0x10E x (bodyFn 5) s
def execFscl (x : Ext) (s : State) := Issue.ext 0x10F x (bodyFscl) s
def execHfma (x : Ext) (s : State) := Issue.ext 0x110 x (bodyP3 (ffmaBits .fp16)) s
def execBfma (x : Ext) (s : State) := Issue.ext 0x111 x (bodyP3 (ffmaBits .bf16)) s
def execHmin (x : Ext) (s : State) := Issue.ext 0x112 x (bodyPsel (fpick .fp16 false)) s
def execHmax (x : Ext) (s : State) := Issue.ext 0x113 x (bodyPsel (fpick .fp16 true)) s
def execCvtf (x : Ext) (s : State) := Issue.ext 0x114 x (bodyCvtf) s
def execCvtfi (x : Ext) (s : State) := Issue.ext 0x115 x (bodyCvtfi) s
def execCvtif (x : Ext) (s : State) := Issue.ext 0x116 x (bodyCvtif) s
def execCvtt (x : Ext) (s : State) := Issue.ext 0x117 x (bodyCvtt) s
def execCvttf (x : Ext) (s : State) := Issue.ext 0x118 x (bodyCvttf) s
def execFredadd (x : Ext) (s : State) := Issue.ext 0x119 x (bodyFredadd) s
def execFredmax (x : Ext) (s : State) := Issue.ext 0x11A x (bodyFred true) s
def execFredmin (x : Ext) (s : State) := Issue.ext 0x11B x (bodyFred false) s
def execFredmaxi (x : Ext) (s : State) := Issue.ext 0x11C x (bodyFredIdx true) s
def execFredmini (x : Ext) (s : State) := Issue.ext 0x11D x (bodyFredIdx false) s

end Sys2Proof.Machine
end

