-- ==== Sys2Proof/Machine/Mem.lean ====
section
/-! DEFINITION. Memory instructions as far as the core goes (R119, R123, R126, R129, R142 to R147, R220 to R242, R372):
addresses, checks, the coalescer, the operand log; and the scratchpad, which its port performs at issue. What home slices
do with packets is in `Sys2Proof.Machine.Slice`. -/

namespace Sys2Proof.Machine

/-! ### Accesses of the active lanes -/

/-- The element that stands for none. -/
def Elem.init : Elem := { lane := 0, va := 0, pa := 0, size := 4, val := 0, cmp := 0, reg := 0, sx := false }

/-- One lane's access: address, size in bytes, store or operand value, compare value, first destination register. -/
structure Acc where
  lane : Nat
  va   : Nat
  size : Nat
  val  : Nat
  cmp  : Nat
  reg  : Nat
  deriving DecidableEq, Repr

/-- Element size in bytes (R221). -/
def Env.width (e : Env) : Nat := 2 ^ e.x.xf 0 3

/-- The value of a register group that holds one element, low register first (R221). -/
def groupVal (f : Nat → Word) (n : Nat) : Nat :=
  match n with
  | 0 => 0
  | n + 1 => groupVal f n + (f n).toNat * 2 ^ (32 * n)

/-- The element of C in lane l: its low bytes. -/
def Env.cElem (e : Env) (l : Nat) : Nat := groupVal (fun i => e.cReg i l) (groupLen (e.x.xf 0 3)) % 2 ^ (8 * e.width)

/-- The old value of the D group in lane l. -/
def Env.dElem (e : Env) (l : Nat) : Nat :=
  groupVal (fun i => e.b.rd (e.x.d.toNat + i) l) (groupLen (e.x.xf 0 3)) % 2 ^ (8 * e.width)

/-- A global address (R222). -/
def Env.ea (e : Env) (l : Nat) : Dword := e.aPair l + e.x.immDword

/-- A scratchpad address (R222). -/
def Env.sa (e : Env) (l : Nat) : Word := e.a l + e.x.immWord

def Env.accs (e : Env) (addr : Nat → Nat) (ls : List Nat) : List Acc :=
  ls.map fun l => ⟨l, addr l, e.width, e.cElem l, e.dElem l, e.x.d.toNat⟩

def Acc.misaligned (a : Acc) : Bool := decide (a.va % a.size ≠ 0)

/-- The registers that a loaded element writes: extended to the group by zeros or by its top bit (R221). -/
def elemRegs (reg lane size v : Nat) (sx : Bool) : List (Nat × Word) :=
  let n := (size + 3) / 4
  let v' := if sx && decide (v / 2 ^ (8 * size - 1) % 2 = 1) then v + (2 ^ (32 * n) - 2 ^ (8 * size)) else v
  (List.range n).map fun i => (regKey (reg + i) lane, BitVec.ofNat 32 (v' >>> (32 * i)))

/-! ### The operation table (R233) -/

/-- The new value of an atomic of `size` bytes. -/
def atomNew (op size old c cmp : Nat) : Nat :=
  let m := 2 ^ (8 * size)
  let sg (v : Nat) : Int := if v ≥ m / 2 then (v : Int) - m else v
  match op with
  | 0 => (old + c) % m
  | 1 => if sg c < sg old then c else old
  | 2 => if sg c > sg old then c else old
  | 3 => Nat.min old c
  | 4 => Nat.max old c
  | 5 => old &&& c
  | 6 => old ||| c
  | 7 => old ^^^ c
  | 8 => c
  | 9 => if old = cmp then c else old
  | 10 => (faddBits .fp32 .rne old c).1
  | 11 => (fpick .fp32 false old c).1
  | 12 => (fpick .fp32 true old c).1
  | 13 => (packed2 (faddBits .fp16 .rne) (BitVec.ofNat 32 old) (BitVec.ofNat 32 c)).1.toNat
  | 14 => (packed2 (faddBits .bf16 .rne) (BitVec.ofNat 32 old) (BitVec.ofNat 32 c)).1.toNat
  | _ => old

/-! ### Holds before issue -/

/-- The instructions with an entry in a core's log (R372): those of the teams that the core holds; a fetch is no instruction's. -/
def State.logInsts (s : State) (core : Nat) : List Nat :=
  let on (r : Ref) : Bool := decide ((s.team? r.t).bind Team.core? = some core)
  ((s.net.log.filter fun g => on g.packet.src && !g.fetch && g.packet.job.isNone).map (·.inst)).dedup

/-- The core's operand log is full: no memory instruction issues (R372). -/
def State.logFull (s : State) (core : Nat) : Bool := decide ((s.logInsts core).length ≥ 64)

/-- No memory instruction issues while the log is full (R372) or an acquire of the beam is under way (R144). -/
def State.memHeld (s : State) (e : Env) : Bool := s.logFull e.T.coreId || s.acquiring e.r

/-- Number of sub-steps of a matrix entry (R245). -/
def Entry.total (n : Entry) : Nat :=
  match n.kind with
  | .mma => if n.fmt = 0 then 4 else if n.fmt = 1 then 8 else 1
  | .mmasp _ => if n.fmt = 0 then 4 else 8
  | _ => 1

/-- Bytes of scratchpad that an entry reads (R249, R257, R258). -/
def Entry.bytes (n : Entry) : Nat :=
  match n.kind with
  | .mma => if n.fmt = 0 then 16384 else if n.fmt = 1 then 24576 else 8192
  | .mmasp k => if n.fmt = 0 then 256 * k else 384 * k
  | .ldmeta => 128 * n.units
  | _ => 0

/-- A matrix instruction of the beam still has scratchpad bytes to read (R263). -/
def State.matrixBusy (s : State) (r : Ref) : Bool :=
  s.cores.any fun c => c.2.entries.any fun n => decide (n.src = r) && decide (n.pix < n.total) && decide (n.bytes ≠ 0)

/-- Whether something of the beam is still under way that a wait at TM scope or wider waits for (R142): packets not
acknowledged, loads not returned, packet groups not sent, scratchpad accesses not performed, entries in the operand log. -/
def State.quietBeam (s : State) (r : Ref) (b : Beam) : Bool :=
  decide (b.orc = 0) && (b.pends.all fun p => decide (p.wait = 0)) && decide (b.scrAt ≤ s.clock) && !b.scrReading &&
    (b.longs.all fun l => match l.op with | .coal _ _ _ _ => false | .kvw _ _ _ _ => false | _ => true) &&
    (s.net.log.all fun g => !g.of r) && !s.matrixBusy r

/-! ### The read-only cache (R123) -/

def State.roClear (s : State) (core : Nat) : State :=
  let keep (l : RoLine) : Bool := decide (l.core ≠ core)
  { s with net := { s.net with roCache := s.net.roCache.filter keep } }

def State.roDrop (s : State) (core : Nat) (lines : List Nat) : State :=
  let keep (l : RoLine) : Bool := decide (l.core ≠ core) || !lines.contains l.line
  { s with net := { s.net with roCache := s.net.roCache.filter keep } }

/-- A line that the core's cache holds: one filled before a `CINV` completed is there no more (R240). -/
def State.roFind (s : State) (core line : Nat) : Option RoLine :=
  let cut := (s.core core).cinv.filter fun c => decide (c ≤ s.clock)
  s.net.roCache.find? fun l => decide (l.core = core) && decide (l.line = line) && cut.all fun c => decide (c ≤ l.at_)

/-- The physical addresses that a lane of a `KVW` or `KVR` accesses, and their lines. -/
def KvLane.pas (k : KvLane) : List Nat := if k.there then k.tag :: k.els.map (·.1) else []
def KvLane.lines (k : KvLane) : List Nat := k.pas.map lineOf

/-- The lines that a long instruction has still to access. -/
def Long.lines (o : Long) : List Nat :=
  match o with
  | .coal _ gs _ n => (gs.drop n).flatten.flatMap fun p => p.elems.map fun x => lineOf x.pa
  | .kvw _ ls _ _ => ls.flatMap KvLane.lines
  | .kvr ls _ _ _ _ _ => ls.flatMap KvLane.lines
  | _ => []

/-- The lines that long instructions issued before cycle `t` have still to access. -/
def Beam.unsentLines (b : Beam) (t : Nat) : List Nat := b.longs.flatMap fun l => if l.at_ < t then l.op.lines else []

/-- Whether the packets of an operation count in `%orc` (R225). -/
def POp.counted (o : POp) : Bool :=
  match o with
  | .load => false
  | .prefetch => false
  | .watch => false
  | _ => true

/-- A long instruction writes memory. -/
def Long.stores (o : Long) : Bool :=
  match o with
  | .coal _ gs _ n => (gs.drop n).flatten.any (·.op.counted)
  | .kvw _ _ _ _ => true
  | _ => false

/-- The packets that a long instruction has still to send and that will count, at most. -/
def Long.toCount (o : Long) : Nat :=
  match o with
  | .coal _ gs _ n => ((gs.drop n).flatten.filter fun p => p.op.counted).length
  | .kvw _ ls _ _ => (ls.map fun k => k.els.length + 1).sum
  | _ => 0

/-- The packets that a log entry's lanes will send and that will count, at most. -/
def LogEntry.toCount (g : LogEntry) : Nat :=
  if g.packet.op.counted then g.packet.elems.length + 5 * (g.kv.elim 0 fun k => k.args.length) else 0

/-- Packets of instructions that have issued which are still to be counted (R147): the room in `%orc` that they need is kept. -/
def State.reserved (s : State) (r : Ref) : Nat :=
  ((s.net.log.filter fun g => g.of r).map LogEntry.toCount).sum +
    (s.beam? r).elim 0 fun b => (b.longs.map fun l => l.op.toCount).sum

/-- A packet of a beam that writes the line. -/
def Packet.stores (p : Packet) (line : Nat) : Bool :=
  p.job.isNone && p.op.counted && p.elems.any fun x => decide (lineOf x.pa = line)

/-- A store of a beam of the core to the line has issued and is not applied yet. -/
def State.coreStores (s : State) (core line : Nat) : Bool :=
  (s.net.packets.any fun p => decide (p.core = core) && p.stores line) ||
    s.teams.any fun e => decide (e.2.core? = some core) &&
      e.2.beams.any fun b => b.longs.any fun l => l.op.stores && l.op.lines.contains line

/-- A line read at its home fills the cache, but not past a store of the core that is on its way: a beam's own earlier write is
never hidden (R123). A full cache drops the line filled first (DESIGN CHOICE, log 53: R123 gives no replacement policy). -/
def State.roFill (s : State) (core line : Nat) (bytes : List Byte) : State :=
  if s.coreStores core line then s
  else
    let own := (s.net.roCache.filter fun l => decide (l.core = core) && decide (l.line ≠ line)).take 1023
    let other := s.net.roCache.filter fun l => decide (l.core ≠ core)
    { s with net := { s.net with roCache := ⟨core, line, s.clock, bytes⟩ :: own ++ other } }

/-! ### Checks (R224) -/

/-- What an access does, for the permission checks of R120 and R367. -/
inductive AKind where
  | load
  | store
  | atomic
  | mcst
  | watch
  | prefetch
  deriving DecidableEq, Repr

def AKind.writes (k : AKind) : Bool :=
  match k with
  | .store => true
  | .atomic => true
  | .mcst => true
  | _ => false

/-- The line of a group window that holds APPLIED (R243). -/
def State.controlGroup (s : State) (pa : Nat) : Option (Nat × Group) :=
  s.work.groups.find? fun g => decide (lineOf g.2.base = lineOf pa)

/-- A bus address inside the PF's BAR 2 (R392, R426). -/
def barSize : Nat := 2 ^ 24
def State.inBar (s : State) (pa : Nat) : Bool :=
  match s.sys.bar2 with
  | none => false
  | some b => decide (b ≤ pa) && decide (pa < b + barSize)

/-- The page forbids the access (R120, R243, R367, R426), or belongs to another tenant. -/
def State.forbids (s : State) (k : AKind) (func : Nat) (l : Leaf) (pa : Nat) (tenant : BitVec 16) : Bool :=
  decide (l.tenant ≠ tenant) || (k.writes && !l.w) ||
  (match l.kind with
   | .hbm => decide (k = .mcst)
   | .cxl => decide (k = .mcst)
   | .host => decide (k = .mcst) || decide (k = .atomic) || decide (k = .watch) || (s.inBar pa && decide (func ≠ 0))
   | .peer => decide (k = .mcst) || decide (k = .watch)
   | .multicast => decide (k = .store) || decide (k = .atomic) || (k.writes && (s.controlGroup pa).isSome))

/-- Translates accesses in turn (R124). -/
def translateAll (s : State) (q : Nat → Requester) (l : List Acc) : List (Acc × Xlat) × State :=
  match l with
  | [] => ([], s)
  | a :: r =>
    let p := s.translate (q a.lane) a.va
    let rest := translateAll p.2 q r
    ((a, p.1) :: rest.1, rest.2)

/-- The lanes that went through, with their leaves. -/
def okAccs (l : List (Acc × Xlat)) : List (Acc × Leaf × Nat) :=
  l.filterMap fun p => match p.2 with | .ok f pa => some (p.1, f, pa) | _ => none

def badAccs (l : List (Acc × Xlat)) (x : Xlat) : List Acc := l.filterMap fun p => if p.2 = x then some p.1 else none

/-- The peer a lane goes to; none for this device. -/
def State.targetOf (s : State) (func : Nat) (a : Acc) (l : Leaf) : Option Nat :=
  match l.kind with
  | .peer => (s.peerEnt func l.aux).map fun p => p.peer a.va
  | _ => none

/-- A peer that performs operation `op` at this size (R236). -/
def State.capable (s : State) (peer op size : Nat) : Bool :=
  (sget 0 s.fab.caps peer).getLsbD (if size = 8 then 16 + op else op)

/-- The link or port of a route: its state (R424). -/
def State.linkState (s : State) (l : Nat) : LState := ((aget s.fab.links l).getD Link.init).state

/-- Route entry `g`: word i of its 16 bytes (R425). -/
def State.routeWord (s : State) (g i : Nat) : Word := sget 0 s.fab.routes (4 * g + i)

/-- A device is reachable: its bit of MMASK is set (R407). -/
def State.reachable (s : State) (id : Nat) : Bool := (s.routeWord (id / 32) 0).getLsbD (id % 32)

/-- The port to the Collimator of a multicast group (R420). -/
def collPort (g : Nat) : Nat := 96 + g % 8

def State.collDead (s : State) (g : Nat) : Bool :=
  decide (s.linkState (collPort g) = .failed) || decide (s.linkState (collPort g) = .down)

/-! ### The coalescer (R225) -/

/-- A packet's key: target, line, kind. -/
structure PKey where
  target : Option Nat
  line   : Nat
  kind   : PKind
  tenant : BitVec 16
  deriving DecidableEq, Repr

/-- This device first, then peers in ascending fabric id; lines ascending. -/
def PKey.before (a b : PKey) : Bool :=
  let n (t : Option Nat) : Nat := match t with | none => 0 | some i => i + 1
  decide (n a.target < n b.target) || (decide (n a.target = n b.target) && decide (a.line < b.line))

/-- Adds an element to the packet of its key, or a new packet at its place. -/
def addElem (k : PKey) (x : Elem) (l : List (PKey × List Elem)) : List (PKey × List Elem) :=
  match l with
  | [] => [(k, [x])]
  | p :: r =>
    if p.1 = k then (k, p.2 ++ [x]) :: r
    else if k.before p.1 then (k, [x]) :: p :: r
    else p :: addElem k x r

def coalesce (l : List (PKey × Elem)) : List (PKey × List Elem) := l.foldl (fun m e => addElem e.1 e.2 m) []

/-- What the packets of an instruction have in common. -/
structure Cast where
  op    : POp
  pend  : Option Nat
  after : Option Nat
  acq   : Bool
  scope : Nat
  ro    : Bool
  sx    : Bool
  slack : Nat
  pc    : Dword
  deriving DecidableEq, Repr

/-- The key and element of a lane. -/
def State.keyed (s : State) (func : Nat) (c : Cast) (p : Acc × Leaf × Nat) : PKey × Elem :=
  let pa := p.2.2
  (⟨s.targetOf func p.1 p.2.1, lineOf pa, p.2.1.kind, p.2.1.tenant⟩, ⟨p.1.lane, p.1.va, pa, p.1.size, p.1.val, p.1.cmp, p.1.reg, c.sx⟩)

/-- The packet of a key. Its function and generation are those of the tenant that owns the page (R364, R371); its priority is that
of the grid (R363). -/
def State.mkPacket (s : State) (r : Ref) (T : Team) (c : Cast) (id : Nat) (k : PKey) (l : List Elem) : Packet :=
  let f := (s.ownerOf k.tenant).getD (s.funcOf T)
  { id := id, src := r, core := T.coreId, func := f, tenant := k.tenant, gen := (s.func f).gen, part := s.partOf T,
    kind := k.kind, target := k.target, op := c.op, elems := l, pend := c.pend, after := c.after, acq := c.acq,
    scope := c.scope, ro := c.ro, mgmt := false, age := 0, behind := [], slack := c.slack,
    pri := (s.gridOf T).elim 0 (·.tpri.toNat), sentAt := s.clock, pc := c.pc,
    job := none }

/-- The packets of the lanes, in sorted order. -/
def State.packetsOf (s : State) (r : Ref) (T : Team) (c : Cast) (l : List (Acc × Leaf × Nat)) : List Packet :=
  (coalesce (l.map (s.keyed (s.funcOf T) c))).mapIdx fun i e => s.mkPacket r T c (s.nextId + i) e.1 e.2

/-- Injects packets; counted ones raise `%orc` (R147). -/
def State.inject (s : State) (r : Ref) (ps : List Packet) : State :=
  let n := (ps.filter fun p => p.op.counted).length
  ({ s with net := { s.net with packets := s.net.packets ++ ps } }).modBeam r fun b =>
    { b with orc := b.orc + BitVec.ofNat 11 n }

/-- Groups of eight (R226). -/
def chunks8 (fuel : Nat) (l : List Packet) : List (List Packet) :=
  match fuel with
  | 0 => []
  | n + 1 => if l = [] then [] else l.take 8 :: chunks8 n (l.drop 8)

/-- Sends the packets of an instruction from sub-step `first` on: one group at once, more as a long instruction. -/
def State.send (s : State) (r : Ref) (pc : Dword) (inst : Nat) (gs : List (List Packet)) (first : Nat) : State :=
  let rest := (gs.drop first).flatten
  let s1 := { s with nextId := s.nextId + rest.length }
  if gs.length ≤ 1 then s1.inject r rest
  else s1.modBeam r fun b => { b.atStep first with longs := b.longs ++ [⟨pc, s.clock, s.clock, .coal inst gs [] first⟩] }

/-! ### The operand log (R372) -/

/-- The body of a TFAULT record (R429). -/
def tfaultBody (id va : Nat) (write fetch engine : Bool) (core : Nat) : List Byte :=
  leBytes 8 id ++ leBytes 8 va ++
    leBytes 1 ((if write then 1 else 0) + (if fetch then 2 else 0) + (if engine then 4 else 0)) ++
    leBytes 1 0 ++ leBytes 2 core ++ leBytes 28 0

/-- An unanswered fault of this function on this page is on its way to the driver already. -/
def State.faultOpen (s : State) (func va : Nat) : Bool :=
  s.net.log.any fun g => decide (g.func = func) && decide (g.va / 65536 = va / 65536) && decide (g.answer = none)

/-- A lane that only follows an earlier entry of its own needs no answer: its page has a translation (R372). -/
def State.pageAnswer (s : State) (func part va : Nat) : Option Bool :=
  if s.moving func va = true ∨ s.walk func part va = .invalid then none else some true

/-- Adds an entry and raises the event, once for a page while it is not answered; a page that is being migrated raises none (R373). -/
def State.logAdd (s : State) (g : LogEntry) : State :=
  let a := if g.upgrade then none else s.pageAnswer g.func g.packet.part g.va
  let s1 := { s with net := { s.net with log := s.net.log ++ [{ g with answer := a }] }, nextId := s.nextId + 1 }
  if g.upgrade ∨ a.isSome = true ∨ s.faultOpen g.func g.va = true ∨ s.moving g.func g.va = true then s1
  else s1.record g.func 2 (tfaultBody g.id g.va g.write false g.packet.job.isSome g.core)

/-- The beam waits at its instruction, of which nothing has been performed, for the answer to a translation fault or for an upgrade
(R375); it then issues the instruction again (R224, R372). -/
def State.faultWait (s : State) (r : Ref) (T : Team) (va : Nat) (write fetch upg : Bool) : State :=
  let c : Cast := { op := .load, pend := none, after := none, acq := false, scope := 0, ro := false, sx := false, slack := 0, pc := 0 }
  let g : LogEntry :=
    { id := s.nextId, inst := s.nextId, core := T.coreId, packet := s.mkPacket r T c s.nextId ⟨none, va / 65536, .hbm, 0⟩ [],
      va := va, func := s.funcOf T, write := write, retry := true, fetch := fetch, raised := s.ftime, answer := none,
      upgrade := upg, stalls := false, long := none, kv := none }
  let s1 := { s with net := { s.net with log := s.net.log ++ [g] }, nextId := s.nextId + 1 }
  let s2 := if upg || s.faultOpen g.func va || s.moving g.func va then s1 else s1.record g.func 2 (tfaultBody g.id va write fetch false g.core)
  s2.modBeam r fun b => { b with status := .fault g.id }

/-- The pages of a list of accesses. -/
def pagesOf (l : List Acc) : List Nat := (l.map fun a => a.va / 65536).dedup

/-- Faulted lanes of an instruction enter the log at one address: the elements of an access, or lanes of a key-value
instruction. -/
def State.logOne (s : State) (r : Ref) (T : Team) (c : Cast) (inst : Nat) (write : Bool) (long : Option Long) (upg : Bool)
    (va : Nat) (elems : List Elem) (kv : Option KvFault) : State :=
  s.logAdd { id := s.nextId, inst := inst, core := T.coreId,
             packet := s.mkPacket r T c s.nextId ⟨none, va / 65536, .hbm, 0⟩ elems, va := va,
             func := s.funcOf T, write := write, retry := false, fetch := false, raised := s.ftime, answer := none,
             upgrade := upg, stalls := upg, long := long, kv := kv }

/-- The element of an access whose translation is not known. -/
def Acc.elem (a : Acc) (sx : Bool) : Elem := ⟨a.lane, a.va, a.va, a.size, a.val, a.cmp, a.reg, sx⟩

/-- The faulted lanes of one page enter the log. -/
def State.logPage (s : State) (r : Ref) (T : Team) (c : Cast) (inst : Nat) (k : AKind) (long : Option Long) (upg : Bool)
    (l : List Acc) (page : Nat) : State :=
  let own := l.filter fun a => decide (a.va / 65536 = page)
  s.logOne r T c inst k.writes long upg (own.headD ⟨0, 0, 1, 0, 0, 0⟩).va (own.map fun a => a.elem c.sx) none

def State.logLanes (s : State) (r : Ref) (T : Team) (c : Cast) (inst : Nat) (k : AKind) (long : Option Long) (upg : Bool)
    (l : List Acc) : State :=
  (pagesOf l).foldl (fun s p => s.logPage r T c inst k long upg l p) s

/-- The entry holds lane `n` of its instruction. -/
def LogEntry.holds (g : LogEntry) (n : Nat) : Bool :=
  (g.packet.elems.any fun x => decide (x.lane = n)) || g.kv.any fun k => k.args.any fun a => decide (a.lane = n)

/-- A lane joins the log behind an earlier entry of its own for the same page (R372). -/
def State.joins (s : State) (r : Ref) (lane va : Nat) : Bool :=
  s.net.log.any fun g => g.of r && decide (g.va / 65536 = va / 65536) && g.holds lane

/-- A lane of a key-value instruction that an entry holds may access the page of a later access of the same lane, whose instruction
waits at issue (R140). -/
def LogEntry.bars (g : LogEntry) (lane va : Nat) : Bool :=
  g.kv.any fun k => k.pages.any fun p => decide (p.1 = lane) && p.2.all (·.contains (va / 65536))
def State.kvBars (s : State) (r : Ref) (lane va : Nat) : Bool := s.net.log.any fun g => g.of r && g.bars lane va

def State.dropLog (s : State) (p : LogEntry → Bool) : State :=
  { s with net := { s.net with log := s.net.log.filter fun g => !p g } }

/-- A beam that an upgrade stalls is ready once no entry of it stalls it (R375). -/
def State.unstall (s : State) (r : Ref) : State :=
  if s.net.log.any (fun g => g.of r && g.stalls) then s
  else s.modBeam r fun (b : Beam) => if b.status = .upgrade then { b with status := .ready } else b

/-- The entries that lanes of an instruction make later keep its place in program order. -/
def State.logSentAt (s : State) (r : Ref) (inst at_ : Nat) : State :=
  let put (g : LogEntry) : LogEntry :=
    if g.inst = inst ∧ g.of r = true then { g with packet := { g.packet with sentAt := at_ } } else g
  { s with net := { s.net with log := s.net.log.map put } }

/-- The lanes of a key-value instruction that an entry holds. -/
def LogEntry.args (g : LogEntry) : List KvArg := g.kv.elim [] (·.args)

/-- A long memory instruction with further lanes that have faulted. -/
def Long.withRest (o : Long) (es : List Elem) (as : List KvArg) : Long :=
  match o with
  | .coal i gs r n => .coal i gs (r ++ es) n
  | .kvw i ls r n => .kvw i ls (r ++ as) n
  | .kvr ls r m d p n => .kvr ls (r ++ as) m d p n
  | o => o

/-- An instruction is a long one: an access, where it has emitted more than eight packets (R226). -/
def Long.isLong (o : Long) : Bool :=
  match o with
  | .coal _ gs _ _ => decide (8 < gs.flatten.length)
  | _ => true

/-- The sub-step that a trap of a long instruction reports: PIXV = 1 past sub-step 0, and where an uncorrectable error stops it
(R379, R380). -/
def pixOf (cause step : Nat) : Option Nat :=
  if step = 0 ∧ cause ≠ cPOISON ∧ cause ≠ cKVPOISON then none else some step

/-- The instruction of a beam's packets or log entries ends with a trap (R224, R226, R373, R380): none of its lanes is replayed any
more and no further group is sent. Of a long one (`long`, where it no longer runs) the operands stay latched: it resumes at the
sub-step reached, with the lanes that had faulted. -/
def State.stopAccess (s : State) (r : Ref) (inst : Nat) (long : Option Long) (pc : Dword) (at_ : Nat) (pend : Option Nat)
    (cause peer info : Nat) : State :=
  match s.beam? r with
  | none => s
  | some b =>
    let own (h : LogEntry) : Bool := decide (h.inst = inst) && h.of r && !h.retry
    let mine (l : LongRun) : Bool := decide (l.op.inst = some inst)
    let last := (((b.longs ++ b.latched.toList).find? mine).map (·.op)).or long
    let op := last.filter Long.isLong
    let left := if b.longs.any mine then last.elim 0 (·.left) else 0
    let out := s.net.log.filter own
    let b1 := { b with
      longs := b.longs.filter fun l => !mine l
      latched := b.latched.filter fun l => !mine l
      trapped := match op with
        | some o => some ⟨pc, at_, s.clock, o.withRest (out.flatMap (·.packet.elems)) (out.flatMap LogEntry.args)⟩
        | none => b.trapped
      status := match b.status with | .watch _ _ _ _ _ => .ready | .upgrade => .ready | x => x }
    let b2 := match pend with | none => b1 | some i => b1.pendAdd i [] (out.length + left)
    ((s.dropLog own).setBeam r b2).lateTrap r cause 0 pc (op.bind fun o => pixOf cause o.step) peer info

/-! ### Global accesses -/

/-- What an instruction's lanes come to before anything is done. -/
inductive Checked where
  | trap (cause info : Nat)
  | away (info peer : Nat)
  | go (ok : List (Acc × Leaf × Nat)) (faulted : List Acc) (s : State)
  deriving DecidableEq, Repr

/-- The address of the first access of a list. -/
def firstVa (l : List Acc) : Nat := match l with | [] => 0 | a :: _ => a.va

/-- The checks of R224 in order, with that of R407, on the accesses of an instruction of beam r. -/
def State.memChecks (s : State) (r : Ref) (T : Team) (b : Beam) (k : AKind) (atom : Option Nat) (l : List Acc) : Checked :=
  let wrong := l.filter Acc.misaligned
  let high := l.filter fun a => decide (a.va / 2 ^ 56 ≠ 0)
  if wrong ≠ [] then .trap cMISALIGN (firstVa wrong)
  else if high ≠ [] then .trap cMEMFAULT (firstVa high)
  else
    let p := translateAll s (s.laneReq r T) l
    let dead := badAccs p.1 .memfault
    let ok := okAccs p.1
    let ban := badAccs p.1 .prot ++
      (ok.filter fun o => s.forbids k (s.funcOf T) o.2.1 o.2.2 (sget 0 b.tenant o.1.lane)).map (·.1)
    let lack := match atom with
      | none => []
      | some op => (ok.filter fun o => match s.targetOf (s.funcOf T) o.1 o.2.1 with
          | none => false
          | some i => !s.capable i op o.1.size).map (·.1)
    let away := ok.filter fun o => match s.targetOf (s.funcOf T) o.1 o.2.1 with
        | none => false
        | some i => !s.reachable i
    if dead ≠ [] then .trap cMEMFAULT (firstVa dead)
    else if ban ≠ [] then .trap cPROT (firstVa ban)
    else if lack ≠ [] then .trap cUNSUPP (firstVa lack)
    else if away ≠ [] then
      .away (firstVa (away.map (·.1))) ((away.head?.bind fun o => s.targetOf (s.funcOf T) o.1 o.2.1).getD 0)
    else .go (ok.filter fun o => !s.joins r o.1.lane o.1.va) (badAccs p.1 .invalid ++ (ok.filter fun o => s.joins r o.1.lane o.1.va).map (·.1)) p.2

/-- The lanes of a store to a page held in common with other devices (R375). -/
def rdLanes (k : AKind) (l : List (Acc × Leaf × Nat)) : List Acc :=
  if k.writes then (l.filter fun o => o.2.1.rd).map (·.1) else []

/-- The bytes of a cached line at an element. -/
def lineVal (bytes : List Byte) (pa size : Nat) : Nat :=
  (List.range size).foldr (fun i v => 256 * v + (bytes.getD (pa % 128 + i) 0).toNat) 0

/-- The lanes a read-only load finds in the core's cache (R123), as register values. -/
def State.roServed (s : State) (core : Nat) (sx : Bool) (l : List (Acc × Leaf × Nat)) : List (Nat × Word) :=
  l.flatMap fun o =>
    match s.roFind core (lineOf o.2.2) with
    | none => []
    | some c => elemRegs o.1.reg o.1.lane o.1.size (lineVal c.bytes o.2.2 o.1.size) sx

/-- Whether a read-only load may be served from the cache: HBM and CXL lines alone (R228). -/
def State.roHit (s : State) (core : Nat) (o : Acc × Leaf × Nat) : Bool :=
  (decide (o.2.1.kind = .hbm) || decide (o.2.1.kind = .cxl)) && (s.roFind core (lineOf o.2.2)).isSome

/-- A collimated store of the lane that has been sent nowhere yet, or whose line is not known while it is in the operand log, may
be one to this line (R159). -/
def Packet.mcstTo (p : Packet) (lane : Nat) (line : Option Nat) : Bool :=
  (match p.op with | .mcst _ => true | _ => false) &&
    p.elems.any fun x => decide (x.lane = lane) && line.all fun n => decide (lineOf x.pa = n)

/-- A collimated store of this lane to this line, issued before cycle `t`, has not come back yet (R159). -/
def State.mcstOut (s : State) (r : Ref) (t lane line : Nat) : Bool :=
  let out (p : Packet) (n : Option Nat) : Bool := decide (p.src = r) && decide (p.sentAt < t) && p.mcstTo lane n
  (s.net.packets.any fun p => out p (some line)) ||
    ((s.beam? r).elim false fun b => b.unsent.any fun p => out p (some line)) ||
    (s.net.log.any fun g => g.of r && out g.packet none) ||
    s.work.groups.any fun g => g.2.queue.any fun q => decide (q.src = some r) && decide (q.line = line) && q.lanes.contains lane

/-- A load of cycle `t` that R159 holds: of a replica's line to which the lane has an earlier collimated store on its way. -/
def State.heldLoad (s : State) (r : Ref) (t : Nat) (k : AKind) (o : Acc × Leaf × Nat) : Bool :=
  (decide (k = .load) || decide (k = .watch)) && decide (o.2.1.kind = .multicast) && s.mcstOut r t o.1.lane (lineOf o.2.2)

/-! ### Resuming part way (R226) -/

/-- The access of an element. -/
def Elem.acc (x : Elem) : Acc := ⟨x.lane, x.va, x.size, x.val, x.cmp, x.reg⟩

/-- Accesses in ascending lane order. -/
def byLane (l : List Acc) : List Acc := lanes.flatMap fun n => l.filter fun a => decide (a.lane = n)

/-- The long instruction of which the beam holds the latched operands, where it resumes at this address. -/
def Beam.again (b : Beam) (pc : Dword) : Option LongRun :=
  if b.resume.isSome then ((b.latched.toList ++ b.trapped.toList).find? fun l => decide (l.pc = pc)) else none

/-- A global access that resumes part way: the groups before the sub-step at which it resumes, which a handler may have written (R183),
and the accesses left, as they were latched at issue. -/
def Env.prior (e : Env) : Option (List (List Packet) × List Acc) :=
  (e.b.again e.pc).bind fun l =>
    match l.op with
    | .coal _ gs rest _ =>
      let n := e.b.resume.getD 0
      some (gs.take n, byLane (((gs.drop n).flatten.flatMap (·.elems) ++ rest).map Elem.acc))
    | _ => none

/-- The accesses that an instruction performs: those latched where it resumes, its operands' otherwise. -/
def Env.left (e : Env) (l : List Acc) : List Acc := (e.prior.map (·.2)).getD l

/-- The sub-step that a trap of a resumed access reports (R379). -/
def Env.reached (e : Env) : Option Nat := e.prior.bind fun _ => e.b.resume.filter (· ≠ 0)

/-- No lane acts. -/
def Env.idle (e : Env) : Bool := e.prior.isNone && !e.anyActive

/-- The groups of an instruction's packets, and the sub-step from which they are sent. -/
def Env.groups (e : Env) (ps : List Packet) : List (List Packet) × Nat :=
  match e.prior with
  | some p => (p.1 ++ chunks8 4 ps, e.b.resume.getD 0)
  | none => (chunks8 4 ps, if ps.length ≤ 8 then 0 else e.b.resume.getD 0)

/-! ### Uncorrectable errors (R380) -/

/-- The packet is a load of a line of this device's memory with an uncorrectable error. -/
def State.poisoned (s : State) (p : Packet) : Bool :=
  decide (p.op = .load) && decide (p.kind ≠ .peer) && decide (p.kind ≠ .host) &&
    p.elems.any fun x => s.net.badLines.contains (lineOf x.pa)

/-- The address of the lowest lane of packets. -/
def lowestVa (l : List Packet) : Nat := firstVa (byLane (l.flatMap fun p => p.elems.map Elem.acc))

/-! ### Issue of an access -/

/-- A long load of which a group meets an uncorrectable error sends the groups before it, writes what it found in the cache, and
traps at that group, with its operands latched (R226, R380). -/
def Env.poisonAt (e : Env) (s : State) (inst g first : Nat) (gs : List (List Packet)) (cached : List (Nat × Word)) (rest : List Elem) :
    Res :=
  let sent := ((gs.take g).drop first).flatten
  let s1 := e.pending s (writeNames e.g e.x) cached sent.length 0
  let s2 := ({ s1 with nextId := s1.nextId + sent.length } : State).inject e.r sent
  .late (s2.modBeam e.r fun b => { b with latched := none, trapped := some ⟨e.pc, e.now, e.now, .coal inst gs rest g⟩ })
    cPOISON (some g) (lowestVa ((gs.getD g []).filter s.poisoned))

/-- The first group from `first` on that meets an uncorrectable error. -/
def State.badGroup (s : State) (gs : List (List Packet)) (first : Nat) : Option Nat :=
  (List.range gs.length).find? fun g => decide (first ≤ g) && (gs.getD g []).any s.poisoned

/-- Issues an instruction's accesses: checks, then packets for the lanes that went ahead and log entries for the faulted
ones. A load that reaches an uncorrectable error traps: at issue where it is no long instruction, at the group otherwise (R380). -/
def Env.access (e : Env) (s : State) (k : AKind) (op : POp) (atom : Option Nat) (rel acq : Bool) (scope : Nat)
    (ro sx : Bool) (ret : Bool) (l : List Acc) : Res :=
  match s.memChecks e.r e.T e.b k atom (e.left l) with
  | .trap c i => .trap c 0 none e.reached i
  | .away i p => .remote i p
  | .go ok0 faulted s1 =>
    let rd := rdLanes k ok0
    let ok := ok0.filter fun o => !rd.contains o.1
    let inst := s1.nextId
    let cached := if ro then ok.filter (s1.roHit e.T.coreId) else []
    let out := ok.filter fun o => !cached.contains o
    let cast : Cast := { op := op, pend := if ret then some inst else none, after := if rel then some e.b.scrAt else none,
                         acq := acq, scope := scope, ro := ro, sx := sx,
                         slack := Nat.min 3 (s1.readySiblings e.r e.T.coreId).length, pc := e.pc }
    let G := e.groups (({ s1 with nextId := inst + 1 } : State).packetsOf e.r e.T cast out)
    let rest := (G.1.drop G.2).flatten
    let bad := rest.filter s1.poisoned
    let parts := rest.length + (pagesOf faulted).length + (pagesOf rd).length
    let counts := if op.counted then s.reserved e.r + rest.length + faulted.length + rd.length else 0
    if e.b.orc.toNat + counts > 1024 ∨ ok.any (s.heldLoad e.r e.now k) = true ∨
        ok.any (fun o => s.kvBars e.r o.1.lane o.1.va) = true then .hold
    else if G.1.length ≤ 1 ∧ bad ≠ [] then .trap cPOISON 0 none e.reached (lowestVa bad)
    else
      match s1.badGroup G.1 G.2 with
      | some g => e.poisonAt s1 inst g G.2 G.1 (s1.roServed e.T.coreId sx cached) ((faulted ++ rd).map fun a => a.elem sx)
      | none =>
      let s2 : State := if ret then e.pending s1 (writeNames e.g e.x) (s1.roServed e.T.coreId sx cached) parts 0
        else { s1 with nextId := inst + 1 }
      let s3 := if k.writes then s2.roDrop e.T.coreId (ok.map fun o => lineOf o.2.2) else s2
      let s4 := s3.send e.r e.pc inst G.1 G.2
      let long := some (.coal inst G.1 [] G.1.length)
      let s5 := s4.logLanes e.r e.T cast inst k long false faulted
      if rd = [] then .done s5
      else .done (e.wait (s5.logLanes e.r e.T cast inst k long true rd) .upgrade)

/-- A global instruction: held while the log is full or an acquire is under way; nothing with no active lane (R29). -/
def Env.global (e : Env) (s : State) (f : Unit → Res) : Res :=
  if e.idle then .done s else if s.memHeld e then .hold else f ()

/-! ### The scope cap (R238) -/

/-- What the cap does to a scope: the scope used and whether it was clamped; none for the trap. -/
def State.capScope (s : State) (T : Team) (sc : Nat) : Option (Nat × Bool) :=
  match s.gridOf T with
  | none => some (sc, false)
  | some g =>
    let cap := if g.cap = 1 then 2 else if g.cap = 2 then 3 else 4
    if sc ≤ cap then some (sc, false) else if g.trap then none else some (cap, true)

/-- Sets the sticky scope-cap bit (R180). -/
def Env.setScap (e : Env) (s : State) (c : Bool) : State :=
  if c then s.modBeam e.r fun b => { b with cause := b.cause ||| 0x10000#32 } else s

/-- The scope field (R24). -/
def Env.scope (e : Env) : Nat := e.x.xf 3 3

/-- Applies the cap to an instruction with a scope. -/
def Env.capped (e : Env) (s : State) (f : Nat → State → Res) : Res :=
  match s.capScope e.T e.scope with
  | none => Res.trapOwn cSCOPECAP
  | some (sc, c) => f sc (e.setScap s c)

/-! ### Loads and stores (R228, R229) -/

def Env.gAccs (e : Env) : List Acc := e.accs (fun l => (e.ea l).toNat) e.activeLanes

def Env.sx (e : Env) : Bool := decide (e.x.xf 6 1 = 1)

def bodyLd (e : Env) (s : State) : Res :=
  e.global s fun _ => e.access s .load .load none false false 0 (decide (e.x.ff 0 1 = 1)) e.sx true e.gAccs
def bodySt (e : Env) (s : State) : Res :=
  e.global s fun _ => e.access s .store .store none false false 0 false false false e.gAccs
def bodyLda (e : Env) (s : State) : Res :=
  if e.idle then .done s
  else e.capped s fun sc s1 => e.global s1 fun _ => e.access s1 .load .load none false true sc false e.sx true e.gAccs
def bodyStl (e : Env) (s : State) : Res :=
  if e.idle then .done s
  else e.capped s fun sc s1 =>
    e.global s1 fun _ => e.access s1 .store .store none true false sc false false false e.gAccs

def execLd (x : Ext) (s : State) := Issue.ext 0x180 x bodyLd s
def execSt (x : Ext) (s : State) := Issue.ext 0x181 x bodySt s
def execLda (x : Ext) (s : State) := Issue.ext 0x182 x bodyLda s
def execStl (x : Ext) (s : State) := Issue.ext 0x183 x bodyStl s

/-! ### Atomics and reductions (R233, R234, R236) -/

def Env.atomOp (e : Env) : Nat := e.x.xf 6 4

def bodyAtom (e : Env) (s : State) : Res :=
  e.global s fun _ => e.access s .atomic (.atom e.atomOp) (some e.atomOp) false false 0 false false true e.gAccs
def bodyRed (e : Env) (s : State) : Res :=
  e.global s fun _ => e.access s .atomic (.red e.atomOp) (some e.atomOp) false false 0 false false false e.gAccs

def execAtom (x : Ext) (s : State) := Issue.ext 0x186 x bodyAtom s
def execRed (x : Ext) (s : State) := Issue.ext 0x188 x bodyRed s

/-! ### Fences, invalidation, prefetch (R237, R239, R240) -/

/-- `FENCE`: held at issue until everything before it has met the wait of its scope, and until the beam has no entry in the
operand log (R372). -/
def bodyFence (e : Env) (s : State) : Res :=
  e.capped s fun sc s1 =>
    if s1.logFull e.T.coreId = true ∨ s1.net.log.any (fun g => g.of e.r) = true ∨
        sc ≠ 0 ∧ (s1.quietBeam e.r e.b = false ∨ s1.acquiring e.r = true) then .hold
    else .done (if sc ≥ 2 then s1.roClear e.T.coreId else s1)

/-- `CINV` invalidates the core's cache, and again what has entered it when it completes, 4 cycles after issue. -/
def bodyCinv (e : Env) (s : State) : Res :=
  let C := s.core e.T.coreId
  if s.logFull e.T.coreId then .hold
  else .done ((s.setCore e.T.coreId { C with cinv := (C.cinv.filter fun c => decide (e.now < c)) ++ [e.now + 4] }).roClear e.T.coreId)

/-- `PRF`: lanes that would fail a check, or do not reach an HBM or CXL line, are dropped (R239). -/
def bodyPrf (e : Env) (s : State) : Res :=
  if e.idle then .done s
  else if s.memHeld e then .hold
  else
    let l := (e.left e.gAccs).filter fun a => !a.misaligned && decide (a.va / 2 ^ 56 = 0)
    let p := translateAll s (s.laneReq e.r e.T) l
    let ok := (okAccs p.1).filter fun o =>
      (decide (o.2.1.kind = .hbm) || decide (o.2.1.kind = .cxl)) &&
        !s.forbids .prefetch (s.funcOf e.T) o.2.1 o.2.2 (sget 0 e.b.tenant o.1.lane)
    let cast : Cast := { op := .prefetch, pend := none, after := none, acq := false, scope := 0, ro := decide (e.x.ff 0 1 = 1),
                         sx := false, slack := Nat.min 3 (p.2.readySiblings e.r e.T.coreId).length, pc := e.pc }
    let G := e.groups (p.2.packetsOf e.r e.T cast ok)
    .done (p.2.send e.r e.pc p.2.nextId G.1 G.2)

def execFence (x : Ext) (s : State) := Issue.ext 0x189 x bodyFence s
def execCinv (x : Ext) (s : State) := Issue.ext 0x18C x bodyCinv s
def execPrf (x : Ext) (s : State) := Issue.ext 0x18B x bodyPrf s

/-! ### Collimated stores (R242) -/

/-- The multicast group of a lane's page. -/
def State.groupOf (s : State) (func : Nat) (l : Leaf) : Option Nat := (s.peerEnt func l.aux).map (·.group)

/-- The group of a collimated store. -/
def POp.group? (o : POp) : Option Nat := match o with | .mcst g => g | _ => none

/-- `MCST`: every active lane lies in a multicast page of one group; a lane in the operand log is compared when it is replayed. -/
def bodyMcst (e : Env) (s : State) : Res :=
  e.global s fun _ =>
    match s.memChecks e.r e.T e.b .mcst none (e.left e.gAccs) with
    | .trap c i => .trap c 0 none e.reached i
    | .away i p => .remote i p
    | .go ok _ _ =>
      let sent := (e.prior.elim [] (·.1)).flatten.filterMap fun p => p.op.group?
      let gs := (sent ++ ok.filterMap fun o => s.groupOf (s.funcOf e.T) o.2.1).dedup
      if gs.length > 1 then .trap cPROT 0 none e.reached 0
      else if ok ≠ [] ∧ s.collDead (gs.headD 0) = true then .remote (firstVa (ok.map (·.1))) 0
      else e.access s .mcst (.mcst gs.head?) none false false 0 false false false e.gAccs

def execMcst (x : Ext) (s : State) := Issue.ext 0x18A x bodyMcst s

/-! ### Watching (R241) -/

/-- The lane for which `WAITM` computes its address and expected value. -/
def Env.lowLive (e : Env) : Nat := lowestLane e.b.lvm

/-- The deadline of a watch: none without a limit. -/
def Env.watchLimit (e : Env) : Option Nat := if e.x.xf 3 5 < 31 then some (e.now + 2 ^ e.x.xf 3 5) else none

/-- `WAITM`: a watch request goes to the line's home slice and the beam sleeps. Its value comes to every active lane. -/
def bodyWaitm (e : Env) (s : State) : Res :=
  if s.memHeld e then .hold
  else
    let l := e.lowLive
    let acc : Acc := ⟨l, (e.b.rdPair e.x.a.toNat (e.lane 0 l) + e.x.immDword).toNat, e.width, e.cElem l, 0, e.x.d.toNat⟩
    match s.memChecks e.r e.T e.b .watch none [acc] with
    | .trap c i => .trap c 0 none none i
    | .away i p => .remote i p
    | .go ok faulted s1 =>
      if ok.any (s.heldLoad e.r e.now .watch) = true ∨ ok.any (fun o => s.kvBars e.r o.1.lane o.1.va) = true then .hold
      else
      let inst := s1.nextId
      let s2 := e.pending s1 (writeNames e.g e.x) [] 1 0
      let cast : Cast := { op := .watch, pend := some inst, after := none, acq := false, scope := 0, ro := false, sx := false,
                           slack := Nat.min 3 (s1.readySiblings e.r e.T.coreId).length, pc := e.pc }
      let s3 := s2.send e.r e.pc inst (chunks8 4 (s2.packetsOf e.r e.T cast ok)) 0
      let s4 := s3.logLanes e.r e.T cast inst .watch none false faulted
      .done (e.wait s4 (.watch inst e.act e.watchLimit e.x.d.toNat e.width))

def execWaitm (x : Ext) (s : State) := Issue.ext 0x18E x bodyWaitm s

/-! ### Scratchpad (R126, R129, R230 to R232, R235) -/

/-- Scratchpad accesses out of range or misaligned (R126): `MISALIGN` first. -/
def State.scrCheck (s : State) (T : Team) (l : List Acc) : Option Nat :=
  if l.any Acc.misaligned then some cMISALIGN
  else if l.any fun a => decide (a.va + a.size > s.scrBytes T) then some cPROT
  else none

/-- The values of the lanes, read in order. -/
def scrLoad (m : Memory) (sx : Bool) (l : List Acc) : List (Nat × Word) :=
  l.flatMap fun a => elemRegs a.reg a.lane a.size (m.readNat a.va a.size) sx

/-- The lanes' stores, in ascending order. -/
def scrStore (m : Memory) (l : List Acc) : Memory := l.foldl (fun m a => m.writeNat a.va a.size a.val) m

/-- The lanes' atomics, in ascending order, with the old values (R235). -/
def scrAtom (op : Nat) (m : Memory) (l : List Acc) : Memory × List (Nat × Word) :=
  match l with
  | [] => (m, [])
  | a :: r =>
    let old := m.readNat a.va a.size
    let p := scrAtom op (m.writeNat a.va a.size (atomNew op a.size old a.val a.cmp)) r
    (p.1, elemRegs a.reg a.lane a.size old false ++ p.2)

/-- The cycles for which an access occupies its quadrant's port (R128, R129): one for each distinct word of the fullest bank. -/
def portCycles (l : List Acc) : Nat :=
  let words := (l.flatMap fun a => (List.range ((a.size + 3) / 4)).map fun i => a.va / 4 + i).dedup
  (List.range 32).foldl (fun m k => Nat.max m (words.filter fun w => decide (w % 32 = k)).length) 1

/-- The end of a core's pending wake of granules (R133). -/
def State.wakeEnd (s : State) (core : Nat) : Option Nat :=
  (s.regs.waking.find? fun w => decide (w.1 = 128 + core)).map (·.2)

/-- A quadrant's port takes an access of the beam: the cycle by which it is performed (R128). While granules of the core wake, it is
free whether the access meets one and waits for the end of the wake (R133, DESIGN CHOICE, log 64). -/
def State.portTake (s : State) (r : Ref) (core cycles : Nat) : Nat × State :=
  let C := s.core core
  let q := r.b % 4
  let free := max s.clock (sget 0 C.ports q)
  let put (s : State) (at_ : Nat) : Nat × State :=
    (at_, (s.setCore core { C with ports := sset 0 C.ports q at_ }).modBeam r fun b => { b with scrAt := max b.scrAt at_ })
  match s.wakeEnd core with
  | none => put s (free + cycles)
  | some w => put { s with free := s.free + 1 } ((if Config.choice s.free % 2 = 0 then free else max free w) + cycles)

/-- A scratchpad instruction on the given lanes, from which `f` goes on with the cycle by which the port has performed it; held
while an acquire of the beam is under way (R144), while an earlier long instruction has scratchpad to read (R149), and while the
operand log is full (R372). Its effect on the scratchpad is that of its issue cycle (DESIGN CHOICE, log 64). A read that meets an
uncorrectable error is fatal (R380). -/
def Env.scratch (e : Env) (s : State) (reads : Bool) (l : List Acc) (f : Nat → State → Res) : Res :=
  if e.anyActive = false then .done s
  else if s.logFull e.T.coreId = true ∨ s.acquiring e.r = true ∨ e.b.scrReading = true then .hold
  else
    match s.scrCheck e.T l with
    | some c => Res.trapOwn c
    | none =>
      if reads = true ∧ (l.any fun a => e.T.badScratch a.va a.size) = true then Res.trapOwn cPOISONOWN
      else
        let p := s.portTake e.r e.T.coreId (portCycles l)
        f p.1 p.2

def Env.scrLoadRes (e : Env) (l : List Acc) (at_ : Nat) (s : State) : Res :=
  .done (e.pending s (writeNames e.g e.x) (scrLoad e.T.scratch e.sx l) 0 at_)

def Env.scrStoreRes (e : Env) (l : List Acc) (_ : Nat) (s : State) : Res :=
  .done (s.modTeam e.r.t fun T => { T with scratch := scrStore T.scratch l })

def Env.sAccs (e : Env) : List Acc := e.accs (fun l => (e.sa l).toNat) e.activeLanes

/-- The word accesses of `LDSW` and `STSW`: 4 * imm bytes from A (R16, R35). -/
def Env.wAccs (e : Env) : List Acc :=
  e.activeLanes.map fun l => ⟨l, (e.a l + 4 * e.x.immWord).toNat, 4, (e.dOld l).toNat, 0, e.x.d.toNat⟩

/-- Tile geometry of the first active lane (R232): row and column. -/
def Env.tileRow (e : Env) : Nat := (e.a e.firstActive).toNat % 65536
def Env.tileCol (e : Env) : Nat := (e.a e.firstActive).toNat / 65536
def Env.tileByCol (e : Env) : Bool := decide (e.x.ff 3 1 = 1)

/-- The word of element (r, c) of a tile (R129). -/
def tileWord (base r c : Nat) : Nat := base / 4 + 32 * r + (c + r) % 32

/-- The row and column that lane l reaches. -/
def Env.tileElem (e : Env) (l : Nat) : Nat × Nat := if e.tileByCol then (e.tileRow + l, e.tileCol) else (e.tileRow, l)

/-- The tile accesses of the active lanes; none where the slot is cleared or a row or column is out of range. -/
def Env.tAccs (e : Env) : Option (List Acc) :=
  let t := sget TileSlot.init e.T.tiles (e.x.xf 7 2)
  let bad := (e.activeLanes.any fun l => decide ((e.tileElem l).1 ≥ t.rows)) ||
    (e.tileByCol && decide (e.tileCol ≥ 32))
  if bad then none
  else some (e.activeLanes.map fun l =>
    ⟨l, 4 * tileWord t.base (e.tileElem l).1 (e.tileElem l).2, 4, e.cElem l, 0, e.x.d.toNat⟩)

/-- `LDS` and `STS`: linear, or by tile. -/
def Env.scrForm (e : Env) (s : State) (reads : Bool) (f : List Acc → Nat → State → Res) : Res :=
  if e.x.ff 2 1 = 1 then
    if e.anyActive = false then .done s
    else match e.tAccs with
      | none => Res.trapOwn cPROT
      | some l => e.scratch s reads l (f l)
  else e.scratch s reads e.sAccs (f e.sAccs)

def bodyLds (e : Env) (s : State) : Res := e.scrForm s true e.scrLoadRes
def bodySts (e : Env) (s : State) : Res := e.scrForm s false e.scrStoreRes
def bodyLdsw (e : Env) (s : State) : Res := e.scratch s true e.wAccs (e.scrLoadRes e.wAccs)
def bodyStsw (e : Env) (s : State) : Res := e.scratch s false e.wAccs (e.scrStoreRes e.wAccs)
def bodyAtoms (e : Env) (s : State) : Res :=
  e.scratch s true e.sAccs fun at_ s1 =>
    let p := scrAtom e.atomOp e.T.scratch e.sAccs
    .done (e.pending (s1.modTeam e.r.t fun T => { T with scratch := p.1 }) (writeNames e.g e.x) p.2 0 at_)

def execLds (x : Ext) (s : State) := Issue.ext 0x184 x bodyLds s
def execSts (x : Ext) (s : State) := Issue.ext 0x185 x bodySts s
def execAtoms (x : Ext) (s : State) := Issue.ext 0x187 x bodyAtoms s
def execLdsw (o : BI) (s : State) := Issue.base 0x2D (.bi o) bodyLdsw s
def execLdswX (x : Ext) (s : State) := Issue.ext 0x2D x bodyLdsw s
def execStsw (o : BI) (s : State) := Issue.base 0x2E (.bi o) bodyStsw s
def execStswX (x : Ext) (s : State) := Issue.ext 0x2E x bodyStsw s

/-- `TILE` (R231). The rows come from B, as a register of the lowest live lane or an immediate. It governs accesses that
issue 4 cycles later. -/
def bodyTile (e : Env) (s : State) : Res :=
  let base := (e.b.rd e.x.a.toNat (e.lane 0 e.lowLive)).toNat
  let rows := e.x.immWord.toNat
  if s.logFull e.T.coreId then .hold
  else if base % 128 ≠ 0 ∨ rows > 512 then Res.trapOwn cILLEGAL
  else if base + 128 * rows > s.scrBytes e.T then Res.trapOwn cPROT
  else .done (s.modTeam e.r.t fun T =>
    { T with tileq := T.tileq ++ [(e.now + 4, e.x.xf 7 2, if rows = 0 then TileSlot.init else ⟨base, rows⟩)] })

def execTile (x : Ext) (s : State) := Issue.ext 0x18D x bodyTile s

end Sys2Proof.Machine
end

