-- ==== Sys2Proof/Machine/Queue.lean ====
section
/-! DEFINITION. Scratchpad queues and job instructions (R151, R152, R154, R172, R267 to R278). Jobs are moved by their
engines in `Sys2Proof.Machine.Jobs`. -/

namespace Sys2Proof.Machine

/-- Replaces a running long instruction; none ends it. -/
def Beam.setLong (b : Beam) (l : LongRun) (op : Option Long) : Beam :=
  { b with longs := b.longs.flatMap fun m => if m = l then (op.toList.map fun o => { m with op := o }) else [m] }

/-! ### Queue geometry (R131, R276) -/

def Queue.depth (q : Queue) : Nat := (q.ctrl.extractLsb' 18 6).toNat + 1
def Queue.size (q : Queue) : Nat := 2 ^ ((q.ctrl.extractLsb' 14 4).toNat + 7)
def Queue.base (q : Queue) : Nat := (q.ctrl.extractLsb' 0 14).toNat * 128
def Queue.offset (q : Queue) (j : Nat) : Nat := q.base + j * q.size
def Queue.slot (q : Queue) (j : Nat) : Slot := sget Slot.init q.slots j
def Queue.setSlot (q : Queue) (j : Nat) (x : Slot) : Queue := { q with slots := sset Slot.init q.slots j x }
def Queue.allFree (q : Queue) : Bool := q.slots.all fun e => decide (e.2.st = .free)

/-- The slot that starts at an offset. -/
def Queue.slotAt (q : Queue) (off : Nat) : Option Nat :=
  let j := (off - q.base) / q.size
  if q.base ≤ off ∧ (off - q.base) % q.size = 0 ∧ j < q.depth then some j else none

def Team.queue (T : Team) (n : Nat) : Queue := sget Queue.init T.queues n
def Team.setQueue (T : Team) (n : Nat) (q : Queue) : Team := { T with queues := sset Queue.init T.queues n q }

/-! ### Slot moves (R277) -/

/-- The next slot becomes ACQUIRED, if it is free. -/
def Team.acquire (T : Team) (n : Nat) (engine : Bool) : Option (Nat × Team) :=
  let q := T.queue n
  let j := q.p % q.depth
  let x := q.slot j
  if x.st = .free then
    some (j, T.setQueue n { q.setSlot j { x with st := .acquired, engine := engine } with p := q.p + 1 })
  else none

/-- The next slot to consume becomes HELD, if it is full. -/
def Team.consume (T : Team) (n : Nat) : Option (Nat × Team) :=
  let q := T.queue n
  let j := q.c % q.depth
  let x := q.slot j
  if x.st = .full then some (j, T.setQueue n { q.setSlot j { x with st := .held } with c := q.c + 1 }) else none

/-- A slot status word: STATUS and TAG. -/
def slotWord (status tag : Nat) : Word := BitVec.ofNat 32 (status % 256 + 256 * (tag % 2 ^ 24))

/-- An acquired slot becomes FULL; a delivery status of POISON marks it (R253). -/
def Team.commit (T : Team) (n j status tag : Nat) : Team :=
  let q := T.queue n
  T.setQueue n (q.setSlot j { st := .full, status := slotWord status tag, engine := false, poison := decide (status = 1) })

/-- A held slot becomes FREE; its mark is cleared. -/
def Team.freeSlot (T : Team) (n j : Nat) : Team :=
  let q := T.queue n
  T.setQueue n (q.setSlot j { q.slot j with st := .free, engine := false, poison := false })

/-- Some beam of the team waits to acquire a slot of queue n: an engine's acquisition follows the beams' (R277). -/
def Team.qacqWaits (T : Team) (n : Nat) : Bool :=
  T.beams.any fun b => match b.status with | .qacq q _ _ => decide (q = n) | _ => false

/-- An engine producer acquires a slot. -/
def Team.engineAcquire (T : Team) (n : Nat) : Option (Nat × Team) := if T.qacqWaits n then none else T.acquire n true

/-- Bytes `[lo, hi)` of the scratchpad touch a slot marked POISON (R253). -/
def Team.poisoned (T : Team) (lo hi : Nat) : Bool :=
  T.queues.any fun e => e.2.slots.any fun x =>
    x.2.poison && decide (e.2.offset x.1 < hi) && decide (lo < e.2.offset x.1 + e.2.size)

/-! ### Queue instructions (R270, R271, R276, R277) -/

/-- A value for all 32 lanes of a register. -/
def allLanes (d : Nat) (v : Word) : List (Nat × Word) := lanes.map fun l => (regKey d l, v)

/-- The queue that an instruction names. -/
def Env.qNum (e : Env) : Nat := e.x.xf 0 3

/-- The queue is below NQ and installed. -/
def Env.qThere (e : Env) (s : State) : Bool := decide (e.qNum < s.nqOf e.T) && (e.T.queue e.qNum).inst

/-- A job or board request is attached to queue n. -/
def State.qAttached (s : State) (t : Nat) (T : Team) (n : Nat) : Bool :=
  (s.jobs.any fun j => decide (j.team = some t) && decide (j.queue = some n)) || T.boards.any fun e => decide (e.2.q = n)

def bodyQset (e : Env) (s : State) : Res :=
  let w := e.aLive
  let old := e.T.queue e.qNum
  let q : Queue := { Queue.init with inst := true, ctrl := w }
  if e.qNum ≥ s.nqOf e.T ∨ w.extractLsb' 24 8 ≠ 0 ∨ w.extractLsb' 14 4 = 15 ∨
      q.base + q.depth * q.size > s.scrBytes e.T ∨
      (old.inst = true ∧ (old.allFree = false ∨ s.qAttached e.r.t e.T e.qNum = true)) then Res.trapOwn cPROT
  else .done (s.modTeam e.r.t fun T => T.setQueue e.qNum q)

/-- What `QACQ` delivers. -/
def qacqVals (T : Team) (n j d : Nat) : List (Nat × Word) := allLanes d (BitVec.ofNat 32 ((T.queue n).offset j))

/-- What `QWAIT` delivers. -/
def qwaitVals (T : Team) (n j d : Nat) : List (Nat × Word) :=
  allLanes d (BitVec.ofNat 32 ((T.queue n).offset j)) ++ allLanes (d + 1) ((T.queue n).slot j).status

/-- `QACQ` and `QWAIT`: the slot at once, or a wait for it. -/
def Env.qTake (e : Env) (s : State) (take : Team → Nat → Option (Nat × Team))
    (vals : Team → Nat → Nat → Nat → List (Nat × Word)) (w : Nat → Nat → Nat → Status) : Res :=
  let n := e.qNum
  let d := e.x.d.toNat
  if e.qThere s = false then Res.trapOwn cPROT
  else
    match take e.T n with
    | some (j, T1) => .done (e.pending (s.setTeam e.r.t T1) (writeNames e.g e.x) (vals e.T n j d) 0 (e.now + 1))
    | none => .done (e.wait (e.pending s (writeNames e.g e.x) [] 1 0) (w n d s.nextId))

def bodyQacq (e : Env) (s : State) : Res := e.qTake s (fun T n => T.acquire n false) qacqVals .qacq
def bodyQwait (e : Env) (s : State) : Res := e.qTake s Team.consume qwaitVals .qwait

/-- A `QCOMMIT` of the slot has issued already. -/
def Team.committing (T : Team) (q j : Nat) : Bool := T.commits.any fun c => decide (c.q = q) && decide (c.slot = j)

/-- `QCOMMIT` of a slot that a beam acquired: it is performed once every earlier access has met the TM wait, and holds nothing of its
beam (R143, R154). -/
def bodyQcommit (e : Env) (s : State) : Res :=
  let q := e.T.queue e.qNum
  if e.qThere s = false then Res.trapOwn cPROT
  else
    match q.slotAt e.aLive.toNat with
    | none => Res.trapOwn cPROT
    | some j =>
      if (q.slot j).st ≠ .acquired ∨ (q.slot j).engine = true ∨ e.T.committing e.qNum j = true then Res.trapOwn cPROT
      else
        let tag := if e.x.ff 1 1 = 1 then (e.regLive e.x.b.toNat).toNat % 2 ^ 24 else 0
        .done (s.modTeam e.r.t fun T =>
          { T with commits := T.commits ++ [⟨e.r.b, e.now, e.b.scrAt, e.qNum, j, tag⟩] })

/-- The rows of stored B that sub-steps of an `MMASP` from `pix` on read: of K group `g`, those that some column's mask keeps at a
position not reached yet (R256). -/
def Entry.sparseRows (n : Entry) (T : Team) (cnt g : Nat) : List Nat :=
  let from_ := 16 * n.pix - 64 * g
  (List.range cnt).filter fun j => (List.range 256).any fun c =>
    let m := T.metam.readNat (n.m0 + 2048 * g + 8 * c) 8
    (List.range 64).any fun p =>
      decide (from_ ≤ p) && m.testBit p && decide (((List.range p).filter fun i => m.testBit i).length = j)

/-- The ranges of scratchpad that an entry has still to read: offset and length (R250, R256, R258). -/
def Entry.toRead (n : Entry) (T : Team) : List (Nat × Nat) :=
  if n.total ≤ n.pix then []
  else
    match n.kind with
    | .mmasp cnt =>
      let w := if n.fmt = 0 then 256 else 192
      (List.range (n.total / 4)).flatMap fun g => (n.sparseRows T cnt g).map fun j => (n.b0 + w * (g * cnt + j), w)
    | _ => let done := n.bytes / n.total * n.pix; [(n.b0 + done, n.bytes - done)]

/-- The ranges that an entry may still read, where entries accepted before it may change the metadata by which it selects its rows (R257,
R258): then every stored row. -/
def Entry.mayRead (n : Entry) (T : Team) (before : List Entry) : List (Nat × Nat) :=
  let load (m : Entry) : Bool := decide (m.kind = .ldmeta) && decide (m.src.t = n.src.t) && decide (m.pix < m.total)
  match n.kind with
  | .mmasp _ => if n.pix < n.total ∧ before.any load = true then [(n.b0, n.bytes)] else n.toRead T
  | _ => n.toRead T

/-- A matrix instruction of the beam has still to read bytes of the slot (R263). -/
def State.matrixReads (s : State) (r : Ref) (T : Team) (lo hi : Nat) : Bool :=
  let l := (s.core T.coreId).entries
  (List.range l.length).any fun i => (l[i]?).any fun n =>
    decide (n.src = r) && (n.mayRead T (l.take i)).any fun x => decide (x.1 < hi) && decide (lo < x.1 + x.2)

/-- A long instruction of the beam has still to read bytes of the slot (R154, R273, R325). -/
def Beam.longReads (b : Beam) (lo hi : Nat) : Bool :=
  b.longs.any fun l =>
    match l.op with
    | .pald a n _ => decide (n < 8) && decide (a + 512 * n < hi) && decide (lo < a + 4096)
    | .gatj _ i _ k _ _ n => decide (32 * n < k) && decide (i + 256 * n < hi) && decide (lo < i + 8 * k)
    | _ => false

/-- `QFREE`: after every earlier read of the slot by the beam (R154, R263). -/
def bodyQfree (e : Env) (s : State) : Res :=
  let q := e.T.queue e.qNum
  if e.qThere s = false then Res.trapOwn cPROT
  else
    match q.slotAt e.aLive.toNat with
    | none => Res.trapOwn cPROT
    | some j =>
      if (q.slot j).st ≠ .held then Res.trapOwn cPROT
      else if s.matrixReads e.r e.T (q.offset j) (q.offset j + q.size) = true ∨
          e.b.longReads (q.offset j) (q.offset j + q.size) = true ∨ s.acquiring e.r = true then .hold
      else .done (s.modTeam e.r.t fun T => T.freeSlot e.qNum j)

def execQset (x : Ext) (s : State) := Issue.ext 0x1E0 x bodyQset s
def execQacq (x : Ext) (s : State) := Issue.ext 0x1E1 x bodyQacq s
def execQcommit (x : Ext) (s : State) := Issue.ext 0x1E2 x bodyQcommit s
def execQwait (x : Ext) (s : State) := Issue.ext 0x1E3 x bodyQwait s
def execQfree (x : Ext) (s : State) := Issue.ext 0x1E4 x bodyQfree s

/-! ### Job cards (R267) -/

/-- A job card's fields. -/
structure Card where
  kind  : Nat
  nfp   : Nat
  qdst  : Bool
  q     : Nat
  resv  : Nat
  ksp   : Nat
  len   : Nat
  src   : Nat
  dst   : Nat
  aux   : Nat
  fps   : List Dword
  deriving DecidableEq, Repr

/-- Reads a card from 64 bytes of a memory. -/
def cardAt (m : Memory) (a : Nat) : Card :=
  let w := m.readNat a 4
  { kind := w % 16, nfp := w / 16 % 8, qdst := decide (w / 128 % 2 = 1), q := w / 256 % 8, resv := w / 2048 % 32,
    ksp := w / 65536, len := m.readNat (a + 4) 4, src := m.readNat (a + 8) 8, dst := m.readNat (a + 16) 8,
    aux := m.readNat (a + 24) 8,
    fps := (List.range (w / 16 % 8)).map fun i => BitVec.ofNat 64 (m.readNat (a + 32 + 8 * i) 8) }

/-- The common part of check 3 of R272. -/
def Card.common (c : Card) (kind : Nat) : Bool :=
  decide (c.kind = kind) && decide (c.resv = 0) && decide (c.nfp ≤ 4) && (c.qdst || decide (c.q = 0))

def Card.copyOk (c : Card) : Bool := c.common 1 && decide (c.ksp = 0) && decide (c.aux = 0) && decide (c.len ≥ 1)

def Card.idx (c : Card) : Nat := c.aux % 2 ^ 32
def Card.nidx (c : Card) : Nat := c.aux / 2 ^ 32 % 256 + 1
def Card.rowb (c : Card) : Nat := c.aux / 2 ^ 40

def Card.gatherOk (c : Card) : Bool :=
  c.common 2 && decide (c.ksp = 0) && decide (c.len = 0) && decide (c.idx % 8 = 0) && decide (c.rowb % 4 = 0) &&
    decide (4 ≤ c.rowb) && decide (c.rowb ≤ 65536)

def Card.op (c : Card) : Nat := c.ksp % 4
def Card.n (c : Card) : Nat := c.ksp / 4 % 32 + 1
def Card.me (c : Card) : Nat := c.ksp / 128 % 32
def Card.ring (c : Card) : Nat := c.aux % 2 ^ 32
def Card.tag (c : Card) : Nat := c.aux / 2 ^ 32 % 65536

def Card.collOk (c : Card) : Bool :=
  c.common 3 && decide (c.ksp / 4096 = 0) && decide (c.aux / 2 ^ 48 = 0) && decide (c.ring % 64 = 0) &&
    decide (c.me < c.n) && decide (c.len % (if c.op < 2 then 128 * c.n else 128) = 0)

/-! ### Handles and statuses (R272, R274) -/

/-- The handle after h. -/
def nextHandle (h : Nat) : Nat := h % (2 ^ 28 - 1) + 1

/-- How many handles later b is than a. -/
def handleAge (a b : Nat) : Nat := (b + (2 ^ 28 - 1) - a) % (2 ^ 28 - 1)

/-- A job of team t that has not completed. -/
def State.openJob (s : State) (t h : Nat) : Bool := s.jobs.any fun j => decide (j.team = some t) && decide (j.handle = h)

/-- The team already has 64 jobs that have not completed. -/
def State.jobsFull (s : State) (t : Nat) : Bool := decide ((s.jobs.filter fun j => decide (j.team = some t)).length ≥ 64)

/-- The team's statuses after it has issued the job with handle h. -/
def Team.issued (T : Team) (h : Nat) : Team :=
  { T with nextH := h, stats := T.stats.filter fun e => decide (handleAge e.1 h < 64) }

/-- The status word of a handle that names no open job. -/
def Team.statusOf (T : Team) (h : Nat) : Word := (aget T.stats h).getD (BitVec.ofNat 32 (7 * 2 ^ 28 + h % 2 ^ 28))

def statusCode (w : Word) : Nat := (w.extractLsb' 28 4).toNat

/-- The trap that observing a status raises (R275). -/
def statusTrap (w : Word) : Option Nat :=
  match statusCode w with
  | 1 => some cFOOTPRINT
  | 2 => some cMEMFAULT
  | 3 => some cPROT
  | 4 => some cPOISON
  | _ => none

/-- A beam observes a completion: `%jstat`, the DV acquire where no trap follows (R152, R275). -/
def State.observe (s : State) (r : Ref) (core : Nat) (w : Word) : State :=
  let s1 := s.modTeam r.t fun T => { T with unseen := T.unseen.filter fun v => decide (v ≠ w) }
  let s2 := s1.modBeam r fun b => { b with jstat := w }
  if (statusTrap w).isNone then s2.roClear core else s2

/-! ### Issuing a job (R272) -/

/-- A footprint region covers a line (R267, R269). -/
def fpLines (f : Dword) : Nat × Nat :=
  let line := (f.extractLsb' 0 49).toNat
  (line, line + (f.extractLsb' 51 13).toNat + 1)
def fpSp (f : Dword) : Bool := f.getLsbD 50
def fpW (f : Dword) : Bool := f.getLsbD 49

/-- The job that a beam issues. -/
def Env.job (e : Env) (s : State) (kind : JKind) (c : Card) (segs : List JSeg) : Job :=
  let rel := decide (e.x.ff 0 1 = 0)
  { id := s.nextId, die := e.T.coreId / 128, core := e.T.coreId, team := some e.r.t, beam := e.r.b, node := none,
    handle := nextHandle e.T.nextH, func := s.funcOf e.T, part := s.partOf e.T,
    tenant := sget 0 e.b.tenant (lowestLane e.b.lvm), kind := kind, len := c.len, from_ := c.src, dst := c.dst,
    fps := c.fps, queue := if c.qdst then some c.q else none, slot := none, segs := segs, buf := [], cache := [], put := 0, moved := 0,
    busy := none, out := [], after := if rel then some (e.now, e.b.scrAt) else none, addedAt := e.now, got := false, status := 0 }

/-- A job takes its place in the scheduler's order, with the team's next handle. -/
def State.addJob (s : State) (t : Nat) (j : Job) : State :=
  ({ s with jobs := s.jobs ++ [j], nextId := s.nextId + 1 }).modTeam t fun T => T.issued j.handle

/-- Issue of a job: its handle in D. Its release holds nothing of its beam: the job performs no access before it is met (R143,
R152). -/
def Env.issueJob (e : Env) (s : State) (j : Job) : State :=
  e.pending (s.addJob e.r.t j) (writeNames e.g e.x) (allLanes e.x.d.toNat (BitVec.ofNat 32 j.handle)) 0 (e.now + 1)

/-- The scratchpad reads of a job instruction take the quadrant's port, after the beam's earlier accesses (R149, R272). -/
def Env.cardRead (e : Env) (s : State) : State := (s.portTake e.r e.T.coreId 1).2

/-- The checks of R272, then what `f` does with the card; `reach` is the end of the kind's own reads: an index list or a ring table that
runs past the scratchpad is `PROT` (R126), after check 4 and before any sub-step, for which no rule gives a place (DESIGN CHOICE, log 81).
An uncorrectable error in the card is fatal (R380). -/
def Env.jobIssue (e : Env) (s : State) (kind : Nat) (ok : Card → Bool) (reach : Card → Nat) (f : State → Card → Res) : Res :=
  let off := e.aLive.toNat
  if s.acquiring e.r = true ∨ e.b.scrReading = true then .hold
  else if off % 64 ≠ 0 then Res.trapOwn cMISALIGN
  else if off + 64 > s.scrBytes e.T then Res.trapOwn cPROT
  else if e.T.badScratch off 64 then Res.trapOwn cPOISONOWN
  else
    let c := cardAt e.T.scratch off
    let q := e.T.queue c.q
    if ok c = false then Res.trapOwn cILLEGAL
    else if c.qdst = true ∧ (c.q ≥ s.nqOf e.T ∨ q.inst = false ∨ c.len > q.size ∨ kind ≠ 1) then Res.trapOwn cPROT
    else if reach c > s.scrBytes e.T then Res.trapOwn cPROT
    else if s.jobsFull e.r.t then .hold
    else f (e.cardRead s) c

def bodyCpyj (e : Env) (s : State) : Res :=
  e.jobIssue s 1 Card.copyOk (fun _ => 0) fun s c =>
    .done (e.issueJob s (e.job s .copy c [⟨c.src, if c.qdst then 0 else c.dst, c.len⟩]))

/-- Rows `lo` to `hi - 1` of a gather's index list at `idx` (R273). -/
def gatherSegs (m : Memory) (idx rowb dst lo hi : Nat) : List JSeg :=
  (List.range (hi - lo)).map fun i => ⟨m.readNat (idx + 8 * (lo + i)) 8, (dst + (lo + i) * rowb) % 2 ^ 64, rowb⟩

/-- `GATJ`: a long instruction whose sub-steps read the index list, 32 entries each; the job is issued after the last (R273). -/
def bodyGatj (e : Env) (s : State) : Res :=
  e.jobIssue s 2 Card.gatherOk (fun c => c.idx + 8 * c.nidx) fun s c =>
    let n := e.b.resume.getD 0
    let op : Long := .gatj (e.job s .gather c []) c.idx c.rowb c.nidx e.x.d.toNat s.nextId n
    .done ((e.pending s (writeNames e.g e.x) [] 1 0).modBeam e.r fun b =>
      { b.atStep n with longs := b.longs ++ [⟨e.pc, e.now, e.now, op⟩] })

/-- A job of a higher beam has come into the team's table in this cycle: those of one cycle come in ascending beam index (R271). -/
def State.jobPast (s : State) (r : Ref) : Bool :=
  s.jobs.any fun j => decide (j.team = some r.t) && decide (r.b < j.beam) && decide (j.addedAt = s.clock)

/-- A sub-step of a beam's `GATJ`: 32 more entries; after the last the job is issued, by the core on which the team then runs (R265), once
the team has room for it, and D gets its handle. -/
def State.gatherStep (s : State) (r : Ref) (T : Team) (l : LongRun) (j : Job) (idx rowb entries d pend n : Nat) : State :=
  let hi := Nat.min entries (32 * (n + 1))
  if T.badScratch (idx + 8 * j.segs.length) (8 * (hi - j.segs.length)) then s.lateTrap r cPOISONOWN 0 l.pc (some n) 0 0
  else
  let k := { j with segs := j.segs ++ gatherSegs T.scratch idx rowb j.dst j.segs.length hi }
  let s1 := (s.portTake r T.coreId 2).2
  if hi < entries then
    s1.modBeam r fun b => (b.atStep (n + 1)).setLong l (some (.gatj k idx rowb entries d pend (n + 1)))
  else if s.jobsFull r.t = true ∨ s.jobPast r = true then s
  else
    let h := nextHandle T.nextH
    (s1.addJob r.t { k with
      id := s1.nextId, handle := h, die := T.coreId / 128, core := T.coreId, addedAt := s.clock }).modBeam r fun b =>
      (b.pendAdd pend (allLanes d (BitVec.ofNat 32 h)) 1).setLong l none

/-- The ring table of a collective (R273). -/
def ringTable (m : Memory) (c : Card) : List Nat := (List.range c.n).map fun i => m.readNat (c.ring + 2 * i) 2

def bodyColj (e : Env) (s : State) : Res :=
  e.jobIssue s 3 Card.collOk (fun c => c.ring + 2 * c.n) fun s c =>
    if e.T.badScratch c.ring (2 * c.n) then Res.trapOwn cPOISONOWN
    else .done (e.issueJob s (e.job s (.coll c.op c.n c.me (ringTable e.T.scratch c) c.tag) c []))

def execCpyj (x : Ext) (s : State) := Issue.ext 0x1E5 x bodyCpyj s
def execGatj (x : Ext) (s : State) := Issue.ext 0x1E6 x bodyGatj s
def execColj (x : Ext) (s : State) := Issue.ext 0x1E7 x bodyColj s

/-! ### Waiting for a job (R172, R275) -/

def bodyJwait (e : Env) (s : State) : Res :=
  let h := e.aLive.toNat
  if s.openJob e.r.t h then .done (e.wait s (.jwait h))
  else
    let w := e.T.statusOf h
    match statusTrap w with
    | some _ => .done (e.wait s (.jwait h))
    | none => .done (s.observe e.r e.T.coreId w)

/-- `JTEST`: never traps. -/
def bodyJtest (e : Env) (s : State) : Res :=
  let h := e.aLive.toNat
  let out (s : State) (w : Word) : State :=
    e.pending s (writeNames e.g e.x) (allLanes e.x.d.toNat w) 0 (e.now + 1)
  if s.openJob e.r.t h then .done (out s 0)
  else
    let w := e.T.statusOf h
    .done (out (s.observe e.r e.T.coreId w) w)

/-- `YIELDJ`: sleeps, and resumes at its continuation. -/
def bodyYieldj (e : Env) (s : State) : Res :=
  let h := e.aLive.toNat
  let cont := e.branchTarget
  if s.openJob e.r.t h then .jump (e.wait s (.jsleep h cont)) cont
  else
    let w := e.T.statusOf h
    match statusTrap w with
    | some _ => .jump (e.wait s (.jsleep h cont)) cont
    | none => .jump (s.observe e.r e.T.coreId w) cont

def execJwait (x : Ext) (s : State) := Issue.ext 0x1E8 x bodyJwait s
def execJtest (x : Ext) (s : State) := Issue.ext 0x1E9 x bodyJtest s
def execYieldj (x : Ext) (s : State) := Issue.ext 0x045 x bodyYieldj s

/-- The wake of a beam that waits for a job: it observes the status; 1 to 4 raise the trap at `epc` (R275). -/
def State.wakeJob (s : State) (r : Ref) (core h : Nat) (epc : Dword) : State :=
  match s.team? r.t with
  | none => s
  | some T =>
    if s.openJob r.t h then s
    else
      let w := T.statusOf h
      let s1 := (s.observe r core w).modBeam r fun b => { b with status := .ready, issueAt := max b.issueAt s.clock }
      match statusTrap w with
      | none => s1
      | some c => s1.takeTrap r c 0 epc none 0 0

end Sys2Proof.Machine
end

