-- ==== Sys2Proof/Machine/Matrix.lean ====
section
/-! DEFINITION. The matrix engine (R244 to R264): its instructions, its entries, and the events that carry them out. -/

namespace Sys2Proof.Machine

/-! ### Acceptance (R244) -/

/-- Adds an entry in order of acceptance cycle, then quadrant; after those that a restore accepts in that cycle (R255, R264). -/
def insertEntry (n : Entry) (l : List Entry) : List Entry :=
  match l with
  | [] => [n]
  | m :: r =>
    if n.at_ < m.at_ ∨ (n.at_ = m.at_ ∧ m.again = false ∧ n.quad < m.quad) then n :: m :: r else m :: insertEntry n r

/-- An entry of the issuing beam with nothing latched yet. -/
def Env.entry (e : Env) (s : State) (k : EKind) : Entry :=
  { id := s.nextId, src := e.r, quad := e.r.b % 4, kind := k, tile := e.x.xf 3 4, slab := e.x.xf 7 3, mask := e.act,
    fmt := e.x.ff 0 2, scl := false, bs := 0, rnd := 0, b0 := 0, m0 := 0, units := 0, rega := [], regc := [], scales := [],
    d := e.x.d.toNat, pend := none, pix := 0, started := false, start := 0, served := false, at_ := e.now, issued := e.now,
    again := false, counted := false, seq := 0, tele := 0, tenant := sget 0 e.b.tenant (lowestLane e.act), ref := [], got := [] }

/-- The engine accepts an entry. -/
def Env.accept (e : Env) (s : State) (n : Entry) : State :=
  let C := s.core e.T.coreId
  ({ s with nextId := s.nextId + 1 }).setCore e.T.coreId { C with entries := insertEntry n C.entries }

/-- What every matrix instruction does before its own part: nothing with no active lane (R246), held while the quadrant's
entries are occupied or an acquire of the beam is under way (R144). -/
def Env.matrix (e : Env) (s : State) (always : Bool) (f : Unit → Res) : Res :=
  if always = false ∧ e.anyActive = false then .done s
  else if s.quadFull e.T.coreId (e.r.b % 4) = true ∨ s.acquiring e.r = true then .hold
  else f ()

/-- A register group of `n` registers from `r`, over the given lanes, keyed from 0. -/
def Beam.group (b : Beam) (r n : Nat) (ls : List Nat) : List (Nat × Word) :=
  ssetAll 0 [] ((List.range n).flatMap fun i => ls.map fun l => (regKey i l, b.rd (r + i) l))

/-! ### The reuse latch (R254) -/

/-- Releases the latch of a quadrant that holds a group of another beam, or of any beam. -/
def State.releaseLatch (s : State) (core q : Nat) (keep : Option Ref) : State :=
  { s with teams := s.teams.map fun e =>
      if e.2.core? = some core then
        (e.1, { e.2 with beams := e.2.beams.mapIdx fun i b =>
          if i % 4 = q ∧ keep ≠ some ⟨e.1, i⟩ then { b with reuse := none } else b })
      else e }

/-- The latch after an `MMA` or `MMASP` of the beam. -/
def Env.latch (e : Env) (s : State) (g : Nat × Nat × Nat) : State :=
  if e.x.ru then
    (s.releaseLatch e.T.coreId (e.r.b % 4) (some e.r)).modBeam e.r fun b => { b with reuse := some g }
  else s.releaseLatch e.T.coreId (e.r.b % 4) none

/-! ### Multiplications (R249 to R253, R256, R257) -/

/-- N of an `MMASP` (R247). -/
def nsOf (c : Nat) : Nat := if c = 0 then 32 else if c = 1 then 16 else 8

/-- The metadata bytes an `MMASP` reads (R257). -/
def metaBytes (fmt : Nat) : Nat := if fmt = 0 then 2048 else 4096

def Env.multiply (e : Env) (s : State) (sparse : Bool) : Res :=
  e.matrix s false fun _ =>
    let fmt := e.x.ff 0 2
    let b0 := (e.bv e.firstActive).toNat
    let m0 := (e.dOld e.firstActive).toNat
    let g := (e.x.a.toNat, aGroupLen fmt, fmt)
    let n0 := e.entry s (if sparse then .mmasp (nsOf (e.x.xf 7 2)) else .mma)
    let scl := decide (e.x.ff 2 1 = 1)
    let n := { n0 with
      slab := 0, b0 := b0, m0 := m0, scl := scl, bs := e.x.xf 0 2
      rega := e.b.group e.x.a.toNat (aGroupLen fmt) e.activeLanes
      regc := if scl then e.b.group e.x.c.toNat (scaleGroupLen fmt) lanes else []
      served := e.x.ru && decide (e.b.reuse = some g)
      tele := e.b.tele }
    if b0 % 128 ≠ 0 ∨ (sparse = true ∧ m0 % 2048 ≠ 0) then Res.trapOwn cMISALIGN
    else if n.tile ≥ s.accTiles e.T ∨ b0 + n.bytes > s.scrBytes e.T ∨
        (sparse = true ∧ m0 + metaBytes fmt > 4096 * s.accTiles e.T) then Res.trapOwn cPROT
    else if e.T.poisoned b0 (b0 + n.bytes) then Res.trapOwn cHALOTILE
    else .done (e.accept (e.latch s g) n)

def bodyMma (e : Env) (s : State) : Res := e.multiply s false
def bodyMmasp (e : Env) (s : State) : Res := e.multiply s true

/-! ### Accumulator and metadata instructions (R258 to R262) -/

/-- A tile the team does not hold is `PROT` (R126). -/
def Env.tileOk (e : Env) (s : State) : Bool := decide (e.x.xf 3 4 < s.accTiles e.T)

def bodyAccz (e : Env) (s : State) : Res :=
  e.matrix s false fun _ => if e.tileOk s then .done (e.accept s (e.entry s .accz)) else Res.trapOwn cPROT

def bodyAccld (e : Env) (s : State) : Res :=
  e.matrix s false fun _ =>
    if e.tileOk s then .done (e.accept s { e.entry s .accld with rega := e.b.group e.x.a.toNat 32 e.activeLanes })
    else Res.trapOwn cPROT

/-- An entry that delivers registers: the destination group is pending until completion, in which it is written (R245). -/
def Env.acceptOut (e : Env) (s : State) (n : Entry) : State :=
  e.accept (e.pendingAt s (writeNames e.g e.x) [] 1 0 true) { n with id := s.nextId + 1, pend := some s.nextId }

def bodyAccst (e : Env) (s : State) : Res :=
  e.matrix s false fun _ => if e.tileOk s then .done (e.acceptOut s (e.entry s .accst)) else Res.trapOwn cPROT

/-- `ACCCVT`: its rounding mode and scales are read at acceptance. -/
def bodyAcccvt (e : Env) (s : State) : Res :=
  e.matrix s false fun _ =>
    if e.tileOk s then
      .done (e.acceptOut s { e.entry s .acccvt with
        rnd := if e.x.xf 0 3 = 0 then e.b.rmode.toNat else e.x.xf 0 3
        scales := if e.x.ff 0 2 ≤ 1 then lanes.map e.bv else [] })
    else Res.trapOwn cPROT

/-- `LDMETA`: both offsets come from the lowest live lane. -/
def bodyLdmeta (e : Env) (s : State) : Res :=
  e.matrix s true fun _ =>
    let src := e.aLive.toNat
    let dst := (e.regLive e.x.d.toNat).toNat
    let u := e.x.immWord.toNat
    if src % 128 ≠ 0 ∨ dst % 128 ≠ 0 then Res.trapOwn cMISALIGN
    else if src + 128 * u > s.scrBytes e.T ∨ dst + 128 * u > 4096 * s.accTiles e.T then Res.trapOwn cPROT
    else .done (e.accept s { e.entry s .ldmeta with tile := 0, slab := 0, b0 := src, m0 := dst, units := u })

/-- `MWAIT`: the entries accepted before it, of the beam or of its team. -/
def bodyMwait (e : Env) (s : State) : Res :=
  let team := decide (e.x.xf 0 1 = 1)
  let ids := ((s.core e.T.coreId).entries.filter fun n =>
    if team then decide (n.src.t = e.r.t) else decide (n.src = e.r)).map (·.id)
  .done (if ids = [] then s else e.wait s (.mwait ids))

def execMma (x : Ext) (s : State) := Issue.ext 0x1C0 x bodyMma s
def execMmasp (x : Ext) (s : State) := Issue.ext 0x1C1 x bodyMmasp s
def execAccz (x : Ext) (s : State) := Issue.ext 0x1C2 x bodyAccz s
def execAccld (x : Ext) (s : State) := Issue.ext 0x1C3 x bodyAccld s
def execAccst (x : Ext) (s : State) := Issue.ext 0x1C4 x bodyAccst s
def execAcccvt (x : Ext) (s : State) := Issue.ext 0x1C5 x bodyAcccvt s
def execLdmeta (x : Ext) (s : State) := Issue.ext 0x1C6 x bodyLdmeta s
def execMwait (x : Ext) (s : State) := Issue.ext 0x1C7 x bodyMwait s

/-! ### Elements (R71, R249, R250, R256) -/

/-- The accumulator of row i, column j of a tile. -/
def accKey (tile i j : Nat) : Nat := 8192 * tile + 256 * i + j

/-- Byte k of row i of a latched group. -/
def groupByte (g : List (Nat × Word)) (i k : Nat) : Nat := (sget 0 g (regKey (k / 4) i)).toNat / 256 ^ (k % 4) % 256

/-- Element n of a row of 6-bit elements whose bytes are `f` (R52, R249). -/
def sixAt (f : Nat → Nat) (n : Nat) : Nat :=
  (f (3 * (n / 4)) + 256 * f (3 * (n / 4) + 1) + 65536 * f (3 * (n / 4) + 2)) / 2 ^ (6 * (n % 4)) % 64

/-- A[i][k] (R249). -/
def Entry.aElem (n : Entry) (i k : Nat) : Nat :=
  if n.fmt = 0 then groupByte n.rega i k
  else if n.fmt = 1 then sixAt (groupByte n.rega i) k
  else groupByte n.rega i (2 * k) + 256 * groupByte n.rega i (2 * k + 1)

/-- Row `r` of stored B, column c (R250). -/
def bStored (fmt b0 : Nat) (m : Memory) (r c : Nat) : Nat :=
  if fmt = 0 then m.readNat (b0 + 256 * r + c) 1
  else if fmt = 1 then sixAt (fun i => m.readNat (b0 + 192 * r + i) 1) c
  else m.readNat (b0 + 512 * r + 2 * c) 2

/-- The set bits of a mask below position p. -/
def bitsBelow (m p : Nat) : Nat := ((List.range p).filter fun i => m.testBit i).length

/-- B[k][c] (R250, R256). -/
def Entry.bElem (n : Entry) (T : Team) (k c : Nat) : Nat :=
  match n.kind with
  | .mmasp cnt =>
    let g := k / 64
    let m := T.metam.readNat (n.m0 + 2048 * g + 8 * c) 8
    let j := bitsBelow m (k % 64)
    if m.testBit (k % 64) = true ∧ j < cnt then bStored n.fmt n.b0 T.scratch (g * cnt + j) c else 0
  | _ => bStored n.fmt n.b0 T.scratch k c

/-- scale_a and scale_b of R71. -/
def Entry.scaleA (n : Entry) (i b : Nat) : Byte :=
  BitVec.ofNat 8 (groupByte n.regc i (if n.fmt = 0 then 2 * n.bs + b else b))
def Entry.scaleB (n : Entry) (c b : Nat) : Byte :=
  BitVec.ofNat 8 ((sget 0 n.regc (regKey (1 + 2 * b + c / 128) (c / 4 % 32))).toNat / 256 ^ (c % 4) % 256)

/-- The product at K position k of element (i, j); none where its block is masked (R70, R72). -/
def Entry.product (n : Entry) (T : Team) (i j k : Nat) : Option FVal :=
  let a := decodeElem n.fmt (n.aElem i k)
  let b := decodeElem n.fmt (n.bElem T k j)
  if n.scl then
    match s8 (n.scaleA i (k / 32)), s8 (n.scaleB j (k / 32)) with
    | some ea, some eb => some (chunkProduct a b (ea + eb))
    | _, _ => none
  else some (chunkProduct a b 0)

/-- The products of chunk g of element (i, j). -/
def Entry.products (n : Entry) (T : Team) (g i j : Nat) : List FVal :=
  (List.range 16).filterMap fun t => n.product T i j (16 * g + t)

/-- The latched rows. -/
def Entry.rows (n : Entry) : List Nat := lanes.filter fun l => maskBit n.mask l

def cols : List Nat := List.range 256

/-- Sub-step g of a multiplication: the accumulators of the latched rows (R72, R252). -/
def Entry.chunk (n : Entry) (T : Team) (g : Nat) : List (Nat × Word) :=
  n.rows.flatMap fun i => cols.map fun j =>
    let k := accKey n.tile i j
    (k, accAdd (sget 0 T.acc k) (chunkSum (n.products T g i j)))

/-- The same for the telemetry reference, one product at a time (R79). -/
def Entry.refChunk (n : Entry) (T : Team) (g : Nat) : List (Nat × Word) :=
  n.rows.flatMap fun i => cols.map fun j =>
    let k := accKey n.tile i j
    (k, (n.products T g i j).foldl refStep (sget 0 n.ref k))

/-! ### Conversions (R261) -/

/-- Elements of `w` bits as one number, the first lowest. -/
def packWords (w : Nat) (els : List Nat) : Nat := els.foldr (fun x v => x + 2 ^ w * v) 0

/-- The registers that `ACCCVT` gives lane l. -/
def Entry.cvt (n : Entry) (T : Team) (l : Nat) : List (Nat × Word) :=
  let x (j : Nat) : Nat := (sget 0 T.acc (accKey n.tile l (32 * n.slab + j))).toNat
  let rm := RMode.ofCode n.rnd
  let k := s8 ((n.scales.getD l 0).setWidth 8)
  let tap (w j : Nat) : Nat :=
    match k with
    | none => 0
    | some e => (encodeTap w ((FVal.of .fp32 (x j)).scale (-e))).1
  let el (j : Nat) : Nat :=
    if n.fmt = 0 then tap 7 j
    else if n.fmt = 1 then tap 5 j
    else (convert .fp32 (if n.fmt = 2 then .fp16 else .bf16) rm (x j)).1
  let w := if n.fmt = 0 then 8 else if n.fmt = 1 then 6 else 16
  let v := packWords w (lanes.map el)
  (List.range w).map fun i => (regKey (n.d + i) l, BitVec.ofNat 32 (v >>> (32 * i)))

/-! ### Engine events (R245, R255, R262) -/

/-- Engine cycles of an entry (R245). -/
def Entry.cycles (n : Entry) : Nat :=
  match n.kind with
  | .mma => 32
  | .mmasp k => if k = 32 then 16 else 8
  | .accz => 2
  | .ldmeta => n.units
  | _ => 4

def Entry.isMul (n : Entry) : Bool :=
  match n.kind with
  | .mma => true
  | .mmasp _ => true
  | _ => false

/-- The cycle in which an entry's first sub-step starts. -/
def Entry.first (n : Entry) (free : Nat) : Nat := max (n.at_ + (if n.served then 1 else 4)) free

/-- The accumulators of an entry's rows, for telemetry. -/
def Entry.accRows (n : Entry) (T : Team) : List (Nat × Word) :=
  T.acc.filter fun e => decide (8192 * n.tile ≤ e.1) && decide (e.1 < 8192 * (n.tile + 1)) && maskBit n.mask (e.1 / 256 % 32)

/-- Whether telemetry recomputes an entry with sequence number `q` (R79). The tiles counted are those of `MMA` and `MMASP`, which
alone sum products (DEDUCED, log 65). -/
def Entry.sampled (n : Entry) (q : Nat) : Bool := n.isMul && decide (n.tele ≠ 0) && decide (q % 2 ^ n.tele.toNat = 0)

/-- The engine starts its next entry. One that has started before, and was saved, keeps the sequence number that the first engine gave
it, and its telemetry names the core on which it ends: R79 counts per engine and is silent on a tile that two of them compute (DESIGN
CHOICE, log 65). -/
def startEntry (T : Option Team) (seq free : Nat) (n : Entry) : Entry :=
  let go := n.sampled seq && !n.counted
  { n with started := true, start := n.first free - n.pix * n.cycles / n.total, counted := true,
           seq := if n.isMul && !n.counted then seq else n.seq,
           tele := if go || n.counted then n.tele else 0,
           ref := if go then T.elim [] n.accRows else n.ref }

/-- The first entry of the list that has not started, once those before it have made their last sub-step. -/
def nextStart (l : List Entry) : Option Entry :=
  match l with
  | [] => none
  | n :: r => if n.started then (if n.pix < n.total then none else nextStart r) else some n

/-- Pre-emption keeps the engine from beginning a sub-step of the entry in cycle `start` (R384); of a team that a fatal trap has
stopped for good nothing is saved, and its entries complete. -/
def State.entryHeld (s : State) (n : Entry) (start : Nat) : Bool :=
  match s.team? n.src.t with
  | none => false
  | some T => (match T.life with | .draining _ since => !T.stopped && decide (since ≤ start) | _ => false)

def execEngineEntryStart (core : Nat) (s : State) : Host.Outcome State Fault Refusal :=
  let C := s.core core
  match nextStart C.entries with
  | none => .next s
  | some n =>
    let at_ := n.first C.engFree
    if s.clock < at_ ∨ s.entryHeld n at_ = true then .next s
    else
      let f := (s.team? n.src.t).elim 0 s.funcOf
      let seq := sget 0 C.engSeq f
      let m := startEntry (s.team? n.src.t) seq C.engFree n
      let left := (n.total - n.pix) * n.cycles / n.total
      .next (s.setCore core { C with
        entries := C.entries.map fun k => if k.id = n.id then m else k
        engFree := at_ + left
        engSeq := if n.isMul && !n.counted then sset 0 C.engSeq f (seq + 1) else C.engSeq })

/-- Sub-step `n.pix` of a multiplication; the last leaves the tile for telemetry (R79). -/
def Entry.mulStep (n : Entry) (T : Team) : Entry × Team :=
  let T1 := { T with acc := ssetAll 0 T.acc (n.chunk T n.pix) }
  ({ n with
    pix := n.pix + 1
    ref := if n.tele ≠ 0 then ssetAll 0 n.ref (n.refChunk T n.pix) else []
    got := if n.tele ≠ 0 ∧ n.pix + 1 = n.total then n.accRows T1 else [] }, T1)

/-- What sub-step `n.pix` of an entry does to its team, and the entry after it. -/
def Entry.perform (n : Entry) (T : Team) : Entry × Team :=
  let up (T : Team) (l : List (Nat × Word)) : Team := { T with acc := ssetAll 0 T.acc l }
  let n1 := { n with pix := n.pix + 1 }
  match n.kind with
  | .mma => n.mulStep T
  | .mmasp _ => n.mulStep T
  | .accz => (n1, up T (n.rows.flatMap fun i => cols.map fun j => (accKey n.tile i j, 0)))
  | .accld =>
    (n1, up T (n.rows.flatMap fun i => lanes.map fun j => (accKey n.tile i (32 * n.slab + j), sget 0 n.rega (regKey j i))))
  | .accst =>
    ({ n1 with rega := n.rows.flatMap fun i => lanes.map fun j =>
        (regKey (n.d + j) i, sget 0 T.acc (accKey n.tile i (32 * n.slab + j))) }, T)
  | .acccvt => ({ n1 with rega := n.rows.flatMap (n.cvt T) }, T)
  | .ldmeta => (n1, { T with metam := T.metam.writeBytes n.m0 (T.scratch.readBytes n.b0 (128 * n.units)) })

/-- The entry in progress. -/
def nowRunning (l : List Entry) : Option Entry := l.find? fun n => n.started && decide (n.pix < n.total)

/-- The cycle at which the next sub-step of a running entry ends. -/
def Entry.stepEnd (n : Entry) : Nat := n.start + (n.pix + 1) * n.cycles / n.total

/-- A sub-step of an entry reads bytes or elements of its team with an uncorrectable error (R380): the rest of its scratchpad range, its
tile, its metadata. -/
def Entry.poisoned (n : Entry) (T : Team) : Bool :=
  let tile (k : Nat) : Bool := decide (8192 * n.tile ≤ k) && decide (k < 8192 * (n.tile + 1)) && maskBit n.mask (k / 256 % 32)
  let reads : Bool := match n.kind with | .accz => false | .accld => false | .ldmeta => false | _ => true
  (T.bad.any fun x =>
    match x with
    | .acc k => reads && tile k
    | .metam a => (match n.kind with | .mmasp _ => decide (n.m0 ≤ a) && decide (a < n.m0 + 2048 * (n.total / 4)) | _ => false)
    | _ => false) ||
    (n.toRead T).any fun x => T.badScratch x.1 x.2

/-- A running entry waits at its scratchpad until cycle `w`: what is left of it, and the engine's next entry, come so much later. -/
def Core.engineWait (C : Core) (n : Entry) (w : Nat) : Core :=
  let d := w - n.stepEnd
  { C with
    entries := C.entries.map fun k => if k.id = n.id then { k with start := k.start + d } else k
    engFree := C.engFree + d }

/-- The sub-step of the entry in progress ends: the B and metadata lines that it reads are read then, all at once, though the rule lets
each be read at any moment during the sub-step (R251, DESIGN CHOICE, log 64). While granules of the core wake, it is free whether the
entry's scratchpad lies in them and it waits for the end of the wake (R133, log 64). -/
def execEngineSubstep (core : Nat) (s : State) : Host.Outcome State Fault Refusal :=
  let C := s.core core
  match nowRunning C.entries with
  | none => .next s
  | some n =>
    let w := (s.wakeEnd core).getD 0
    if s.clock < n.stepEnd ∨ s.entryHeld n (n.start + n.pix * n.cycles / n.total) = true then .next s
    else if s.clock < w ∧ n.bytes ≠ 0 ∧ Config.choice w % 2 = 1 then .next (s.setCore core (C.engineWait n w))
    else
      match s.team? n.src.t with
      | none => .next (s.setCore core { C with
          entries := C.entries.map fun k => if k.id = n.id then { k with pix := k.pix + 1 } else k })
      | some T =>
        if n.poisoned T = true ∧ T.stopped = false then
          .next (s.lateTrap n.src cPOISONOWN 0 ((s.beam? n.src).elim 0 (·.pc)) none 0 0)
        else
        let p := n.perform T
        .next ((s.setTeam n.src.t p.2).setCore core { C with
          entries := C.entries.map fun k => if k.id = n.id then p.1 else k })

/-- The recompute of a finished entry (R79). The tenant tag is that of its lowest latched lane at acceptance: R81 names the issuing
context, not the lane (DESIGN CHOICE, log 65). -/
def State.teleOf (s : State) (core : Nat) (n : Entry) (T : Team) : List TeleJob :=
  if n.tele = 0 then []
  else
    let at_ (m : List (Nat × Word)) : List (Nat × Nat × Word) :=
      n.rows.flatMap fun i => cols.map fun j => (i, j, sget 0 m (accKey n.tile i j))
    [{ func := s.funcOf T, tenant := n.tenant, coll := false, unit := core, seq := n.seq, tele := n.tele, fmt := n.fmt,
       got := at_ n.got, ref := at_ n.ref }]

/-- The entry completes: its register results arrive and it leaves its queue (R245). -/
def execEngineEntryComplete (core : Nat) (s : State) : Host.Outcome State Fault Refusal :=
  let C := s.core core
  match C.entries with
  | [] => .next s
  | n :: r =>
    if n.started = false ∨ n.pix < n.total ∨ s.clock < n.start + n.cycles + 4 then .next s
    else
      let s1 := s.setCore core { C with entries := r }
      match s1.team? n.src.t with
      | none => .next s1
      | some T =>
        let s2 := { s1 with work := { s1.work with teleq := s1.work.teleq ++ s1.teleOf core n T } }
        match n.pend with
        | none => .next s2
        | some id => .next (s2.modBeam n.src fun b => b.pendAdd id n.rega 1)

/-- The beam no longer waits for any of the entries (R262). -/
def State.mwaitOver (s : State) (core : Nat) (ids : List Nat) : Bool :=
  (s.core core).entries.all fun n => !ids.contains n.id

end Sys2Proof.Machine
end

