-- ==== Sys2Proof/Machine/Prism.lean ====
section
/-! DEFINITION. Prism instructions (R320 to R329) and the two events of the array. -/

namespace Sys2Proof.Machine

/-- The first checks of a Prism instruction (R321, R323): the array's owner, held while a `PALD` runs, the state. -/
def Env.prism (e : Env) (s : State) (ok : PState → Bool) (f : Unit → Res) : Res :=
  if s.prismOf e.T = false then Res.trapOwn cPROT
  else if e.T.paldRuns then .hold
  else if ok e.T.prism.state = false then Res.trapOwn cPASTATE
  else f ()

/-- Changes the array of the issuing beam's team. -/
def Env.setPrism (e : Env) (s : State) (f : Prism → Prism) : State :=
  s.modTeam e.r.t fun T => { T with prism := f T.prism }

def PState.idleOrLoaded (p : PState) : Bool :=
  match p with
  | .idle => true
  | .loaded => true
  | _ => false

def bodyPawin (e : Env) (s : State) : Res :=
  e.prism s PState.idleOrLoaded fun _ =>
    .done (e.setPrism s fun p => { p with max := decide (e.x.xf 0 1 = 1), w := BitVec.ofNat 8 (e.x.xf 1 8) })

/-- The running `PALD` of a beam. -/
def Beam.pald (b : Beam) : Option (LongRun × Nat × Nat × Option Nat) :=
  b.longs.findSome? fun l => match l.op with | .pald a g st => some (l, a, g, st) | _ => none

/-- The beam of the team whose `PALD` runs. -/
def Team.paldBeam (T : Team) : Option (Nat × LongRun × Nat × Nat × Option Nat) :=
  (T.beams.mapIdx fun i b => b.pald.map fun p => (i, p)).findSome? id

/-- The next sub-step of the team's `PALD` begins, if it waits, its quadrant's port is free and no halt keeps it: it takes the port for
4 cycles, after the end of a wake of granules that it meets (R128, R133, R325). -/
def State.paldBegin (s : State) (t : Nat) : State :=
  match s.team? t with
  | none => s
  | some T =>
    match T.paldBeam with
    | some (k, l, a, g, none) =>
      if 8 ≤ g ∨ s.clock < max l.since (sget 0 (s.core T.coreId).ports (k % 4)) ∨
          ((T.beams[k]?).elim false fun b => b.held l s.clock) = true then s
      else
        let p := s.portTake ⟨t, k⟩ T.coreId 4
        p.2.modBeam ⟨t, k⟩ fun b => (b.atStep g).setLong l (some (.pald a g (some (p.1 - 4))))
    | _ => s

/-- `PALD`: a long instruction; its sub-steps read the rows (R325). -/
def bodyPald (e : Env) (s : State) : Res :=
  e.prism s PState.idleOrLoaded fun _ =>
    let a := e.aLive.toNat
    if a % 128 ≠ 0 then Res.trapOwn cMISALIGN
    else if a + 4096 > s.scrBytes e.T then Res.trapOwn cPROT
    else if s.acquiring e.r = true ∨ e.b.scrReading = true then .hold
    else
      let n := e.b.resume.getD 0
      .done ((s.modBeam e.r fun b => { b.atStep n with longs := b.longs ++ [⟨e.pc, e.now, e.now, .pald a n none⟩] }).paldBegin
        e.r.t)

/-- `PAIN` (R326): two inputs for each active lane. -/
def bodyPain (e : Env) (s : State) : Res :=
  e.prism s PState.idleOrLoaded fun _ =>
    .done (e.setPrism s fun p =>
      { p with
        state := .loaded
        ins := ssetAll prismDefault p.ins (e.activeLanes.flatMap fun l =>
          [(2 * l, (e.a l).setWidth 8), (2 * l + 1, (e.a l).extractLsb' 8 8)]) })

/-- `PAGO` (R327): the window ends at t + 2 + ⌈W / 4⌉. -/
def bodyPago (e : Env) (s : State) : Res :=
  e.prism s (fun p => decide (p = .loaded)) fun _ =>
    .done (e.setPrism s fun p => { p with state := .running, doneAt := e.now + 2 + (p.w.toNat + 3) / 4 })

/-- `PACAP` (R328): results at once from DONE, or when the running window ends. -/
def bodyPacap (e : Env) (s : State) : Res :=
  e.prism s (fun p => decide (p = .running) || decide (p = .done)) fun _ =>
    if e.T.prism.state = .done then
      .done (e.pendingAt (e.setPrism s fun p => { p with state := .idle }) (writeNames e.g e.x)
        (e.T.prism.results e.x.d.toNat) 0 (e.now + 4) true)
    else .done (e.wait (e.pendingAt s (writeNames e.g e.x) [] 1 0 true) (.pacap e.x.d.toNat s.nextId))

/-- `PACLR` (R320, R329). -/
def bodyPaclr (e : Env) (s : State) : Res :=
  e.prism s (fun p => decide (p ≠ .running)) fun _ =>
    .done (e.setPrism s fun p => { p with state := .idle, ins := [], outs := [], wins := [] })

def execPawin (x : Ext) (s : State) := Issue.ext 0x240 x bodyPawin s
def execPald (x : Ext) (s : State) := Issue.ext 0x241 x bodyPald s
def execPain (x : Ext) (s : State) := Issue.ext 0x242 x bodyPain s
def execPago (x : Ext) (s : State) := Issue.ext 0x243 x bodyPago s
def execPacap (x : Ext) (s : State) := Issue.ext 0x244 x bodyPacap s
def execPaclr (x : Ext) (s : State) := Issue.ext 0x245 x bodyPaclr s

/-! ### Events -/

/-- Rows 8g to 8g + 7 from scratchpad (R325). -/
def Team.paldRows (T : Team) (a g : Nat) : Prism :=
  { T.prism with
    delays := ssetAll prismDefault T.prism.delays
      ((List.range 512).map fun i => (512 * g + i, T.scratch.read (a + 512 * g + i))) }

/-- What is due of the team's `PALD`: a sub-step begins when the port is free, ends 4 cycles later with its rows read, and the
instruction completes 4 cycles after sub-step 7. -/
def execPaldSubstep (t : Nat) (s : State) : Host.Outcome State Fault Refusal :=
  match s.team? t with
  | none => .next s
  | some T =>
    match T.paldBeam with
    | none => .next s
    | some (k, l, a, g, some st) =>
      if s.clock < st + 4 then .next s
      else if T.badScratch (a + 512 * g) 512 = true ∧ T.stopped = false then
        .next (s.lateTrap ⟨t, k⟩ cPOISONOWN 0 l.pc (some g) 0 0)
      else
        let m := { l with since := s.clock }
        let step (b : Beam) : Beam :=
          let c := b.setLong l (some (.pald a (g + 1) none))
          { c with longs := c.longs.map fun x => if x = { l with op := .pald a (g + 1) none } then { m with op := x.op } else x }
        .next (((s.setTeam t { T with prism := T.paldRows a g }).modBeam ⟨t, k⟩ step).paldBegin t)
    | some (k, l, _, g, none) =>
      if g < 8 then .next (s.paldBegin t)
      else if s.clock < l.since + 4 then .next s
      else .next (s.modBeam ⟨t, k⟩ fun b => b.setLong l none)

/-- The window of the team's array ends (R327). -/
def execPrismWindowEnd (t : Nat) (s : State) : Host.Outcome State Fault Refusal :=
  .next (s.modTeam t fun T => T.prismDue s.clock)

end Sys2Proof.Machine
end

