-- ==== Sys2Proof/Machine/Halo.lean ====
section
/-! DEFINITION. The Halo (R279 to R293): schedules, laps, passings, capture, delivery, and its three instructions. A ring
cycle 2t is arithmetic cycle t (R282). -/

namespace Sys2Proof.Machine

/-! ### Schedules (R281, R283) -/

def Sched.total (c : Sched) : Nat := (c.segs.map (·.ntile)).sum

/-- The segment that holds tile i of a lap: its number, itself, and the tile's place in it. -/
def segAt (l : List Seg) (k i : Nat) : Option (Nat × Seg × Nat) :=
  match l with
  | [] => none
  | g :: r => if i < g.ntile then some (k, g, i) else segAt r (k + 1) (i - g.ntile)

def tileBytes : Nat := 65536

/-- Segment i of a schedule in memory. -/
def readSeg (m : Memory) (a : Nat) : Seg :=
  { from_ := BitVec.ofNat 64 (m.readNat a 8), layer := m.readNat (a + 8) 2 % 4096,
    pmask := BitVec.ofNat 12 (m.readNat (a + 10) 2), ntile := m.readNat (a + 12) 4 % 2 ^ 20 + 1,
    tbase := m.readNat (a + 16) 4 % 2 ^ 20 }

/-- The refusal code of a segment (R283, check 3); 0 where it passes. -/
def segCode (m : Memory) (a : Nat) : Nat :=
  let g := readSeg m a
  let x := g.from_.toNat
  if x % tileBytes ≠ 0 then 1
  else if m.readNat (a + 8) 2 ≥ 4096 ∨ m.readNat (a + 10) 2 ≥ 4096 ∨ m.readNat (a + 12) 4 ≥ 2 ^ 20 ∨
    m.readNat (a + 16) 4 ≥ 2 ^ 20 ∨ m.readNat (a + 20) 12 ≠ 0 ∨ g.tbase + g.ntile > 2 ^ 20 then 2
  else if x < hbmTop ∨ (cxlBase ≤ x ∧ x < cxlTop) then 0
  else 4

/-- Two segments hold a common (LAYER, TILE) pair. -/
def Seg.clash (g h : Seg) : Bool :=
  decide (g.layer = h.layer) && decide (g.tbase < h.tbase + h.ntile) && decide (h.tbase < g.tbase + g.ntile)

def anyClash (l : List Seg) : Bool :=
  match l with
  | [] => false
  | g :: r => r.any g.clash || anyClash r

/-- The validation of R283: the refusal code, or the schedule. R283 lists no check that the schedule's own address lies in the HBM or CXL
range: the header and segments are read from device memory whatever it is (DESIGN CHOICE, log 66). -/
def readSched (m : Memory) (a : Dword) : Except Nat Sched :=
  let x := a.toNat
  let n := m.readNat (x + 4) 4
  if x % 64 ≠ 0 then .error 1
  else if m.readNat (x + 2) 1 > 1 ∨ m.readNat (x + 3) 1 ≠ 0 ∨ n = 0 ∨ n > 4096 ∨ m.readNat (x + 8) 56 ≠ 0 then .error 2
  else
    let at_ := (List.range n).map fun i => x + 64 + 32 * i
    match at_.find? fun p => decide (segCode m p ≠ 0) with
    | some p => .error (segCode m p)
    | none =>
      let segs := at_.map (readSeg m)
      if anyClash segs then .error 3
      else .ok { addr := a, sid := BitVec.ofNat 16 (m.readNat x 2), free := decide (m.readNat (x + 2) 1 = 1), segs := segs }

/-! ### Stops -/

def stopKey (c k : Nat) : Nat := 32 * c + k

def State.stop (s : State) (c k : Nat) : Stop := (aget s.halo.stops (stopKey c k)).getD Stop.init

def State.setStop (s : State) (c k : Nat) (p : Stop) : State :=
  { s with halo := { s.halo with stops := aset s.halo.stops (stopKey c k) p } }

def blocks : List Nat := List.range 32

/-- The block of a core (R279): 32 cores each. -/
def blockOf (core : Nat) : Nat := core / 32

/-- The ring cycle of the present cycle. -/
def State.ring (s : State) : Nat := 2 * s.clock

/-- Ring cycles between passings (R282). -/
def Chan.spacing (c : Chan) : Nat := (256 + c.thr.toNat - 1) / c.thr.toNat

/-- Every stop of the channel has passed at least n tiles of the lap. -/
def State.allPassed (s : State) (c n : Nat) : Bool := blocks.all fun k => decide ((s.stop c k).passed ≥ n)

/-! ### Boards -/

def Team.board (T : Team) (id : Nat) : Option Board := aget T.boards id

/-- Stores a request, or frees its id once nothing is left of it (R285, R291). -/
def Team.setBoard (T : Team) (id : Nat) (b : Board) : Team :=
  if b.tiles = [] ∧ b.captured = [] ∧ b.drop = [] then { T with boards := adel T.boards id }
  else { T with boards := aset T.boards id b }

def State.modBoard (s : State) (t id : Nat) (f : Board → Board) : State :=
  s.modTeam t fun T => match T.board id with | none => T | some b => T.setBoard id (f b)

/-- The lowest free board id. -/
def Team.freeBoard (T : Team) : Option Nat := (List.range 16).find? fun i => (T.board i).isNone

/-- The requests that capture a tile passing a stop (R285). -/
def State.captures (s : State) (c k layer tile ring : Nat) : List (Nat × Nat) :=
  s.teams.flatMap fun e =>
    match e.2.life with
    | .resident core =>
      if blockOf core = k then
        (e.2.boards.filter fun b =>
          decide (b.2.ch = c) && decide (b.2.layer = layer) && b.2.tiles.contains tile &&
            b.2.regAt.any fun r => decide (r + 64 ≤ ring)).map fun b => (e.1, b.1)
      else []
    | _ => []

/-- The tile moves from the sets to the captured tiles. -/
def State.capture (s : State) (tile : Nat) (l : List (Nat × Nat)) : State :=
  l.foldl (fun s p => s.modBoard p.1 p.2 fun b =>
    { b with tiles := b.tiles.filter fun t => decide (t ≠ tile), captured := b.captured ++ [tile] }) s

/-- The tiles of a request's lowest 15 runs, and the others. -/
def runsOf (l : List Nat) (runs : Nat) (last : Option Nat) : List Nat × List Nat :=
  match l with
  | [] => ([], [])
  | x :: r =>
    let more := decide (last ≠ some (x - 1)) || decide (x = 0)
    let n := if more then runs + 1 else runs
    let p := runsOf r n (some x)
    if n ≤ 15 then (x :: p.1, p.2) else (p.1, x :: p.2)

/-- A request keeps 15 runs of uncaptured tiles; the others become CANCELLED slots (R388). -/
def Board.trim (b : Board) : Board :=
  let p := runsOf b.tiles 0 none
  { b with tiles := p.1, drop := b.drop ++ p.2 }

/-- A tile into an ascending set. -/
def insertTile (l : List Nat) (x : Nat) : List Nat :=
  match l with
  | [] => [x]
  | y :: r => if x < y then x :: y :: r else y :: insertTile r x

/-- A tile that passed is not captured after all: it goes back to the set while the request stands (R285, R287). -/
def Board.uncapture (b : Board) (tile : Nat) : Board :=
  let tiles := match b.back with | .toSet => insertTile b.tiles tile | _ => b.tiles
  let drop := match b.back with | .toDrop => b.drop ++ [tile] | _ => b.drop
  { b with tiles := tiles, drop := drop, captured := b.captured.filter fun t => decide (t ≠ tile) }

/-- A request's tile is not captured after all; one of a team that drains keeps no more than 15 runs (R388). -/
def State.uncapture (s : State) (t id tile : Nat) (f : Board → Board) : State :=
  s.modTeam t fun T =>
    match T.board id with
    | none => T
    | some b =>
      let c := f (b.uncapture tile)
      T.setBoard id (if T.isResident then c else c.trim)

/-! ### The order of what happens at the stops (R282, R284, R286) -/

/-- The stop waits for the channel's next tile. -/
def State.toPass (s : State) (c k : Nat) (d : Sched) : Bool :=
  decide ((s.stop c k).passed < d.total) && s.allPassed c (s.stop c k).passed

/-- The channel pauses (R287): in FLOW mode, at some stop that has not passed the next tile, its buffer is full and the tile matches a
request. -/
def State.paused (s : State) (c : Nat) (d : Sched) (ring : Nat) : Bool :=
  !d.free && blocks.any fun k =>
    let p := s.stop c k
    s.toPass c k d && decide (p.entries.length ≥ 4) &&
      (match segAt d.segs 0 p.passed with
       | some (_, g, i) => decide (s.captures c k g.layer (g.tbase + i) ring ≠ [])
       | none => false)

/-- A tile may pass a stop at ring cycle `r`; no channel runs but in DSTATE = RUN (R397, R400). -/
def State.passes (s : State) (c k r : Nat) : Bool :=
  let C := s.chan c
  decide (s.sys.dstate = .run) && C.runs && C.sched.any fun d => s.toPass c k d && decide ((s.stop c k).due ≤ r) && !s.paused c d r

/-- The lap of a running channel has ended at every stop. -/
def State.lapOver (s : State) (c : Nat) : Bool :=
  let C := s.chan c
  C.runs && C.sched.any fun d => s.allPassed c d.total

/-- An entry whose slots are all acquired. -/
def StopEntry.ready (n : StopEntry) : Bool := n.checked && decide (n.todo = []) && decide (n.slots ≠ [])

/-- The entry of a block that the delivery bus serves, with its channel: one that has begun, or the earliest ready. Of two stops' tiles that
pass their CRC check in one ring cycle it takes channel 0's first (R279 gives them no order; DESIGN CHOICE, log 66). -/
def State.busNext (s : State) (k : Nat) : Option (Nat × StopEntry) :=
  let l := [0, 1].flatMap fun c => (s.stop c k).entries.map fun n => (c, n)
  match l.find? fun e => e.2.busAt.isSome with
  | some e => some e
  | none => (l.filter fun e => e.2.ready).foldl
      (fun m e => match m with | none => some e | some x => if e.2.passAt < x.2.passAt then some e else some x) none

/-- Something at the stops happens at or before ring cycle `r`. -/
def State.haloDue (s : State) (r : Nat) : Bool :=
  [0, 1].any (fun c => s.lapOver c || blocks.any fun k => s.passes c k r ||
    (s.stop c k).entries.any fun n => (!n.checked && decide (n.passAt + 16 ≤ r)) || n.busAt.any fun b => decide (b + 64 ≤ r)) ||
  blocks.any fun k => (s.busNext k).any (fun e => e.2.busAt.isNone) && decide (sget 0 s.halo.busFree k ≤ r)

/-- The ring cycle at which the stops are: the odd one before the present cycle while something is to happen at it, then the present
cycle's own. -/
def State.hring (s : State) : Nat :=
  let odd := s.ring - 1
  if s.halo.now ≤ odd ∧ s.haloDue odd = true then odd else s.ring

/-- The stops have reached the ring cycle. -/
def State.haloAt (s : State) (r : Nat) : State := { s with halo := { s.halo with now := r } }

/-! ### Passings (R282, R285, R287, R288) -/

/-- Line n of a tile has an uncorrectable error: one that memory holds, one past the end of its range (DESIGN CHOICE, log 66), or, where
the read of the source is said to have met one, a line left open. -/
def State.tileLineBad (s : State) (a n : Nat) (poison : Bool) : Bool :=
  let x := a + 128 * n
  s.net.badLines.contains (lineOf x) || !(decide (x < hbmTop) || (decide (cxlBase ≤ x) && decide (x < cxlTop))) ||
    (poison && decide (Config.choice (s.free + n) % 2 = 1))

/-- The tile as read from its source: once, before it first passes any stop. R288 lets each of its lines be read at any moment between the
end of the lap before and that passing; the model reads them all at the passing (DESIGN CHOICE, log 66). The bytes of a line with an
uncorrectable error are open (DESIGN CHOICE, log 9). -/
def State.injected (s : State) (c idx : Nat) (g : Seg) (i : Nat) (poison : Bool) : Injected :=
  match (s.chan c).inj.find? fun p => decide (p.idx = idx) with
  | some p => p
  | none =>
    let a := g.from_.toNat + tileBytes * i
    let line (n : Nat) : List Byte :=
      if s.tileLineBad a n poison then (List.range 128).map fun k => (Config.freeWord (s.free + 128 * n + k)).setWidth 8
      else s.mem.readBytes (a + 128 * n) 128
    let bytes := (List.range 512).flatMap line
    { idx := idx, poison := poison || (List.range 512).any fun n => s.tileLineBad a n poison, payload := bytes, crc := crc64 bytes }

/-- The next tile of the lap passes a stop. `poison` says that its source read met an uncorrectable error. -/
def execTilePassing (c k : Nat) (poison : Bool) (s : State) : Host.Outcome State Fault Refusal :=
  let C := s.chan c
  let p := s.stop c k
  let now := s.hring
  match C.sched with
  | none => .next s
  | some d =>
    match segAt d.segs 0 p.passed with
    | none => .next s
    | some (_, g, i) =>
      if k ≥ 32 ∨ s.passes c k now = false then .next s
      else
        let tile := g.tbase + i
        let hits := s.captures c k g.layer tile now
        let x := s.injected c p.passed g i poison
        let take := decide (hits ≠ []) && decide (p.entries.length < 4)
        let entry : StopEntry :=
          { lap := C.lap, sid := d.sid, layer := g.layer, tile := tile, poison := x.poison, crc := x.crc, free := d.free, passAt := now,
            reqs := hits, checked := false, slots := [], todo := [], payload := x.payload, busAt := none }
        let s1 := s.setStop c k { passed := p.passed + 1, last := now, due := now + C.spacing,
                                  entries := if take then p.entries ++ [entry] else p.entries }
        let s2 := if take then s1.capture tile hits else s1
        let keep (q : Injected) : Bool := !s2.allPassed c (q.idx + 1)
        let first := C.inj.all fun q => decide (q.idx ≠ x.idx)
        let s3 := s2.setChan c { C with inj := (if first then C.inj ++ [x] else C.inj).filter keep }
        .next (({ s3 with free := if first then s3.free + tileBytes else s3.free } : State).haloAt now)

/-! ### Laps (R284) -/

/-- Delivers cancelled tiles while slots are free: no payload, status CANCELLED (R284). -/
def dropTiles (T : Team) (q id : Nat) (l : List Nat) : Team × List Nat :=
  match l with
  | [] => (T, [])
  | x :: r =>
    match T.engineAcquire q with
    | none => (T, x :: r)
    | some (j, T1) => dropTiles (T1.commit q j 2 (x + id * 2 ^ 20)) q id r

def Team.flushBoard (T : Team) (e : Nat × Board) : Team :=
  let p := dropTiles T e.2.q e.1 e.2.drop
  p.1.setBoard e.1 { e.2 with drop := p.2 }

/-- Delivers what CANCELLED tiles of a team it can. Where a slot comes free for which a captured tile is held too, the CANCELLED tile
takes it (R284 and R287 give no order between them; DESIGN CHOICE, log 66). -/
def Team.flushDrops (T : Team) : Team := T.boards.foldl Team.flushBoard T

/-- Every request registered at a stop of the channel ends; its uncaptured tiles are to be delivered as CANCELLED, once the beams of the
cycle have taken their slots (R277). -/
def Team.endBoards (T : Team) (c : Nat) : Team :=
  let cut (e : Nat × Board) : Nat × Board :=
    if e.2.ch = c ∧ e.2.regAt ≠ none then (e.1, { e.2 with tiles := [], drop := e.2.drop ++ e.2.tiles, back := .toDrop }) else e
  { T with boards := T.boards.map cut }

def State.endBoards (s : State) (c : Nat) : State := { s with teams := s.teams.map fun e => (e.1, e.2.endBoards c) }

/-- Sets every stop of a channel to the beginning of a lap, the first tile of which passes at the given ring cycle where the channel
starts. -/
def State.lapStops (s : State) (c : Nat) (first : Option Nat) : State :=
  blocks.foldl (fun s k =>
    let p := s.stop c k
    s.setStop c k { p with passed := 0, due := first.getD p.due }) s

/-- A stopped channel starts (R284): its first tile passes every stop within 1 µs. -/
def State.haloStart (s : State) (c : Nat) : State :=
  let C := s.chan c
  let d := match C.pend with | some d => some d | none => C.sched
  match d with
  | none => s
  | some d =>
    let first := s.ring + 1 + Config.choice s.free % 1400
    let s1 := ({ s with free := s.free + 1 }).setChan c { C with
      runs := true, sched := some d, pend := none, sid := d.sid, inj := [] }
    s1.lapStops c (some first)

/-- The lap boundary: every stop has passed the lap's last tile. -/
def execLapBoundary (c : Nat) (s : State) : Host.Outcome State Fault Refusal :=
  let C := s.chan c
  match C.sched with
  | none => .next s
  | some d =>
    if s.lapOver c = false then .next s
    else
      let s0 := s.haloAt s.hring
      let s1 := if C.run = true ∧ C.pend = none then s0 else s0.endBoards c
      let s2 := s1.lapStops c none
      if C.run then
        let e := C.pend.getD d
        .next (s2.setChan c { C with sched := some e, pend := none, sid := e.sid, lap := C.lap + 1, inj := [] })
      else
        let e := C.pend.getD d
        .next (s2.setChan c { C with sched := some e, pend := none, sid := e.sid, runs := false, lap := C.lap + 1, inj := [] })

/-- RUN is written 1. -/
def State.haloRun (s : State) (c : Nat) : State :=
  let C := s.chan c
  let s1 := s.setChan c { C with run := true }
  if C.runs = true ∨ s.sys.dstate ≠ .run then s1 else s1.haloStart c

def execHaloRunStart (c : Nat) (s : State) : Host.Outcome State Fault Refusal := .next (s.haloRun c)

/-- RUN is written 0: the channel stops at the next lap boundary. -/
def State.haloHalt (s : State) (c : Nat) : State := s.setChan c { s.chan c with run := false }

def execHaloRunStop (c : Nat) (s : State) : Host.Outcome State Fault Refusal := .next (s.haloHalt c)

/-- THR is written; values other than 1 to 16 are not stored. -/
def State.haloThr (s : State) (c : Nat) (v : BitVec 5) : State :=
  if 1 ≤ v.toNat ∧ v.toNat ≤ 16 then s.setChan c { s.chan c with thr := v } else s

def execHaloThrSet (c : Nat) (thr : BitVec 5) (s : State) : Host.Outcome State Fault Refusal := .next (s.haloThr c thr)

/-- The address that HNEXT holds is validated (R283). -/
def State.haloValidate (s : State) (c : Nat) : State :=
  let C := s.chan c
  match readSched s.mem C.hnext with
  | .error e => s.setChan c { C with code := BitVec.ofNat 8 e }
  | .ok d =>
    let s1 := s.setChan c { C with pend := some d, code := 0 }
    if C.run = true ∧ C.runs = false ∧ s.sys.dstate = .run then s1.haloStart c else s1

/-- A write of HNEXT: `part` 0 the whole register, 1 the low half, 2 the high half. -/
def State.hnextWrite (s : State) (c part : Nat) (v : Dword) : State :=
  let C := s.chan c
  let lo : BitVec 32 := if part = 2 then C.hnext.extractLsb' 0 32 else v.extractLsb' 0 32
  let hi : BitVec 32 :=
    if part = 0 then v.extractLsb' 32 32 else if part = 1 then C.hnext.extractLsb' 32 32 else v.extractLsb' 0 32
  let s1 := s.setChan c { C with hnext := hi ++ lo }
  if part = 1 then s1 else s1.haloValidate c

def execHnextWrite (c part : Nat) (v : Dword) (s : State) : Host.Outcome State Fault Refusal := .next (s.hnextWrite c part v)

/-! ### Delivery (R286, R287) -/

/-- Whether an earlier tile captured at the block waits for a slot of the same queue. -/
def State.queueHeld (s : State) (k t q passAt : Nat) : Bool :=
  [0, 1].any fun c => (s.stop c k).entries.any fun n =>
    decide (n.passAt < passAt) && n.todo.any fun p =>
      decide (p.1 = t) && ((s.team? t).elim false fun T => (T.board p.2.1).any fun b => decide (b.q = q))

/-- One waiting request of an entry tries for its slot. -/
def tryTodo (k : Nat) (se : State × StopEntry) (p : Nat × Nat × Nat) : State × StopEntry :=
  let s := se.1
  let n := se.2
  let keep := (s, { n with todo := n.todo ++ [p] })
  match s.team? p.1 with
  | none => (s, n)
  | some T =>
    match T.board p.2.1 with
    | none => (s, n)
    | some b =>
      if s.queueHeld k p.1 b.q n.passAt then keep
      else
        match T.engineAcquire b.q with
        | none => keep
        | some (j, T1) => (s.setTeam p.1 T1, { n with slots := n.slots ++ [(p.1, p.2.1, j, p.2.2)] })

/-- The waiting requests of an entry try for their slots, in order. -/
def State.acquireFor (s : State) (k : Nat) (n : StopEntry) : State × StopEntry :=
  n.todo.foldl (tryTodo k) (s, { n with todo := [] })

/-- In FREE mode a request without a slot does not capture the tile on this lap (R287). -/
def State.giveBack (s : State) (n : StopEntry) : State :=
  n.todo.foldl (fun s p => s.uncapture p.1 p.2.1 n.tile id) s

/-- What the CRC check makes of one request: the state, and its status where it is to be delivered. -/
def crcOne (c : Nat) (n : StopEntry) (crcOk : Bool) (se : State × StopEntry) (p : Nat × Nat) : State × StopEntry :=
  let s := se.1
  let count (s : State) : State :=
    let C := s.chan c
    s.setChan c { C with crcf := if C.crcf = 0xFFFF then C.crcf else C.crcf + 1 }
  let deliver (s : State) (st : Nat) : State × StopEntry := (s, { se.2 with todo := se.2.todo ++ [(p.1, p.2, st)] })
  match (s.team? p.1).elim none fun T => T.board p.2 with
  | none => se
  | some b =>
    if n.poison then deliver s 1
    else if crcOk then
      deliver (s.modBoard p.1 p.2 fun b => { b with crcFail := b.crcFail.filter fun x => decide (x ≠ n.tile) }) 0
    else if b.crcFail.contains n.tile then deliver (count s) 1
    else
      (count (s.uncapture p.1 p.2 n.tile fun b => { b with crcFail := b.crcFail ++ [n.tile] }), se.2)

/-- Replaces an entry of a stop; one with nothing left to deliver is dropped. -/
def State.putEntry (s : State) (c k : Nat) (old : StopEntry) (n : StopEntry) : State :=
  let p := s.stop c k
  let one (m : StopEntry) : List StopEntry :=
    if m.passAt = old.passAt then (if n.checked = true ∧ n.slots = [] ∧ n.todo = [] then [] else [n]) else [m]
  s.setStop c k { p with entries := p.entries.flatMap one }

/-- The tiles of a stop that wait for slots try again, in capture order. -/
def State.retryHeld (s : State) (c k : Nat) : State :=
  ((s.stop c k).entries.filter fun n => n.checked && decide (n.todo ≠ [])).foldl (fun s n =>
    let a := s.acquireFor k n
    if a.2 = n then s else a.1.putEntry c k n a.2) s

/-- The CRC check of the oldest unchecked tile of a stop, of the beats as they arrived: `crcOk` says that none was damaged on the way.
In FREE mode a request whose queue has no slot does not capture the tile. Without a tile that is due, those that wait for slots try
again. -/
def execTileChecked (c k : Nat) (crcOk : Bool) (s : State) : Host.Outcome State Fault Refusal :=
  let now := s.hring
  match (s.stop c k).entries.find? fun n => !n.checked && decide (n.passAt + 16 ≤ now) with
  | some n =>
    let r := n.reqs.foldl (crcOne c n (crcOk && decide (crc64 n.payload = n.crc))) (s, { n with checked := true, todo := [] })
    let a := r.1.acquireFor k r.2
    if n.free then .next (((a.1.giveBack a.2).putEntry c k n { a.2 with todo := [] }).haloAt now)
    else .next ((a.1.putEntry c k n a.2).haloAt now)
  | none =>
    let t := s.retryHeld c k
    if t = s then .next s else .next (t.haloAt now)

/-- Some slot of the entry is delivered with status POISON. -/
def StopEntry.bad (n : StopEntry) : Bool := n.slots.any fun x => decide (x.2.2.2 = 1)

/-- The payload of a slot. That of a tile damaged on the way is open (DESIGN CHOICE, log 9). -/
def State.tilePayload (s : State) (n : StopEntry) : List Byte :=
  if n.bad = true ∧ n.poison = false then (List.range tileBytes).map fun i => (Config.freeWord (s.free + i)).setWidth 8 else n.payload

/-- Delivers an entry to one slot: payload, commit, and the request's captured set. -/
def deliverSlot (n : StopEntry) (bytes : List Byte) (s : State) (x : Nat × Nat × Nat × Nat) : State :=
  let t := x.1
  let id := x.2.1
  let j := x.2.2.1
  match s.team? t with
  | none => s
  | some T =>
    match T.board id with
    | none => s
    | some b =>
      let T1 := { T with scratch := T.scratch.writeBytes ((T.queue b.q).offset j) bytes }
      let T2 := T1.commit b.q j x.2.2.2 (n.tile + id * 2 ^ 20)
      s.setTeam t (T2.setBoard id { b with captured := b.captured.filter fun y => decide (y ≠ n.tile) })

/-- The HALO record of a tile delivered with status POISON (R286, R429). -/
def State.haloRecord (s : State) (c k : Nat) (n : StopEntry) (cause : Nat) : State :=
  let C := s.chan c
  (s.setChan c { C with psn := if C.psn = 0xFFFF then C.psn else C.psn + 1 }).record 0 5
    (leBytes 1 c ++ leBytes 1 k ++ leBytes 2 n.layer ++ leBytes 4 n.tile ++ leBytes 4 n.lap.toNat ++
      leBytes 2 n.sid.toNat ++ leBytes 1 cause ++ leBytes 33 0)

/-- The cycle to which the end of an entry's transfer is put off: it meets waking granules of a core that it delivers to, where it is
free whether its slot lies in them (R133, DESIGN CHOICE, log 64). -/
def State.busWait (s : State) (n : StopEntry) : Option Nat :=
  n.slots.findSome? fun x =>
    match ((s.team? x.1).bind Team.core?).bind s.wakeEnd with
    | some w => if s.clock < w ∧ Config.choice w % 2 = 1 then some w else none
    | none => none

/-- The delivery bus of a stop's block: a transfer begins, or ends and its slots are committed. -/
def execTileCommit (c k : Nat) (s0 : State) : Host.Outcome State Fault Refusal :=
  let flush (e : Nat × Team) : Nat × Team :=
    if (e.2.core?.any fun x => decide (blockOf x = k)) then (e.1, e.2.flushDrops) else e
  let s := { s0 with teams := s0.teams.map flush }
  match s.busNext k with
  | none => .next s
  | some (d, n) =>
    if d ≠ c then .next s
    else
      match n.busAt with
      | none =>
        if s.hring < sget 0 s.halo.busFree k then .next s
        else
          let s1 := (s.putEntry c k n { n with busAt := some s.hring }).haloAt s.hring
          .next { s1 with halo := { s1.halo with busFree := sset 0 s1.halo.busFree k (s.hring + 64) } }
      | some at_ =>
        if s.hring < at_ + 64 then .next s
        else
          match s.busWait n with
          | some w =>
            let s1 := s.putEntry c k n { n with busAt := some (2 * w - 64) }
            .next { s1 with halo := { s1.halo with busFree := sset 0 s1.halo.busFree k (2 * w) } }
          | none =>
          let s1 := n.slots.foldl (deliverSlot n (s.tilePayload n)) s
          let s2 := if n.bad then { s1 with free := s1.free + tileBytes } else s1
          let s3 := (s2.putEntry c k n { n with slots := [], todo := [] }).haloAt s.hring
          .next (if n.bad then s3.haloRecord c k n (if n.poison then 0 else 1) else s3)

/-! ### Instructions (R289 to R292) -/

/-- The tiles of a request all lie in the running schedule, in segments the partition may board. -/
def State.boardable (s : State) (c part layer tile count : Nat) : Bool :=
  let C := s.chan c
  C.runs && C.sched.any fun d =>
    (d.segs.all fun g => decide (g.layer ≠ layer) || decide (g.tbase + g.ntile ≤ tile) || decide (tile + count ≤ g.tbase) ||
      g.pmask.getLsbD part) &&
    decide (((d.segs.filter fun g => decide (g.layer = layer)).map fun g =>
      Nat.min (g.tbase + g.ntile) (tile + count) - Nat.max g.tbase tile).sum = count)

/-- A request enters the table: it is to register at ring cycle 2u + 16, and its id comes at u + 8. -/
def State.boardAdd (s : State) (t c q layer tile count id : Nat) (tenant : BitVec 16) : State :=
  s.modTeam t fun T => T.setBoard id
    { ch := c, q := q, layer := layer, tiles := (List.range count).map fun i => tile + i, captured := [], drop := [],
      crcFail := [], tenant := tenant, due := s.ring + 16, regAt := none, back := .toSet }

def bodyHboard (e : Env) (s : State) : Res :=
  let c := e.x.xf 0 1
  let q := e.x.xf 1 3
  let tile := e.aLive.toNat
  let count := if e.x.immb then e.x.immWord.toNat else (e.regLive e.x.b.toNat).toNat
  let layer := (e.regLive e.x.c.toNat).toNat
  let Q := e.T.queue q
  let d := e.x.d.toNat
  if q ≥ s.nqOf e.T ∨ Q.inst = false ∨ Q.size < tileBytes then Res.trapOwn cPROT
  else if tile ≥ 2 ^ 20 ∨ count = 0 ∨ tile + count > 2 ^ 20 ∨ layer ≥ 4096 then Res.trapOwn cILLEGAL
  else if s.boardable c (s.partOf e.T) layer tile count = false then Res.trapOwn cPROT
  else
    match e.T.freeBoard with
    | some id =>
      .done (e.pendingAt (s.boardAdd e.r.t c q layer tile count id (sget 0 e.b.tenant e.lowLive)) (writeNames e.g e.x)
        (allLanes d (BitVec.ofNat 32 id)) 0 (e.now + 8) true)
    | none =>
      .done (e.wait (e.pendingAt s (writeNames e.g e.x) [] 1 0 true) (.board c q layer tile count d s.nextId))

/-- A pending result is complete, and is written in cycle `ready`. -/
def Beam.pendDone (b : Beam) (id : Nat) (vs : List (Nat × Word)) (ready : Nat) : Beam :=
  { b with pends := b.pends.map fun p => if p.id = id then { p with vals := vs, wait := 0, ready := ready } else p }

/-- A beam that waits for a free board id gets it; D comes 8 cycles after the wait ends. -/
def State.wakeBoard (s : State) (r : Ref) (c q layer tile count d pend : Nat) : State :=
  match (s.team? r.t).elim none Team.freeBoard with
  | none => s
  | some id =>
    (s.boardAdd r.t c q layer tile count id ((s.beam? r).elim 0 fun b => sget 0 b.tenant (lowestLane b.lvm))).modBeam r fun b =>
      { b.pendDone pend (allLanes d (BitVec.ofNat 32 id)) (s.clock + 8) with status := .ready, issueAt := max b.issueAt s.clock }

def bodyHcancel (e : Env) (s : State) : Res :=
  let id := e.aLive.toNat
  let d := e.x.d.toNat
  match e.T.board id with
  | none => .done (e.pendingAt s (writeNames e.g e.x) (allLanes d 0) 0 (e.now + 8) true)
  | some _ =>
    let s1 := e.pendingAt s (writeNames e.g e.x) [] 1 (e.now + 8) true
    .done (s1.modTeam e.r.t fun T => { T with cancels := T.cancels ++ [⟨s.ring + 16, id, e.r.b, d, s.nextId⟩] })

/-- The lap and the segment of the next tile to pass a stop (R292). -/
def State.lapAt (s : State) (c k : Nat) : Word × Word :=
  let C := s.chan c
  let stopped (lap : Word) : Word × Word := (lap, C.sid ++ (0xFFFF : BitVec 16))
  if C.runs then
    match C.sched with
    | none => stopped C.lap
    | some d =>
      match segAt d.segs 0 (s.stop c k).passed with
      | some (i, _, _) => (C.lap, C.sid ++ BitVec.ofNat 16 i)
      | none => if C.run then (C.lap + 1, (C.pend.getD d).sid ++ (0 : BitVec 16)) else stopped (C.lap + 1)
  else stopped C.lap

def bodyHlap (e : Env) (s : State) : Res :=
  let p := s.lapAt (e.x.xf 0 1) (blockOf e.T.coreId)
  let d := e.x.d.toNat
  .done (e.pendingAt s (writeNames e.g e.x) (allLanes d p.1 ++ allLanes (d + 1) p.2) 0 (e.now + 8) true)

def execHboard (x : Ext) (s : State) := Issue.ext 0x200 x bodyHboard s
def execHcancel (x : Ext) (s : State) := Issue.ext 0x201 x bodyHcancel s
def execHlap (x : Ext) (s : State) := Issue.ext 0x202 x bodyHlap s

/-! ### Registration (R290, R291) -/

/-- One cancel takes effect: the remaining set of the request, if it still stands, is discarded and D gets its size. -/
def cancelOne (t : Nat) (s : State) (x : Cancel) : State :=
  let own : Option Board := ((s.team? t).elim none fun T => T.board x.id).filter fun b => decide (b.due ≤ x.due)
  let n := own.elim 0 (·.tiles.length)
  let s1 := s.modBeam ⟨t, x.beam⟩ fun m => m.pendAdd x.pend (allLanes x.d (BitVec.ofNat 32 n)) 1
  let s2 := if own.isSome then
      s1.modBoard t x.id fun b => { b with tiles := [], back := if b.back = .toSet then .gone else b.back }
    else s1
  s2.modTeam t fun T => { T with cancels := T.cancels.filter fun y => decide (y ≠ x) }

/-- A request of a resident team or its cancels reach the stop. -/
def execBoardRegister (t id : Nat) (s : State) : Host.Outcome State Fault Refusal :=
  match s.team? t with
  | none => .next s
  | some T =>
    let due := T.cancels.filter fun x => decide (x.id = id) && decide (x.due ≤ s.hring)
    let new := T.isResident && (T.board id).any fun b => decide (b.regAt = none) && decide (b.due ≤ s.hring)
    let s1 := if new then s.modBoard t id fun b => { b with regAt := some b.due } else s
    let s2 := due.foldl (cancelOne t) s1
    .next (if new = true ∨ due ≠ [] then s2.haloAt s.hring else s2)

end Sys2Proof.Machine
end

