-- ==== Sys2Proof/Machine/Home.lean ====
section
/-! DEFINITION. Reads and writes at home slices (R117, R120, R139, R241): one line, one place; and which accesses of a core come
before another (R135, R140). -/

namespace Sys2Proof.Machine

/-- The kind of a physical address of this device. -/
def kindAt (pa : Nat) : PKind := if inCxl pa then .cxl else .hbm

/-- The first element's address and size; a packet is never empty. -/
def Packet.pa (p : Packet) : Nat := (p.elems.headD Elem.init).pa
def Packet.size (p : Packet) : Nat := (p.elems.headD Elem.init).size

/-- The slice of a packet, as the tables of Net name it. -/
def Packet.slice (p : Packet) : Nat := homeSlice p.kind p.pa

def POp.collimated (o : POp) : Bool := match o with | .mcst _ => true | _ => false

/-- A watch on a line of this device is hit by a write of it, whatever the write changes (R241). -/
def Watch.struck (w : Watch) (pa n : Nat) : Watch :=
  if lineOf pa ≤ lineOf w.pa ∧ lineOf w.pa ≤ lineOf (pa + n - 1) then { w with hit := true } else w

/-- A write applied at the home slice, or posted to host memory. -/
def State.homeWrite (s : State) (k : PKind) (pa : Nat) (bytes : List Byte) : State :=
  if bytes = [] then s
  else if k = .host then s.hostPut pa bytes
  else
    let s1 := s.keepOld false pa bytes.length
    { s1 with mem := s.mem.writeBytes pa bytes,
              net := { s1.net with watches := s.net.watches.map fun w => w.struck pa bytes.length } }

/-- The control line of a multicast group (R243). -/
def Group.control (g : Nat × Group) : List Byte :=
  leBytes 8 g.2.applied ++ leBytes 2 g.1 ++ leBytes 1 g.2.members ++ List.replicate 117 0

/-- A read of one line at the home slice, or of host memory; of a multicast page's control line its fields (R243). -/
def State.homeRead (s : State) (k : PKind) (pa n : Nat) : List Byte :=
  if k = .host then s.hostMem.readBytes pa n
  else
    match (if k = .multicast then s.controlGroup pa else none) with
    | some g => ((Group.control g).drop (pa % 128)).take n
    | none => s.mem.readBytes pa n

/-- A number read at the home slice. -/
def State.homeNat (s : State) (k : PKind) (pa n : Nat) : Nat :=
  if k = .host then s.hostMem.readNat pa n else if k = .multicast then leNat (s.homeRead k pa n) else s.mem.readNat pa n

/-- An access that comes before one to these physical addresses, of an instruction that a beam of the core issues at cycle `t`: an
earlier packet of the core to the same home slice, which is on its way by the same route (R135), or what earlier long instructions of
the beam have still to access of these lines (R140). -/
def State.ahead (s : State) (r : Ref) (core t : Nat) (pas : List Nat) : Bool :=
  let slices := pas.map fun a => homeSlice (kindAt a) a
  let lines := pas.map lineOf
  (s.net.packets.any fun p => decide (p.core = core) && decide (p.sentAt < t) && p.job.isNone && p.target.isNone &&
    !p.op.collimated && slices.contains p.slice) ||
    (s.beam? r).elim false fun b => (b.unsentLines t).any lines.contains

/-- Some line of a range has an uncorrectable error. -/
def State.badRange (s : State) (pa n : Nat) : Bool :=
  s.net.badLines.any fun l => decide (lineOf pa ≤ l) && decide (l ≤ lineOf (pa + n - 1))

/-! ### The ends of waits and watches (R109, R241) -/

/-- A beam leaves its wait. -/
def Beam.awake (b : Beam) (now : Nat) : Beam := { b with status := .ready, issueAt := max b.issueAt now }

/-- A beam leaves its wait with a result. -/
def State.wakeWith (s : State) (r : Ref) (pend : Nat) (vals : List (Nat × Word)) : State :=
  s.modBeam r fun b => (b.pendAdd pend vals 1).awake s.clock

/-- The lanes of a mask that get a watch's value (R241). -/
def watchVals (mask : Word) (d size v : Nat) : List (Nat × Word) :=
  (lanes.filter (maskBit mask)).flatMap fun l => elemRegs d l size v false

/-- The reply to a watch reaches the beam that waits for it. -/
def State.watchReply (s : State) (r : Ref) (pend v : Nat) : State :=
  match s.beam? r with
  | none => s
  | some b =>
    match b.status with
    | .watch p mask _ d size => if p = pend then s.wakeWith r pend (watchVals mask d size v) else s
    | _ => s

end Sys2Proof.Machine
end

