-- ==== Sys2Proof/Machine/Kv.lean ====
section
/-! DEFINITION. Key-value memory and shared contexts (R294 to R317). Context operations are performed at the issue of their
instruction, which holds its beam until their reply (R301). -/

namespace Sys2Proof.Machine

/-! ### Descriptors (R294, R295) -/

def readDesc (m : Memory) (a : Nat) : KDesc :=
  let w := m.readNat (a + 40) 2
  { btb := m.readNat a 8, fra := m.readNat (a + 8) 8, log2b := m.readNat (a + 16) 1 % 16,
    fmt := m.readNat (a + 16) 1 / 16 % 4, layers := m.readNat (a + 18) 2 % 4096 + 1,
    heads := m.readNat (a + 20) 2 % 256 + 1, dim := m.readNat (a + 22) 2 % 512 + 1, nblk := m.readNat (a + 24) 4 % 2 ^ 24,
    pos := m.readNat (a + 28) 4, cmt := m.readNat (a + 32) 4, hwm := m.readNat (a + 36) 4, vgen := BitVec.ofNat 12 w,
    spois := decide (w / 4096 % 2 = 1), dead := decide (w / 8192 % 2 = 1),
    tenant := BitVec.ofNat 16 (m.readNat (a + 42) 2) }

/-- Every resv bit of a descriptor is 0. -/
def descResv (m : Memory) (a : Nat) : Bool :=
  decide (m.readNat (a + 16) 1 / 64 = 0) && decide (m.readNat (a + 17) 1 = 0) && decide (m.readNat (a + 18) 2 < 4096) &&
    decide (m.readNat (a + 20) 2 < 256) && decide (m.readNat (a + 22) 2 < 512) && decide (m.readNat (a + 24) 4 < 2 ^ 24) &&
    decide (m.readNat (a + 40) 2 < 16384) && decide (m.readNat (a + 44) 84 = 0)

def KDesc.bsize (d : KDesc) : Nat := 2 ^ d.log2b
def KDesc.cap (d : KDesc) : Nat := d.nblk * d.bsize
def KDesc.row (d : KDesc) : Nat := d.heads * d.dim

/-- The descriptor passes R295 for a lane of tenant t. -/
def descOk (m : Memory) (a : Nat) (t : BitVec 16) : Bool :=
  let d := readDesc m a
  descResv m a && decide (4 ≤ d.log2b) && decide (d.log2b ≤ 10) && decide (d.fmt ≠ 3) && decide (1 ≤ d.nblk) &&
    decide (d.btb % 8 = 0) && decide (d.fra % 64 = 0) && decide (d.cmt ≤ d.pos) && decide (d.pos ≤ d.hwm) &&
    decide (d.hwm ≤ d.cap) && decide (d.tenant = t) && !d.dead

/-! ### Addresses (R297, R298) -/

/-- What stops a key-value access before anything is performed: an invalid page, or one behind an entry of the lane's own (R372); a
page held in common with other devices that is to be written (R375); a trap. -/
inductive KErr where
  | fault (va : Nat) (write : Bool)
  | upgrade (va : Nat)
  | trap (cause va : Nat)
  deriving DecidableEq, Repr

/-- Translates an address of a context: HBM or CXL pages of its tenant alone (R295). -/
def State.kvPa (s : State) (q : Requester) (t : BitVec 16) (write : Bool) (va : Nat) : Except KErr (Nat × PKind) :=
  if va / 2 ^ 56 ≠ 0 then .error (.trap cMEMFAULT va)
  else
    match (s.translate q va).1 with
    | .ok l pa =>
      if (l.kind = .hbm ∨ l.kind = .cxl) ∧ l.tenant = t ∧ (write = false ∨ l.w = true) then
        (if q.lane.any (fun w => s.joins w.1 w.2 va) = true then .error (.fault va write)
         else if write = true ∧ l.rd = true then .error (.upgrade va)
         else .ok (pa, l.kind))
      else .error (.trap cPROT va)
    | .invalid => .error (.fault va write)
    | .memfault => .error (.trap cMEMFAULT va)
    | .prot => .error (.trap cPROT va)

/-- The descriptor at a context address, with its physical address. -/
def State.kvDesc (s : State) (q : Requester) (t : BitVec 16) (write : Bool) (va : Nat) : Except KErr (Nat × KDesc) :=
  match s.kvPa q t write va with
  | .error e => .error e
  | .ok (pa, _) => if descOk s.mem pa t then .ok (pa, readDesc s.mem pa) else .error (.trap cPROT va)

/-- The translations of a lane's addresses are remembered, in turn (R124). -/
def State.touch (s : State) (q : Requester) (vas : List Nat) : State :=
  vas.foldl (fun s va => if va / 2 ^ 56 = 0 then (s.translate q va).2 else s) s

/-- The physical addresses behind those addresses of a context that have one. -/
def State.kvPas (s : State) (q : Requester) (t : BitVec 16) (vas : List Nat) : List Nat :=
  vas.filterMap fun va => match s.kvPa q t false va with | .ok a => some a.1 | .error _ => none

/-- The block table entry of a position of a layer (R297). -/
def KDesc.entVa (d : KDesc) (layer p : Nat) : Nat := d.btb + 8 * (layer * d.nblk + p / d.bsize)

/-- The block of position p of a layer: none where it is absent. An entry of another tenant is `PROT`. -/
def State.kvBlock (s : State) (q : Requester) (d : KDesc) (layer p : Nat) : Except KErr (Option Nat) :=
  let va := d.entVa layer p
  match s.kvPa q d.tenant false va with
  | .error e => .error e
  | .ok (pa, _) =>
    let e := BitVec.ofNat 64 (s.mem.readNat pa 8)
    if e.getLsbD 44 = false then .ok none
    else if e.extractLsb' 48 16 ≠ d.tenant then .error (.trap cPROT va)
    else .ok (some ((e.extractLsb' 0 44).toNat * 4096))

def roundUp (n k : Nat) : Nat := (n + k - 1) / k * k

def KDesc.tagb (d : KDesc) : Nat := Nat.max 128 (4 * d.bsize)
def KDesc.ksz (d : KDesc) : Nat := roundUp (d.bsize * d.row * d.es) 128
def KDesc.tagVa (d : KDesc) (block p : Nat) : Nat := block + 4 * (p % d.bsize)
def KDesc.elVa (d : KDesc) (block p q : Nat) (v : Bool) : Nat :=
  block + d.tagb + (if v then d.ksz else 0) + (p % d.bsize * d.row + q) * d.es

/-- The tag word's address at a position; none where the block is absent. -/
def State.kvTag (s : State) (q : Requester) (d : KDesc) (write : Bool) (layer p : Nat) : Except KErr (Option (Nat × PKind)) :=
  match s.kvBlock q d layer p with
  | .error e => .error e
  | .ok none => .ok none
  | .ok (some b) =>
    match s.kvPa q d.tenant write (d.tagVa b p) with
    | .error e => .error e
    | .ok x => .ok (some x)

/-! ### Tags (R299, R300) -/

def tagWr (w : Nat) : Bool := decide (w / 2 ^ 24 % 2 = 1)
def tagPsn (w : Nat) : Bool := decide (w / 2 ^ 25 % 2 = 1)
def tagGen (w : Nat) : BitVec 12 := BitVec.ofNat 12 w

/-- The tag that `KVW` writes. -/
def newTag (gen : BitVec 12) (node : Nat) : Word := BitVec.ofNat 32 (gen.toNat + node % 4096 * 2 ^ 12 + 2 ^ 24)

/-! ### Context operations (R301, R302) -/

/-- How an error ends an instruction of which nothing has been performed. -/
def Env.kvErr (e : Env) (s : State) (k : KErr) : Res :=
  match k with
  | .trap c va => .trap c 0 none none va
  | .fault va w => .wait (s.faultWait e.r e.T va w false false)
  | .upgrade va => .wait (s.faultWait e.r e.T va true false true)

/-- The lane that acts, its translation and its tenant. -/
def Env.kvReq (e : Env) (s : State) (l : Nat) : Requester := s.laneReq e.r e.T l
def Env.kvTenant (e : Env) (l : Nat) : BitVec 16 := sget 0 e.b.tenant l

/-- What an instruction that issues now reads at these physical addresses comes after earlier accesses of its beam or core. -/
def Env.ahead (e : Env) (s : State) (pas : List Nat) : Bool := s.ahead e.r e.T.coreId (s.clock + 1) pas

/-- The lowest live lane has a key-value access in the operand log: what its context operations read or write may be among what that
access reaches (R140). -/
def Env.kvLogged (e : Env) (s : State) : Bool := s.net.log.any fun g => g.of e.r && g.kv.isSome && g.holds e.lowLive

/-- A context operation: the checks of R302 on the lowest live lane's context, then its step at the home slice, where `f` acts on
the descriptor found. It reaches the slice after the accesses of its core that are on their way there, and after those of its
beam to what it reads (R135, R140). `write` says that it writes the descriptor. -/
def Env.ctxOp (e : Env) (s : State) (write : Bool) (f : State → Requester → Nat → KDesc → Res) : Res :=
  let l := e.lowLive
  let va := (e.b.rdPair e.x.a.toNat l).toNat
  if s.memHeld e = true ∨ e.kvLogged s = true then .hold
  else if va % 128 ≠ 0 then .trap cMISALIGN 0 none none va
  else if va / 2 ^ 56 ≠ 0 then .trap cMEMFAULT 0 none none va
  else if e.ahead s (s.kvPas (e.kvReq s l) (e.kvTenant l) [va]) then .hold
  else
    match s.kvDesc (e.kvReq s l) (e.kvTenant l) write va with
    | .error k => e.kvErr s k
    | .ok (pa, d) => f (s.touch (e.kvReq s l) [va]) (e.kvReq s l) pa d

/-- A result in all 32 lanes of D. -/
def Env.kvOut (e : Env) (s : State) (vals : List Word) : Res :=
  .done (e.pending s (writeNames e.g e.x) ((vals.mapIdx fun i v => allLanes (e.x.d.toNat + i) v).flatten) 0 (e.now + 1))

def State.put32 (s : State) (a v : Nat) : State := s.homeWrite .hbm a (leBytes 4 v)

/-- B of the lowest live lane, or the immediate. -/
def Env.kvB (e : Env) : Nat := if e.x.immb then e.x.immWord.toNat else (e.regLive e.x.b.toNat).toNat

/-- `KVRSV` (R309). No rule orders the check of its count before or after those of R302: it comes first here, and after them for
`KVPUB` (DESIGN CHOICE, log 76). -/
def bodyKvrsv (e : Env) (s : State) : Res :=
  let n := e.kvB
  if n = 0 ∨ n > 65536 then Res.trapOwn cILLEGAL
  else e.ctxOp s true fun s _ pa d =>
    if d.pos + n ≤ d.cap then
      let s1 := (s.put32 (pa + 28) (d.pos + n)).put32 (pa + 36) (Nat.max d.hwm (d.pos + n))
      e.kvOut s1 [BitVec.ofNat 32 d.pos]
    else e.kvOut s [0xFFFFFFFF]

/-- Whether every element passes a check that may meet a translation error. -/
def kvAll (f : Nat → Except KErr Bool) (l : List Nat) : Except KErr Bool :=
  match l with
  | [] => .ok true
  | x :: r =>
    match f x with
    | .error e => .error e
    | .ok false => .ok false
    | .ok true => kvAll f r

/-- Positions `[lo, hi)`. -/
def posRange (lo hi : Nat) : List Nat := (List.range (hi - lo)).map fun i => lo + i

/-- A position's slot can be committed (R306); one whose tag cannot be read is as one with PSN set (R316). -/
def State.kvWritten (s : State) (q : Requester) (d : KDesc) (layer p : Nat) : Except KErr Bool :=
  match s.kvTag q d false layer p with
  | .error e => .error e
  | .ok none => .ok false
  | .ok (some (pa, _)) =>
    let w := s.mem.readNat pa 4
    .ok (tagWr w && decide (tagGen w = d.vgen) && !tagPsn w && !s.badRange pa 4)

/-- The layers and positions of a range. -/
def KDesc.slots (d : KDesc) (lo hi : Nat) : List (Nat × Nat) :=
  (List.range d.layers).flatMap fun L => (posRange lo hi).map fun p => (L, p)

/-- The tag words of every layer at positions `[lo, hi)` with a present block. -/
def State.kvTags (s : State) (q : Requester) (d : KDesc) (write : Bool) (l : List (Nat × Nat)) : Except KErr (List Nat) :=
  match l with
  | [] => .ok []
  | x :: r =>
    match s.kvTag q d write x.1 x.2, s.kvTags q d write r with
    | .error e, _ => .error e
    | .ok _, .error e => .error e
    | .ok none, .ok t => .ok t
    | .ok (some (pa, _)), .ok t => .ok (pa :: t)

/-- The addresses that reading the tags of some slots accesses: each block table entry and, of a present block, the tag. -/
def State.kvVas (s : State) (q : Requester) (d : KDesc) (l : List (Nat × Nat)) : List Nat :=
  l.flatMap fun x => d.entVa x.1 x.2 :: (match s.kvBlock q d x.1 x.2 with | .ok (some b) => [d.tagVa b x.2] | _ => [])

/-- `KVCMT` (R306). -/
def bodyKvcmt (e : Env) (s : State) : Res :=
  let c := e.kvB
  e.ctxOp s true fun s q pa d =>
    let vas := s.kvVas q d (d.slots d.cmt c)
    if c ≤ d.cmt then .done s
    else if c > d.pos then Res.trapOwn cKVTAG
    else if e.ahead s (s.kvPas q d.tenant vas) then .hold
    else
      match kvAll (fun L => kvAll (s.kvWritten q d L) (posRange d.cmt c)) (List.range d.layers) with
      | .error k => e.kvErr s k
      | .ok ok => if ok then .done ((s.touch q vas).put32 (pa + 32) c) else Res.trapOwn cKVTAG

/-- The descriptor's half-word of VGEN and flags. -/
def flagsWord (vgen : BitVec 12) (spois dead : Bool) : Nat :=
  vgen.toNat + (if spois then 4096 else 0) + (if dead then 8192 else 0)

/-- `KVROLL` (R307). -/
def bodyKvroll (e : Env) (s : State) : Res :=
  e.ctxOp s true fun s q pa d =>
    let vas := s.kvVas q d (d.slots d.cmt d.hwm)
    let fin (s : State) : Res :=
      let g := d.vgen + 1
      let s1 := (s.homeWrite .hbm (pa + 40) (leBytes 2 (flagsWord g d.spois d.dead))).put32 (pa + 28) d.cmt
      e.kvOut s1 [g.setWidth 32]
    if d.vgen = 4095 then
      if d.hwm - d.cmt > 256 then Res.trapOwn cKVTAG
      else if e.ahead s (s.kvPas q d.tenant vas) then .hold
      else
        match s.kvTags q d true (d.slots d.cmt d.hwm) with
        | .error k => e.kvErr s k
        | .ok tags => fin ((tags.foldl (fun s a => s.put32 a 0) (s.touch q vas)).put32 (pa + 36) d.cmt)
    else fin s

/-- `KVGEN` (R308). -/
def bodyKvgen (e : Env) (s : State) : Res :=
  e.ctxOp s (decide (e.x.ff 0 1 = 1)) fun s _ pa d =>
    let s1 := if e.x.ff 0 1 = 1 then s.homeWrite .hbm (pa + 40) (leBytes 2 (flagsWord d.vgen false d.dead)) else s
    e.kvOut s1 [BitVec.ofNat 32 (flagsWord d.vgen d.spois d.dead), BitVec.ofNat 32 d.cmt]

/-! ### Frontiers (R296, R310, R311) -/

/-- The number of low set bits of a window. -/
def lowOnes (n w : Nat) : Nat :=
  match n with
  | 0 => 0
  | n + 1 => if w % 2 = 1 then lowOnes n (w / 2) + 1 else 0

/-- The frontier entry of a layer. -/
def State.kvFra (s : State) (q : Requester) (d : KDesc) (write : Bool) (layer : Nat) : Except KErr (Nat × PKind) :=
  s.kvPa q d.tenant write (d.fra + 64 * layer)

/-- A publish at the home slice that its window admits (R310). -/
def State.publish (s : State) (fra p0 n : Nat) : State :=
  let f := s.mem.readNat fra 4
  let w := (posRange p0 (p0 + n)).foldl (fun w p => if f ≤ p then w ||| 2 ^ (p - f) else w) (s.mem.readNat (fra + 8) 32)
  let k := lowOnes 257 w
  (s.put32 fra (f + k)).homeWrite .hbm (fra + 8) (leBytes 32 (w / 2 ^ k))

/-- The publish must be held. -/
def State.pubHeld (s : State) (fra p0 n : Nat) : Bool := decide (p0 + n > s.mem.readNat fra 4 + 256)

/-- A held context operation is tried again: `go` acts on the frontier entry where it may. One that meets a page with no translation
or to be upgraded issues again, and takes its fault. -/
def State.wakeKv (s : State) (r : Ref) (T : Team) (b : Beam) (ctx layer : Nat) (t : BitVec 16) (write : Bool)
    (go : Nat → State) : State :=
  let q := s.laneReq r T (lowestLane b.lvm)
  let stop (k : KErr) : State :=
    match k with
    | .trap c _ => (s.modBeam r fun b => { b.withdraw with pc := b.pc }).takeTrap r c 0 b.waitPc none 0 ctx
    | _ => s.modBeam r fun b => b.withdraw
  match s.kvDesc q t false ctx with
  | .error k => stop k
  | .ok (_, d) =>
    match s.kvFra q d write layer with
    | .error k => stop k
    | .ok (fra, _) => go fra

def State.wakeKvpub (s : State) (r : Ref) (T : Team) (b : Beam) (ctx layer p0 n : Nat) (t : BitVec 16) : State :=
  s.wakeKv r T b ctx layer t true fun fra =>
    if s.pubHeld fra p0 n then s
    else (s.publish fra p0 n).modBeam r fun b =>
      { b with orc := b.orc - 1, status := .ready, issueAt := max b.issueAt s.clock }

def State.wakeKvwait (s : State) (r : Ref) (T : Team) (b : Beam) (ctx layer target d pend : Nat) (t : BitVec 16) : State :=
  s.wakeKv r T b ctx layer t false fun fra =>
    let f := s.mem.readNat fra 4
    if f < target then s
    else (s.roClear T.coreId).modBeam r fun b =>
      { b.pendAdd pend (allLanes d (BitVec.ofNat 32 f)) 1 with status := .ready, issueAt := max b.issueAt s.clock }

/-- A held `KVWAIT` or `KVPUB` of a running beam is tried again. -/
def State.kvTry (s : State) (r : Ref) : State :=
  match s.team? r.t, s.beam? r with
  | some T, some b =>
    if T.isResident = false ∨ T.stopped = true ∨ b.halt ≠ .run then s
    else
      match b.status with
      | .kvpub c l a n _ t => s.wakeKvpub r T b c l a n t
      | .kvwait c l a d p t => s.wakeKvwait r T b c l a d p t
      | _ => s
  | _, _ => s

/-- When a held context operation arrived: waits, or publishes. -/
def Status.kvArrival (w : Status) (pub : Bool) : Option Nat :=
  match w with
  | .kvpub _ _ _ _ n _ => if pub then some n else none
  | .kvwait _ _ _ _ p _ => if pub then none else some p
  | _ => none

/-- The beams with a held wait, or a held publish, in arrival order. -/
def State.kvHeld (s : State) (pub : Bool) : List Ref :=
  let at_ (e : Nat × Team) : List (Nat × Ref) :=
    (e.2.beams.mapIdx fun i b => ((b.status.kvArrival pub).map fun n => (n, (⟨e.1, i⟩ : Ref))).toList).flatten
  ((s.teams.flatMap at_).foldl (fun m x => sput m x.1 x.2) []).map (·.2)

/-- After a publish, the waits whose target is met are woken in arrival order; then the first held publish that can be applied is,
and so on (R310, R311). -/
def State.kvSettle (s : State) (fuel : Nat) : State :=
  let s1 := (s.kvHeld false).foldl State.kvTry s
  match fuel with
  | 0 => s1
  | n + 1 =>
    match (s1.kvHeld true).find? fun r => decide (s1.kvTry r ≠ s1) with
    | none => s1
    | some r => (s1.kvTry r).kvSettle n

/-- The held operations of the contexts are tried again. -/
def State.kvRetry (s : State) : State := s.kvSettle (s.kvHeld true).length

/-- `KVPUB` (R310): a release, held at issue until its wait is met (R143). -/
def bodyKvpub (e : Env) (s : State) : Res :=
  let l := e.lowLive
  let n := (e.regLive e.x.d.toNat).toNat
  let p0 := (e.regLive e.x.b.toNat).toNat
  let layer := (e.regLive e.x.c.toNat).toNat
  e.ctxOp s false fun s q _ d =>
    if n = 0 ∨ n > 256 then Res.trapOwn cILLEGAL
    else if layer ≥ d.layers ∨ p0 + n > d.pos then Res.trapOwn cPROT
    else if s.quietBeam e.r e.b = false then .hold
    else
      match s.kvFra q d true layer with
      | .error k => e.kvErr s k
      | .ok (fra, _) =>
        let s := s.touch q [d.fra + 64 * layer]
        if s.pubHeld fra p0 n then
          let ctx := (e.b.rdPair e.x.a.toNat l).toNat
          .done (e.wait (({ s with nextId := s.nextId + 1 } : State).modBeam e.r fun b => { b with orc := b.orc + 1 })
            (.kvpub ctx layer p0 n s.nextId (e.kvTenant l)))
        else .done (s.publish fra p0 n).kvRetry

/-- `KVACQ` and `KVWAIT` (R311). -/
def Env.kvAcq (e : Env) (s : State) (target : Option Nat) : Res :=
  let l := e.lowLive
  let layer := e.kvB
  e.ctxOp s false fun s q _ d =>
    if layer ≥ d.layers then Res.trapOwn cPROT
    else
      match s.kvFra q d false layer with
      | .error k => e.kvErr s k
      | .ok (fra, _) =>
        let f := s.mem.readNat fra 4
        let s := s.touch q [d.fra + 64 * layer]
        if e.ahead s [fra] then .hold
        else if target.all fun t => decide (t ≤ f) then e.kvOut (s.roClear e.T.coreId) [BitVec.ofNat 32 f]
        else
          let ctx := (e.b.rdPair e.x.a.toNat l).toNat
          .done (e.wait (e.pending s (writeNames e.g e.x) [] 1 0)
            (.kvwait ctx layer (target.getD 0) e.x.d.toNat s.nextId (e.kvTenant l)))

def bodyKvacq (e : Env) (s : State) : Res := e.kvAcq s none
def bodyKvwait (e : Env) (s : State) : Res := e.kvAcq s (some (e.regLive e.x.c.toNat).toNat)

/-! ### Per-lane instructions (R303 to R305) -/

/-- Position and element index of lane l. -/
def Env.kvPos (e : Env) (l : Nat) : Nat := (e.b.rd e.x.b.toNat (e.lane 1 l)).toNat
def Env.kvEl (e : Env) (l : Nat) : Nat := (e.b.rd (e.x.b.toNat + 1) (e.lane 1 l)).toNat

/-- What lane l asks for: the layer comes from D for `KVW`, from C for the others. -/
def Env.kvArg (e : Env) (k : KvKind) (l : Nat) : KvArg :=
  let base : KvArg :=
    { lane := l, ctx := (e.aPair l).toNat, tenant := e.kvTenant l, pos := e.kvPos l, el := e.kvEl l, layer := (e.c l).toNat,
      high := 0, node := 0, unit := 0, v := decide (e.x.xf 3 1 = 1), width := e.width, desc := none }
  match k with
  | .read => base
  | .write =>
    let w := (e.dOld l).toNat
    { base with layer := w % 4096, high := w / 2 ^ 24, node := w / 4096 % 4096, unit := (e.c l).toNat % 2 ^ (8 * e.width) }
  | .tag => { base with pos := (e.bv l).toNat, el := 0, v := false, width := 4 }

/-- The latched lanes of the instruction where it resumes part way, with the sub-step at which it resumes. A handler may have
written that (R183): a later one than the sub-step reached leaves out the lanes before it; the lanes of sub-steps that have been
performed are latched no more, so an earlier one performs none of them again (DESIGN CHOICE, log 59). -/
def Env.kvPrior (e : Env) : Option (Nat × List KvArg) :=
  (e.b.again e.pc).bind fun l =>
    let k := e.b.resume.getD 0
    let kept (n : Nat) (ls : List KvLane) : List KvArg :=
      (ls.filter fun x => decide (k ≤ x.arg.lane / 8) || decide (x.arg.lane / 8 < n)).map fun x => { x.arg with desc := some (x.desc, x.d) }
    match l.op with
    | .kvw _ ls rest n => some (k, kept n ls ++ rest)
    | .kvr ls rest _ _ _ n => some (k, kept n ls ++ rest)
    | _ => none

/-- The sub-step that a trap of a resumed key-value instruction reports (R379). -/
def Env.kvReached (e : Env) : Option Nat := e.kvPrior.bind fun p => if p.1 = 0 then none else some p.1

/-- The contexts that the live lanes of the beam name (R317). -/
def Env.kvNamed (e : Env) : List (Nat × Nat) :=
  match e.b.again e.pc with
  | some ⟨_, _, _, .kvr _ _ m _ _ _⟩ => m
  | _ => (lanes.filter fun l => maskBit e.b.lvm l).map fun l => (l, (e.aPair l).toNat)

/-- The sub-step at which the instruction begins. -/
def Env.kvFirst (e : Env) : Nat := (e.kvPrior.map (·.1)).getD (e.b.resume.getD 0)

/-- What the lanes of an instruction ask for: as latched where it resumes, the operands of the active lanes otherwise. -/
def Env.kvArgs (e : Env) (k : KvKind) : List KvArg :=
  match e.kvPrior with
  | some p => p.2
  | none => (e.activeLanes.filter fun l => decide (e.b.resume.getD 0 ≤ l / 8)).map (e.kvArg k)

/-- The checks of one lane's operands against its descriptor: `some` cause where one fails (R303, R304). -/
def KvArg.bad (a : KvArg) (k : KvKind) (d : KDesc) : Option Nat :=
  let per := a.width / d.es
  if k = .tag then (if a.layer ≥ d.layers then some cPROT else none)
  else if per ≠ 0 ∧ a.el % per ≠ 0 then some cMISALIGN
  else if a.layer ≥ d.layers ∨ (k = .write ∧ (a.high ≠ 0 ∨ a.pos < d.cmt ∨ a.pos ≥ d.pos)) ∨ per = 0 ∨ a.el + per > d.row then
    some cPROT
  else none

/-- The descriptor reading of a lane, unless it has been made. -/
def State.kvRead1 (s : State) (r : Ref) (T : Team) (a : KvArg) : Except KErr KvArg :=
  match a.desc with
  | some _ => .ok a
  | none =>
    match s.kvDesc (s.laneReq r T a.lane) a.tenant false a.ctx with
    | .error k => .error k
    | .ok x => .ok { a with desc := some x }

/-- The unit's elements, translated. -/
def State.kvEls (s : State) (q : Requester) (d : KDesc) (write : Bool) (vas : List Nat) : Except KErr (List (Nat × PKind)) :=
  vas.mapM fun va => s.kvPa q d.tenant write va

/-- The addresses of a lane's slot in its block: the tag's, then those of the unit's elements. -/
def KDesc.slotVas (d : KDesc) (k : KvKind) (a : KvArg) (blk : Nat) : List Nat :=
  let per := if k = .tag then 0 else a.width / d.es
  d.tagVa blk a.pos :: (List.range per).map fun i => d.elVa blk a.pos (a.el + i) a.v

/-- The physical addresses of the descriptor and of the block table entry that a lane reads for its checks. -/
def State.kvSeen (s : State) (r : Ref) (T : Team) (a : KvArg) : List Nat :=
  let q := s.laneReq r T a.lane
  let ent (d : KDesc) : List Nat := s.kvPas q d.tenant [d.entVa a.layer a.pos]
  match a.desc, s.kvDesc q a.tenant false a.ctx with
  | some x, _ => ent x.2
  | none, .ok x => x.1 :: ent x.2
  | none, .error _ => s.kvPas q a.tenant [a.ctx]

/-- The 64 KiB pages that a lane set aside accesses, where they are known. -/
def State.kvReach (s : State) (r : Ref) (T : Team) (k : KvKind) (a : KvArg) : Option (List Nat) :=
  a.desc.bind fun x =>
    match s.kvBlock (s.laneReq r T a.lane) x.2 a.layer a.pos with
    | .ok (some blk) => some ((x.2.entVa a.layer a.pos :: x.2.slotVas k a blk).map (· / 65536))
    | .ok none => some [x.2.entVa a.layer a.pos / 65536]
    | .error _ => none

/-- Everything a lane needs, from its descriptor reading, its block table entry and its translations. -/
def State.kvLane (s : State) (r : Ref) (T : Team) (k : KvKind) (a : KvArg) (pa : Nat) (d : KDesc) : Except KErr KvLane :=
  let q := s.laneReq r T a.lane
  let base : KvLane :=
    { arg := a, d := d, desc := pa, there := false, tag := 0, tagk := .hbm, els := [],
      gen := (s.func ((s.ownerOf d.tenant).getD (s.funcOf T))).gen, vas := [a.ctx] }
  if a.pos ≥ d.pos then .ok base
  else
    match s.kvBlock q d a.layer a.pos with
    | .error e => .error e
    | .ok none =>
      if k = .write then .error (.trap cPROT a.ctx) else .ok { base with vas := [a.ctx, d.entVa a.layer a.pos] }
    | .ok (some blk) =>
      let vas := d.slotVas k a blk
      match s.kvEls q d (decide (k = .write)) vas with
      | .error e => .error e
      | .ok [] => .ok base
      | .ok (t :: els) =>
        .ok { base with there := true, tag := t.1, tagk := t.2, els := els, vas := a.ctx :: d.entVa a.layer a.pos :: vas }

/-- The translations of the lanes that go ahead are remembered (R124). -/
def State.kvTouch (s : State) (r : Ref) (T : Team) (ls : List KvLane) : State :=
  ls.foldl (fun s k => s.touch (s.laneReq r T k.arg.lane) k.vas) s

/-- The trap that a list of errors raises: `MEMFAULT` before `PROT` (R224). -/
def kvTrap (l : List KErr) : Option (Nat × Nat) :=
  let ts := l.filterMap fun k => match k with | .trap c va => some (c, va) | _ => none
  (ts.find? fun t => decide (t.1 = cMEMFAULT)).or ts.head?

/-- What the checks of a key-value instruction come to: a trap, or the lanes that go ahead and those set aside (R372). -/
inductive KvChecked where
  | trap (cause info : Nat)
  | go (ok : List KvLane) (aside : List (KvArg × KErr))
  deriving DecidableEq, Repr

/-- The errors of a list of lanes, and the results of the others. -/
def kvErrs {α : Type} (l : List (KvArg × Except KErr α)) : List (KvArg × KErr) :=
  l.filterMap fun p => match p.2 with | .error k => some (p.1, k) | .ok _ => none
def kvOks {α : Type} (l : List (KvArg × Except KErr α)) : List α :=
  l.filterMap fun p => match p.2 with | .error _ => none | .ok x => some x

/-- The checks of every lane before any is performed, in the order of R302; a lane that meets a translation fault is set aside. The
lanes that name a context wait together for its one reading (R295). -/
def State.kvChecks (s : State) (r : Ref) (T : Team) (k : KvKind) (l : List KvArg) : KvChecked :=
  let new := l.filter fun a => a.desc.isNone
  match new.find? (fun a => decide (a.ctx % 128 ≠ 0)), new.find? (fun a => decide (a.ctx / 2 ^ 56 ≠ 0)) with
  | some a, _ => .trap cMISALIGN a.ctx
  | none, some a => .trap cMEMFAULT a.ctx
  | none, none =>
    let ds := l.map fun a => (a, s.kvRead1 r T a)
    let off := kvErrs ds
    let apart (a : KvArg) : Bool := a.desc.isNone && off.any fun o => decide (o.1.ctx = a.ctx)
    let late := new.filterMap fun a => (off.find? fun o => decide (o.1.ctx = a.ctx)).map fun o => (a, o.2)
    let on := (kvOks (ds.filter fun p => !apart p.1)).filterMap fun a => a.desc.map fun x => (a, x)
    match kvTrap (off.map (·.2)), on.find? (fun p => decide (p.1.bad k p.2.2 = some cMISALIGN)),
        on.find? (fun p => (p.1.bad k p.2.2).isSome) with
    | some t, _, _ => .trap t.1 t.2
    | none, some p, _ => .trap cMISALIGN p.1.ctx
    | none, none, some p => .trap cPROT p.1.ctx
    | none, none, none =>
      let ls := on.map fun p => (p.1, s.kvLane r T k p.1 p.2.1 p.2.2)
      match kvTrap ((kvErrs ls).map (·.2)) with
      | some t => .trap t.1 t.2
      | none => .go (kvOks ls) (late ++ kvErrs ls)

/-! ### Lanes set aside (R372, R375) -/

def KErr.va (k : KErr) : Nat := match k with | .fault va _ => va | .upgrade va => va | .trap _ va => va
def KErr.write (k : KErr) : Bool := match k with | .fault _ w => w | _ => true
def KErr.upg (k : KErr) : Bool := match k with | .upgrade _ => true | _ => false

/-- The entries that lanes set aside make: one for each page and kind. -/
def kvPages (l : List (KvArg × KErr)) : List (Nat × Bool) := (l.map fun p => (p.2.va / 65536, p.2.upg)).dedup

/-- Lanes set aside enter the operand log, those of one page together. -/
def State.logKv (s : State) (r : Ref) (T : Team) (c : Cast) (inst : Nat) (kind : KvKind) (d : Nat)
    (named : List (Nat × Nat)) (long : Option Long) (l : List (KvArg × KErr)) : State :=
  (kvPages l).foldl (fun s p =>
    let own := l.filter fun x => decide ((x.2.va / 65536, x.2.upg) = p)
    match own with
    | [] => s
    | x :: _ =>
      s.logOne r T c inst x.2.write long p.2 x.2.va []
        (some ⟨kind, d, own.map (·.1), named, own.map fun y => (y.1.lane, s.kvReach r T kind y.1)⟩)) s

/-- What the packets and log entries of a key-value instruction have in common. -/
def kvCast (op : POp) (pend : Option Nat) (slack : Nat) (pc : Dword) : Cast :=
  { op := op, pend := pend, after := none, acq := false, scope := 0, ro := false, sx := false, slack := slack, pc := pc }

/-- A per-lane instruction: nothing with no lane; held as other memory instructions are; its checks; `f` performs the lanes that pass,
and those set aside enter the log as lanes of instruction `inst`, with register `d`. A store whose page is to be upgraded keeps its
beam waiting (R375). The descriptors and block table entries are read after the accesses of the core that are on their way to them
(R135), and nothing passes what an earlier entry of the lane may reach (R140). -/
def Env.kvPer (e : Env) (s : State) (k : KvKind) (f : State → List KvLane → List (KvArg × KErr) → Res) : Res :=
  if e.kvPrior.isNone && !e.anyActive then .done s
  else if s.memHeld e = true ∨ e.ahead s ((e.kvArgs k).flatMap (s.kvSeen e.r e.T)) = true then .hold
  else
    match s.kvChecks e.r e.T k (e.kvArgs k) with
    | .trap c i => .trap c 0 none e.kvReached i
    | .go ok aside =>
      if ok.any (fun k => k.vas.any (s.kvBars e.r k.arg.lane)) then .hold else f (s.kvTouch e.r e.T ok) ok aside

/-- The end of the issue of a per-lane instruction: the lanes set aside. -/
def Env.kvAside (e : Env) (s : State) (inst : Nat) (k : KvKind) (long : Option Long) (l : List (KvArg × KErr)) : Res :=
  let op : POp := if k = .write then .store else .load
  let pend := if k = .write then none else some inst
  let s1 := s.logKv e.r e.T (kvCast op pend (Nat.min 3 (s.readySiblings e.r e.T.coreId).length) e.pc) inst k e.x.d.toNat
    e.kvNamed long l
  if l.any fun p => p.2.upg then .done (e.wait s1 .upgrade) else .done s1

/-- A long key-value instruction begins at its sub-step. -/
def Env.kvBegin (e : Env) (s : State) (op : Long) : State :=
  s.modBeam e.r fun b => { b.atStep e.kvFirst with longs := b.longs ++ [⟨e.pc, e.now, e.now, op⟩] }

/-- The packets of the lanes of one sub-step of a `KVW`: each unit, and its tag. -/
def kvElems (l : List KvLane) : List (PKey × Elem) :=
  l.flatMap fun k =>
    let key (a : Nat) (kd : PKind) : PKey := ⟨none, lineOf a, kd, k.tenant⟩
    (k.els.mapIdx fun i a =>
      (key a.1 a.2, (⟨k.lane, a.1, a.1, k.es, k.unit / 2 ^ (8 * k.es * i) % 2 ^ (8 * k.es), 0, 0, false⟩ : Elem))) ++
    [(key k.tag k.tagk, ⟨k.lane, k.tag, k.tag, 4, (newTag k.d.vgen k.arg.node).toNat, 0, 0, false⟩)]

/-- The sub-step that performs a lane in an instruction that begins at `first`. -/
def KvLane.stepFrom (k : KvLane) (first : Nat) : Nat := Nat.max first (k.lane / 8)

/-- The packets that a `KVW` emits in all its sub-steps. -/
def kvCount (l : List KvLane) (first : Nat) : Nat :=
  ((List.range 5).map fun g => (coalesce (kvElems (l.filter fun k => decide (k.stepFrom first = g)))).length).sum

/-- `KVW`: it waits at issue while its packets do not fit (R147), where a lane set aside will emit five at most; the core's read-only
cache loses the lines at issue (R123). -/
def bodyKvw (e : Env) (s : State) : Res :=
  e.kvPer s .write fun s ok aside =>
    let inst := s.nextId
    let s1 := ({ s with nextId := inst + 1 } : State).roDrop e.T.coreId (ok.flatMap KvLane.lines)
    if e.b.orc.toNat + s.reserved e.r + kvCount ok e.kvFirst + 5 * aside.length > 1024 then .hold
    else e.kvAside (e.kvBegin s1 (.kvw inst ok [] e.kvFirst)) inst .write (some (.kvw inst [] [] 4)) aside

/-! ### Slots and uncorrectable errors (R300, R316, R317) -/

/-- The slot's tag or elements lie on a line with an uncorrectable error. -/
def KvLane.bad (k : KvLane) (s : State) : Bool :=
  k.there && (s.badRange k.tag 4 || k.els.any fun a => s.badRange a.1 k.es)

/-- The KVPOIS record (R316, R429). -/
def State.kvpois (s : State) (func : Nat) (k : KvLane) : State :=
  s.record func 6 (leBytes 8 k.ctx ++ leBytes 4 k.pos ++ leBytes 2 k.layer ++ leBytes 34 0)

/-- A speculative slot with an uncorrectable error: SPOIS, the tag's PSN where it is readable, an event (R300). -/
def State.specPoison (s : State) (func : Nat) (k : KvLane) : State :=
  let w := s.mem.readNat (k.desc + 40) 2
  let s1 := s.homeWrite .hbm (k.desc + 40) (leBytes 2 (w ||| 4096))
  let s2 := if s1.badRange k.tag 4 then s1 else s1.put32 k.tag (s1.mem.readNat k.tag 4 ||| 2 ^ 25)
  s2.kvpois ((s2.ownerOf k.tenant).getD func) k

/-- A number from its bytes at the given addresses of `es` bytes each. -/
def State.kvUnit (s : State) (es : Nat) (els : List (Nat × PKind)) : Nat :=
  match els with
  | [] => 0
  | a :: r => s.mem.readNat a.1 es + 2 ^ (8 * es) * s.kvUnit es r

/-- kvslot of R300: validity, the unit, and what reading it did. -/
def State.kvSlot (s : State) (func : Nat) (k : KvLane) : Bool × Nat × State :=
  if k.there = false then (false, 0, s)
  else if k.bad s then (if k.committed then (false, 0, s) else (false, 0, s.specPoison func k))
  else
    let w := s.mem.readNat k.tag 4
    if k.committed = true ∨ (tagWr w = true ∧ tagGen w = k.d.vgen) then (true, s.kvUnit k.es k.els, s) else (false, 0, s)

/-- A read of a stale generation returns zero and counts in STALE (R371). -/
def State.kvStale (s : State) (func : Nat) (k : KvLane) : Option State :=
  let f := (s.ownerOf k.tenant).getD func
  if k.gen = (s.func f).gen then none else some (s.setFunc f { s.func f with stale := satAdd (s.func f).stale 1 })

/-- The lanes of a list of slots: value and predicate (R304). -/
def State.kvRead (s : State) (func d : Nat) (l : List KvLane) : List (Nat × Word) × State :=
  match l with
  | [] => ([], s)
  | k :: r =>
    let p := match s.kvStale func k with
      | some s1 => (false, 0, s1)
      | none => s.kvSlot func k
    let q := p.2.2.kvRead func d r
    ((regKey d k.lane, BitVec.ofNat 32 p.2.1) :: (regKey (d + 1) k.lane, if p.1 then 1 else 0) :: q.1, q.2)

/-- The raw tag words of lanes (R304); a speculative slot whose tag cannot be read is treated as R300 says, and reads 0. -/
def State.kvReadTags (s : State) (func d : Nat) (l : List KvLane) : List (Nat × Word) × State :=
  match l with
  | [] => ([], s)
  | k :: r =>
    let bad := k.bad s
    let q := (if bad then s.specPoison func k else s).kvReadTags func d r
    ((regKey d k.lane, BitVec.ofNat 32 (if k.there && !bad then s.mem.readNat k.tag 4 else 0)) :: q.1, q.2)

/-- Lanes of a reading instruction are read. -/
def State.kvValues (s : State) (kind : KvKind) (func d : Nat) (l : List KvLane) : List (Nat × Word) × State :=
  if kind = .tag then s.kvReadTags func d l else s.kvRead func d l

/-- A context is killed (R317): DEAD, and a report. -/
def State.kvKill (s : State) (r : Ref) (T : Team) (pc : Dword) (k : KvLane) : State :=
  let w := s.mem.readNat (k.desc + 40) 2
  let s1 := s.homeWrite .hbm (k.desc + 40) (leBytes 2 (w ||| 8192))
  s1.teamReport T 2 cKVPOISON 0 r.b 0 pc.toNat k.ctx

/-- Lanes whose committed slot is POISONED. -/
def State.kvPoison (s : State) (l : List KvLane) : List KvLane := l.filter fun k => k.committed && k.bad s

/-- The contexts of POISONED slots are killed and the lanes that name them exit (R317). -/
def State.kvKills (s : State) (r : Ref) (T : Team) (pc : Dword) (bad : List KvLane) (named : List (Nat × Nat)) : State :=
  let ctxs := (bad.map (·.ctx)).dedup
  let first := ctxs.filterMap fun c => bad.find? fun k => decide (k.ctx = c)
  let s1 := first.foldl (fun s k => s.kvKill r T pc k) s
  s1.clearLanes r (maskOf fun l => named.any fun n => decide (n.1 = l) && ctxs.contains n.2)

/-- R317 for a `KVR` or `KVRT` some of whose committed slots are POISONED at its issue. With a handler the sub-steps before the first
such one are performed and the rest stays latched; without one `rest` goes on with the surviving lanes. -/
def Env.kvPoisoned (e : Env) (s : State) (k : KvKind) (ls : List KvLane) (aside : List (KvArg × KErr))
    (rest : List KvLane → List (KvArg × KErr) → State → Res) : Res :=
  match s.kvPoison ls with
  | [] => rest ls aside s
  | p :: q =>
    if e.b.tvec ≠ 0 then
      let g := (p :: q).foldl (fun g x => Nat.min g (x.stepFrom e.kvFirst)) 4
      let v := s.kvValues k (s.funcOf e.T) e.x.d.toNat (ls.filter fun x => decide (x.stepFrom e.kvFirst < g))
      let s1 := e.pending v.2 (writeNames e.g e.x) v.1 0 0
      let left := ls.filter fun x => decide (g ≤ x.stepFrom e.kvFirst)
      .late (s1.modBeam e.r fun b => { b with
          latched := none
          trapped := some ⟨e.pc, e.now, e.now, .kvr left (aside.map (·.1)) e.kvNamed e.x.d.toNat s.nextId g⟩ })
        cKVPOISON (some g) p.ctx
    else
      let ctxs := (p :: q).map (·.ctx)
      rest (ls.filter fun x => !ctxs.contains x.ctx) (aside.filter fun x => !ctxs.contains x.1.ctx)
        (s.kvKills e.r e.T e.pc (p :: q) e.kvNamed)

/-- `KVR` (R304): a slot found POISONED at issue has been read then, as the sub-steps read theirs. -/
def bodyKvr (e : Env) (s : State) : Res :=
  e.kvPer s .read fun s ok0 aside0 =>
    if s.kvPoison ok0 ≠ [] ∧ e.ahead s (ok0.flatMap KvLane.pas) = true then .hold
    else
      e.kvPoisoned s .read ok0 aside0 fun ok aside s =>
        let inst := s.nextId
        let s1 := e.pending s (writeNames e.g e.x) [] ((Long.kvr ok [] [] 0 0 e.kvFirst).left + (kvPages aside).length) 0
        e.kvAside (e.kvBegin s1 (.kvr ok [] e.kvNamed e.x.d.toNat inst e.kvFirst)) inst .read
          (some (.kvr [] [] e.kvNamed e.x.d.toNat inst 4)) aside

/-- `KVRT` reads the raw tag words, at once. -/
def bodyKvrt (e : Env) (s : State) : Res :=
  e.kvPer s .tag fun s ok0 aside0 =>
    if e.ahead s (ok0.flatMap KvLane.pas) then .hold
    else
      e.kvPoisoned s .tag ok0 aside0 fun ok aside s =>
        let v := s.kvReadTags (s.funcOf e.T) e.x.d.toNat ok
        e.kvAside (e.pending v.2 (writeNames e.g e.x) v.1 (kvPages aside).length (e.now + 1)) s.nextId .tag none aside

/-! ### Staging (R314) -/

def Card.v (c : Card) : Bool := decide (c.ksp % 2 = 1)
def Card.waitf (c : Card) : Bool := decide (c.ksp / 2 % 2 = 1)

def Card.stageOk (c : Card) : Bool :=
  decide (c.kind = 4) && decide (c.resv = 0) && decide (c.nfp = 0) && c.qdst && decide (c.ksp / 4 = 0) && decide (1 ≤ c.len) &&
    decide (c.len ≤ 1024) && decide (c.dst = 0) && decide (c.aux / 2 ^ 44 = 0)

/-- `KVSTAGE`: checks 1 to 3 of R272, an installed queue, and the job. -/
def bodyKvstage (e : Env) (s : State) : Res :=
  let off := e.aLive.toNat
  if s.acquiring e.r = true ∨ e.b.scrReading = true then .hold
  else if off % 64 ≠ 0 then Res.trapOwn cMISALIGN
  else if off + 64 > s.scrBytes e.T then Res.trapOwn cPROT
  else if e.T.badScratch off 64 then Res.trapOwn cPOISONOWN
  else
    let c := cardAt e.T.scratch off
    if c.stageOk = false then Res.trapOwn cILLEGAL
    else if c.q ≥ s.nqOf e.T ∨ (e.T.queue c.q).inst = false then Res.trapOwn cPROT
    else if s.jobsFull e.r.t then .hold
    else .done (e.issueJob (e.cardRead s) (e.job (e.cardRead s) (.stage c.v c.waitf c.len (c.aux % 2 ^ 32) (c.aux / 2 ^ 32 % 4096)) c []))

def execKvrsv (x : Ext) (s : State) := Issue.ext 0x220 x bodyKvrsv s
def execKvw (x : Ext) (s : State) := Issue.ext 0x221 x bodyKvw s
def execKvr (x : Ext) (s : State) := Issue.ext 0x222 x bodyKvr s
def execKvrt (x : Ext) (s : State) := Issue.ext 0x223 x bodyKvrt s
def execKvpub (x : Ext) (s : State) := Issue.ext 0x224 x bodyKvpub s
def execKvacq (x : Ext) (s : State) := Issue.ext 0x225 x bodyKvacq s
def execKvwait (x : Ext) (s : State) := Issue.ext 0x226 x bodyKvwait s
def execKvcmt (x : Ext) (s : State) := Issue.ext 0x227 x bodyKvcmt s
def execKvroll (x : Ext) (s : State) := Issue.ext 0x228 x bodyKvroll s
def execKvgen (x : Ext) (s : State) := Issue.ext 0x229 x bodyKvgen s
def execKvstage (x : Ext) (s : State) := Issue.ext 0x22A x bodyKvstage s

/-! ### Sub-steps (R305) -/

/-- The packets carry the place of their instruction in program order and the generation under which it was translated (R371). -/
def State.kvPackets (s : State) (r : Ref) (T : Team) (pc : Dword) (at_ : Nat) (l : List KvLane) : List Packet :=
  let c := kvCast .store none (Nat.min 3 (s.readySiblings r T.coreId).length) pc
  (coalesce (kvElems l)).mapIdx fun i e =>
    let p := s.mkPacket r T c (s.nextId + i) e.1 e.2
    { p with sentAt := at_, gen := (l.find? fun k => decide (k.tenant = e.1.tenant)).elim p.gen (·.gen) }

/-- A beam's running `KVW`, `KVR` or `GATJ`, the first issued first. -/
def Beam.kvLong (b : Beam) : Option LongRun :=
  b.longs.find? fun l =>
    match l.op with | .kvw _ _ _ _ => true | .kvr _ _ _ _ _ _ => true | .gatj _ _ _ _ _ _ _ => true | _ => false

/-- The next sub-step of a running instruction, shown in `%pix`; none after the last. -/
def Beam.kvNext (b : Beam) (l : LongRun) (op : Long) : Beam :=
  if op.step < 4 then (b.atStep op.step).setLong l (some op) else b.setLong l none

/-- The lanes of a `KVR` that sub-step g reads, once none of them is POISONED. -/
def State.kvReadStep (s : State) (r : Ref) (T : Team) (l : LongRun) (own rest : List KvLane) (m : List (Nat × Nat))
    (d pend g : Nat) : State :=
  let p := s.kvRead (s.funcOf T) d own
  p.2.modBeam r fun b => (b.pendAdd pend p.1 1).kvNext l (.kvr rest [] m d pend (g + 1))

/-- A sub-step of a beam's running `KVW` or `KVR`, or of its `GATJ` (R273). No rule gives its cycle. A slot found POISONED only now stops a
`KVR` there (R317). -/
def execKvSubstep (t b : Nat) (s : State) : Host.Outcome State Fault Refusal :=
  let r : Ref := ⟨t, b⟩
  match s.team? t, s.beam? r with
  | some T, some B =>
    match B.kvLong with
    | none => .next s
    | some l =>
      if B.held l s.clock then .next s
      else
      match l.op with
      | .kvw i ls rest g =>
        let ps := s.kvPackets r T l.pc l.at_ (ls.filter fun k => decide (k.lane / 8 ≤ g))
        if B.orc.toNat + ps.length > 1024 then .next s
        else
          let s1 := ({ s with nextId := s.nextId + ps.length }).inject r ps
          .next (s1.modBeam r fun b => b.kvNext l (.kvw i (ls.filter fun k => decide (g < k.lane / 8)) rest (g + 1)))
      | .kvr ls _ m d pend g =>
        let own := ls.filter fun k => decide (k.lane / 8 ≤ g)
        let rest := ls.filter fun k => decide (g < k.lane / 8)
        if s.ahead r T.coreId l.at_ (own.flatMap KvLane.pas) then .next s
        else
          match s.kvPoison own with
          | [] => .next (s.kvReadStep r T l own rest m d pend g)
          | p :: q =>
            if B.tvec ≠ 0 then .next (s.stopAccess r pend none l.pc l.at_ (some pend) cKVPOISON 0 p.ctx)
            else
              let ctxs := (p :: q).map (·.ctx)
              let live (k : KvLane) : Bool := !ctxs.contains k.ctx
              .next ((s.kvKills r T l.pc (p :: q) m).kvReadStep r T l (own.filter live) (rest.filter live) m d pend g)
      | .gatj j idx rowb entries d pend n => .next (s.gatherStep r T l j idx rowb entries d pend n)
      | _ => .next s
  | _, _ => .next s

/-! ### Lanes replayed (R372, R373) -/

/-- The lanes of an entry that have passed the checks again are performed in the place of their instruction: `new` lanes have met
another page. -/
def State.kvPerform (s : State) (g : LogEntry) (f : KvFault) (T : Team) (ok : List KvLane) (new : List (KvArg × KErr)) : State :=
  let r := g.packet.src
  let s := s.kvTouch r T ok
  let ps := if f.kind = .write then s.kvPackets r T g.packet.pc g.packet.sentAt ok else []
  let s1 := ({ s with nextId := s.nextId + ps.length } : State).inject r ps
  let v := if f.kind = .write then ([], s1.roDrop T.coreId (ok.flatMap KvLane.lines)) else s1.kvValues f.kind (s.funcOf T) f.d ok
  let more (q : Pend) : Pend :=
    if g.packet.pend = some q.id then { q with vals := q.vals ++ v.1, wait := q.wait + (kvPages new).length - 1 } else q
  let s2 := v.2.modBeam r fun b => { b with pends := b.pends.map more }
  let s3 := s2.logKv r T (kvCast g.packet.op g.packet.pend g.packet.slack g.packet.pc) g.inst f.kind f.d f.named g.long new
  ((s3.logSentAt r g.inst g.packet.sentAt).modBeam r fun b =>
    { b with status := if new.any (fun p => p.2.upg) then .upgrade else b.status }).unstall r

/-- The lanes of a key-value instruction in an entry are tried again: `fail` ends the instruction with a trap. -/
def State.kvReplay (s : State) (g : LogEntry) (f : KvFault) (T : Team) (b : Beam) (fail : Nat → State) : State :=
  let r := g.packet.src
  let s0 := s.dropLog fun h => decide (h.id = g.id)
  let bare := { s0 with net := { s0.net with log := s0.net.log.filter fun h => decide (h.inst < g.inst) } }
  if s.ahead r T.coreId g.packet.sentAt (f.args.flatMap (bare.kvSeen r T)) then s
  else
  match bare.kvChecks r T f.kind f.args with
  | .trap c _ => fail c
  | .go ok new =>
    if new.any fun p => decide (p.2.va / 65536 = g.va / 65536) && !p.2.upg then fail cMEMFAULT
    else if f.kind ≠ .write ∧ s.ahead r T.coreId g.packet.sentAt (ok.flatMap KvLane.pas) = true then s
    else
      match (if f.kind = .write then [] else s.kvPoison ok) with
      | [] => s0.kvPerform g f T ok new
      | p :: q =>
        if b.tvec ≠ 0 then s.stopAccess r g.inst g.long g.packet.pc g.packet.sentAt g.packet.pend cKVPOISON 0 p.ctx
        else
          let ctxs := (p :: q).map (·.ctx)
          (s0.kvKills r T g.packet.pc (p :: q) f.named).kvPerform g f T (ok.filter fun k => !ctxs.contains k.ctx)
            (new.filter fun a => !ctxs.contains a.1.ctx)

end Sys2Proof.Machine
end

