-- ==== Sys2Proof/Machine/Func.lean ====
section
/-! DEFINITION. Functions and partitions: their registers' rules (R361 to R364), shootdown (R370), the reset of a function
(R114, R377, R378) and token budgets (R353 to R356). -/

namespace Sys2Proof.Machine

/-! ### Grids and teams of a function or partition -/

/-- A grid of function f is running. -/
def State.runsGrid (s : State) (f : Nat) : Bool := s.grids.any fun e => decide (e.2.func = f)

/-- The partition's teams that hold a core. -/
def State.heldIn (s : State) (p : Nat) : List (Nat × Team) :=
  s.teams.filter fun e => e.2.core?.isSome && decide (s.partOf e.2 = p)

def State.setPart (s : State) (p : Nat) (P : Part) : State :=
  { s with regs := { s.regs with parts := aset s.regs.parts p P } }

/-- A PBLK write (R361): stored only with no resident team, and no block of another partition. -/
def State.writePblk (s : State) (p : Nat) (v : Word) : State :=
  let clash := (List.range 12).any fun q => decide (q ≠ p) && decide ((s.part q).pblk &&& v ≠ 0)
  if clash = true ∨ s.heldIn p ≠ [] then s else s.setPart p { s.part p with pblk := v }

/-- A PWAY write: not stored when its mask is 0. -/
def State.writePway (s : State) (p : Nat) (v : Word) : State :=
  if v.extractLsb' 0 16 = 0 then s else s.setPart p { s.part p with pway := v.extractLsb' 0 16 }

def State.writePrbase (s : State) (p r : Nat) (v : Word) : State :=
  s.setPart p { s.part p with base := sset 0 (s.part p).base r (v.extractLsb' 0 22) }

def State.writePrlim (s : State) (p r : Nat) (v : Word) : State :=
  s.setPart p { s.part p with lim := sset 0 (s.part p).lim r (v.extractLsb' 0 22) }

/-! ### Translations removed (R369, R370) -/

/-- Removes the cached translations that satisfy `p`. -/
def State.tlbDrop (s : State) (p : TlbEntry → Bool) : State :=
  { s with net := { s.net with tlb := s.net.tlb.filter fun e => !p e } }

/-- A cached translation of f overlaps a range of virtual addresses. -/
def TlbEntry.overlaps (e : TlbEntry) (f va len : Nat) : Bool :=
  let lo := e.page * 2 ^ pageBits e.leaf.level
  decide (e.func = f) && decide (lo < va + len) && decide (va < lo + 2 ^ pageBits e.leaf.level)

/-- Removes every cached translation of a range of f's space. -/
def State.dropRange (s : State) (f va len : Nat) : State := s.tlbDrop fun e => e.overlaps f va len

/-- Removes every cached translation tagged with a tenant. -/
def State.dropTenant (s : State) (t : BitVec 16) : State := s.tlbDrop fun e => decide (e.leaf.tenant = t)

/-- The function whose table translated a watched address. -/
def State.watchSpace (s : State) (w : Watch) : Nat :=
  match w.who with
  | .beam r _ => (s.team? r.t).elim 0 s.funcOf
  | .node r _ => (aget s.work.replays r).elim 0 (·.func)

/-- The translation of a held watch is among those removed: its address is in the range, or it is that of a translation removed. -/
def State.watchCut (s : State) (p : TlbEntry → Bool) (inside : Nat → Nat → Bool) (w : Watch) : Bool :=
  let f := s.watchSpace w
  inside f w.va || s.net.tlb.any fun e => p e && decide (e.func = f) && decide (e.page = w.va >>> pageBits e.leaf.level)

/-- The removal of a shootdown of the given mode that is in progress and has not removed anything yet: the cached translations that
satisfy `p` go; watches held under a removed translation are accesses that it waits for. -/
def State.shoot (s : State) (mode : Nat) (f : BitVec 6) (p : TlbEntry → Bool) (inside : Watch → Nat → Nat → Bool) : State :=
  let g := s.regs
  if g.sdBusy = true ∧ g.sdMode.toNat = mode ∧ g.sdFunc = f ∧ g.sdMark = none then
    let mark (w : Watch) : Watch := { w with cut := s.watchCut p (inside w) w }
    { s with
      net := { s.net with tlb := s.net.tlb.filter fun e => !p e, watches := s.net.watches.map mark }
      regs := { g with sdMark := some s.nextId } }
  else s

/-- A shootdown of a range of f's space (mode 0). -/
def execShootdownRange (f : BitVec 6) (s : State) : Host.Outcome State Fault Refusal :=
  let lo := s.regs.sdVa.toNat
  let n := 65536 * s.regs.sdLen.toNat
  .next (s.shoot 0 f (fun e => e.overlaps f.toNat lo n) fun _ g va => decide (g = f.toNat) && decide (lo ≤ va) && decide (va < lo + n))

/-- A shootdown of all of f's space (mode 1). -/
def execShootdownSpace (f : BitVec 6) (s : State) : Host.Outcome State Fault Refusal :=
  .next (s.shoot 1 f (fun e => decide (e.func = f.toNat)) fun _ g _ => decide (g = f.toNat))

/-- A shootdown of every translation tagged with f's tag (mode 2). -/
def execShootdownTenant (f : BitVec 6) (s : State) : Host.Outcome State Fault Refusal :=
  .next (s.shoot 2 f (fun e => decide (e.leaf.tenant = (s.func f.toNat).ftag)) fun w _ _ => decide (w.func = f.toNat))

/-- A running long instruction holds translations that it made before identifier `n`. -/
def Long.before (o : Long) (n : Nat) : Bool :=
  match o with
  | .coal _ gs _ k => (gs.drop k).flatten.any fun p => decide (p.id < n)
  | .kvw i _ _ _ => decide (i < n)
  | .kvr _ _ _ _ i _ => decide (i < n)
  | _ => false

/-- Every access that was on its way when the translations were removed has been performed or dropped. -/
def State.drainedBefore (s : State) (n : Nat) : Bool :=
  (s.net.packets.all fun p => decide (p.id ≥ n)) && (s.net.remotes.all fun r => decide (r.packet.id ≥ n)) &&
    (s.net.watches.all fun w => !w.cut) && s.teams.all fun e => e.2.beams.all fun b => b.longs.all fun l => !l.op.before n

/-- BUSY clears (R370). -/
def execShootdownDone (s : State) : Host.Outcome State Fault Refusal :=
  match s.regs.sdMark with
  | none => .next s
  | some n =>
    if s.regs.sdBusy = true ∧ s.drainedBefore n = true then
      .next { s with regs := { s.regs with sdBusy := false, sdMark := none } }
    else .next s

/-- A write of SDCTL: GO is ignored while BUSY, and MODE 3 starts nothing. -/
def State.writeSdctl (s : State) (v : Word) : State :=
  let g := s.regs
  if g.sdBusy then { s with regs := { g with sdMode := v.extractLsb' 18 2, sdFunc := v.extractLsb' 12 6 } }
  else { s with regs := { g with sdMode := v.extractLsb' 18 2, sdFunc := v.extractLsb' 12 6,
                                 sdBusy := v.getLsbD 0 && decide (v.extractLsb' 18 2 ≠ 3), sdMark := none } }

/-! ### Forced exit (R114, R377) -/

/-- Lanes of a beam whose tenant is t. -/
def Beam.lanesOf (b : Beam) (t : BitVec 16) : Word := maskOf fun l => decide (sget 0 b.tenant l = t)

/-- Every lane of tenant t exits, in every beam of every team. -/
def State.forceExit (s : State) (t : BitVec 16) : State :=
  let refs := s.teams.flatMap fun e => e.2.beams.mapIdx fun i _ => (⟨e.1, i⟩ : Ref)
  refs.foldl (fun s r => match s.beam? r with
    | none => s
    | some b => if b.lanesOf t &&& b.lvm = 0 then s else s.clearLanes r (b.lanesOf t)) s

/-- The end of a log entry whose lanes have all exited: its result counts as received, and what its beam waited for with it is over; a
watch answers 0, as a dropped load does (R371; DESIGN CHOICE, log 77). -/
def State.emptied (s : State) (g : LogEntry) : State :=
  let r := g.packet.src
  match g.packet.op, g.packet.pend with
  | .watch, some p => s.watchReply r p 0
  | _, some p => (s.modBeam r fun b => b.pendAdd p [] 1).unstall r
  | _, none => s.unstall r

/-- One log entry after its exited lanes are discarded; one left with no lane goes. That of a fetch goes with the last lane of its
beam. -/
def State.trimEntry (s : State) (t : BitVec 16) (g : LogEntry) : State :=
  match s.beam? g.packet.src with
  | none => s
  | some b =>
    let live (n : Nat) : Bool := decide (sget 0 b.tenant n ≠ t)
    if g.packet.job.isSome = true then s
    else if g.retry then
      (if b.lvm = 0 then
        ({ s with net := { s.net with log := s.net.log.filter fun h => decide (h.id ≠ g.id) } }).setBeam g.packet.src { b with status := .ready }
      else s)
    else
      let rest := g.packet.elems.filter fun x => live x.lane
      let args := g.args.filter fun x => live x.lane
      let put (h : LogEntry) : List LogEntry :=
        if h.id = g.id then
          (if rest = [] ∧ args = [] then []
           else [{ h with packet := { h.packet with elems := rest }, kv := h.kv.map fun k => { k with args := args } }])
        else [h]
      let s1 := { s with net := { s.net with log := s.net.log.flatMap put } }
      if rest = [] ∧ args = [] then s1.emptied g else s1

/-- A long instruction without the packets and lanes of tenant t that it has not sent; `live` tells the lanes of other tenants. The
job of a `GATJ` that carries t is cancelled. -/
def Long.trim (o : Long) (t : BitVec 16) (live : Nat → Bool) : Long :=
  match o with
  | .coal i gs rest n =>
    .coal i (gs.take n ++ (gs.drop n).map fun g => g.filter fun p => decide (p.tenant ≠ t)) (rest.filter fun x => live x.lane) n
  | .kvw i ls rest n => .kvw i (ls.filter fun k => decide (k.tenant ≠ t)) (rest.filter fun a => decide (a.tenant ≠ t)) n
  | .kvr ls rest m d p n => .kvr ls (rest.filter fun a => decide (a.tenant ≠ t)) m d p n
  | .gatj j i r k d p n => .gatj (if j.tenant = t then j.cancel else j) i r k d p n
  | o => o

/-- Packets of tenant t still in a coalescer are discarded unsent, and acknowledged: a load of them counts as received. -/
def Beam.trimCoal (b : Beam) (t : BitVec 16) : Beam :=
  let cut (l : LongRun) : LongRun := { l with op := l.op.trim t fun n => decide (sget 0 b.tenant n ≠ t) }
  let gone := b.unsent.filter fun p => decide (p.tenant = t)
  gone.foldl (fun b p => match p.pend with | some i => b.pendAdd i [] 1 | none => b)
    { b with longs := b.longs.map cut, latched := b.latched.map cut, trapped := b.trapped.map cut }

/-- Jobs and board requests that carry t are cancelled. -/
def State.cancelTenant (s : State) (t : BitVec 16) : State :=
  let cut (e : Nat × Board) : Nat × Board :=
    if e.2.tenant = t then (e.1, { e.2 with tiles := [], back := .gone }) else e
  let keep (e : Nat × Board) : Bool :=
    decide (e.2.tiles ≠ []) || decide (e.2.captured ≠ []) || decide (e.2.drop ≠ [])
  { s with
    jobs := s.jobs.map fun (j : Job) => if j.tenant = t then j.cancel else j
    teams := s.teams.map fun e => (e.1, { e.2 with
      boards := (e.2.boards.map cut).filter keep, beams := e.2.beams.map fun b => b.trimCoal t }) }

/-- A held context operation for a lane of tenant t is dropped: a publish is acknowledged, a wait answers 0. -/
def Beam.kvDropped (b : Beam) (t : BitVec 16) (now : Nat) : Beam :=
  match b.status with
  | .kvpub _ _ _ _ _ u => if u = t then ({ b with orc := b.orc - 1 } : Beam).awake now else b
  | .kvwait _ _ _ d p u => if u = t then (b.pendAdd p (allLanes d 0) 1).awake now else b
  | _ => b

/-- A held context operation acts for a lane of tenant t. -/
def Status.heldFor (w : Status) (t : BitVec 16) : Bool :=
  match w with
  | .kvpub _ _ _ _ _ u => decide (u = t)
  | .kvwait _ _ _ _ _ u => decide (u = t)
  | _ => false

/-- Watches and context operations held under function f's old generation are dropped: a beam's watch answers 0; each counts in STALE
(R371, R378; DESIGN CHOICE, log 77). -/
def State.dropHeld (s : State) (f : Nat) (t : BitVec 16) : State :=
  let mine := s.net.watches.filter fun w => decide (w.func = f)
  let held := s.teams.flatMap fun e => e.2.beams.filter fun b => b.status.heldFor t
  let F := s.func f
  let s1 := ({ s with
    net := { s.net with watches := s.net.watches.filter fun w => decide (w.func ≠ f) }
    teams := s.teams.map fun (e : Nat × Team) => (e.1, { e.2 with beams := e.2.beams.map fun b => Beam.kvDropped b t s.clock }) }).setFunc f
    { F with stale := satAdd F.stale (mine.length + held.length) }
  mine.foldl (fun s w => match w.who with | .beam r p => s.watchReply r p 0 | .node _ _ => s) s1

/-- Steps 1 to 6 of R377. -/
def State.fcfgRst (s : State) (f : Nat) : State :=
  let F := s.func f
  if F.state ≠ .run then s
  else
    let t := F.ftag
    let s1 := s.setFunc f { F with state := .reset, gen := F.gen + 1, slots := [] }
    let rs := (s1.work.replays.filter fun e => decide (e.2.func = f)).map (·.1)
    let s2 := rs.foldl (fun s r => s.failReplay r 9 0xFFFF) s1
    let s3 := s2.forceExit t
    let s4 := s3.net.log.foldl (fun s g => s.trimEntry t g) s3
    ((s4.cancelTenant t).dropHeld f t).dropTenant t

def execFcfgRst (f : Nat) (s : State) : Host.Outcome State Fault Refusal := .next (s.fcfgRst f)

/-- Posts a completion of f's mailbox (R396). -/
def State.complete (s : State) (f : Nat) (tag : BitVec 16) (status : Nat) (value : Nat) : State :=
  let F := s.func f
  let n := 2 ^ F.log2n.toNat
  let i := F.mbctail.toNat
  let bytes := leBytes 2 tag.toNat ++ leBytes 1 status ++ leBytes 1 (if i / n % 2 = 0 then 1 else 0) ++ leBytes 4 0 ++
    leBytes 8 value
  let s1 := s.hostPut (F.mbcpb.toNat + 16 * (i % n)) bytes
  let s2 := s1.setFunc f { F with mbctail := F.mbctail + 1, cmd := none }
  if F.irqen then s2.sendMsix f F.irqv.toNat else s2

/-- Step 7: every access of the old generation has been performed or dropped. -/
def execResetDrained (f : Nat) (s : State) : Host.Outcome State Fault Refusal :=
  let F := s.func f
  let old (p : Packet) : Bool := decide (p.func = f) && decide (p.gen ≠ F.gen)
  let kvOld (l : LongRun) : Bool :=
    match l.op with | .kvr ls _ _ _ _ _ => ls.any fun k => decide (k.tenant = F.ftag) && decide (k.gen ≠ F.gen) | _ => false
  if F.state = .reset ∧ (s.net.packets.any old) = false ∧ (s.teams.any fun e => e.2.beams.any fun b => b.longs.any kvOld) = false ∧
      (s.net.remotes.any fun r => old r.packet) = false ∧
      (s.jobs.any fun j => decide (j.tenant = F.ftag)) = false then
    let s1 := s.setFunc f { F with state := .drained, resetTag := [] }
    .next (F.resetTag.foldl (fun s p => s.complete p.1 p.2 0 0) s1)
  else .next s

/-- Another function in RUN has this tag (R364). -/
def State.tagUsed (s : State) (f : Nat) (t : BitVec 16) : Bool :=
  s.regs.funcs.any fun e => decide (e.1 ≠ f) && decide (e.2.state = .run) && decide (e.2.ftag = t)

/-- REL is written in DRAINED. A function whose tag another one in RUN has does not move to RUN (DESIGN CHOICE, log 67). -/
def State.fcfgRel (s : State) (f : Nat) : State :=
  let F := s.func f
  if F.state = .drained ∧ s.tagUsed f F.ftag = false then s.setFunc f { F with state := .run } else s

def execFcfgRel (f : Nat) (s : State) : Host.Outcome State Fault Refusal := .next (s.fcfgRel f)

/-- A write of FCFG (R363). -/
def State.writeFcfg (s : State) (f : Nat) (v : Word) : State :=
  let F := s.func f
  let F1 := { F with tar := v.getLsbD 9, tpri := v.extractLsb' 4 2 }
  let F2 :=
    if s.runsGrid f then F1
    else { F1 with
      cmode := v.getLsbD 8
      cap := if v.extractLsb' 6 2 = 3 then F1.cap else v.extractLsb' 6 2
      part := if (v.extractLsb' 0 4).toNat ≥ 12 then F1.part else v.extractLsb' 0 4 }
  let s1 := s.setFunc f F2
  let s2 := if v.getLsbD 13 then s1.fcfgRst f else s1
  if v.getLsbD 12 then s2.fcfgRel f else s2

/-- FTAG: unique among functions in RUN (R364). -/
def State.writeFtag (s : State) (f : Nat) (v : Word) : State :=
  let t := v.extractLsb' 0 16
  if s.tagUsed f t = true ∨ s.runsGrid f = true then s else s.setFunc f { s.func f with ftag := t }

def State.writeAsroot (s : State) (f : Nat) (v : Dword) : State :=
  if s.runsGrid f = true ∨ v.toNat % 8192 ≠ 0 ∨ inHbm v.toNat = false then s
  else s.setFunc f { s.func f with asroot := v }

def State.writePeert (s : State) (f : Nat) (v : Dword) : State :=
  if s.runsGrid f = true ∨ v.toNat % 128 ≠ 0 then s else s.setFunc f { s.func f with peert := v }

def State.writeFtmo (s : State) (f : Nat) (v : Word) : State :=
  if 1 ≤ v.toNat ∧ v.toNat ≤ 1000000 then s.setFunc f { s.func f with ftmo := v } else s

/-- The value of FCFG. -/
def Func.fcfg (F : Func) : Word :=
  let st := match F.state with | .off => 0 | .run => 1 | .reset => 2 | .drained => 3
  BitVec.ofNat 32 (st * 2 ^ 14 + (if F.tar then 2 ^ 9 else 0) + (if F.cmode then 2 ^ 8 else 0) + F.cap.toNat * 64 +
    F.tpri.toNat * 16 + F.part.toNat)

/-! ### Budgets (R353 to R356) -/

def Func.metered (F : Func) : Bool := decide (F.refill ≠ 0xFFFFFFFF)

/-- A charge to a function. -/
def State.charge (s : State) (f n : Nat) : State :=
  let F := s.func f
  if F.metered then s.setFunc f { F with bal := F.bal - n } else s

/-- Dispatch is allowed (R355). -/
def State.mayDispatch (s : State) (f : Nat) : Bool := !(s.func f).metered || decide ((s.func f).bal > 0)

/-- Register granules of a launch (R101). -/
def Launch.granules (l : Launch) : Nat := l.np * (if l.np = 0 then 0 else l.preg + 1) + l.nc * (if l.nc = 0 then 0 else l.creg + 1)

/-- Pool granules of a team (R101). -/
def Launch.pool4 (l : Launch) : Nat := l.granules + poolScr l.pool + 2 * poolAcc l.pool

/-- Every resident team charges one microsecond of its granules (R354). -/
def State.chargeAll (s : State) : State :=
  s.teams.foldl (fun s e => match e.2.core?, s.grid? e.2.grid with
    | some _, some g => s.charge g.func g.launch.pool4
    | _, _ => s) s

/-- A write of REFILL (R353). -/
def State.writeRefill (s : State) (f : Nat) (v : Word) : State :=
  let F := s.func f
  s.setFunc f { F with refill := v, bal := (Nat.min v.toNat F.bcap.toNat : Nat), debt := 0 }

def execRefillWrite (f : Nat) (v : Word) (s : State) : Host.Outcome State Fault Refusal := .next (s.writeRefill f v)

/-- Adds to the pool, up to PCAP. -/
def Regs.poolAdd (g : Regs) (n : Nat) : Regs := { g with pool := Nat.min (g.pool + n) g.pcap.toNat }

/-- Pass 1 of R356 for one function. -/
def State.refillOne (s : State) (f : Nat) : State :=
  let F := s.func f
  if F.metered then
    let pay := Nat.min F.debt (F.refill.toNat / 2)
    let bal := F.bal + (F.refill.toNat - pay : Nat)
    let cap : Int := F.bcap.toNat
    let s1 := { s with regs := (s.regs.poolAdd pay).poolAdd (if bal > cap then (bal - cap).toNat else 0) }
    s1.setFunc f { F with debt := F.debt - pay, bal := min bal cap }
  else s

/-! ### Nodes (R344, R346) -/

def Node.kind (N : Node) : Nat := natAt N.bytes 0 1
def Node.ndep (N : Node) : Nat := natAt N.bytes 1 1
def Node.pnode (N : Node) : Nat := natAt N.bytes 2 1
def Node.npatch (N : Node) : Nat := natAt N.bytes 3 1
def Node.body (N : Node) : List Byte := N.bytes.drop 64

/-- The nodes that a node depends on. -/
def Node.deps (N : Node) : List Nat := (List.range (Nat.min 8 N.ndep)).map fun i => natAt N.bytes (8 + 2 * i) 2

/-- A node may start: the replay runs without a failure, and what it names has completed. -/
def Replay.ready (R : Replay) (n : Nat) (N : Node) : Bool :=
  R.started && decide (R.code ≤ 1) && decide (N.state = .waiting) &&
    N.deps.all fun i => decide (n ≤ i) || (match aget R.nodes i with | none => true | some M => decide (M.state = .complete))

/-- The function has a queued replay, an unplaced team or a ready JOB node (R356). -/
def State.wantsWork (s : State) (f : Nat) : Bool :=
  (s.work.replays.any fun e => decide (e.2.func = f) &&
    (!e.2.started || e.2.nodes.any fun n => e.2.ready n.1 n.2 && decide (n.2.kind = 2))) ||
    s.grids.any fun e => decide (e.2.func = f) && decide (e.2.next < e.2.launch.gx * e.2.launch.gy * e.2.launch.gz)

/-- Pass 2 of R356 for one function. -/
def State.loanOne (s : State) (f : Nat) : State :=
  let F := s.func f
  if F.metered = true ∧ F.bal ≤ 0 ∧ s.wantsWork f = true then
    let n := Nat.min (Nat.min s.regs.pool F.loan.toNat) (F.dmax.toNat - F.debt)
    ({ s with regs := { s.regs with pool := s.regs.pool - n } }).setFunc f { F with bal := F.bal + n, debt := F.debt + n }
  else s

/-- The scheduler closes a period. -/
def execBudgetPeriod (s : State) : Host.Outcome State Fault Refusal :=
  .next ((List.range 64).foldl State.loanOne ((List.range 64).foldl State.refillOne s))

end Sys2Proof.Machine
end

