-- ==== Sys2Proof/Machine/Wake.lean ====
section
/-! DEFINITION. Events of beams: landing results (R83, R84), sub-steps of long instructions (R90, R226), wakes (R109, R171 to
R174, R381), the stop of a halted beam (R381), and telemetry (R79 to R81). -/

namespace Sys2Proof.Machine

/-! ### Results -/

/-- The oldest pending fixed-latency result of a beam lands in its ready cycle (R83, R86). -/
def Beam.landHead (b : Beam) (now : Nat) : Beam :=
  match b.fix with
  | [] => b
  | f :: r => if f.ready ≤ now then ({ b.landOne f with fix := r } : Beam).regionBegin now else b

/-- The lanes whose `%tenant` the oldest pending effect of a beam writes, if it is due. -/
def Beam.headTenants (b : Beam) (now : Nat) : List Nat := tenantLanes (b.fix.take 1) now

def execFixedResultLand (t b : Nat) (s : State) : Host.Outcome State Fault Refusal :=
  let r : Ref := ⟨t, b⟩
  .next ((s.modBeam r fun B => B.landHead s.clock).dropPages r ((s.beam? r).elim [] fun B => B.headTenants s.clock))

/-- A running `REGION`: base, the sub-step it was issued at, the one from which it runs, the cycle in which it started. -/
def Beam.regionStep (b : Beam) : Option (LongRun × Nat × Nat × Nat × Option Nat) :=
  b.longs.findSome? fun l => match l.op with | .region v f n st => some (l, v, f, n, st) | _ => none

/-- A result that has arrived whole is written, after the fixed-latency results that are due, and its mark is cleared
(R84). -/
def Beam.writePend (b : Beam) (now k : Nat) : Beam :=
  match b.pends[k]? with
  | none => b
  | some p =>
    if p.wait = 0 ∧ p.ready ≤ now then (((b.land now).wrAll p.vals).pendDrop p.id).regionBegin now else b

/-- The acknowledgements that a result's replies follow have been delivered (R135). -/
def State.repliesIn (s : State) (b : Beam) (k : Nat) : Bool :=
  (b.pends[k]?).all fun p => s.net.acks.all fun a => !p.after.contains a.id

def execVariableResultWrite (t b k : Nat) (s : State) : Host.Outcome State Fault Refusal :=
  .next (s.modBeam ⟨t, b⟩ fun B => if s.repliesIn B k then B.writePend s.clock k else B)

/-! ### `REGION` (R90) -/

/-- Keys of registers lo to hi - 1 taken from `w`, the others from `m`. -/
def takeRegs (m w : List (Nat × Word)) (lo hi : Nat) : List (Nat × Word) :=
  (m.filter fun e => decide (e.1 < 32 * lo)) ++ (w.filter fun e => decide (32 * lo ≤ e.1) && decide (e.1 < 32 * hi)) ++
    m.filter fun e => decide (32 * hi ≤ e.1)

/-- Writes back the dirty groups of the window from group `n` on. -/
def Beam.writeBack (b : Beam) (n : Nat) : Beam :=
  let put (m : List (Nat × Word)) (g : Nat) : List (Nat × Word) :=
    if n ≤ g ∧ b.dirty.getLsbD g = true then takeRegs m b.win (b.wb.toNat + 32 * g) (b.wb.toNat + 32 * g + 32) else m
  { b with main := (List.range 4).foldl put b.main, dirty := 0 }

/-- The window slot's group g, named from base v. -/
def Beam.slotGroup (b : Beam) (v g : Nat) : List (Nat × Word) :=
  (b.win.filter fun e => decide (32 * (b.wb.toNat + 32 * g) ≤ e.1) && decide (e.1 < 32 * (b.wb.toNat + 32 * g + 32))).map
    fun e => (e.1 + 32 * v - 32 * b.wb.toNat, e.2)

/-- Moves the window to base `v`: its groups from `n` on are copied from the main file; where the instruction was issued past a
group's copy, the slot keeps what it holds. -/
def Beam.fillWindow (b : Beam) (v n : Nat) : Beam :=
  let group (g : Nat) : List (Nat × Word) :=
    if n ≤ g then b.main.filter fun e => decide (32 * (v + 32 * g) ≤ e.1) && decide (e.1 < 32 * (v + 32 * g + 32))
    else b.slotGroup v g
  { b with wb := BitVec.ofNat 10 v, win := (List.range 4).flatMap group, dirty := 0 }

/-- The end of a `REGION`. -/
def Beam.regionEnd (b : Beam) (now : Nat) : Beam :=
  match b.regionStep with
  | some (l, v, f, n, some st) =>
    if b.status = .region ∧ st + b.regionTime n ≤ now then
      { ((b.writeBack f).fillWindow v (f - 4)).setLong l none with status := .ready }
    else b
  | _ => b

def execRegionComplete (t b : Nat) (s : State) : Host.Outcome State Fault Refusal :=
  .next (s.modBeam ⟨t, b⟩ fun B => B.regionEnd s.clock)

/-! ### Groups of packets (R226) -/

/-- The beam's running access of more than eight packets. -/
def Beam.coalRun (b : Beam) : Option (LongRun × Nat × List (List Packet) × Nat) :=
  b.longs.findSome? fun l => match l.op with | .coal i g _ n => some (l, i, g, n) | _ => none

/-- The next group of packets is sent, while `%orc` has room for it; a load of it that reaches an uncorrectable error traps (R380). -/
def execCoalescerGroup (t b : Nat) (s : State) : Host.Outcome State Fault Refusal :=
  let r : Ref := ⟨t, b⟩
  match s.beam? r with
  | none => .next s
  | some B =>
    match B.coalRun with
    | none => .next s
    | some (l, i, gs, n) =>
      match gs[n]? with
      | none => .next (s.modBeam r fun b => b.setLong l none)
      | some ps =>
        let bad := ps.filter s.poisoned
        if B.orc.toNat + (ps.filter fun p => p.op.counted).length > 1024 ∨ B.held l s.clock = true then .next s
        else
          match bad with
          | p :: _ => .next (s.stopAccess r i none l.pc l.at_ p.pend cPOISON 0 (lowestVa bad))
          | [] =>
            .next ((s.inject r ps).modBeam r fun b =>
              if n + 1 < gs.length then (b.atStep (n + 1)).setLong l (some (.coal i gs [] (n + 1))) else b.setLong l none)

/-! ### Yield and team words (R171, R176) -/

/-- Every sibling that was ready has issued since. -/
def State.yieldMet (s : State) (b : Beam) (sibs : List Ref) : Bool :=
  sibs.all fun q =>
    match s.beam? q with
    | none => true
    | some c =>
      match c.lastIssue, b.lastIssue with
      | some x, some y => decide (y < x)
      | some _, none => true
      | none, _ => false

def execYieldEnd (t b : Nat) (s : State) : Host.Outcome State Fault Refusal :=
  let r : Ref := ⟨t, b⟩
  match s.beam? r with
  | none => .next s
  | some B =>
    match B.status with
    | .yielded limit sibs =>
      if limit ≤ s.clock ∨ s.yieldMet B sibs = true then .next (s.setBeam r { B with status := .ready }) else .next s
    | _ => .next s

/-- The oldest team-word write of a team takes its effect in its cycle. -/
def Team.twHead (T : Team) (now : Nat) : Team :=
  match T.twq with
  | [] => T
  | w :: r => if w.due ≤ now then { T.applyTw w with twq := r } else T

def execTeamWordApply (t : Nat) (s : State) : Host.Outcome State Fault Refusal :=
  .next (s.modTeam t fun T => T.twHead s.clock)

/-! ### Wakes (R109, R381) -/

/-- The queue that a beam waits to acquire a slot of, or to consume one of. -/
def Status.queue? (w : Status) : Option (Bool × Nat) :=
  match w with
  | .qacq q _ _ => some (true, q)
  | .qwait q _ _ => some (false, q)
  | _ => none

/-- A lower beam waits at the queue with an instruction of the same kind and cycle: it comes first (R271). -/
def Team.queueFirst (T : Team) (k : Nat) (b : Beam) : Bool :=
  (T.beams.take k).any fun c => decide (c.status.queue? = b.status.queue?) && decide (c.lastIssue = b.lastIssue)

/-- A waiting `QACQ` or `QWAIT` takes its slot if it can. -/
def State.wakeQueue (s : State) (r : Ref) (T : Team) (b : Beam) (take : Team → Nat → Option (Nat × Team))
    (vals : Team → Nat → Nat → Nat → List (Nat × Word)) (q d pend : Nat) : State :=
  if T.queueFirst r.b b then s
  else
    match take T q with
    | none => s
    | some (j, T1) => (s.setTeam r.t T1).wakeWith r pend (vals T q j d)

/-- The condition of a beam's wait is met and the wait ends, of a halted beam too (R381); a failed job's trap and a context operation of one
are left until it goes on. -/
def State.wake (s : State) (r : Ref) (T : Team) (b : Beam) : State :=
  let core := T.coreId
  let runs := decide (b.halt = .run)
  match b.status with
  | .bar => if T.arrived.getLsbD r.b then s else s.modBeam r fun b => b.awake s.clock
  | .named k tok => if s.phase r.t k = tok then s else s.modBeam r fun b => b.awake s.clock
  | .jwait h => if runs || (statusTrap (T.statusOf h)).isNone then s.wakeJob r core h b.waitPc else s
  | .jsleep h cont => if runs || (statusTrap (T.statusOf h)).isNone then s.wakeJob r core h cont else s
  | .xchg _ _ _ _ _ => s.xchgTry r
  | .qacq q d p => s.wakeQueue r T b (fun T n => T.acquire n false) qacqVals q d p
  | .qwait q d p => s.wakeQueue r T b Team.consume qwaitVals q d p
  | .kvpub _ _ _ _ _ _ => if runs then s.kvRetry else s
  | .kvwait _ _ _ _ _ _ => if runs then s.kvRetry else s
  | .pacap d p =>
    if T.prism.state = .done then
      (s.modTeam r.t fun T => { T with prism := { T.prism with state := .idle } }).wakeWith r p (T.prism.results d)
    else s
  | .board c q l a n d p => s.wakeBoard r c q l a n d p
  | .mwait ids => if s.mwaitOver core ids then s.modBeam r fun b => b.awake s.clock else s
  | _ => s

/-! ### Releases (R142, R143) -/

/-- A long instruction that a release waits for: packets to send, lanes to read or write, scratchpad to read. -/
def Long.accesses (o : Long) : Bool :=
  match o with
  | .coal _ _ _ _ => true
  | .kvw _ _ _ _ => true
  | .kvr _ _ _ _ _ _ => true
  | o => o.scrReads

/-- Something that the beam did before cycle `t` has not met the wait of a release (R142): entries in the operand log at any scope
(R372), at TM or wider what is not performed or acknowledged, with the scratchpad accesses performed by cycle `scrAt`. -/
def State.relHeld (s : State) (r : Ref) (t scrAt scope : Nat) : Bool :=
  let pk (q : Packet) : Bool := decide (q.src = r) && q.job.isNone && decide (q.sentAt < t) && decide (q.op ≠ .prefetch)
  let long (l : LongRun) : Bool := decide (l.at_ < t) && l.op.accesses
  (s.net.log.any fun g => pk g.packet) ||
    (decide (scope ≠ 0) &&
      (decide (s.clock < scrAt) || (s.net.packets.any pk) || (s.net.remotes.any fun m => pk m.packet) ||
        (s.net.acks.any fun a => decide (a.src = r) && decide (a.sentAt < t)) ||
        ((s.beam? r).elim false fun b => b.longs.any long) ||
        s.cores.any fun c => c.2.entries.any fun n =>
          decide (n.src = r) && decide (n.issued < t) && decide (n.pix < n.total) && decide (n.bytes ≠ 0)))

/-- The slots that a beam's `QCOMMIT`s name become FULL once their release, at TM scope, is met (R143, R154). -/
def State.runCommits (s : State) (r : Ref) : State :=
  s.modTeam r.t fun T =>
    let go (c : Commit) : Bool := T.core?.isSome && decide (c.beam = r.b) && !s.relHeld r c.sentAt c.scrAt 1
    (T.commits.filter go).foldl (fun T c => T.commit c.q c.slot 0 c.tag) { T with commits := T.commits.filter fun c => !go c }

/-- A wake of one beam of a resident team; what its `QCOMMIT`s wait for comes first, then a recorded trap is entered. -/
def execBeamWake (t b : Nat) (s0 : State) : Host.Outcome State Fault Refusal :=
  let r : Ref := ⟨t, b⟩
  let s := s0.runCommits r
  match s.team? t with
  | none => .next s
  | some T =>
    match T.beams[b]? with
    | none => .next s
    | some B =>
      if T.isResident = false ∨ T.stopped = true then .next s
      else if B.ptrap.isSome = true then (if B.halt = .run then .next (s.enterPending r) else .next s)
      else .next (s.wake r T B)

/-! ### The halt of one beam (R381, R384) -/

/-- The beam's last long instruction is inside a sub-step. -/
def State.midStep (s : State) (T : Team) (b : Nat) (B : Beam) (l : LongRun) : Bool :=
  match l.op with
  | .div _ _ _ _ _ p _ =>
    let q := b % 4
    let start := max l.since (sget 0 (s.core T.coreId).divFree q)
    decide (s.divFirst T.coreId q = some (l.since, p)) && !B.held l start && decide (start < s.clock)
  | .pald _ g st => decide (8 ≤ g) || st.isSome
  | .region _ _ _ (some st) => decide (st + 8 < s.clock) && decide ((s.clock - st - 8) % 16 ≠ 0)
  | _ => false

/-- Pre-emption parks a beam: where it stops a long instruction or a body it records the place, unless the beam runs a
handler, whose `%epc` and `%pix` it needs (R93, R381, R384, R385). -/
def Beam.park (b : Beam) (now : Nat) : Beam :=
  if causeInh b.cause then
    match b.lastLong with
    | some l => { b with halt := .run, longs := b.longs.dropLast, latched := some (b.stopLong l now) }
    | none => { b with halt := .run }
  else { (if b.lastLong.isSome ∨ b.mcall.isSome then { b.stop now with sibProg := false } else b) with halt := .run }

/-- Whether a skidding beam stops in this cycle (R182): where nothing is left to it, or what it would issue is held though its issue
cycle has come (R381); else its stop may come in any cycle (DESIGN CHOICE, log 60). -/
def State.stopsNow (s : State) (T : Team) (k : Nat) (b : Beam) (left since : Nat) : Bool :=
  decide (since < s.clock) && (decide (left = 0) || decide (b.status ≠ .ready) ||
    (decide (b.issueAt ≤ s.clock) && !s.ready T b k) || decide (Config.skidStop s.clock k % 2 = 1))

/-- Whether a stop of beam b is the pre-emption's own, not that of a trap of the team. -/
def Team.parks (T : Team) (b : Nat) : Bool :=
  (match T.life with | .draining _ _ => true | _ => false) && (decide (T.handler = none) || decide (T.handler = some b))

/-- A beam that the halt has reached stops before its next instruction, and its last long instruction at its next sub-step
boundary. -/
def execSiblingStop (t b : Nat) (s : State) : Host.Outcome State Fault Refusal :=
  match s.team? t with
  | none => .next s
  | some T =>
    match T.beams[b]? with
    | none => .next s
    | some B =>
      match B.halt with
      | .skidding left since =>
        if s.stopsNow T b B left since = false then .next s
        else
          match B.lastLong with
          | none => .next (s.setBeam ⟨t, b⟩ (if T.parks b then B.park s.clock else B.stopWait s.clock))
          | some l =>
            if s.midStep T b B l then .next s
            else .next (s.setBeam ⟨t, b⟩ (if T.parks b then B.park s.clock else B.stop s.clock))
      | _ => .next s

/-! ### Telemetry (R79 to R81) -/

/-- The element with the largest deviation, the first in row order among equals. -/
def worst (l : List (Nat × Nat × Word × Word)) : Option (Nat × Nat × Word × Word) :=
  l.foldl (fun m e =>
    match m with
    | none => some e
    | some w => if deviation e.2.2.1 e.2.2.2 > deviation w.2.2.1 w.2.2.2 then some e else m) none

/-- The elements of a recompute, with their references. -/
def TeleJob.pairs (j : TeleJob) : List (Nat × Nat × Word × Word) :=
  (j.got.zip j.ref).map fun p => (p.1.1, p.1.2.1, p.1.2.2, p.2.2.2)

/-- The entry of a recompute (R81). -/
def TeleJob.bytes (j : TeleJob) (ftime : Nat) : List Byte :=
  match worst j.pairs with
  | none => []
  | some (row, col, got, ref) =>
    let w := (if j.coll then 2 ^ 30 else 0) + j.unit % 1024 * 2 ^ 20 + j.fmt % 16 * 2 ^ 16 + j.tenant.toNat % 4096 * 16 +
      j.tele.toNat
    leBytes 8 ftime ++ leBytes 4 w ++ leBytes 4 j.seq ++ leBytes 4 (deviation got ref) ++ leBytes 2 row ++ leBytes 2 col ++
      leBytes 4 got.toNat ++ leBytes 4 ref.toNat

/-- Writes an entry at its place in the function's ring. R81 says only that the ring lies in device memory: its base is a physical
HBM address (DESIGN CHOICE, log 65). -/
def State.teleWrite (s : State) (f : Nat) (bytes : List Byte) : State :=
  let F := s.func f
  if F.teln = 0 ∨ bytes = [] then s
  else
    (s.homeWrite .hbm (F.telbase.toNat + 32 * (F.telat % F.teln)) bytes).setFunc f
      { F with telat := F.telat + 1, telover := if F.telat ≥ F.teln then F.telover + 1 else F.telover }

/-- A recompute ends and its entry is logged. -/
def execTelemetryRecompute (k : Nat) (s : State) : Host.Outcome State Fault Refusal :=
  match s.work.teleq[k]? with
  | none => .next s
  | some j => .next (({ s with work := { s.work with teleq := s.work.teleq.eraseIdx k } }).teleWrite j.func (j.bytes s.ftime))

end Sys2Proof.Machine
end

