-- ==== Sys2Proof/Machine/Preempt.lean ====
section
/-! DEFINITION. The beginning of a pre-emption (R384), the gang gates (R357 to R359), and the ends of a drain that fails
(R384). -/

namespace Sys2Proof.Machine

/-! ### The trigger (R384) -/

/-- A wait that pre-emption withdraws: the beam issues its instruction again; a withdrawn `KVPUB` leaves `%orc`. -/
def Beam.withdrawAll (b : Beam) : Beam :=
  match b.status with
  | .board _ _ _ _ _ _ p => { b.pendDrop p with status := .ready, pc := b.waitPc }
  | .yielded _ _ => { b with status := .ready }
  | _ => b.withdraw

/-- Whether a beam's wait is one that pre-emption withdraws. -/
def Beam.withdrawn (b : Beam) : Bool :=
  match b.status with
  | .watch _ _ _ _ _ => true
  | .kvpub _ _ _ _ _ _ => true
  | .kvwait _ _ _ _ _ _ => true
  | .board _ _ _ _ _ _ _ => true
  | _ => false

/-- A beam as its issue stops: a withdrawn instruction's address goes to `%epc` (outside a handler), and a long instruction
that it issued last is to stop at its next sub-step boundary. -/
def Beam.preempted (b0 : Beam) (now : Nat) : Beam :=
  let c := b0.withdrawAll
  let b := { c with reuse := none, epc := if b0.withdrawn && !causeInh b0.cause then c.pc else c.epc }
  match b.halt with
  | .run => if b.lastLong.isSome then { b with halt := .skidding 0 now } else b.park now
  | _ => b

/-- Pre-emption of one team begins. -/
def State.drainTeam (s : State) (t : Nat) : State :=
  match s.team? t with
  | none => s
  | some T =>
    match T.life with
    | .resident c =>
      if T.stopped then s
      else
        let beams : List Beam := T.beams.map fun b => Beam.preempted b s.clock
        let boards : List (Nat × Board) := T.boards.map fun e => (e.1, Board.trim e.2)
        let T1 : Team := { T with life := .draining c s.clock, beams := beams, boards := boards }
        ((List.range T.beams.length).map fun i => (⟨t, i⟩ : Ref)).foldl State.dropWatches (s.setTeam t T1)
    | _ => s

/-- The team paired with t, in a grid of paired placement (R105). -/
def State.pairId (s : State) (t : Nat) : Option Nat :=
  match s.team? t with
  | none => none
  | some T =>
    match s.gridOf T with
    | none => none
    | some g => if g.launch.paired then (s.pairOf T).map (·.1) else none

/-- Pre-emption of a team, with its partner. -/
def State.preempt (s : State) (t : Nat) : State :=
  match s.pairId t with
  | none => s.drainTeam t
  | some u => (s.drainTeam t).drainTeam u

/-- Pre-emption of every resident team of partition p whose grid satisfies `f`. -/
def State.preemptWhere (s : State) (p : Nat) (f : Grid → Bool) : State :=
  let ids := (s.teams.filter fun e => e.2.isResident &&
    match s.gridOf e.2 with | none => false | some g => decide (g.part = p) && f g).map (·.1)
  ids.foldl State.preempt s

/-- PRECTL with GO (R386). -/
def State.prectlGo (s : State) (p : BitVec 4) : State :=
  if s.regs.preBusy = true then s
  else if p.toNat ≥ 12 then s
  else
    let s1 := { s with regs := { s.regs with prePart := p, preGo := p } }
    let s2 := s1.preemptWhere p.toNat fun _ => true
    let busy := s2.teams.any fun e => decide (s2.partOf e.2 = p.toNat) && (match e.2.life with | .draining _ _ => true | _ => false)
    { s2 with regs := { s2.regs with preBusy := busy } }

def execPrectlGo (p : BitVec 4) (s : State) : Host.Outcome State Fault Refusal := .next (s.prectlGo p)

/-! ### The slice table (R357, R358) -/

/-- One entry of the table, from 128 bytes of memory. -/
def readGang (m : Memory) (a : Nat) : GangEntry :=
  { start := m.readNat a 8, len := m.readNat (a + 8) 4, gang := m.readNat (a + 12) 2,
    pmask := BitVec.ofNat 12 (m.readNat (a + 14) 2),
    members := (List.range (m.readNat (a + 16) 1)).map fun i => m.readNat (a + 64 + 2 * i) 2 }

/-- An entry's fields lie in their ranges and its reserved bytes are 0. -/
def gangOk (m : Memory) (a : Nat) : Bool :=
  let n := m.readNat (a + 16) 1
  decide (m.readNat (a + 14) 2 < 4096) && decide (1 ≤ n) && decide (n ≤ 32) && decide (m.readNat (a + 17) 47 = 0) &&
    (List.range 32).all fun i => decide (m.readNat (a + 64 + 2 * i) 2 < 2048)

/-- The entries ascend and do not overlap, and the last ends within the period. -/
def gangOrder (l : List GangEntry) (period : Nat) : Bool :=
  match l with
  | [] => true
  | [e] => decide (e.start + e.len ≤ period)
  | e :: f :: r => decide (e.start < f.start) && decide (e.start + e.len ≤ f.start) && gangOrder (f :: r) period

/-- The partitions that some entry names. -/
def Gang.governed (g : Gang) : BitVec 12 := if g.en then g.table.foldl (fun m e => m ||| e.pmask) 0 else 0

/-- The first slice that starts at or after a time: cycle and entry. -/
def Gang.after (g : Gang) (time : Nat) : Nat × Nat :=
  let e := g.epoch.toNat
  let p := g.period.toNat
  let n := (time - e) / p
  let off := time - (e + n * p)
  match (g.table.findIdx? fun x => decide (off ≤ x.start)) with
  | some i => (n, i)
  | none => (n + 1, 0)

/-- A write of EN = 1: the table is copied and checked. Until its first slice starts no team of a governed partition runs
(R357). Where EN is 1 already a table that passes takes the place of the other at once, with no slice of that one in progress any more;
a refused write leaves it (DESIGN CHOICE, log 14). -/
def State.gangEnable (s : State) : State :=
  let g := s.regs.gang
  let n := g.count.toNat
  let at_ (i : Nat) : Nat := g.base.toNat + 128 * i
  let t := (List.range n).map fun i => readGang s.mem (at_ i)
  let ok := decide (g.base.toNat % 128 = 0) && decide (1 ≤ n) && decide (n ≤ 64) && decide (10000 ≤ g.period.toNat) &&
    decide (g.period.toNat ≤ 4000000000) && ((List.range n).all fun i => gangOk s.mem (at_ i)) && gangOrder t g.period.toNat
  if ok then
    let h := { g with en := true, err := false, table := t, cur := none, off := false, held := [], sent := false, decided := false }
    { s with regs := { s.regs with gang := { h with next := h.after s.ftime, closed := h.governed } } }
  else { s with regs := { s.regs with gang := { g with err := true } } }

def execGsctlEnable (s : State) : Host.Outcome State Fault Refusal := .next s.gangEnable

/-- The table no longer governs. -/
def Gang.disabled (g : Gang) : Gang := { g with en := false, off := false, cur := none, closed := 0 }

/-- A write of EN = 0: at the end of the slice in progress, or at once between slices. -/
def State.gangDisable (s : State) : State :=
  let g := s.regs.gang
  let h := if g.en = false then g else if g.cur.isSome then { g with off := true } else g.disabled
  { s with regs := { s.regs with gang := h } }

def execGsctlDisable (s : State) : Host.Outcome State Fault Refusal := .next s.gangDisable

/-! ### Slices (R357, R359) -/

/-- The fabric time at which entry i of cycle n starts. -/
def Gang.startOf (g : Gang) (n i : Nat) : Nat := g.epoch.toNat + n * g.period.toNat + (g.table[i]?).elim 0 (·.start)

/-- The slice after a given one. -/
def Gang.succ (g : Gang) (p : Nat × Nat) : Nat × Nat := if p.2 + 1 < g.table.length then (p.1, p.2 + 1) else (p.1 + 1, 0)

/-- The entry of the slice in progress. -/
def Gang.entry (g : Gang) : Option GangEntry :=
  match g.cur with
  | none => none
  | some p => g.table[p.2]?

/-- Partitions of a mask. -/
def partsOf (m : BitVec 12) : List Nat := (List.range 12).filter fun p => m.getLsbD p

/-- The next slice starts: the teams of its partitions that are not of its gang are pre-empted; with a gang, the gate of these
partitions is closed until OPEN. -/
def execGangSliceStart (s : State) : Host.Outcome State Fault Refusal :=
  let g := s.regs.gang
  if g.en = false ∨ g.cur.isSome = true ∨ s.ftime < g.startOf g.next.1 g.next.2 then .next s
  else
    match g.table[g.next.2]? with
    | none => .next s
    | some e =>
      let closed := if e.gang = 0 then g.closed &&& ~~~e.pmask else g.closed ||| e.pmask
      let h := { g with cur := some g.next, next := g.succ g.next, closed := closed, held := [], sent := false, decided := false }
      let s1 := { s with regs := { s.regs with gang := h } }
      .next ((partsOf e.pmask).foldl (fun s p => s.preemptWhere p fun G => decide (G.launch.gang ≠ e.gang)) s1)

/-- The slice ends: no team of its partitions runs until the next slice that names them. Where it has a gang and its one decision has
not been made, that is still to come (R359). -/
def execGangSliceEnd (s : State) : Host.Outcome State Fault Refusal :=
  let g := s.regs.gang
  match g.cur, g.entry with
  | some p, some e =>
    if s.ftime < g.startOf p.1 p.2 + e.len then .next s
    else
      let past := if e.gang ≠ 0 ∧ g.decided = false then g.past ++ [⟨p.1, p.2, e, g.held, g.sent⟩] else g.past
      let h := if g.off then { g.disabled with past := past } else { g with cur := none, closed := g.closed ||| e.pmask, past := past }
      .next { s with regs := { s.regs with gang := h } }
  | _, _ => .next s

/-- Every team of the slice's partitions that is not of its gang is saved. -/
def State.gangSaved (s : State) (e : GangEntry) : Bool :=
  s.teams.all fun x =>
    match s.gridOf x.2 with
    | none => true
    | some G => !e.pmask.getLsbD G.part || decide (G.launch.gang = e.gang) || x.2.core?.isNone

/-- The code of a gang message's kind in its packet. -/
def GangKind.code (k : GangKind) : Nat :=
  match k with
  | .arrived => 0
  | .opened => 1
  | .forfeit => 2

/-- A gang packet's bytes (R414): OP 12 in the management class. Where kind, cycle and late chips lie the manual does not say: the gang
is in TAG, the kind in byte 8, the number of late chips in byte 9, the cycle in bytes 10 to 13, and the chips in the data, 2 bytes each
(DESIGN CHOICE, log 83). -/
def gangPacket (src : Nat) (m : GangMsg) : List Byte :=
  let late := m.late.take 16
  let data := decide (late ≠ [])
  leBytes 1 (12 + 32 + (if data then 16 else 0)) ++ leBytes 1 0 ++ leBytes 2 m.dst ++ leBytes 2 src ++ leBytes 2 m.gang ++
    leBytes 1 m.kind.code ++ leBytes 1 late.length ++ leBytes 4 m.n ++ leBytes 2 0 ++
    (if data then leBytes 16 (2 ^ (2 * late.length) - 1) ++ late.flatMap (leBytes 2) ++ leBytes (128 - 2 * late.length) 0 else [])

/-- A gang message leaves: what the rule says it carries, and its packet, which goes out with the next cycle. -/
def State.gangSend (s : State) (m : GangMsg) : State :=
  { s with net := { s.net with gangSent := s.net.gangSent ++ [m], sent := s.net.sent ++ [gangPacket s.fab.dev.toNat m] } }

/-- The gate of the slice opens. -/
def State.openGate (s : State) : State :=
  let g := s.regs.gang
  match g.entry with
  | none => s
  | some e => { s with regs := { s.regs with gang := { g with closed := g.closed &&& ~~~e.pmask } } }

/-- The GANG record of a slice that is forfeited, which names the late chips (R359, R429). -/
def State.gangRecord (s : State) (n idx : Nat) (e : GangEntry) (late : List Nat) : State :=
  let ids := late.take 16
  s.record 0 7 (leBytes 2 e.gang ++ leBytes 1 idx ++ leBytes 1 ids.length ++ leBytes 4 n ++ ids.flatMap (leBytes 2) ++
    leBytes (32 - 2 * ids.length) 0 ++ leBytes 8 0)

/-- The fabric time at which an entry starts in cycle n. -/
def Gang.timeOf (g : Gang) (n : Nat) (e : GangEntry) : Nat := g.epoch.toNat + n * g.period.toNat + e.start

/-- The members whose ARRIVED the leader holds, once one has come: in time, and before the decision. -/
def Gang.hold (g : Gang) (time n : Nat) (e : GangEntry) (held : List Nat) (chip : Nat) : List Nat :=
  if held.contains chip = false ∧ time ≤ g.timeOf n e + 50000 then held ++ [chip] else held

/-- ARRIVED of a slice that has ended undecided. -/
def State.arrivedLate (s : State) (chip gang n : Nat) (x : Trial) : State :=
  let g := s.regs.gang
  let own := decide (chip = s.fab.dev.toNat)
  let leader := decide (x.entry.members.headD 0 = s.fab.dev.toNat)
  if x.entry.gang ≠ gang ∨ x.cyc ≠ n ∨ x.entry.members.contains chip = false ∨
      (own = true ∧ (x.sent = true ∨ s.gangSaved x.entry = false)) then s
  else
    let y : Trial := { x with sent := x.sent || own, held := if leader then g.hold s.ftime n x.entry x.held chip else x.held }
    let s1 := { s with regs := { s.regs with gang := { g with past := g.past.map fun z => if z = x then y else z } } }
    if own && !leader then s1.gangSend ⟨.arrived, x.entry.members.headD 0, x.entry.gang, n, []⟩ else s1

/-- ARRIVED reaches the leader, or leaves this device for it. -/
def State.arrivedOf (s : State) (chip gang n : Nat) : State :=
  let g := s.regs.gang
  let late := g.past.foldl (State.arrivedLate · chip gang n) s
  match g.cur, g.entry with
  | some p, some e =>
    let own := decide (chip = s.fab.dev.toNat)
    let leader := decide (e.members.headD 0 = s.fab.dev.toNat)
    if e.gang = 0 ∨ e.gang ≠ gang ∨ p.1 ≠ n ∨ e.members.contains chip = false then late
    else if own = true ∧ (g.sent = true ∨ s.gangSaved e = false) then s
    else
      let h := { g with
        sent := g.sent || own
        held := if leader && !g.decided then g.hold s.ftime p.1 e g.held chip else g.held }
      let s1 := { s with regs := { s.regs with gang := h } }
      if own && !leader then s1.gangSend ⟨.arrived, e.members.headD 0, e.gang, p.1, []⟩ else s1
  | _, _ => late

def execArrived (chip gang : BitVec 16) (n : Nat) (s : State) : Host.Outcome State Fault Refusal :=
  .next (s.arrivedOf chip.toNat gang.toNat n)

/-- What the leader of a slice decides now: the late chips, none where it is too early (R359). -/
def State.decision (s : State) (n : Nat) (e : GangEntry) (held : List Nat) : Option (List Nat) :=
  let late := e.members.filter fun c => !held.contains c
  if e.gang = 0 ∨ e.members.headD 0 ≠ s.fab.dev.toNat ∨ (late ≠ [] ∧ s.ftime ≤ s.regs.gang.timeOf n e + 50000) then none else some late

/-- The leader tells the other members. -/
def State.tellMembers (s : State) (n : Nat) (e : GangEntry) (late : List Nat) : State :=
  let kind : GangKind := if late = [] then .opened else .forfeit
  (e.members.filter fun c => decide (c ≠ s.fab.dev.toNat)).foldl (fun s c => s.gangSend ⟨kind, c, e.gang, n, late⟩) s

/-- A slice that has ended is decided: no gate opens any more. -/
def State.endTrial (s : State) (x : Trial) (late : List Nat) : State :=
  let g := s.regs.gang
  let s1 := { s with regs := { s.regs with gang := { g with past := g.past.filter fun z => decide (z ≠ x) } } }
  if late = [] then s1 else s1.gangRecord x.cyc x.idx x.entry late

/-- The leader decides once (R359): OPEN when every member has arrived in time, FORFEIT 50 µs after the start, whether or not the slice
still runs. -/
def execGangDecide (s : State) : Host.Outcome State Fault Refusal :=
  let g := s.regs.gang
  let past : Host.Outcome State Fault Refusal :=
    match g.past.findSome? fun x => (s.decision x.cyc x.entry x.held).map fun l => (x, l) with
    | none => .next s
    | some (x, late) => .next ((s.tellMembers x.cyc x.entry late).endTrial x late)
  match g.cur, g.entry with
  | some p, some e =>
    match (s.decision p.1 e g.held).filter fun _ => !g.decided with
    | none => past
    | some late =>
      let s1 := ({ s with regs := { s.regs with gang := { g with decided := true } } }).tellMembers p.1 e late
      .next (if late = [] then s1.openGate else s1.gangRecord p.1 p.2 e late)
  | _, _ => past

/-- This device is a member, and not the leader, of an entry with a gang. -/
def State.memberOf (s : State) (e : GangEntry) : Bool :=
  decide (e.gang ≠ 0) && e.members.contains s.fab.dev.toNat && decide (e.members.headD 0 ≠ s.fab.dev.toNat)

/-- This device is a member, and not the leader, of a gang slice whose gate is closed. -/
def State.gangMember (s : State) : Bool := s.regs.gang.entry.any s.memberOf

/-- The leader's decision is received, for the slice of a gang and cycle that `is` tells: OPEN, which the leader sends only when this
member's ARRIVED has reached it, or FORFEIT with the late chips. -/
def State.decided (s : State) (is : Nat → Nat → Bool) (late : List Nat) : State :=
  let g := s.regs.gang
  let past : State :=
    match g.past.find? fun x => s.memberOf x.entry && is x.entry.gang x.cyc && (decide (late ≠ []) || x.sent) with
    | none => s
    | some x => s.endTrial x late
  match g.cur, g.entry with
  | some p, some e =>
    if s.memberOf e = true ∧ is e.gang p.1 = true ∧ g.decided = false ∧ (late ≠ [] ∨ g.sent = true) then
      let s1 := { s with regs := { s.regs with gang := { g with decided := true } } }
      if late = [] then s1.openGate else s1.gangRecord p.1 p.2 e late
    else past
  | _, _ => past

/-- OPEN is received. -/
def execOpenGate (s : State) : Host.Outcome State Fault Refusal := .next (s.decided (fun _ _ => true) [])

/-- FORFEIT is received. -/
def execForfeit (late : List (BitVec 16)) (s : State) : Host.Outcome State Fault Refusal :=
  if late = [] then .next s else .next (s.decided (fun _ _ => true) (late.map BitVec.toNat))

/-- A gang packet is received (R359, R414). -/
def State.gangReceive (s : State) (src : Nat) (b : List Byte) : State :=
  let gang := natAt b 6 2
  let n := natAt b 10 4
  let is (g k : Nat) : Bool := decide (g = gang) && decide (k = n)
  match natAt b 8 1 with
  | 0 => s.arrivedOf src gang n
  | 1 => s.decided is []
  | 2 => s.decided is ((List.range (natAt b 9 1 % 17)).map fun i => natAt b (32 + 2 * i) 2)
  | _ => s

end Sys2Proof.Machine
end

