-- ==== Sys2Proof/Machine/Link.lean ====
section
/-! DEFINITION. The link layer and link states (R409 to R413, R415 to R419, R423, R424), and the routes of packets (R407,
R408). -/

namespace Sys2Proof.Machine

/-! ### Flits (R409) -/

/-- The 192 bytes of a flit of this end: ACK, ALLOW and NAK for the other direction are in every one. -/
def Link.flit (L : Link) (type : Nat) (seq : BitVec 16) (nak : Bool) (payload : List Byte) : List Byte :=
  let h := seq.toNat + 2 ^ 16 * (L.exp - 1).toNat + 2 ^ 32 * L.granted.toNat + 2 ^ 48 * type + (if nak then 2 ^ 52 else 0)
  let body := leBytes 8 h ++ payload.take 176 ++ leBytes (176 - payload.length) 0
  body ++ leBytes 8 (crc64 body).toNat

/-! ### The stream of an optical link (R410) -/

/-- The wavelengths of a bank set, in ascending order. -/
def wavesOf (banks : BitVec 3) : List Nat := (List.range 24).filter fun w => banks.getLsbD (w / 8)

/-- A link that trains or relocks finds its banks' light afresh. -/
def Link.training (L : Link) : Bool := decide (L.state = .train) || decide (L.state = .relock)

/-- A restripe may begin in this state; the link sends and receives. -/
def Link.lit (L : Link) : Bool :=
  match L.state with
  | .up => true
  | .drain => true
  | .drained => true
  | .held => true
  | _ => false

/-- The banks that the transmitter sends on or will be left with: those in use, those of a restripe in progress, those that it trains
with. -/
def Link.aim (L : Link) : BitVec 3 := if L.training then L.banken &&& ~~~L.absent else L.restripe.getD L.banks

/-- The stream starts again, at the beat boundary of fabric time `now`. -/
def Link.streamAt (L : Link) (now : Nat) : Link := { L with start := now, next := 0, upTo := now }

/-- The first flit place of the stream that leaves at or after fabric time `now`. -/
def Link.idx (L : Link) (now : Nat) : Nat := ((now - L.start) * (wavesOf L.aim).length + 23) / 24

/-- The stream slot of slot `s` of a flit. -/
def FlitPlace.slot (p : FlitPlace) (s : Nat) : Nat := 24 * p.n + s

/-- The wavelength of slot `s` of a flit. -/
def FlitPlace.wave (p : FlitPlace) (s : Nat) : Nat :=
  let a := wavesOf p.banks
  a.getD (p.slot s % a.length) 0

/-- The beat of slot `s` of a flit, counted from the restart. -/
def FlitPlace.beat (p : FlitPlace) (s : Nat) : Nat := p.slot s / (wavesOf p.banks).length

/-- The fabric time at which a flit leaves, in 48ths of a nanosecond. -/
def FlitPlace.leaves (p : FlitPlace) : Nat :=
  let n := (wavesOf p.banks).length
  48 * (p.start + p.beat 0) + 48 * (p.slot 0 % n) / n

/-! ### What leaves next (R411, R412, R417, R418) -/

/-- What a flit carries: TYPE, SEQ, NAK and payload. -/
structure Out where
  type    : Nat
  seq     : BitVec 16
  nak     : Bool
  payload : List Byte
  deriving DecidableEq, Repr

/-- A flit leaves in a place of the stream. -/
def Link.emit (L : Link) (n : Nat) (x : Out) : Link :=
  { L with out := L.out ++ [L.flit x.type x.seq x.nak x.payload], places := L.places ++ [⟨L.start, L.aim, n⟩], next := n + 1 }

/-- A RESTRIPE control flit: code 2 and the bank mask. -/
def restripeOut (m : BitVec 3) : Out := ⟨4, 0, false, leBytes 1 2 ++ leBytes 1 m.toNat⟩

/-- A sequenced flit is held in the replay buffer (R411). -/
def Link.hold (L : Link) (marker : Bool) (payload : List Byte) : Link :=
  { L with
    buf := L.buf ++ [{ seq := L.nextSeq, marker := marker, resent := 0, payload := payload }]
    nextSeq := L.nextSeq + 1
    tx := if marker ∨ L.tx = 0xFFFFFFFFFFFFFFFF then L.tx else L.tx + 1 }

/-- A data flit may be sent: the link is up, the replay buffer has room and the other end allows it (R411, R412). -/
def Link.canSend (L : Link) : Bool :=
  decide (L.state = .up) && L.restripe.isNone && decide (L.buf.length < 4096) &&
    decide ((L.allowIn - L.nextSeq).toNat < 32768)

/-- A buffered flit is resent once more. -/
def Link.counted (L : Link) (f : Flit) : Link :=
  { L with buf := L.buf.map fun (g : Flit) => if g.seq = f.seq then { g with resent := g.resent + 1 } else g, rpl := satAdd L.rpl 1 }

/-- The ACK and ALLOW that this end has to tell are those that its last flit carried. -/
def Link.told (L : Link) : Bool :=
  (L.out.getLast?).any fun f => decide (natAt f 2 4 = (L.exp - 1).toNat + 2 ^ 16 * L.granted.toNat)

/-- An idle flit tells what the last flit did not. -/
def Link.idle (L : Link) : Option (Out × Link) := if L.told then none else some (⟨0, 0, false, []⟩, L)

/-- What leaves in the next place, and the link without it: while a restripe is not returned only RESTRIPE flits, which carry a NAK
that is due; else control flits and NAKs, flits to be resent, a marker, waiting packets each in a flit of its own, and, where the last
flit did not carry the present ACK and ALLOW, an idle flit. Other idle flits are not shown (DESIGN CHOICE, log 68). -/
def Link.pick (L : Link) : Option (Out × Link) :=
  match L.restripe, L.ctl with
  | some m, l =>
    match l.filter fun c => decide (c.1 = 4) with
    | c :: _ => some (⟨4, 0, false, c.2.2⟩, { L with ctl := l.erase c })
    | [] => some ({ restripeOut m with nak := l.any (·.2.1) }, { L with ctl := l.filter fun c => !c.2.1 })
  | none, c :: r => some (⟨c.1, 0, c.2.1, c.2.2⟩, { L with ctl := r })
  | none, [] =>
    match L.resends with
    | f :: r => some (⟨if f.marker then 2 else 1, f.seq, false, f.payload⟩, ({ L with resends := r } : Link).counted f)
    | [] =>
      if L.marker = true ∧ L.buf.length < 4096 then some (⟨2, L.nextSeq, false, []⟩, ({ L with marker := false } : Link).hold true [])
      else
        match L.waiting with
        | p :: r => if L.canSend then some (⟨1, L.nextSeq, false, p⟩, ({ L with waiting := r } : Link).hold false p) else L.idle
        | [] => L.idle

/-- The link sends: it is lit, or trains and has its IDENT to send. -/
def Link.sends (L : Link) : Bool := L.lit || (L.training && decide (L.ctl ≠ []))

/-- Flits leave in the next `k` places of the stream, from place `n` on. -/
def Link.pumpN (k n : Nat) (L : Link) : Link :=
  match k with
  | 0 => L
  | k + 1 =>
    if L.sends then
      match L.pick with
      | none => L
      | some (x, M) => Link.pumpN k (n + 1) (M.emit n x)
    else L

/-- What leaves up to fabric time `now`: the places that no flit has taken and that had not gone by. -/
def Link.pump (L : Link) (now : Nat) : Link :=
  let n := max L.next (L.idx L.upTo)
  { Link.pumpN (L.idx now + 1 - n) n L with upTo := now }

/-- Frees the buffered flits that an ACK covers. -/
def Link.ackTo (L : Link) (a : BitVec 16) : Link :=
  let open_ (f : Flit) : Bool := decide (1 ≤ (f.seq - a).toNat) && decide ((f.seq - a).toNat < 32768)
  { L with lastAck := a, buf := L.buf.filter open_, resends := L.resends.filter open_ }

/-- Every buffered flit is to be resent, in order. -/
def Link.resend (L : Link) : Link := { L with resends := L.buf }

/-- Some flit has been resent 16 times without being acknowledged. -/
def Link.spent (L : Link) : Bool := L.buf.any fun f => decide (f.resent ≥ 16)

/-- A NAK with ACK = exp - 1 is to be sent. -/
def Link.sendNak (L : Link) (now : Nat) : Link :=
  { L with nakked := true, naks := satAdd16 L.naks 1, nakAt := now, ctl := L.ctl ++ [(0, true, [])] }

/-- The allowance that this end grants: unchanged while the link is held (R412, R418). -/
def Link.grant (L : Link) : Link :=
  match L.state with
  | .up => { L with granted := L.fwd + 2048 }
  | .drain => { L with granted := L.fwd + 2048 }
  | .drained => { L with granted := L.fwd + 2048 }
  | _ => L

/-- Both directions start again at SEQ 0. -/
def Link.restart (L : Link) : Link :=
  { L with nextSeq := 0, lastAck := 0xFFFF, allowIn := 2047, buf := [], exp := 0, nakked := false, fwd := 0xFFFF, granted := 2047,
           restripe := none, losses := [], ctl := [], resends := [], marker := false, rxq := [] }

/-! ### Link records (R429) -/

def LState.code (x : LState) : Nat :=
  match x with
  | .down => 0
  | .train => 1
  | .up => 2
  | .drain => 3
  | .drained => 4
  | .held => 5
  | .dark => 6
  | .relock => 7
  | .failed => 8

/-- The number of a link or port in a LINK record. -/
def linkNumber (l : Nat) : Nat := if l < 96 then l else 0x100 + (l - 96)

/-- Raises a LINK record for a change of state. -/
def State.linkRecord (s : State) (l : Nat) (old new : LState) (reason : Nat) : State :=
  s.record 0 4 (leBytes 2 (linkNumber l) ++ leBytes 1 old.code ++ leBytes 1 new.code ++
    leBytes 2 ((s.link l).lpeer.toNat % 2048) ++ leBytes 1 reason ++ leBytes 41 0)

/-- Changes a link's state. -/
def State.setLState (s : State) (l : Nat) (x : LState) : State := s.setLink l { s.link l with state := x, since := s.ftime }

/-! ### Routes (R407, R408) -/

def hsel (pa : Nat) : Nat := nib pa 7 ^^^ nib pa 11 ^^^ nib pa 15

/-- A plane's port carries packets or holds them. -/
def State.portOk (s : State) (l : Nat) : Bool :=
  match s.linkState l with
  | .up => true
  | .held => true
  | .drain => true
  | .drained => true
  | _ => false

/-- The plane hsel, or the next that can be used. -/
def State.planeFrom (s : State) (h : Nat) : Option Nat := ((List.range 8).map fun i => 96 + (h + i) % 8).find? s.portOk

/-- The valid paths to a group: (gateway member, link). -/
def State.paths (s : State) (g : Nat) : List (Nat × Nat) :=
  let v := (s.routeWord g 1).toNat + 2 ^ 32 * (s.routeWord g 2).toNat + 2 ^ 64 * (s.routeWord g 3).toNat
  (List.range 8).filterMap fun k =>
    let f := v / 2 ^ (12 * k) % 4096
    if f / 32 = 127 then none else some (f % 32, f / 32)

/-- The link or port by which a packet leaves: none where the target is unreachable, or its link at this gateway is down or
failed (R435). -/
def State.routeOf (s : State) (dst pa : Nat) : Option Nat :=
  let own := s.fab.dev.toNat
  if s.reachable dst = false then none
  else if dst / 32 = own / 32 then s.planeFrom (hsel pa)
  else
    let ps := s.paths (dst / 32)
    match ps[hsel pa % ps.length]? with
    | none => none
    | some (m, l) =>
      if m = own % 32 then
        (if s.linkState l = .down ∨ s.linkState l = .failed then none else some l)
      else s.planeFrom (hsel pa)

/-! ### Packets (R414) -/

/-- A packet header and what follows it. -/
def packetBytes (op aop w dst src tag pa ekey : Nat) (data mgmt : Bool) (pri : Nat) (rest : List Byte) : List Byte :=
  leBytes 1 (op + (if data then 16 else 0) + (if mgmt then 32 else 0) + 64 * (pri % 4)) ++ leBytes 1 (aop % 16 + 16 * (w % 8)) ++
    leBytes 2 dst ++ leBytes 2 src ++ leBytes 2 tag ++ leBytes 6 pa ++ leBytes 2 ekey ++ rest

/-- Whether a packet is a request, which is rejected where it cannot go on. -/
def isRequest (op : Nat) : Bool := decide (op = 1) || decide (op = 3) || decide (op = 4) || decide (op = 5)

/-! ### Requests that are not answered (R236, R413) -/

/-- A job's request comes back. -/
def State.modJob (s : State) (id : Nat) (f : Job → Job) : State :=
  { s with jobs := s.jobs.map fun (j : Job) => if j.id = id then f j else j }

def State.job? (s : State) (id : Nat) : Option Job := s.jobs.find? fun j => decide (j.id = id)

/-- The read or write of a job that a packet carried is over. -/
def Job.back (j : Job) (p : Packet) : Job := if p.op.counted then { j with out := j.out.erase p.id } else { j with busy := none }

/-- The rest of a request that gets no answer: its results count as received and it counts as acknowledged (R236). -/
def State.abandon (s : State) (p : Packet) : State :=
  match p.job with
  | some j => s.modJob j fun j => j.back p
  | none =>
    let s1 := match p.pend with
      | none => s
      | some i => s.modBeam p.src fun b => b.pendAdd i [] 1
    if p.op.counted then s1.modBeam p.src fun b => { b with orc := b.orc - 1 } else s1

/-- The report of a `REMOTEFATAL` of a job that no team submitted: of kind 1, with the node of its replay (R236, R383; DESIGN CHOICE,
log 82). -/
def State.jobReport (s : State) (j : Job) (peer pa : Nat) : State :=
  let R := j.node.bind fun p => aget s.work.replays p.1
  s.report { kind := 1, cause := cREMOTEFATAL, arg := 0, beam := 0xFF, func := j.func, part := j.part, team := 0, core := j.core,
             peer := peer, graph := R.elim 0 (·.graph.toNat), node := j.node.elim 0 (·.2), epc := 0, info := pa }

/-- `REMOTEFATAL` at the issuer of a packet (R236): fatal for its grid; a job of a replay is cancelled, and reported once. -/
def State.remoteFatal (s : State) (p : Packet) (peer : Nat) : State :=
  let s1 := s.abandon p
  let stop (r : Ref) : State :=
    match s1.team? r.t with
    | none => s1
    | some T => if T.stopped then s1 else s1.fatalStop r cREMOTEFATAL 0 ((s1.beam? r).elim 0 (·.pc)) peer p.pa
  match p.job with
  | none => stop p.src
  | some id =>
    match s1.job? id with
    | none => s1
    | some j =>
      match j.team with
      | some t => stop ⟨t, j.beam⟩
      | none => if j.status = 5 then s1 else (s1.modJob id Job.cancel).jobReport j peer p.pa

/-- The outstanding request that an answer from `src` with a tag names. -/
def State.findRemote (s : State) (src tag : Nat) : Option Remote :=
  s.net.remotes.find? fun r => decide (r.packet.id % 65536 = tag) && decide (r.packet.target = some src)

def State.dropRemote (s : State) (r : Remote) : State :=
  { s with net := { s.net with remotes := s.net.remotes.filter fun q => decide (q.packet.id ≠ r.packet.id) } }

/-- The packet of an outstanding request is among packets of this device. -/
def Remote.isIn (r : Remote) (dev : Nat) (l : List (List Byte)) : Bool :=
  l.any fun b => isRequest (natAt b 0 1 % 16) && decide (natAt b 4 2 % 2048 = dev) && decide (natAt b 6 2 = r.packet.id % 65536) &&
    decide (r.packet.target = some (natAt b 2 2 % 2048))

/-! ### Sending -/

/-- A link sends what it may up to now; a request is sent in the moment in which its packet leaves (R413). -/
def State.pumped (s : State) (l : Nat) : State :=
  let L := s.link l
  let M := L.pump s.ftime
  let gone := L.waiting.take (L.waiting.length - M.waiting.length)
  let mark (r : Remote) : Remote := if r.isIn s.fab.dev.toNat gone then { r with sentNs := s.ftime } else r
  ({ s with net := { s.net with remotes := if gone = [] then s.net.remotes else s.net.remotes.map mark } }).setLink l M

/-- A packet waits at a link, and leaves as soon as it may. -/
def State.enqueue (s : State) (l : Nat) (p : List Byte) : State :=
  let L := s.link l
  (s.setLink l { L with waiting := L.waiting ++ [p] }).pumped l

/-- A packet is sent; none where it has no route. -/
def State.sendPacket (s : State) (dst pa : Nat) (p : List Byte) : Option State :=
  (s.routeOf dst pa).map fun l => s.enqueue l p

/-- An answer leaves by the port that its request came by, and so takes its plane (R408); where that port does not carry packets any
more, or is not known, by the route of its address. -/
def State.sendBack (s : State) (via : Option Nat) (dst pa : Nat) (p : List Byte) : State :=
  match via.filter s.portOk with
  | some l => s.enqueue l p
  | none => (s.sendPacket dst pa p).getD s

/-- A packet for another device goes on its way; a request without a route is rejected to its issuer (R407, R435). -/
def State.passOn (s : State) (via : Option Nat) (b : List Byte) : State :=
  let src := natAt b 4 2 % 2048
  match s.sendPacket (natAt b 2 2 % 2048) (natAt b 8 6) b with
  | some s1 => s1
  | none =>
    if isRequest (natAt b 0 1 % 16) then
      s.sendBack via src (natAt b 8 6) (packetBytes 8 0 0 src (natAt b 2 2 % 2048) (natAt b 6 2) 1 0 false false 0 [])
    else s

/-- A packet that cannot be sent: its issuer gets `REMOTEFATAL`. -/
def State.unsent (s : State) (b : List Byte) : State :=
  if natAt b 4 2 % 2048 = s.fab.dev.toNat then
    match s.findRemote (natAt b 2 2 % 2048) (natAt b 6 2) with
    | none => s
    | some r => if isRequest (natAt b 0 1 % 16) then (s.dropRemote r).remoteFatal r.packet (natAt b 2 2 % 2048) else s
  else s.passOn none b

/-- A packet that waited at a link is routed by the current table (R419, R435); a collimated store stays with its plane's port `l`. -/
def State.reroute (s : State) (l : Nat) (b : List Byte) : State :=
  if natAt b 0 1 % 16 = 9 then (if s.portOk l then s.enqueue l b else s)
  else
    match s.routeOf (natAt b 2 2 % 2048) (natAt b 8 6) with
    | some m => s.enqueue m b
    | none => s.unsent b

/-- A link fails: no packet waits at it any more; those that waited go by other routes, and the issuers of those that have none get
`REMOTEFATAL` (R408, R435). -/
def State.failLink (s : State) (l reason : Nat) : State :=
  let L := s.link l
  let s1 := (s.setLink l { L with waiting := [], state := .failed, since := s.ftime }).linkRecord l L.state .failed reason
  L.waiting.foldl (fun s b => s.reroute l b) s1

/-- A link sends what it may; it fails where a flit has been resent too often (R411). -/
def State.pump (s : State) (l : Nat) : State :=
  let s1 := s.pumped l
  if (s1.link l).lit && (s1.link l).spent then s1.failLink l 3 else s1

/-- A device's own capability word (R236): level 2. -/
def ownCaps : Word := 0x03FF7FFF

/-- The capability word of a level (R236). -/
def levelCaps (level : Nat) : Word := if level = 2 then 0x03FF7FFF else if level = 1 then 0x03E147FF else 0

/-- A capability packet to a device; an answer has TAG 1. -/
def State.capPacket (s : State) (dst link : Nat) (answer : Bool) : List Byte :=
  packetBytes 11 0 0 dst s.fab.dev.toNat (if answer then 1 else 0) (ownCaps.toNat + 2 ^ 32 * link + 2 ^ 40 * 2) 0 false true 0 []

/-- The capability table entry of a device is rewritten (R421). -/
def State.setCaps (s : State) (src : Nat) (w : Word) : State :=
  { s with fab := { s.fab with caps := sset 0 s.fab.caps src w } }

/-- A link or port has entered UP: every reachable device gets a capability packet. -/
def State.announce (s : State) (l : Nat) : State :=
  (List.range 2048).foldl (fun s d =>
    if d = s.fab.dev.toNat ∨ s.reachable d = false then s
    else (s.sendPacket d 0 (s.capPacket d l false)).getD s) s

/-! ### Commands (R418) -/

/-- Whether a link command acts in a state. -/
def cmdOk (cmd : Nat) (x : LState) : Bool :=
  match cmd with
  | 1 => decide (x = .down) || decide (x = .failed)
  | 2 => decide (x = .up)
  | 3 => decide (x = .drained)
  | 4 => decide (x = .held)
  | 5 => decide (x = .dark)
  | 6 => decide (x = .held)
  | 7 => true
  | _ => false

/-- A command in a state that does not list it sets CERR and changes nothing; an accepted one clears it. -/
def State.linkCmd (s : State) (l cmd : Nat) (f : State → State) : State :=
  let L := s.link l
  if cmdOk cmd L.state then f (s.setLink l { L with cerr := false }) else s.setLink l { L with cerr := true }

/-- An IDENT control flit: code 1, fabric id, link index, level, capability word, each at a place of its own (R409, R421; the manual
does not give the places: DESIGN CHOICE, log 83). -/
def State.identOut (s : State) (l : Nat) : Nat × Bool × List Byte :=
  (4, false, leBytes 1 1 ++ leBytes 1 2 ++ leBytes 2 s.fab.dev.toNat ++ leBytes 2 (l % 128) ++ leBytes 2 0 ++ leBytes 4 ownCaps.toNat)

/-- Both directions start again, and IDENT is sent; the banks' light is found afresh. -/
def State.startTrain (s : State) (l : Nat) (L : Link) : State :=
  let M : Link := { L.restart with since := s.ftime, lost := 0, dark := 0, absent := 0, ctl := [s.identOut l] }
  (s.setLink l (M.streamAt s.ftime)).pumped l

def State.linkTrain (s : State) (l : Nat) : State :=
  s.linkCmd l 1 fun s => s.startTrain l { s.link l with state := .train, banks := 0 }

/-- No further data flit leaves; a marker follows the last one. -/
def State.linkDrain (s : State) (l : Nat) : State :=
  s.linkCmd l 2 fun s => (s.setLink l { s.link l with state := .drain, since := s.ftime, marker := true }).pumped l

def State.linkHold (s : State) (l : Nat) : State := s.linkCmd l 3 fun s => s.setLState l .held
def State.linkDark (s : State) (l : Nat) : State := s.linkCmd l 4 fun s => s.setLState l .dark

def State.linkRelock (s : State) (l : Nat) : State :=
  s.linkCmd l 5 fun s => s.startTrain l { s.link l with state := .relock }

/-- Waiting packets and unacknowledged flits are discarded. -/
def State.linkDown (s : State) (l : Nat) : State :=
  s.linkCmd l 7 fun s => s.setLink l { (s.link l).restart with state := .down, since := s.ftime, waiting := [], banks := 0, rx := 0 }

def execTrain (l : Nat) (s : State) : Host.Outcome State Fault Refusal := .next (s.linkTrain l)
def execDrain (l : Nat) (s : State) : Host.Outcome State Fault Refusal := .next (s.linkDrain l)
def execHold (l : Nat) (s : State) : Host.Outcome State Fault Refusal := .next (s.linkHold l)
def execDark (l : Nat) (s : State) : Host.Outcome State Fault Refusal := .next (s.linkDark l)
def execRelock (l : Nat) (s : State) : Host.Outcome State Fault Refusal := .next (s.linkRelock l)
def execDown (l : Nat) (s : State) : Host.Outcome State Fault Refusal := .next (s.linkDown l)

/-! ### Training (R415, R416, R418, R421) -/

/-- The banks a link trains on: those of BANKEN whose module is there; a port has all. -/
def Link.trainBanks (L : Link) (l : Nat) : BitVec 3 := if l < 96 then L.banken &&& ~~~L.absent else 7

/-- The banks that a training receiver sees light on. -/
def Link.seen (L : Link) (l : Nat) : BitVec 3 := if l < 96 then ~~~L.dark else 7

/-- Training or relocking has found a partner whose IDENT has come: LPEER and the capability entry are written. A trained link is UP, a
relocked one HELD. -/
def State.trained (s : State) (l peer link level : Nat) (caps : Word) : State :=
  let L := s.link l
  let banks := L.trainBanks l
  let lpeer := BitVec.ofNat 32 (peer % 2048 + 2 ^ 11 * (link % 128) + 2 ^ 18 * (level % 4))
  let s1 := (s.setLink l { L.restart.streamAt s.ftime with lpeer := lpeer, banks := banks, rx := L.seen l }).setCaps (peer % 2048) caps
  if banks = 0 ∨ L.seen l = 0 then s
  else
    match L.state with
    | .train => ((s1.setLState l .up).linkRecord l .train .up 0).announce l
    | .relock => s1.setLState l .held
    | _ => s

/-- Training completes with a partner of a given level; its capability word is that of the level (R236). -/
def execTrainingComplete (l : Nat) (peer : BitVec 11) (link : BitVec 7) (level : BitVec 2) (s : State) :
    Host.Outcome State Fault Refusal :=
  .next (s.trained l peer.toNat link.toNat level.toNat (levelCaps level.toNat))

/-- Training or relocking has not ended within 1 ms. -/
def execTrainTimeout (l : Nat) (s : State) : Host.Outcome State Fault Refusal :=
  let L := s.link l
  if s.ftime < L.since + 1000000 then .next s
  else
    match L.state with
    | .train => .next (s.failLink l 1)
    | .relock => .next (s.failLink l 2)
    | _ => .next s

/-- The marker acknowledgement arrives. -/
def State.markerAck (s : State) (l : Nat) : State :=
  let L := s.link l
  if L.state = .drain ∧ L.marker = false then
    s.setLink l { L with state := .drained, since := s.ftime, mack := true, buf := [], resends := [] }
  else s

def execMarkerAck (l : Nat) (s : State) : Host.Outcome State Fault Refusal := .next (s.markerAck l)

/-- A port fails to carry its lanes: it is FAILED, and its waiting packets are routed around it (R408, R415). -/
def execPortDown (p : Nat) (s : State) : Host.Outcome State Fault Refusal :=
  let l := 96 + p % 8
  let L := s.link l
  match L.state with
  | .down => .next s
  | .failed => .next s
  | _ =>
    .next (s.failLink l 5)

/-! ### Restriping (R417) -/

/-- A restripe to a set of banks begins, with the stream started again over them; with none left the link fails. -/
def State.restripeTo (s : State) (l : Nat) (new : BitVec 3) : State :=
  if new = 0 then s.failLink l 4
  else (s.setLink l (({ s.link l with restripe := some new } : Link).streamAt s.ftime)).pumped l

/-- Loss of light on a bank is detected at the transmitter; while the link trains, the bank's module is absent (R416). -/
def execLossOfLight (l bank : Nat) (s : State) : Host.Outcome State Fault Refusal :=
  let L := s.link l
  let bit : BitVec 3 := BitVec.ofNat 3 (2 ^ bank)
  if l ≥ 96 ∨ bank ≥ 3 then .next s
  else if L.lit = true ∧ L.aim.getLsbD bank = true then
    .next ((s.setLink l { L with lost := L.lost ||| bit, losses := L.losses ++ [(bank, s.ftime)] }).restripeTo l (L.aim &&& ~~~bit))
  else if L.training then .next (s.setLink l { L with absent := L.absent ||| bit })
  else .next s

/-- BANKEN is written; a bank in use that it no longer names is left by the same restripe, without a LASER record. -/
def State.bankenWrite (s : State) (l : Nat) (m : BitVec 3) : State :=
  let L := s.link l
  let s1 := s.setLink l { L with banken := m, lost := if l < 96 ∧ L.lit = true then L.lost ||| (L.aim &&& ~~~m) else L.lost }
  if l < 96 ∧ L.lit = true ∧ L.aim &&& ~~~m ≠ 0 then s1.restripeTo l (L.aim &&& m) else s1

def execBankenClear (l : Nat) (mask : BitVec 3) (s : State) : Host.Outcome State Fault Refusal := .next (s.bankenWrite l mask)

/-- A LASER record for a lost bank. -/
def State.laserRecord (s : State) (l : Nat) (L : Link) (new : BitVec 3) (x : Nat × Nat) : State :=
  s.record 0 3 (leBytes 2 l ++ leBytes 1 x.1 ++ leBytes 1 (3 * (l / 12) + x.1) ++ leBytes 1 (L.banks.toNat + 16 * new.toNat) ++
    leBytes 1 0 ++ leBytes 2 (L.lpeer.toNat % 2048) ++ leBytes 2 L.lastAck.toNat ++ leBytes 2 L.nextSeq.toNat ++
    leBytes 8 x.2 ++ leBytes 28 0)

/-- The far end returns the RESTRIPE: the banks change, every buffered flit is resent, records are raised. -/
def State.restripeDone (s : State) (l : Nat) : State :=
  let L := s.link l
  match L.restripe with
  | none => s
  | some new =>
    let M := ({ L with banks := new, restripe := none, losses := [], restr := satAdd16 L.restr 1 } : Link).resend
    (L.losses.foldl (fun s x => s.laserRecord l L new x) (s.setLink l M)).pump l

def execRestripeDone (l : Nat) (s : State) : Host.Outcome State Fault Refusal := .next (s.restripeDone l)

/-- The receiver sees a bank dark. -/
def execLossOfSignal (l bank : Nat) (s : State) : Host.Outcome State Fault Refusal :=
  let L := s.link l
  if l < 96 ∧ bank < 3 ∧ (L.lit = true ∨ L.training = true) then
    .next (s.setLink l { L with dark := L.dark ||| BitVec.ofNat 3 (2 ^ bank) })
  else .next s

/-- The receiver takes a RESTRIPE flit that it has decoded under the set that the flit names: its own, or one made of whole banks of it
that it does not see dark; it decodes over that set from then on, and returns the RESTRIPE. -/
def State.restripeDecode (s : State) (l : Nat) (m : BitVec 3) : State :=
  let L := s.link l
  if L.lit = true ∧ m ≠ 0 ∧ m &&& ~~~L.rx = 0 ∧ (m = L.rx ∨ m &&& L.dark = 0) then
    (s.setLink l { L with rx := m, ctl := L.ctl ++ [(4, false, (restripeOut m).payload)] }).pump l
  else s

def execRestripeDecode (l : Nat) (mask : BitVec 3) (s : State) : Host.Outcome State Fault Refusal := .next (s.restripeDecode l mask)

/-! ### NAKs and time (R411, R422) -/

/-- A NAK is repeated every 1 µs while no progress is made. -/
def execNakRepeat (l : Nat) (s : State) : Host.Outcome State Fault Refusal :=
  let L := s.link l
  if L.nakked = true ∧ L.nakAt + 1000 ≤ s.ftime ∧ L.lit = true then .next ((s.setLink l (L.sendNak s.ftime)).pump l) else .next s

/-- The offset of fabric time from the master's, in ns, signed and saturating (R425). -/
def ftOffset (own master : Nat) : BitVec 16 :=
  BitVec.ofInt 16 (max (-32768) (min 32767 ((own : Int) - (master : Int))))

/-- Fabric time is measured against the master's, and locks; the first lock may step it forward once, before DSTATE becomes RUN. The
sign of the offset is own less master (DESIGN CHOICE, log 83). -/
def execFabricTimeLock (t : BitVec 64) (s : State) : Host.Outcome State Fault Refusal :=
  let s1 := { s with fab := { s.fab with ftErr := ftOffset s.ftime t.toNat, ftLock := true } }
  if s.fab.ftLock = false ∧ s.sys.dstate = .boot then .next { s1 with ftime := max s.ftime t.toNat } else .next s1

end Sys2Proof.Machine
end

