-- ==== Sys2Proof/Machine/Fabric.lean ====
section
/-! DEFINITION. Packets between devices (R225, R227, R236, R407, R413, R414), flits received (R411, R412, R431), the release of a held
link (R419), collimated stores (R157 to R160, R242, R243, R420) and capabilities (R421). -/

namespace Sys2Proof.Machine

/-! ### What a packet carries (R225) -/

/-- The bytes that the elements of a store leave on the line, by offset: a higher lane's bytes remain. -/
def lineBytes (l : List Elem) : List (Nat × Byte) :=
  l.foldl (fun m x => (leBytes x.size x.val).zipIdx.foldl (fun m b => aset m ((x.pa + b.2) % 128) b.1) m) []

/-- A byte mask and 128 data bytes. -/
def maskData (m : List (Nat × Byte)) : List Byte :=
  leBytes 16 ((m.map fun e => 2 ^ (e.1 % 128)).sum) ++ (List.range 128).map fun i => (aget m i).getD 0

/-- The width code of R221. -/
def widthCode (size : Nat) : Nat := Nat.log2 size

/-- The end of a packet's route: the device, a Collimator as 2048, and the home slice there. -/
def Packet.place (p : Packet) : Option Nat × Nat :=
  match p.op with
  | .mcst _ => (some 2048, 0)
  | _ => (p.target, homeSlice p.kind p.pa)

/-- The offset of an address in a group's window (R243, R414). -/
def State.windowOff (s : State) (g pa : Nat) : Nat := pa - (aget s.work.groups g).elim 0 (·.base)

/-- The bytes of a request to a peer (R414). The mask and data have one operand for each byte of the line: of the lanes of an atomic or a
reduction that share an address, the packet carries the highest lane's (DESIGN CHOICE, log 84). -/
def State.wire (s : State) (p : Packet) (dst : Nat) : List Byte :=
  let pa := p.pa / 128 * 128
  let mk (op aop w : Nat) (data : Bool) : List Byte :=
    packetBytes op aop w dst s.fab.dev.toNat (p.id % 65536) pa p.tenant.toNat data p.mgmt p.pri
      (if data then maskData (lineBytes p.elems) else [])
  match p.op with
  | .load => mk 1 0 0 false
  | .prefetch => mk 1 0 0 false
  | .watch => mk 1 0 0 false
  | .store => mk 3 0 0 true
  | .atom op => mk 4 op (widthCode p.size) true
  | .red op => mk 5 op (widthCode p.size) true
  | .mcst g =>
    packetBytes 9 0 0 dst s.fab.dev.toNat (p.id % 65536) (g.getD 0 + 2 ^ 16 * (s.windowOff (g.getD 0) pa % 2 ^ 32)) p.tenant.toNat true p.mgmt p.pri
      (maskData (lineBytes p.elems))

/-! ### The ends of a request -/

/-- A reply waits for acknowledgements that its route delivers first. -/
def Beam.pendAfter (b : Beam) (id : Nat) (l : List Nat) : Beam :=
  { b with pends := b.pends.map fun p => if p.id = id then { p with after := p.after ++ l } else p }

/-- The acknowledgements on their way from a place to a core. -/
def State.acksFrom (s : State) (place : Option Nat × Nat) (core : Nat) : List Nat :=
  (s.net.acks.filter fun a => decide (a.place = place) && decide (a.core = core)).map (·.id)

/-- A loaded value sets out for its lanes' registers (R228), behind the replies of its place that are on their way (R135); an
acquire at DV scope or wider drops the core's read-only cache (R123, R144). -/
def State.loadDone (s : State) (p : Packet) (vals : List (Nat × Word)) : State :=
  let s1 := match p.pend with
    | none => s
    | some i => s.modBeam p.src fun b => (b.pendAdd i vals 1).pendAfter i (s.acksFrom p.place p.core)
  if p.acq = true ∧ p.scope ≥ 2 then s1.roClear p.core else s1

/-- The registers of a packet's elements from the bytes of their line. -/
def Packet.regsFrom (p : Packet) (line : List Byte) : List (Nat × Word) :=
  p.elems.flatMap fun x => elemRegs x.reg x.lane x.size (lineVal line x.pa x.size) x.sx

/-- Old values of the lanes of an atomic, applied in ascending lane order from the bytes that the line held before
(R234). -/
def atomOlds (op : Nat) (m : List (Nat × Nat)) (l : List Elem) (first : Elem → Nat) : List (Elem × Nat) :=
  match l with
  | [] => []
  | x :: r =>
    let old := (aget m x.pa).getD (first x)
    (x, old) :: atomOlds op (aset m x.pa (atomNew op x.size old x.val x.cmp)) r first

/-- The registers of an atomic's lanes from the bytes that the line held. -/
def Packet.oldsFrom (p : Packet) (line : List Byte) : List (Nat × Word) :=
  let op := match p.op with | .atom n => n | _ => 0
  (atomOlds op [] p.elems fun x => lineVal line x.pa x.size).flatMap fun e => elemRegs e.1.reg e.1.lane e.1.size e.2 false

/-- An acknowledgement sets out for the beam that issued a counted packet (R148). -/
def State.ackPacket (s : State) (p : Packet) : State :=
  if p.op.counted ∧ p.job = none then
    { s with net := { s.net with acks := s.net.acks ++ [⟨p.id, p.src, p.sentAt, p.place, p.core, p.slack⟩] } }
  else s

/-- A request for another device is to leave, and waits for its answer; without a route its issuer gets `REMOTEFATAL`. -/
def State.remoteSend (s : State) (p : Packet) (dst : Nat) : State :=
  let s1 := if p.op = .prefetch then s else { s with net := { s.net with remotes := s.net.remotes ++ [⟨p, s.ftime⟩] } }
  match s1.sendPacket dst p.pa (s.wire p dst) with
  | none => s.remoteFatal p dst
  | some s2 => s2

/-! ### Answers -/

/-- Bytes that a job has read reach it: a gather keeps whole lines, by virtual line (R153). -/
def Job.took (j : Job) (va : Nat) (bytes : List Byte) : Job :=
  match j.kind with
  | .gather => { j with cache := j.cache ++ [(va / 128, bytes)] }
  | _ => { j with buf := j.buf ++ bytes }

/-- An answer with data: of a load, of an atomic, or to a job's read. -/
def State.answered (s : State) (r : Remote) (line : List Byte) : State :=
  let p := r.packet
  let s1 := s.dropRemote r
  match p.job with
  | some j =>
    if p.op.counted then s1.modJob j fun j => j.back p
    else s1.modJob j fun j => (j.back p).took (p.elems.headD Elem.init).va ((line.drop (p.pa % 128)).take p.size)
  | none =>
    match p.op with
    | .load => s1.loadDone p (p.regsFrom line)
    | .atom _ => (s1.loadDone p (p.oldsFrom line)).ackPacket p
    | _ => s1.ackPacket p

/-! ### Requests from other devices (R414) -/

/-- The running function that a tag names. -/
def State.runOwner (s : State) (t : BitVec 16) : Option Nat :=
  (s.regs.funcs.find? fun e => decide (e.2.ftag = t) && decide (e.2.state = .run)).map (·.1)

/-- The bytes of a masked line. -/
def maskedBytes (mask : Nat) (data : List Byte) : List (Nat × Byte) :=
  (List.range 128).filterMap fun i => if mask.testBit i then some (i, data.getD i 0) else none

/-- Bytes at offsets of a line as one run, from the lowest offset to the highest: what lies between keeps its present value. -/
def lineRun (present : Nat → Byte) (l : List (Nat × Byte)) : Nat × List Byte :=
  let lo := (l.map (·.1)).foldl Nat.min 128
  let hi := (l.map (·.1)).foldl (fun n i => Nat.max n (i + 1)) 0
  (lo, (List.range (hi - lo)).map fun i => (aget l (lo + i)).getD (present (lo + i)))

/-- Writes bytes at offsets of a line, in one write: a fetch meets each word as it was before or after it (R12, R122). -/
def State.writeLine (s : State) (k : PKind) (base : Nat) (l : List (Nat × Byte)) : State :=
  let m := if k = .host then s.hostMem else s.mem
  let run := lineRun (fun i => m.read (base + i)) l
  s.homeWrite k (base + run.1) run.2

/-- A remote atomic at its target: each whole element of the mask, in ascending address; the packet carries no compare value
(DESIGN CHOICE, log 9). -/
def State.remoteAtom (s : State) (op size base mask : Nat) (data : List Byte) : State :=
  (List.range (128 / Nat.max 1 size)).foldl (fun s i =>
    let at_ := i * size
    if (List.range size).all fun k => mask.testBit (at_ + k) then
      let old := s.mem.readNat (base + at_) size
      let cmp := (Config.freeWord s.free).toNat
      let new := atomNew op size old (natAt data at_ size) cmp
      { s.homeWrite (kindAt base) (base + at_) (leBytes size new) with free := s.free + 1 }
    else s) s

/-- A reject at the target: an answer by the port `via` that the request came by, and a report (R236, R383). -/
def State.rejectRequest (s : State) (via : Option Nat) (src tag pa reason : Nat) (owner : Option Nat) : State :=
  let f := owner.getD 0
  let s1 := s.sendBack via src pa (packetBytes 8 0 0 src s.fab.dev.toNat tag reason 0 false false 0 [])
  s1.report { kind := 3, cause := cREMOTEFATAL, arg := 0, beam := 0xFF, func := f, part := (s.func f).part.toNat, team := 0,
              core := 0, peer := src, graph := 0, node := 0, epc := 0, info := pa }

/-- A request is applied at its target, or rejected; the answer leaves by the port that it came by (R408). -/
def State.serve (s : State) (via : Option Nat) (b : List Byte) : State :=
  let op := natAt b 0 1 % 16
  let aop := natAt b 1 1 % 16
  let size := 2 ^ (natAt b 1 1 / 16 % 8)
  let src := natAt b 4 2 % 2048
  let tag := natAt b 6 2
  let pa := natAt b 8 6
  let base := pa / 128 * 128
  let owner := s.runOwner (BitVec.ofNat 16 (natAt b 14 2))
  let mask := natAt b 16 16
  let data := b.drop 32
  let answer (s : State) (op : Nat) (rest : List Byte) : State :=
    s.sendBack via src pa (packetBytes op 0 0 src s.fab.dev.toNat tag pa 0 (decide (rest ≠ [])) false 0 rest)
  let line (s : State) : List Byte := leBytes 16 (2 ^ 128 - 1) ++ s.mem.readBytes base 128
  match owner with
  | none => s.rejectRequest via src tag pa 1 none
  | some f =>
    if (s.part (s.func f).part.toNat).covers base 128 = false then s.rejectRequest via src tag pa 1 owner
    else if op = 1 then answer s 2 (line s)
    else if op = 3 then answer (s.writeLine (kindAt base) base (maskedBytes mask data)) 7 []
    else if ownCaps.getLsbD (if size = 8 then 16 + aop else aop) = false then s.rejectRequest via src tag pa 2 owner
    else
      let s1 := s.remoteAtom aop size base mask data
      if op = 4 then answer s1 6 (line s) else answer s1 7 []

/-! ### Collimated stores at this member -/

/-- The stamped store of the plane enters the member's queue (R157, R243); its stamp is the next one. -/
def State.stamped (s : State) (g stamp off : Nat) (l : List (Nat × Byte)) : State :=
  match aget s.work.groups g with
  | none => s
  | some G =>
    if stamp ≠ G.stamp + 1 then s
    else
      let x : Stamped := { stamp := stamp, line := (G.base + off) / 128, bytes := l, src := none, lanes := [] }
      { s with work := { s.work with groups := aset s.work.groups g { G with stamp := stamp, queue := G.queue ++ [x] } } }

/-- A packet belongs to an earlier instruction of the same beam. -/
def Packet.before (q p : Packet) : Bool := decide (q.src = p.src) && q.job.isNone && decide (q.sentAt < p.sentAt)

/-- Packets q and p are of one lane and one line. -/
def Packet.meets (q p : Packet) : Bool :=
  q.elems.any fun x => p.elems.any fun y => decide (x.lane = y.lane) && decide (lineOf x.pa = lineOf y.pa)

/-- An earlier access of the beam that comes before the stamping of a collimated store: a release at GP scope or wider, a collimated
store that goes to the group, or may (R158), a load of a lane's line (R140). -/
def Packet.stampFirst (q p : Packet) : Bool :=
  q.before p && ((q.after.isSome && decide (q.scope ≥ 3)) ||
    (match q.op with
     | .mcst g => decide (g = none) || decide (q.op = p.op)
     | .load => q.meets p
     | .watch => q.meets p
     | _ => false))

/-- Within one instruction, packets are stamped in ascending line address (R158). -/
def Packet.lineFirst (q p : Packet) : Bool :=
  decide (q.src = p.src) && q.job.isNone && decide (q.sentAt = p.sentAt) && decide (q.op = p.op) && decide (lineOf q.pa < lineOf p.pa)

/-- Lanes of the same instruction are in the operand log: their lines are not known, and may be lower (R158). A team that leaves its
core keeps them in the log, and what it has sent goes on (DEDUCED, log 74). -/
def State.lineUnknown (s : State) (g : LogEntry) (p : Packet) : Bool :=
  decide (g.packet.src = p.src) && g.packet.job.isNone && !g.retry && decide (g.packet.sentAt = p.sentAt) && g.packet.op.collimated &&
    (s.team? p.src.t).any Team.isResident

/-- Something comes before the stamping of a collimated store. -/
def State.beforeStamp (s : State) (p : Packet) : Bool :=
  (s.net.packets.any fun q => q.stampFirst p || q.lineFirst p) || (s.net.remotes.any fun r => r.packet.stampFirst p) ||
    (s.net.log.any fun g => g.packet.stampFirst p || s.lineUnknown g p) || (s.beam? p.src).elim false fun b => b.unsent.any fun q => q.stampFirst p

/-- The Collimator stamps the k-th packet in flight, which acknowledges it (R148, R158, R420); the stamped copy is on its way to
every member. -/
def execCollimatorStamp (g k : Nat) (s : State) : Host.Outcome State Fault Refusal :=
  match s.net.packets[k]?, aget s.work.groups g with
  | some p, some G =>
    if p.op ≠ .mcst (some g) ∨ s.beforeStamp p = true then .next s
    else
      let cut := { s with net := { s.net with packets := s.net.packets.eraseIdx k } }
      if s.collDead g then .next (cut.remoteFatal p 0)
      else if s.linkState (collPort g) ≠ .up then .next s
      else
        let x : Stamped := { stamp := G.stamp + 1, line := lineOf p.pa, bytes := lineBytes p.elems, src := some p.src,
                             lanes := p.elems.map (·.lane) }
        let s1 := { cut with work := { cut.work with
          groups := aset cut.work.groups g { G with stamp := G.stamp + 1, queue := G.queue ++ [x] } } }
        .next ((s1.enqueue (collPort g) (s.wire p 0)).ackPacket p)
  | _, _ => .next s

/-- A member applies the next stamped store to its replica and updates APPLIED (R243). -/
def execStampedApply (g : Nat) (s : State) : Host.Outcome State Fault Refusal :=
  match aget s.work.groups g with
  | none => .next s
  | some G =>
    match G.queue with
    | [] => .next s
    | x :: r =>
      let s1 := (s.writeLine .multicast (128 * x.line) x.bytes).homeWrite .multicast G.base (leBytes 8 x.stamp)
      .next { s1 with work := { s1.work with groups := aset s1.work.groups g { G with queue := r, applied := x.stamp } } }

/-! ### Packets received -/

/-- A capability packet is received: the entry is rewritten, and this device's own is sent back (R421). -/
def State.capability (s : State) (src : Nat) (w : Word) (answer : Bool) : State :=
  let s1 := s.setCaps src w
  if answer then s1 else (s1.sendPacket src 0 (s1.capPacket src 0 true)).getD s1

def execCapability (src : BitVec 11) (word : BitVec 32) (s : State) : Host.Outcome State Fault Refusal :=
  .next (s.capability src.toNat word false)

/-- A packet reaches this device (R414), by port or link `via` where that is known. -/
def State.receive (s : State) (via : Option Nat) (b : List Byte) : State :=
  let op := natAt b 0 1 % 16
  let src := natAt b 4 2 % 2048
  let tag := natAt b 6 2
  if natAt b 2 2 % 2048 ≠ s.fab.dev.toNat then s.passOn via b
  else if isRequest op then s.serve via b
  else if op = 2 ∨ op = 6 ∨ op = 7 then
    match s.findRemote src tag with
    | none => s
    | some r => s.answered r (b.drop 32)
  else if op = 8 then
    match s.findRemote src tag with
    | none => s
    | some r => (s.dropRemote r).remoteFatal r.packet src
  else if op = 10 then
    s.stamped (natAt b 8 2) (natAt b 16 8) (natAt b 10 4) (maskedBytes (natAt b 32 16) (b.drop 48))
  else if op = 11 then s.capability src (BitVec.ofNat 32 (natAt b 8 4)) (decide (tag = 1))
  else if op = 12 then s.gangReceive src b
  else if op = 9 then s
  else s.rejectRequest via src tag (natAt b 8 6) 1 none

def execPacketReceive (bytes : List (BitVec 8)) (s : State) : Host.Outcome State Fault Refusal := .next (s.receive none bytes)

/-- The packet of an outstanding request still waits at a link of this device (R419): it has not been sent. -/
def State.unsentYet (s : State) (r : Remote) : Bool :=
  s.fab.links.any fun e => r.isIn s.fab.dev.toNat e.2.waiting

/-- Whether the packet of a request to another group waits at the gateway of another member (R419), whose links this device does not
see: a free value of the request and the time (DESIGN CHOICE, log 80). -/
def State.heldElsewhere (s : State) (r : Remote) : Bool :=
  (r.packet.target.any fun d => decide (d / 32 ≠ s.fab.dev.toNat / 32)) && Config.heldElsewhere r.packet.id s.ftime

/-- A remote request that is not acknowledged 2 ms after it was sent. -/
def execRemoteTimeout (k : Nat) (s : State) : Host.Outcome State Fault Refusal :=
  match s.net.remotes[k]? with
  | none => .next s
  | some r =>
    if s.ftime < r.sentNs + 2000000 ∨ s.unsentYet r = true ∨ s.heldElsewhere r = true then .next s
    else .next ((s.dropRemote r).remoteFatal r.packet (r.packet.target.getD 0))

/-! ### The release of a held link (R419) -/

/-- Allowances resume, and the waiting packets are routed by the current table ahead of any later packet. -/
def State.linkRelease (s : State) (l : Nat) : State :=
  s.linkCmd l 6 fun s =>
    let L := s.link l
    let M : Link := { L with state := .up, since := s.ftime, mack := false, waiting := [] }
    let s3 := L.waiting.foldl (fun s b => s.reroute l b) (s.setLink l M.grant)
    (s3.linkRecord l .held .up 0).announce l

def execRelease (l : Nat) (s : State) : Host.Outcome State Fault Refusal := .next (s.linkRelease l)

/-! ### Flits received (R411, R412) -/

/-- The length of the packet at the head of a payload: a header alone, with mask and data, or with a stamp as well. -/
def packetLen (b : List Byte) : Nat :=
  let w := natAt b 0 1
  if w % 16 = 10 then 176 else if w / 16 % 2 = 1 then 160 else 16

/-- The whole packets of a payload; unused bytes are 0. -/
def packetsIn (n : Nat) (b : List Byte) : List (List Byte) :=
  match n with
  | 0 => []
  | n + 1 => if natAt b 0 16 = 0 then [] else b.take (packetLen b) :: packetsIn n (b.drop (packetLen b))

/-- An accepted sequenced flit comes into the receive buffer. -/
def Link.accept (L : Link) (type : Nat) (seq : BitVec 16) (payload : List Byte) : Link :=
  { L with exp := L.exp + 1, nakked := false, rxq := L.rxq ++ [(decide (type = 2), seq, payload)] }

/-- The oldest flit of the receive buffer is forwarded: a data flit's packets are received, and a further one is allowed; a marker, with
every flit ahead of it forwarded, is acknowledged (R412, R418). -/
def State.forward (s : State) (l : Nat) : State :=
  let L := s.link l
  match L.rxq with
  | [] => s
  | (true, _, _) :: r => (s.setLink l { L with rxq := r, ctl := L.ctl ++ [(3, false, [])] }).pump l
  | (false, seq, b) :: r =>
    ((packetsIn 11 b).foldl (State.receive · (some l)) (s.setLink l ({ L with rxq := r, fwd := seq } : Link).grant)).pump l

/-- The oldest n flits of a receive buffer are forwarded. -/
def State.forwardN (n l : Nat) (s : State) : State :=
  match n with
  | 0 => s
  | n + 1 => State.forwardN n l (s.forward l)

/-- A NAK, once until progress is made. -/
def State.nakOnce (s : State) (l : Nat) : State :=
  let L := s.link l
  if L.nakked then s else s.setLink l (L.sendNak s.ftime)

/-- What the ACK, ALLOW and NAK of a flit do to this end's sender; a NAK that arrives while a restripe is not yet returned is
applied for its ACK alone (R431). -/
def State.applyAck (s : State) (l : Nat) (ack allow : BitVec 16) (nak : Bool) : State :=
  let L := ({ (s.link l).ackTo ack with allowIn := allow } : Link)
  (s.setLink l (if nak && L.restripe.isNone then L.resend else L)).pump l

/-- A control flit decoded over the present bank set: a RESTRIPE ends a restripe of this end, or is that of a set that the receiver
already has and is returned; one that names another set is discarded (R417). -/
def State.controlFlit (s : State) (l : Nat) (payload : List Byte) : State :=
  let L := s.link l
  let m : BitVec 3 := BitVec.ofNat 3 (natAt payload 1 1)
  if natAt payload 0 1 ≠ 2 then s
  else if L.restripe = some m then s.restripeDone l
  else if m = L.rx then s.restripeDecode l m
  else s

/-- An IDENT flit that comes while the link trains completes the training (R418, R421). -/
def State.ident (s : State) (l : Nat) (b : List Byte) : State :=
  if natAt b 0 1 = 1 then s.trained l (natAt b 2 2) (natAt b 4 2) (natAt b 1 1) (BitVec.ofNat 32 (natAt b 8 4)) else s

/-- The sequenced flits of R411, and the others by TYPE. -/
def State.flitBody (s : State) (l type : Nat) (seq : BitVec 16) (payload : List Byte) : State :=
  let L := s.link l
  if type = 1 ∨ type = 2 then
    if seq = L.exp then s.setLink l (L.accept type seq payload)
    else if (seq - L.exp).toNat < 32768 then s.nakOnce l
    else s
  else if type = 3 then s.markerAck l
  else if type = 4 then s.controlFlit l payload
  else s

def execFlitReceive (l : Nat) (bytes : List (BitVec 8)) (s : State) : Host.Outcome State Fault Refusal :=
  let L := s.link l
  let h := natAt bytes 0 8
  let type := h / 2 ^ 48 % 16
  let payload := (bytes.drop 8).take 176
  let crcOk := decide ((crc64 (bytes.take 184)).toNat = natAt bytes 184 8)
  if bytes.length ≠ 192 then .next s
  else if L.training then (if crcOk = true ∧ type = 4 then .next (s.ident l payload) else .next s)
  else if L.lit = false then .next s
  else if crcOk = false then .next (((s.setLink l { L with crc := satAdd L.crc 1 }).nakOnce l).pump l)
  else if type > 4 then .next s
  else
    .next ((s.flitBody l type (BitVec.ofNat 16 h) payload).applyAck l (BitVec.ofNat 16 (h / 2 ^ 16)) (BitVec.ofNat 16 (h / 2 ^ 32))
      (decide (h / 2 ^ 52 % 2 = 1)))

end Sys2Proof.Machine
end

