-- ==== Sys2Proof/Machine/Regs.lean ====
section
/-! DEFINITION. The registers that the host writes: the PF's window (R392) with the partition, scheduler, Halo, power and link
blocks (R283, R353, R358, R361, R363, R370, R386, R404, R423 to R425), and each function's mailbox and event ring (R393, R427).
Offsets from 2^24 on name a function's BAR 0: 2^24 + 0x1000 × f. -/

namespace Sys2Proof.Machine

/-! ### Power (R132, R133, R404) -/

/-- Sets the end of a power request. -/
def State.pgEnd (s : State) (stat : BitVec 2) (busy : Bool) : State :=
  { s with regs := { s.regs with pgStat := stat, pgBusy := busy } }

/-- Some partition would be left with no ungated way of a slice. -/
def State.waysShort (s : State) (mask : BitVec 16) : Bool :=
  s.regs.parts.any fun e => decide (e.2.pway ≠ 0) && decide (e.2.pway &&& ~~~mask = 0)

/-- A gating request for a slice's ways: what was gated and is not any more wakes within 2 µs. -/
def State.gateWays (s : State) (unit : Nat) (mask : BitVec 16) : State :=
  if unit ≥ 128 then s.pgEnd 2 false
  else if s.waysShort mask then s.pgEnd 1 false
  else
    let old := sget 0 s.regs.ways unit
    let woken := decide (old &&& ~~~mask ≠ 0)
    let g := { s.regs with
      ways := sset 0 s.regs.ways unit mask
      waking := if woken then s.regs.waking ++ [(unit, s.clock + 1400)] else s.regs.waking }
    ({ s with regs := g }).pgEnd 0 woken

/-- Pool granules held on a core. -/
def State.heldGranules (s : State) (core : Nat) : Nat :=
  (s.teams.map fun e =>
    if e.2.core? = some core then (match s.gridOf e.2 with | some g => g.launch.pool4 | none => 0) else 0).sum

/-- Set bits. -/
def bitCount (n : Nat) (v : Nat) : Nat := ((List.range n).filter fun i => v.testBit i).length

/-- A gating request for sixteen granules of a core. Which granules the teams hold is not given: where they leave the choice
open it is free whether a named one is held (DESIGN CHOICE, log 2). -/
def State.gateGranules (s : State) (core grp : Nat) (mask : BitVec 16) : State :=
  if core ≥ 1024 ∨ grp ≥ 8 then s.pgEnd 2 false
  else
    let old := sget 0 s.regs.granules core
    let field : BitVec 128 := BitVec.ofNat 128 (0xFFFF * 2 ^ (16 * grp))
    let new : BitVec 128 := (old &&& ~~~field) ||| BitVec.ofNat 128 (mask.toNat * 2 ^ (16 * grp))
    let more := decide (new &&& ~~~old ≠ 0)
    let held := s.heldGranules core
    let open_ := more && decide (held ≠ 0)
    let s1 := if open_ then { s with free := s.free + 1 } else s
    if open_ = true ∧ (bitCount 128 new.toNat + held > 128 ∨ Config.choice s.free % 2 = 1) then s1.pgEnd 1 false
    else
      let woken := decide (old &&& ~~~new ≠ 0)
      let g := { s1.regs with
        granules := sset 0 s1.regs.granules core new
        waking := if woken then s1.regs.waking ++ [(128 + core, s.clock + 1400)] else s1.regs.waking }
      ({ s1 with regs := g }).pgEnd 0 woken

/-- A request that PGCTL starts with GO. -/
def State.pgGo (s : State) (kind grp unit : Nat) (mask : BitVec 16) : State :=
  if s.regs.pgBusy then s
  else if kind = 0 then s.gateWays unit mask
  else if kind = 1 then s.gateGranules unit grp mask
  else s.pgEnd 2 false

def execGateWays (unit : Nat) (mask : BitVec 16) (s : State) : Host.Outcome State Fault Refusal := .next (s.pgGo 0 0 unit mask)

def execGateGranules (core grp : Nat) (mask : BitVec 16) (s : State) : Host.Outcome State Fault Refusal :=
  .next (s.pgGo 1 grp core mask)

/-- Woken units become valid, at the latest 1,400 cycles after their request. -/
def execWakeDone (s : State) : Host.Outcome State Fault Refusal :=
  .next { s with regs := { s.regs with waking := [], pgBusy := false } }

/-! ### 64-bit registers -/

/-- Window blocks (R392). -/
def schedBlock : Nat := 0x010000
def haloBlock : Nat := 0x020000
def powerBlock : Nat := 0x030000
def linkBlock : Nat := 0x040000

/-- The function whose set of `size` bytes at `base` holds an offset, with the place in the set. -/
def setAt (off base size count : Nat) : Option (Nat × Nat) :=
  if base ≤ off ∧ off < base + size * count then some ((off - base) / size, (off - base) % size) else none

/-- A link or port and the place in its block (R423). -/
def linkAt (off : Nat) : Option (Nat × Nat) :=
  match setAt off linkBlock 0x40 96 with
  | some p => some p
  | none => (setAt off (linkBlock + 0x1800) 0x40 8).map fun p => (96 + p.1, p.2)

/-- A signed balance as its register shows it. -/
def balBits (b : Int) : Dword := BitVec.ofInt 64 b

/-- The 64-bit register that lies at an offset, as it reads. -/
def State.reg64 (s : State) (off : Nat) : Option Dword :=
  match setAt off 0x400 0x40 64, setAt off (schedBlock + 0x100) 0x40 64, setAt off haloBlock 0x100 2, linkAt off,
    setAt off (2 ^ 24) 0x1000 64 with
  | some (f, 0x08), _, _, _, _ => some (s.func f).asroot
  | some (f, 0x10), _, _, _, _ => some (s.func f).peert
  | _, some (f, 0x10), _, _, _ => some (balBits (s.func f).bal)
  | _, _, some (c, 0x08), _, _ => some (((s.chan c).sched.map (·.addr)).getD 0)
  | _, _, some (_, 0x10), _, _ => some 0
  | _, _, _, some (l, 0x20), _ => some (s.link l).tx
  | _, _, _, _, some (f, 0x00) => some (s.func f).mbcqb
  | _, _, _, _, some (f, 0x08) => some (s.func f).mbcpb
  | _, _, _, _, some (f, 0x40) => some (s.func f).evb
  | _, _, _, _, _ =>
    if off = 0x1808 then some s.regs.sdVa
    else if off = schedBlock + 0x80 then some s.regs.saveBase
    else if off = schedBlock + 0xA8 then some s.regs.gang.base
    else if off = schedBlock + 0xB0 then some s.regs.gang.epoch
    else if off = linkBlock + 0x3000 then some (BitVec.ofNat 64 s.ftime)
    else none

def State.setGang (s : State) (g : Gang) : State := { s with regs := { s.regs with gang := g } }

/-- A write of the whole 64-bit register at an offset. -/
def State.set64 (s : State) (off : Nat) (v : Dword) : State :=
  match setAt off 0x400 0x40 64, setAt off haloBlock 0x100 2, setAt off (2 ^ 24) 0x1000 64 with
  | some (f, 0x08), _, _ => s.writeAsroot f v
  | some (f, 0x10), _, _ => s.writePeert f v
  | _, some (c, 0x10), _ => s.hnextWrite c 0 v
  | _, _, some (f, 0x00) => if (s.func f).en then s else s.setFunc f { s.func f with mbcqb := v }
  | _, _, some (f, 0x08) => if (s.func f).en then s else s.setFunc f { s.func f with mbcpb := v }
  | _, _, some (f, 0x40) => if (s.func f).even_ then s else s.setFunc f { s.func f with evb := v }
  | _, _, _ =>
    let g := s.regs.gang
    if off = 0x1808 then { s with regs := { s.regs with sdVa := v } }
    else if off = schedBlock + 0x80 then
      (if s.grids = [] ∧ v.toNat % 65536 = 0 then { s with regs := { s.regs with saveBase := v } } else s)
    else if off = schedBlock + 0xA8 then (if g.en then s else s.setGang { g with base := v })
    else if off = schedBlock + 0xB0 then (if g.en then s else s.setGang { g with epoch := v })
    else s

/-! ### 32-bit registers, read -/

/-- MBSTAT of a function (R393). -/
def State.mbstat (s : State) (f : Nat) : Word :=
  let st := match (s.func f).state with | .off => 0 | .run => 1 | .reset => 2 | .drained => 3
  let d := match s.sys.dstate with | .boot => 0 | .run => 1 | .safe => 2
  BitVec.ofNat 32 (((s.sys.codes.map (·.toNat)).headD 0) * 2 ^ 16 + 4 * st + d)

def bit (b : Bool) (i : Nat) : Nat := if b then 2 ^ i else 0

def State.readPart (s : State) (p o : Nat) : Word :=
  let P := s.part p
  let r := (o - 0x10) / 8
  if o = 0 then P.pblk
  else if o = 4 then P.pway.setWidth 32
  else if 0x10 ≤ o ∧ o < 0x30 then (if o % 8 = 0 then (sget 0 P.base r).setWidth 32 else (sget 0 P.lim r).setWidth 32)
  else 0

def State.readFn (s : State) (f o : Nat) : Word :=
  let F := s.func f
  match o with
  | 0x00 => F.fcfg
  | 0x04 => F.ftag.setWidth 32
  | 0x18 => F.gen.setWidth 32
  | 0x1C => F.stale
  | 0x20 => F.hbmq
  | 0x24 => F.ftmo
  | _ => 0

def State.readBudget (s : State) (f o : Nat) : Word :=
  let F := s.func f
  match o with
  | 0x00 => F.refill
  | 0x04 => F.bcap
  | 0x08 => F.loan
  | 0x0C => F.dmax
  | 0x18 => BitVec.ofNat 32 F.debt
  | _ => 0

def State.readChan (s : State) (c o : Nat) : Word :=
  let C := s.chan c
  match o with
  | 0x00 => BitVec.ofNat 32 (2 * C.thr.toNat + bit C.run 0)
  | 0x18 => BitVec.ofNat 32 (C.sid.toNat * 2 ^ 16 + C.code.toNat * 256 + bit C.pend.isSome 1 + bit C.runs 0)
  | 0x1C => BitVec.ofNat 32 (C.psn.toNat * 2 ^ 16 + C.crcf.toNat)
  | _ => 0

def State.readLink (s : State) (l o : Nat) : Word :=
  let L := s.link l
  let banks := if l < 96 then L.banks.toNat else 7
  match o with
  | 0x00 => BitVec.ofNat 32 L.banken.toNat
  | 0x04 => BitVec.ofNat 32 (L.state.code * 2 ^ 28 + bit L.mack 27 + bit L.cerr 26 + banks * 2 ^ 23 + L.lost.toNat * 2 ^ 20)
  | 0x08 => L.lpeer
  | 0x0C => BitVec.ofNat 32 (L.lastAck.toNat * 2 ^ 16 + L.nextSeq.toNat)
  | 0x10 => L.crc
  | 0x14 => L.rpl
  | 0x18 => BitVec.ofNat 32 (L.naks.toNat * 2 ^ 16 + L.restr.toNat)
  | _ => 0

/-- A function's BAR 0. -/
def State.readBar (s : State) (f o : Nat) : Word :=
  let F := s.func f
  match o with
  | 0x10 => BitVec.ofNat 32 (bit F.irqen 27 + F.irqv.toNat * 2 ^ 16 + bit F.en 4 + F.log2n.toNat)
  | 0x14 => F.mbtail
  | 0x18 => F.mbhead
  | 0x1C => F.mbctail
  | 0x20 => F.mbchead
  | 0x24 => s.mbstat f
  | 0x48 => BitVec.ofNat 32 (bit F.evirqen 27 + F.evirqv.toNat * 2 ^ 16 + bit F.even_ 4 + F.evlog2n.toNat)
  | 0x4C => F.evtail
  | 0x50 => F.evhead
  | 0x54 => F.evlost
  | _ => 0

/-- The scheduler's own registers. -/
def State.readSched (s : State) (o : Nat) : Word :=
  let g := s.regs
  match o with
  | 0x00 => g.quantum
  | 0x04 => g.jcost
  | 0x08 => g.pcap
  | 0x0C => BitVec.ofNat 32 g.pool
  | 0x88 => g.saveLen
  | 0x90 => BitVec.ofNat 32 (bit g.preBusy 31 + g.prePart.toNat)
  | 0xA0 => BitVec.ofNat 32 (bit g.gang.err 1 + bit g.gang.en 0)
  | 0xB8 => g.gang.period
  | 0xBC => g.gang.count
  | _ => 0

/-- Every other register that is read as 32 bits; an unassigned offset reads 0 (R392). -/
def State.read32 (s : State) (off : Nat) : Word :=
  let g := s.regs
  match setAt off 0 0x40 12, setAt off 0x400 0x40 64, setAt off (schedBlock + 0x100) 0x40 64, setAt off haloBlock 0x100 2,
    linkAt off, setAt off (2 ^ 24) 0x1000 64 with
  | some (p, o), _, _, _, _, _ => s.readPart p o
  | _, some (f, o), _, _, _, _ => s.readFn f o
  | _, _, some (f, o), _, _, _ => s.readBudget f o
  | _, _, _, some (c, o), _, _ => s.readChan c o
  | _, _, _, _, some (l, o), _ => s.readLink l o
  | _, _, _, _, _, some (f, o) => s.readBar f o
  | _, _, _, _, _, _ =>
    if off = 0x1800 then BitVec.ofNat 32 (bit g.sdBusy 31 + g.sdMode.toNat * 2 ^ 18 + g.sdFunc.toNat * 2 ^ 12)
    else if off = 0x1810 then g.sdLen
    else if schedBlock ≤ off ∧ off < schedBlock + 0x100 then s.readSched (off - schedBlock)
    else if off = powerBlock then
      BitVec.ofNat 32 (bit g.pgBusy 31 + g.pgKind.toNat * 2 ^ 28 + g.pgGrp.toNat * 2 ^ 25 + g.pgUnit.toNat)
    else if off = powerBlock + 4 then g.pgMask.setWidth 32
    else if off = powerBlock + 8 then g.pgStat.setWidth 32
    else if linkBlock + 0x2000 ≤ off ∧ off < linkBlock + 0x2400 then sget 0 s.fab.routes ((off - linkBlock - 0x2000) / 4)
    else if off = linkBlock + 0x3008 then BitVec.ofNat 32 (s.fab.ftErr.toNat * 2 ^ 16 + bit s.fab.ftLock 0)
    else if linkBlock + 0x4000 ≤ off ∧ off < linkBlock + 0x6000 then sget 0 s.fab.caps ((off - linkBlock - 0x4000) / 4)
    else 0

/-! ### 32-bit registers, written -/

def State.writePart (s : State) (p o : Nat) (v : Word) : State :=
  let r := (o - 0x10) / 8
  if o = 0 then s.writePblk p v
  else if o = 4 then s.writePway p v
  else if 0x10 ≤ o ∧ o < 0x30 then (if o % 8 = 0 then s.writePrbase p r v else s.writePrlim p r v)
  else s

def State.writeFn (s : State) (f o : Nat) (v : Word) : State :=
  let F := s.func f
  match o with
  | 0x00 => s.writeFcfg f v
  | 0x04 => s.writeFtag f v
  | 0x1C => s.setFunc f { F with stale := 0 }
  | 0x20 => s.setFunc f { F with hbmq := v }
  | 0x24 => s.writeFtmo f v
  | _ => s

def State.writeBudget (s : State) (f o : Nat) (v : Word) : State :=
  let F := s.func f
  match o with
  | 0x00 => s.writeRefill f v
  | 0x04 => s.setFunc f { F with bcap := v }
  | 0x08 => s.setFunc f { F with loan := v }
  | 0x0C => s.setFunc f { F with dmax := v }
  | _ => s

def State.writeChan (s : State) (c o : Nat) (v : Word) : State :=
  match o with
  | 0x00 => (fun s => if v.getLsbD 0 then s.haloRun c else s.haloHalt c) (s.haloThr c (v.extractLsb' 1 5))
  | 0x1C => s.setChan c { s.chan c with psn := 0, crcf := 0 }
  | _ => s

/-- LCTL: BANKEN, and the command (R424). -/
def State.writeLctl (s : State) (l : Nat) (v : Word) : State :=
  let s1 := s.bankenWrite l (v.extractLsb' 0 3)
  match (v.extractLsb' 16 4).toNat with
  | 1 => s1.linkTrain l
  | 2 => s1.linkDrain l
  | 3 => s1.linkHold l
  | 4 => s1.linkDark l
  | 5 => s1.linkRelock l
  | 6 => s1.linkRelease l
  | 7 => s1.linkDown l
  | _ => s1

def State.writeLink (s : State) (l o : Nat) (v : Word) : State :=
  let L := s.link l
  match o with
  | 0x00 => s.writeLctl l v
  | 0x10 => s.setLink l { L with crc := 0 }
  | 0x14 => s.setLink l { L with rpl := 0 }
  | 0x18 => s.setLink l { L with restr := 0, naks := 0 }
  | _ => s

/-- MBCFG: IRQV and LOG2N are stored only while EN = 0; setting EN aligns both rings (R393). -/
def State.writeMbcfg (s : State) (f : Nat) (v : Word) : State :=
  let F := s.func f
  let n : BitVec 4 := v.extractLsb' 0 4
  let F1 := { F with irqen := v.getLsbD 27 }
  let F2 := if F.en then F1 else
    { F1 with irqv := v.extractLsb' 16 11, log2n := if 4 ≤ n.toNat ∧ n.toNat ≤ 12 then n else F.log2n }
  let F3 := if v.getLsbD 4 && !F.en then { F2 with mbhead := F.mbtail, mbctail := F.mbchead } else F2
  s.setFunc f { F3 with en := v.getLsbD 4 }

/-- MBTAIL: not stored where it would pass the ring's size. -/
def State.writeMbtail (s : State) (f : Nat) (v : Word) : State :=
  let F := s.func f
  if (v - F.mbhead).toNat > 2 ^ F.log2n.toNat then s else s.setFunc f { F with mbtail := v }

def State.writeMbchead (s : State) (f : Nat) (v : Word) : State := s.setFunc f { s.func f with mbchead := v }

/-- EVCFG: setting EN aligns the ring, clears EVLOST and begins SEQ again (R427, R428). -/
def State.writeEvcfg (s : State) (f : Nat) (v : Word) : State :=
  let F := s.func f
  let n : BitVec 4 := v.extractLsb' 0 4
  let F1 := { F with evirqen := v.getLsbD 27, evirqv := v.extractLsb' 16 11,
                     evlog2n := if 4 ≤ n.toNat ∧ n.toNat ≤ 12 then n else F.evlog2n }
  let F2 := if v.getLsbD 4 && !F.even_ then { F1 with evtail := F.evhead, evlost := 0, evseq := 0 } else F1
  s.setFunc f { F2 with even_ := v.getLsbD 4 }

def State.writeBar (s : State) (f o : Nat) (v : Word) : State :=
  match o with
  | 0x10 => s.writeMbcfg f v
  | 0x14 => s.writeMbtail f v
  | 0x20 => s.writeMbchead f v
  | 0x48 => s.writeEvcfg f v
  | 0x50 => s.setFunc f { s.func f with evhead := v }
  | _ => s

def State.writeSched (s : State) (o : Nat) (v : Word) : State :=
  let g := s.regs
  match o with
  | 0x00 => if 100 ≤ v.toNat ∧ v.toNat ≤ 1000000 then { s with regs := { g with quantum := v } } else s
  | 0x04 => { s with regs := { g with jcost := v } }
  | 0x08 => { s with regs := { g with pcap := v } }
  | 0x88 => { s with regs := { g with saveLen := v } }
  | 0x90 =>
    let p : BitVec 4 := v.extractLsb' 0 4
    let s1 := if p.toNat < 12 then { s with regs := { g with prePart := p } } else s
    if v.getLsbD 16 then s1.prectlGo s1.regs.prePart else s1
  | 0xA0 => if v.getLsbD 0 then s.gangEnable else s.gangDisable
  | 0xB8 => if g.gang.en then s else s.setGang { g.gang with period := v }
  | 0xBC => if g.gang.en then s else s.setGang { g.gang with count := v &&& 0x7F }
  | _ => s

/-- PGCTL: the fields are stored, and GO starts a request with PGMASK. -/
def State.writePgctl (s : State) (v : Word) : State :=
  let g := s.regs
  let s1 := { s with regs := { g with pgKind := v.extractLsb' 28 2, pgGrp := v.extractLsb' 25 3, pgUnit := v.extractLsb' 0 10 } }
  if v.getLsbD 30 then
    s1.pgGo (v.extractLsb' 28 2).toNat (v.extractLsb' 25 3).toNat (v.extractLsb' 0 10).toNat g.pgMask
  else s1

/-- Every register that is written as 32 bits; writes of unassigned offsets are ignored (R392). -/
def State.set32 (s : State) (off : Nat) (v : Word) : State :=
  match setAt off 0 0x40 12, setAt off 0x400 0x40 64, setAt off (schedBlock + 0x100) 0x40 64, setAt off haloBlock 0x100 2,
    linkAt off, setAt off (2 ^ 24) 0x1000 64 with
  | some (p, o), _, _, _, _, _ => s.writePart p o v
  | _, some (f, o), _, _, _, _ => s.writeFn f o v
  | _, _, some (f, o), _, _, _ => s.writeBudget f o v
  | _, _, _, some (c, o), _, _ => s.writeChan c o v
  | _, _, _, _, some (l, o), _ => s.writeLink l o v
  | _, _, _, _, _, some (f, o) => s.writeBar f o v
  | _, _, _, _, _, _ =>
    if off = 0x1800 then s.writeSdctl v
    else if off = 0x1810 then { s with regs := { s.regs with sdLen := v } }
    else if schedBlock ≤ off ∧ off < schedBlock + 0x100 then s.writeSched (off - schedBlock) v
    else if off = powerBlock then s.writePgctl v
    else if off = powerBlock + 4 then { s with regs := { s.regs with pgMask := v.extractLsb' 0 16 } }
    else if linkBlock + 0x2000 ≤ off ∧ off < linkBlock + 0x2400 then
      { s with fab := { s.fab with routes := sset 0 s.fab.routes ((off - linkBlock - 0x2000) / 4) v } }
    else s

/-! ### Accesses (R392, R426) -/

/-- A 32-bit read: a half of a 64-bit register, or a register. -/
def State.readReg (s : State) (off : Nat) : Word :=
  match s.reg64 off with
  | some v => v.extractLsb' 0 32
  | none =>
    if off % 8 = 4 then
      match s.reg64 (off - 4) with
      | some v => v.extractLsb' 32 32
      | none => s.read32 off
    else s.read32 off

/-- A naturally aligned 64-bit read. -/
def State.readWide (s : State) (off : Nat) : Dword :=
  match s.reg64 off with
  | some v => v
  | none => s.readReg (off + 4) ++ s.readReg off

/-- The offset is HNEXT of a channel. -/
def hnextAt (off : Nat) : Option Nat :=
  match setAt off haloBlock 0x100 2 with
  | some (c, 0x10) => some c
  | _ => none

/-- A 32-bit write: a half of a 64-bit register changes that half. -/
def State.writeReg (s : State) (off : Nat) (v : Word) : State :=
  match s.reg64 off with
  | some old =>
    match hnextAt off with
    | some c => s.hnextWrite c 1 (v.setWidth 64)
    | none => s.set64 off ((old.extractLsb' 32 32 : BitVec 32) ++ v)
  | none =>
    if off % 8 = 4 then
      match s.reg64 (off - 4) with
      | some old =>
        match hnextAt (off - 4) with
        | some c => s.hnextWrite c 2 (v.setWidth 64)
        | none => s.set64 (off - 4) (v ++ (old.extractLsb' 0 32 : BitVec 32))
      | none => s.set32 off v
    else s.set32 off v

/-- A naturally aligned 64-bit write: a 64-bit register whole, or two registers, the lower first. -/
def State.writeWide (s : State) (off : Nat) (v : Dword) : State :=
  match s.reg64 off with
  | some _ => s.set64 off v
  | none => (s.writeReg off (v.extractLsb' 0 32)).writeReg (off + 4) (v.extractLsb' 32 32)

/-- A register write of the host; any other access is ignored. -/
def execRegisterWrite (off : Nat) (wide : Bool) (v : Dword) (s : State) : Host.Outcome State Fault Refusal :=
  if wide then (if off % 8 = 0 then .next (s.writeWide off v) else .next s)
  else if off % 4 = 0 then .next (s.writeReg off (v.extractLsb' 0 32)) else .next s

/-- A write of any value to a counter. -/
def execCounterClear (off : Nat) (s : State) : Host.Outcome State Fault Refusal :=
  let counter := match linkAt off, setAt off haloBlock 0x100 2, setAt off 0x400 0x40 64 with
    | some (_, o), _, _ => decide (o = 0x10) || decide (o = 0x14) || decide (o = 0x18)
    | _, some (_, o), _ => decide (o = 0x1C)
    | _, _, some (_, o) => decide (o = 0x1C)
    | _, _, _ => false
  if counter then .next (s.set32 off 0) else .next s

def execMbcfgWrite (f : Nat) (v : Word) (s : State) : Host.Outcome State Fault Refusal := .next (s.writeMbcfg f v)
def execMbtailWrite (f : Nat) (v : Word) (s : State) : Host.Outcome State Fault Refusal := .next (s.writeMbtail f v)
def execMbcheadWrite (f : Nat) (v : Word) (s : State) : Host.Outcome State Fault Refusal := .next (s.writeMbchead f v)
def execEvcfgWrite (f : Nat) (v : Word) (s : State) : Host.Outcome State Fault Refusal := .next (s.writeEvcfg f v)

end Sys2Proof.Machine
end

