-- ==== Sys2Proof/Machine/Slice.lean ====
section
/-! DEFINITION. Packets at home slices (R120, R122, R135, R139, R140, R143, R371, R426), acknowledgements (R147), arbitration
(R136), watches (R241), walks (R365), and faulted lanes replayed (R372, R373). -/

namespace Sys2Proof.Machine

/-! ### When a packet may be served -/

/-- An earlier packet that reaches the same place first: one on the same route (R135), or a release of the same beam that is
still held, for its own line (R140). -/
def Packet.blocks (q p : Packet) : Bool :=
  !q.op.collimated && decide (q.place = p.place) &&
    (if q.after.isSome then decide (q.src = p.src) && decide (lineOf q.pa = lineOf p.pa) else decide (q.core = p.core))

/-- Something that the packet's beam did before it has not met the wait of its release (R142). -/
def State.beforeRelease (s : State) (p : Packet) : Bool := s.relHeld p.src p.sentAt (p.after.getD 0) p.scope

/-- A group of packets or lanes of an earlier instruction that goes to the packet's line has not been sent (R140). -/
def State.groupBefore (s : State) (p : Packet) : Bool :=
  p.job.isNone && (s.beam? p.src).elim false fun b => (b.unsentLines p.sentAt).contains (lineOf p.pa)

/-- A packet to which this one lost an arbitration at its home slice has not been served. -/
def State.outranked (s : State) (p : Packet) : Bool := s.net.packets.any fun q => p.behind.contains q.id

/-- The k-th packet may be served next. -/
def State.servable (s : State) (k : Nat) (p : Packet) : Bool :=
  !p.op.collimated && (s.net.packets.take k).all (fun q => !q.blocks p) && !s.groupBefore p && !s.outranked p &&
    (p.after.isNone || !s.beforeRelease p)

/-! ### Register accesses of device programs (R426) -/

/-- The accesses that the bytes of a packet form, in ascending offset: 64-bit where a whole aligned run is there. -/
def barRuns (has : Nat → Bool) : List (Nat × Bool) :=
  let all (i n : Nat) : Bool := (List.range n).all fun k => has (i + k)
  (List.range 16).flatMap fun i =>
    if all (8 * i) 8 then [(8 * i, true)]
    else (if all (8 * i) 4 then [(8 * i, false)] else []) ++ (if all (8 * i + 4) 4 then [(8 * i + 4, false)] else [])

/-- The offset in the register window. -/
def State.barOff (s : State) (pa : Nat) : Nat := pa - s.sys.bar2.getD 0

/-- A store to the window: `m` are the bytes by offset of the line at `base`. -/
def State.barStore (s : State) (base : Nat) (m : List (Nat × Byte)) : State :=
  let val (i n : Nat) : Nat := leNat ((List.range n).map fun k => (aget m (i + k)).getD 0)
  (barRuns fun i => (aget m i).isSome).foldl (fun s a =>
    if a.2 then s.writeWide (s.barOff (base + a.1)) (BitVec.ofNat 64 (val a.1 8))
    else s.writeReg (s.barOff (base + a.1)) (BitVec.ofNat 32 (val a.1 4))) s

/-- The line at `base` as a load of some of its bytes reads it. -/
def State.barLoad (s : State) (base : Nat) (has : Nat → Bool) : List Byte :=
  let put (m : List (Nat × Byte)) (a : Nat × Bool) : List (Nat × Byte) :=
    let bytes := if a.2 then leBytes 8 (s.readWide (s.barOff (base + a.1))).toNat
      else leBytes 4 (s.readReg (s.barOff (base + a.1))).toNat
    bytes.zipIdx.foldl (fun m b => aset m (a.1 + b.2) b.1) m
  let m := (barRuns has).foldl put []
  (List.range 128).map fun i => (aget m i).getD 0

/-! ### What a packet does at its home slice -/

/-- Offset i of the packet's line lies in one of its elements. -/
def Packet.covers (p : Packet) (i : Nat) : Bool :=
  p.elems.any fun x => decide (x.pa % 128 ≤ i) && decide (i < x.pa % 128 + x.size)

/-- The line that a packet reads. -/
def State.lineFor (s : State) (p : Packet) : List Byte :=
  let base := p.pa / 128 * 128
  if p.kind = .host ∧ s.inBar p.pa = true then s.barLoad base p.covers else s.homeRead p.kind base 128

/-- Writes the bytes of a packet's elements. -/
def State.storeLine (s : State) (p : Packet) : State :=
  let base := p.pa / 128 * 128
  if p.kind = .host ∧ s.inBar p.pa = true then s.barStore base (lineBytes p.elems)
  else s.writeLine p.kind base (lineBytes p.elems)

/-- The lanes' operations of an atomic, in ascending lane order (R234). -/
def State.atomLine (s : State) (op : Nat) (p : Packet) : State :=
  p.elems.foldl (fun s x =>
    s.homeWrite p.kind x.pa (leBytes x.size (atomNew op x.size (s.homeNat p.kind x.pa x.size) x.val x.cmp))) s

/-- The limit of the beam's watch has passed. -/
def State.watchOver (s : State) (r : Ref) : Bool :=
  match s.beam? r with
  | none => true
  | some b => match b.status with | .watch _ _ (some l) _ _ => decide (l ≤ s.clock) | _ => false

/-- Watches that a slice holds. -/
def State.watchesAt (s : State) (slice : Nat) : Nat :=
  (s.net.watches.filter fun w => decide (homeSlice w.kind w.pa = slice)).length

/-- The load of a watch reaches an uncorrectable error (R380): `WAITM`, which has done nothing, traps. -/
def State.watchPoison (s : State) (r : Ref) (pend va : Nat) : State :=
  match s.beam? r with
  | none => s
  | some b =>
    match b.status with
    | .watch p _ _ _ _ => if p = pend then (s.modBeam r Beam.withdraw).lateTrap r cPOISON 0 b.waitPc none 0 va else s
    | _ => s

/-- A watch arrives at its line's home slice. -/
def State.watchArrive (s : State) (p : Packet) : State :=
  let x := p.elems.headD Elem.init
  let v := s.homeNat p.kind x.pa x.size
  if s.badRange x.pa x.size then s.watchPoison p.src (p.pend.getD 0) x.va
  else if v ≠ x.val ∨ s.watchesAt (homeSlice p.kind x.pa) ≥ 64 ∨ s.watchOver p.src = true then s.watchReply p.src (p.pend.getD 0) v
  else
    let w : Watch := { who := .beam p.src (p.pend.getD 0), kind := p.kind, pa := x.pa, size := x.size, hit := false, va := x.va,
                       func := p.func, gen := p.gen, cut := false }
    { s with net := { s.net with watches := s.net.watches ++ [w] } }

/-- A packet is applied or read. -/
def State.applyPacket (s : State) (p : Packet) : State :=
  let base := p.pa / 128 * 128
  let fills := p.ro && (decide (p.kind = .hbm) || decide (p.kind = .cxl))
  match p.op with
  | .load =>
    let line := s.lineFor p
    (if fills then s.roFill p.core (lineOf base) line else s).loadDone p (p.regsFrom line)
  | .store => (s.storeLine p).ackPacket p
  | .atom op =>
    let line := s.homeRead p.kind base 128
    ((s.atomLine op p).loadDone p (p.oldsFrom line)).ackPacket p
  | .red op => (s.atomLine op p).ackPacket p
  | .prefetch => if fills then s.roFill p.core (lineOf base) (s.homeRead p.kind base 128) else s
  | .watch => s.watchArrive p
  | .mcst _ => s

/-- An access of a stale generation is dropped and counted (R371): a load returns zero, a counted packet is acknowledged. -/
def State.dropStale (s : State) (p : Packet) : State :=
  let F := s.func p.func
  let s1 := s.setFunc p.func { F with stale := satAdd F.stale 1 }
  match p.op with
  | .load => s1.loadDone p (p.regsFrom (List.replicate 128 0))
  | .atom _ => (s1.loadDone p (p.regsFrom (List.replicate 128 0))).ackPacket p
  | .watch => s1.watchReply p.src (p.pend.getD 0) 0
  | _ => s1.ackPacket p

/-- The k-th packet is served: at its home slice, or it leaves for its peer. -/
def State.servePacket (s : State) (k : Nat) (p : Packet) : State :=
  if s.servable k p = false then s
  else
    let cut := { s with net := { s.net with packets := s.net.packets.eraseIdx k } }
    if p.gen ≠ (cut.func p.func).gen then cut.dropStale p
    else
      match p.target with
      | some d => cut.remoteSend p d
      | none => cut.applyPacket p

/-! ### Acknowledgements (R147) -/

/-- The k-th acknowledgement reaches its beam, where none from the same place to the same core is before it (R135). -/
def execAcknowledgement (k : Nat) (s : State) : Host.Outcome State Fault Refusal :=
  match s.net.acks[k]? with
  | none => .next s
  | some a =>
    if (s.net.acks.take k).any (fun c => decide (c.place = a.place) && decide (c.core = a.core)) then .next s
    else
      .next (({ s with net := { s.net with acks := s.net.acks.eraseIdx k } }).modBeam a.src fun b => { b with orc := b.orc - 1 })

/-! ### Arbitration (R136, R137) -/

/-- What arbitration reads of a packet: whether it is of the management class with its cap open, its age, slack tag and priority,
and its turn in the round robin over the input ports. -/
structure Bid where
  mgmt  : Bool
  age   : Nat
  slack : Nat
  pri   : Nat
  turn  : Nat
  deriving DecidableEq, Repr

/-- The bid of a packet where port `last` has won last. The management class wins at most once in 8 mesh cycles, which are 4 cycles
of the clock (R2, R3). -/
def State.bid (s : State) (last : Nat) (p : Packet) : Bid :=
  let port := Config.inPort p.core p.slice % 8
  { mgmt := p.mgmt && (aget s.net.mgmtAt p.slice).all fun c => decide (c + 4 ≤ s.clock)
    age := p.age, slack := p.slack, pri := p.pri, turn := (port + 7 - last) % 8 }

/-- One bid is chosen before another whose packet reached the queue later. -/
def Bid.wins (a b : Bid) : Bool :=
  if a.mgmt ≠ b.mgmt then a.mgmt
  else if decide (a.age = 255) ≠ decide (b.age = 255) then decide (a.age = 255)
  else if a.age = 255 then true
  else if a.slack ≠ b.slack then decide (a.slack < b.slack)
  else if a.pri ≠ b.pri then decide (a.pri > b.pri)
  else decide (a.turn ≤ b.turn)

/-- The packets meet at the queue of one slice; where they go to several, it is at a router output on their way. -/
def oneSlice (l : List (Nat × Packet)) : Bool := l.all fun e => l.all fun f => decide (e.2.slice = f.2.slice)

/-- The input port that won last where the packets meet: as the slice's queue remembers it; of a router output it is a free value, since
no rule says which outputs there are on the way (DESIGN CHOICE, log 63). -/
def State.lastPort (s : State) (l : List (Nat × Packet)) : Nat :=
  if oneSlice l then (l.head?.map fun e => sget 0 s.net.turns e.2.slice).getD 0 else Config.choice s.free

/-- The winner among the packets of the given places. -/
def State.arbiter (s : State) (l : List (Nat × Packet)) : Option (Nat × Packet) :=
  l.foldl (fun (m : Option (Nat × Packet)) e =>
    match m with
    | none => some e
    | some w => if (s.bid (s.lastPort l) w.2).wins (s.bid (s.lastPort l) e.2) then some w else some e) none

/-- The packets that compete at one output or slice queue: those of the given places that wait for nothing else. -/
def State.rivals (s : State) (ks : List Nat) : List (Nat × Packet) :=
  ((List.range s.net.packets.length).filter ks.contains).filterMap fun k =>
    (s.net.packets[k]?).bind fun p => if s.servable k p then some (k, p) else none

/-- A router output or slice queue chooses one of the packets that wait there: the others grow older, and those of its slice are
served after it. -/
def execPacketArbitration (ks : List Nat) (s : State) : Host.Outcome State Fault Refusal :=
  let l := s.rivals ks
  match s.arbiter l with
  | none => .next s
  | some w =>
    let lost (k : Nat) (p : Packet) : Packet :=
      if (l.map (·.1)).contains k = true ∧ k ≠ w.1 then
        { p with age := Nat.min (p.age + 1) 255, behind := if p.place = w.2.place then p.behind ++ [w.2.id] else p.behind }
      else p
    .next { s with
      free := s.free + 1
      net := { s.net with
        packets := s.net.packets.mapIdx lost
        turns := if oneSlice l then sset 0 s.net.turns w.2.slice (Config.inPort w.2.core w.2.slice % 8) else s.net.turns
        mgmtAt := if (s.bid 0 w.2).mgmt then aset s.net.mgmtAt w.2.slice s.clock else s.net.mgmtAt } }

/-! ### Walks (R365, R369) -/

/-- A die walker translates an address of function f for a core; only a valid leaf is cached. -/
def execPageWalk (core f : Nat) (va : BitVec 64) (s : State) : Host.Outcome State Fault Refusal :=
  if core ≥ 1024 ∨ f ≥ 64 ∨ va.extractLsb' 56 8 ≠ 0 then .next s
  else
    match s.walk f (s.func f).part.toNat va.toNat with
    | .ok l _ => .next (s.walkFill core f va.toNat l)
    | _ => .next s

/-! ### The limit of a watch (R241) -/

/-- The watch is withdrawn and its location is read as a plain load for every active lane, under the translation of the watch (R371). -/
def State.watchLoad (s : State) (w : Watch) (r : Ref) (T : Team) (b : Beam) (mask : Word) (d pend : Nat) : State :=
  let c : Cast := { op := .load, pend := some pend, after := none, acq := false, scope := 0, ro := false, sx := false,
                    slack := Nat.min 3 (s.readySiblings r T.coreId).length, pc := b.waitPc }
  let elems := (lanes.filter (maskBit mask)).map fun l => (⟨l, w.va, w.pa, w.size, 0, 0, d, false⟩ : Elem)
  let key : PKey := ⟨none, lineOf w.pa, w.kind, sget 0 b.tenant (lowestLane b.lvm)⟩
  let p : Packet := { s.mkPacket r T c s.nextId key elems with func := w.func, gen := w.gen }
  let s1 := { s with nextId := s.nextId + 1 }
  if s.badRange w.pa w.size then s.watchPoison r pend w.va
  else if elems = [] then s1.modBeam r fun b => (b.pendAdd pend [] 1).awake s.clock
  else (s1.inject r [p]).modBeam r fun b => b.awake s.clock

def execWatchTimeout (k : Nat) (s : State) : Host.Outcome State Fault Refusal :=
  match s.net.watches[k]? with
  | none => .next s
  | some w =>
    match w.who with
    | .node _ _ => .next s
    | .beam r pend =>
      match s.team? r.t, s.beam? r with
      | some T, some b =>
        match b.status with
        | .watch p mask (some l) d _ =>
          if p ≠ pend ∨ s.clock < l then .next s
          else .next (({ s with net := { s.net with watches := s.net.watches.eraseIdx k } }).watchLoad w r T b mask d pend)
        | _ => .next s
      | _, _ => .next s

/-! ### Answers to translation faults (R373) -/

/-- The driver's answer, or none in time, holds for every entry of the page that waits for one. -/
def State.answerPage (s : State) (f va : Nat) (ok : Bool) : State :=
  let put (g : LogEntry) : LogEntry :=
    if g.func = f ∧ g.va / 65536 = va / 65536 ∧ g.answer = none ∧ g.upgrade = false then { g with answer := some ok } else g
  { s with net := { s.net with log := s.net.log.map put } }

def State.entry? (s : State) (id : Nat) : Option LogEntry := s.net.log.find? fun g => decide (g.id = id)

/-- No answer within FTMO; a page that is being migrated waits for none (R373). -/
def execFaultTimeout (id : Nat) (s : State) : Host.Outcome State Fault Refusal :=
  match s.entry? id with
  | none => .next s
  | some g =>
    if g.answer = none ∧ g.upgrade = false ∧ s.moving g.func g.va = false ∧ g.raised + 1000 * (s.func g.func).ftmo.toNat ≤ s.ftime then
      .next (s.answerPage g.func g.va false)
    else .next s

/-- The instruction behind an entry ends with a trap (R373); a job ends with its status. -/
def State.failEntry (s : State) (g : LogEntry) (cause peer : Nat) : State :=
  let r := g.packet.src
  match g.packet.job with
  | some j =>
    (s.dropLog fun h => decide (h.id = g.id)).modJob j fun j => { j with busy := none, status := if j.status = 0 then 2 else j.status }
  | none =>
    match s.beam? r with
    | none => s.dropLog fun h => decide (h.id = g.id)
    | some b =>
      if g.retry then
        ((s.dropLog fun h => decide (h.id = g.id)).setBeam r { b with status := .ready }).lateTrap r cause 0 b.pc none peer g.va
      else s.stopAccess r g.inst g.long g.packet.pc g.packet.sentAt g.packet.pend cause peer g.va

/-! ### Replay (R372, R373) -/

def POp.akind (o : POp) : AKind :=
  match o with
  | .load => .load
  | .store => .store
  | .atom _ => .atomic
  | .red _ => .atomic
  | .mcst _ => .mcst
  | .prefetch => .prefetch
  | .watch => .watch

def POp.atomOp (o : POp) : Option Nat :=
  match o with
  | .atom n => some n
  | .red n => some n
  | _ => none

/-- What the lanes of an entry have in common. -/
def LogEntry.cast (g : LogEntry) (op : POp) : Cast :=
  { op := op, pend := g.packet.pend, after := g.packet.after, acq := g.packet.acq, scope := g.packet.scope, ro := g.packet.ro,
    sx := g.packet.elems.any (·.sx), slack := g.packet.slack, pc := g.packet.pc }

/-- The groups of the lanes of a collimated store that are replayed, with that of its other lanes where it is known (R242). -/
def State.replayGroups (s : State) (g : LogEntry) (T : Team) (ok : List (Acc × Leaf × Nat)) : List Nat :=
  match g.packet.op with
  | .mcst n => (n.toList ++ ok.filterMap fun o => s.groupOf (s.funcOf T) o.2.1).dedup
  | _ => []

/-- The group of a collimated store is known to its entries that are still in the log. -/
def State.tellGroup (s : State) (inst : Nat) (op : POp) : State :=
  if op.collimated then
    { s with net := { s.net with log := s.net.log.map fun h =>
      if h.inst = inst then { h with packet := { h.packet with op := op } } else h } }
  else s

/-- The packets of an entry's lanes, in the place of their instruction. -/
def State.replayPackets (s : State) (g : LogEntry) (T : Team) (ok : List (Acc × Leaf × Nat)) : List Packet :=
  let op : POp := match g.packet.op with | .mcst _ => .mcst (s.replayGroups g T ok).head? | o => o
  (s.packetsOf g.packet.src T (g.cast op) ok).map fun p => { p with sentAt := g.packet.sentAt }

/-- Further groups of packets of an access. -/
def Long.grow (o : Long) (gs : List (List Packet)) : Long :=
  match o with
  | .coal i g r n => .coal i (g ++ gs) r n
  | o => o

/-- A long instruction takes its place in program order among those that run. -/
def insertLong (l : LongRun) (m : List LongRun) : List LongRun :=
  m.filter (fun x => decide (x.at_ ≤ l.at_)) ++ l :: m.filter fun x => decide (l.at_ < x.at_)

/-- The packets of lanes that are replayed are sent in groups of eight after those of their instruction (R226): one group at once, more
by a long instruction; entries of the same instruction that are left count them. -/
def State.sendReplay (s : State) (g : LogEntry) (ps : List Packet) : State :=
  let r := g.packet.src
  let new := chunks8 4 ps
  let told (sent : Nat) (h : LogEntry) : LogEntry :=
    if h.inst = g.inst ∧ h.of r = true then
      { h with long := h.long.map fun o => match o.grow new with | .coal i gs rest n => .coal i gs rest (n + sent) | o => o }
    else h
  let s1 := { s with nextId := s.nextId + ps.length, net := { s.net with log := s.net.log.map (told new.length) } }
  match s.beam? r with
  | none => s1
  | some b =>
    let grow (l : LongRun) : LongRun := if l.op.inst = some g.inst then { l with op := l.op.grow new } else l
    if b.longs.any (fun l => decide (l.op.inst = some g.inst)) then s1.modBeam r fun b => { b with longs := b.longs.map grow }
    else if new.length ≤ 1 then s1.inject r ps
    else
      let old := match g.long with | some (.coal _ gs _ _) => gs | _ => []
      s1.modBeam r fun b => { b with
        longs := insertLong ⟨g.packet.pc, g.packet.sentAt, s.clock, .coal g.inst (old ++ new) [] old.length⟩ b.longs }

/-- The lanes of an entry have passed the checks again: their packets are sent. -/
def State.replayOk (s : State) (g : LogEntry) (T : Team) (ok : List (Acc × Leaf × Nat)) : State :=
  let r := g.packet.src
  let ps := s.replayPackets g T ok
  let s1 := if g.packet.op.akind.writes then s.roDrop T.coreId (ok.map fun o => lineOf o.2.2) else s
  let s2 := s1.tellGroup g.inst ((ps.head?.map fun (p : Packet) => p.op).getD g.packet.op)
  ((s2.sendReplay g ps).unstall r).modBeam r fun (b : Beam) =>
    match g.packet.pend with
    | none => b
    | some i =>
      let more (q : Pend) : Pend := if q.id = i then { q with wait := q.wait + ps.length - 1 } else q
      { b with pends := b.pends.map more }

/-- The faulted lanes of an entry are replayed. -/
def State.replayLanes (s : State) (g : LogEntry) (T : Team) (b : Beam) : State :=
  let r := g.packet.src
  let k := g.packet.op.akind
  let s0 := s.dropLog fun h => decide (h.id = g.id)
  let bare := { s0 with net := { s0.net with log := [] } }
  match bare.memChecks r T b k g.packet.op.atomOp (g.packet.elems.map Elem.acc) with
  | .trap c _ => s.failEntry g c 0
  | .away _ p => s.failEntry g cREMOTEFATAL p
  | .go ok faulted s1 =>
    let s2 := { s1 with net := { s1.net with log := s0.net.log } }
    let rd := rdLanes k ok
    if faulted ≠ [] then s.failEntry g cMEMFAULT 0
    else if (s.replayGroups g T ok).length > 1 then s.failEntry g cPROT 0
    else if (s.replayPackets g T ok).any s.poisoned = true then s.failEntry g cPOISON 0
    else if rd ≠ [] then
      ((s2.logLanes r T (g.cast g.packet.op) g.inst k g.long true rd).logSentAt r g.inst g.packet.sentAt).modBeam r fun b =>
        { b with status := .upgrade }
    else if ok.any (s2.heldLoad r g.packet.sentAt k) = true then s
    else s2.replayOk g T ok

/-- An entry of the same core, of an instruction that issued earlier, is still in the log (R373). -/
def State.replayAfter (s : State) (g : LogEntry) : Bool :=
  let core (h : LogEntry) : Option Nat := (s.team? h.packet.src.t).bind Team.core?
  let runs (h : LogEntry) : Bool := (s.team? h.packet.src.t).any fun T => T.isResident && !T.stopped
  s.net.log.any fun h => h.packet.job.isNone && !h.retry && decide (h.inst < g.inst) && runs h && decide (core h = core g)

/-- The page behind an entry is still invalid. -/
def State.stillInvalid (s : State) (g : LogEntry) : Bool := decide (s.walk g.func g.packet.part g.va = .invalid)

/-- An answered entry of a resident team, or of a job, leaves the log. -/
def State.replayEntry (s : State) (id : Nat) : State :=
  match s.entry? id with
  | none => s
  | some g =>
    match g.answer with
    | none => s
    | some ok =>
      match g.packet.job with
      | some j =>
        if s.moving g.func g.va then s
        else if ok = false ∨ s.stillInvalid g = true then s.failEntry g cMEMFAULT 0
        else (s.dropLog fun h => decide (h.id = id)).modJob j fun j => { j with busy := none }
      | none =>
        match s.team? g.packet.src.t, s.beam? g.packet.src with
        | some T, some b =>
          if T.isResident = false ∨ T.stopped = true ∨ s.replayAfter g = true ∨ s.moving g.func g.va = true then s
          else if ok = false then s.failEntry g cMEMFAULT 0
          else if g.retry then
            (if s.stillInvalid g then s.failEntry g cMEMFAULT 0
             else (s.dropLog fun h => decide (h.id = id)).modBeam g.packet.src fun b => b.awake s.clock)
          else
            match g.kv with
            | some f => s.kvReplay g f T b fun c => s.failEntry g c 0
            | none => s.replayLanes g T b
        | _, _ => s

def execOperandLogReplay (id : Nat) (s : State) : Host.Outcome State Fault Refusal := .next (s.replayEntry id)

end Sys2Proof.Machine
end

