-- ==== Sys2Proof/Machine/Jobs.lean ====
section
/-! DEFINITION. Job engines (R151, R153, R265 to R269, R273 to R275, R278, R314, R315): the accesses of a job, one line at a
time, and its completion; and the service of packets and engine accesses at home slices. -/

namespace Sys2Proof.Machine

/-! ### Footprints and edges (R151, R268, R269) -/

/-- The lines of a job's global regions of one kind: first, and one past the last. -/
def Job.regions (j : Job) (w : Bool) : List (Nat × Nat) :=
  (j.fps.filter fun f => !fpSp f && decide (fpW f = w)).map fpLines

/-- Lines lo to hi - 1 lie in regions. -/
def covered (fuel : Nat) (l : List (Nat × Nat)) (lo hi : Nat) : Bool :=
  match fuel with
  | 0 => decide (hi ≤ lo)
  | n + 1 =>
    decide (hi ≤ lo) || (match l.find? fun r => decide (r.1 ≤ lo) && decide (lo < r.2) with
      | none => false
      | some r => covered n l r.2 hi)

/-- A range of bytes lies in the job's regions of a kind. -/
def Job.inside (j : Job) (w : Bool) (a n : Nat) : Bool :=
  decide (n = 0) || covered 5 (j.regions w) (a / 128) ((a + n - 1) / 128 + 1)

def inRegions (l : List (Nat × Nat)) (line : Nat) : Bool := l.any fun r => decide (r.1 ≤ line) && decide (line < r.2)

/-- An earlier job of the same scheduler and partition has an edge to this one at a line, and has not completed. -/
def State.edgeHeld (s : State) (j : Job) (line : Nat) : Bool :=
  (s.jobs.takeWhile fun e => decide (e.id ≠ j.id)).any fun e =>
    decide (e.die = j.die) && decide (e.part = j.part) &&
      ((inRegions (e.regions true) line && (inRegions (j.regions false) line || inRegions (j.regions true) line)) ||
        (inRegions (e.regions false) line && inRegions (j.regions true) line))

/-! ### One access of an engine -/

/-- The job ends with a status; it performs nothing more. -/
def State.failJob (s : State) (id code : Nat) : State :=
  s.modJob id fun j => if j.status = 0 then { j with status := code } else j

/-- A packet of an engine: engines move at DV scope (R135), with slack 3 and the priority of the grid, or of the function where a graph
sent the job (R137, R363). -/
def State.jobPacket (s : State) (j : Job) (op : POp) (target : Option Nat) (kind : PKind) (tenant : BitVec 16)
    (l : List Elem) : Packet :=
  let f := (s.ownerOf tenant).getD j.func
  { id := s.nextId, src := ⟨j.team.getD 0, j.beam⟩, core := j.core, func := f, tenant := tenant, gen := (s.func f).gen,
    part := j.part, kind := kind, target := target, op := op, elems := l, pend := none, after := none, acq := false, scope := 2, ro := false,
    mgmt := false, age := 0, behind := [], slack := 3,
    pri := (((j.team.bind s.team?).bind s.gridOf).elim (s.func j.func).tpri (·.tpri)).toNat, sentAt := s.clock, pc := 0, job := some j.id }

/-- A translation fault of an engine: the job waits for the answer. -/
def State.jobFault (s : State) (j : Job) (va : Nat) (write upgrade : Bool) : State :=
  let p := s.jobPacket j .load none .hbm j.tenant []
  let g : LogEntry :=
    { id := s.nextId, inst := s.nextId, core := j.core, packet := p, va := va, func := j.func, write := write, retry := true,
      fetch := false, raised := s.ftime, answer := none, upgrade := upgrade, stalls := false, long := none, kv := none }
  (s.logAdd g).modJob j.id fun j => { j with busy := some g.id }

/-- What an engine's address comes to: a page it may use, or the job's end or wait. -/
inductive Reach where
  | page (l : Leaf) (pa : Nat) (s : State)
  | stop (s : State)

/-- Translation and the checks of R119, R120, R266, R274, R362 and R426. -/
def State.jobReach (s : State) (j : Job) (va : Nat) (write : Bool) : Reach :=
  let coll := match j.kind with | .coll _ _ _ _ _ => true | _ => false
  if va / 2 ^ 56 ≠ 0 then .stop (s.failJob j.id 2)
  else
    match s.translate { lane := none, core := j.core, func := j.func, part := j.part } va with
    | (.invalid, s1) => .stop (s1.jobFault j va write false)
    | (.memfault, s1) => .stop (s1.failJob j.id 2)
    | (.prot, s1) => .stop (s1.failJob j.id 3)
    | (.ok l pa, s1) =>
      if l.tenant ≠ j.tenant ∨ (write = true ∧ (l.w = false ∨ l.kind = .multicast)) ∨
          (l.kind = .host ∧ (coll = true ∨ (s.inBar pa = true ∧ j.func ≠ 0))) then .stop (s1.failJob j.id 3)
      else if write = true ∧ l.rd = true then .stop (s1.jobFault j va write true)
      else .page l pa s1

/-- The peer that a page's address goes to, for a job. -/
def State.jobTarget (s : State) (j : Job) (va : Nat) (l : Leaf) : Option Nat :=
  s.targetOf j.func ⟨0, va, 1, 0, 0, 0⟩ l

/-- Reads n bytes of one line for the job. -/
def State.jobRead (s : State) (j : Job) (va n : Nat) : State :=
  match s.jobReach j va false with
  | .stop s1 => s1
  | .page l pa s1 =>
    let x : Elem := ⟨0, va, pa, n, 0, 0, 0, false⟩
    match s1.jobTarget j va l with
    | some d =>
      let p := s1.jobPacket j .load (some d) .peer l.tenant [x]
      let s2 := ({ s1 with nextId := s1.nextId + 1 }).modJob j.id fun j => { j with busy := some p.id }
      if s2.reachable d then s2.remoteSend p d else s2.remoteFatal p d
    | none =>
      if l.kind ≠ .host ∧ s1.net.badLines.contains (lineOf pa) = true then s1.failJob j.id 4
      else
        let bytes :=
          if l.kind = .host ∧ s1.inBar pa = true then
            ((s1.barLoad (pa / 128 * 128) fun i => decide (pa % 128 ≤ i) && decide (i < pa % 128 + n)).drop (pa % 128)).take n
          else s1.homeRead l.kind pa n
        s1.modJob j.id fun j => j.took va bytes

/-- The bytes by offset that a write of one line carries. -/
def lineMap (pa : Nat) (bytes : List Byte) : List (Nat × Byte) := bytes.zipIdx.map fun b => ((pa + b.2) % 128, b.1)

/-- Bytes of the head segment have been written. -/
def Job.wrote (j : Job) (n : Nat) : Job :=
  match j.segs with
  | [] => j
  | g :: r =>
    if g.len ≤ j.put + n then { j with segs := r, buf := [], put := 0, moved := j.moved + n }
    else { j with put := j.put + n, moved := j.moved + n }

/-- Writes bytes of one line; `wrote` is what that makes of the job. A write to another device is on its way until its acknowledgement
comes, and the job goes on (R265). -/
def State.jobWrite (s : State) (j : Job) (va : Nat) (bytes : List Byte) (wrote : Job → Job) : State :=
  match s.jobReach j va true with
  | .stop s1 => s1
  | .page l pa s1 =>
    let done (s : State) : State := s.modJob j.id wrote
    match s1.jobTarget j va l with
    | some d =>
      let p := s1.jobPacket j .store (some d) .peer l.tenant [⟨0, va, pa, bytes.length, leNat bytes, 0, 0, false⟩]
      let s2 := (done { s1 with nextId := s1.nextId + 1 }).modJob j.id fun j => { j with out := j.out ++ [p.id] }
      if s2.reachable d then s2.remoteSend p d else s2.remoteFatal p d
    | none =>
      if l.kind = .host ∧ s1.inBar pa = true then done (s1.barStore (pa / 128 * 128) (lineMap pa bytes))
      else done (s1.homeWrite l.kind pa bytes)

/-! ### Moves (R153, R273) -/

/-- Bytes from `a` to the end of its line, at most n. -/
def lineRest (a n : Nat) : Nat := Nat.min n (128 - a % 128)

/-- The destination line of the next write holds no source byte that has not been read. -/
def JSeg.clear (g : JSeg) (put have_ : Nat) : Bool :=
  let lo := (g.dst + put) / 128 * 128
  let hi := Nat.min (lo + 128) (g.src + g.len)
  decide (hi ≤ max lo g.src) || decide (hi ≤ g.src + have_)

/-- The queue slot that the job fills: acquired now if it can be (R277, R278). -/
def State.jobSlot (s : State) (j : Job) (f : Team → Nat → Nat → State → State) : State :=
  match j.team, j.queue with
  | some t, some q =>
    match s.team? t with
    | none => s
    | some T =>
      match j.slot with
      | some k => f T q k s
      | none =>
        if T.core? = none then s
        else
          match T.engineAcquire q with
          | none => s
          | some (k, T1) => f T1 q k ((s.setTeam t T1).modJob j.id fun j => { j with slot := some k })
  | _, _ => s

/-- An engine's fill of a core's scratchpad waits for granules that wake, where it meets one: which ones they are is not given
(R133, DESIGN CHOICE, log 64). -/
def State.fillWaits (s : State) (core : Nat) : Bool × State :=
  match s.wakeEnd core with
  | none => (false, s)
  | some w => if w ≤ s.clock then (false, s) else (decide (Config.choice s.free % 2 = 1), { s with free := s.free + 1 })

/-- Bytes of a job go into the slot of its queue, at an offset. -/
def State.slotWrite (s : State) (j : Job) (T : Team) (q k at_ : Nat) (bytes : List Byte) (wrote : Job → Job) : State :=
  let w := s.fillWaits T.coreId
  if w.1 then w.2
  else
    (w.2.modTeam (j.team.getD 0) fun U => { U with scratch := U.scratch.writeBytes ((T.queue q).offset k + at_) bytes }).modJob
      j.id wrote

/-- The next access of a copy, or a collective's results: a write where its bytes are there, else a read; free where
both may come next. -/
def State.jobMove (s : State) (j : Job) (g : JSeg) (queue : Bool) : State :=
  let have_ := j.buf.length
  let rn := lineRest (g.src + have_) (g.len - have_)
  let wn := lineRest (g.dst + j.put) (g.len - j.put)
  let canRead := decide (have_ < g.len) && !s.edgeHeld j (lineOf (g.src + have_))
  let canWrite := decide (j.put + wn ≤ have_) && (queue || (g.clear j.put have_ && !s.edgeHeld j (lineOf (g.dst + j.put))))
  let both := canRead && canWrite
  let s1 := if both then { s with free := s.free + 1 } else s
  let bytes := (j.buf.drop j.put).take wn
  if canWrite = true ∧ (both = false ∨ Config.choice s.free % 2 = 0) then
    (if queue then
      s1.jobSlot j fun T q k s => s.slotWrite j T q k j.put bytes fun j => j.wrote wn
    else s1.jobWrite j (g.dst + j.put) bytes fun j => j.wrote wn)
  else if canRead then s1.jobRead j (g.src + have_) rn
  else s1

/-- The head segment, its ranges checked before its first access (R269). -/
def State.jobSeg (s : State) (j : Job) (g : JSeg) : State :=
  let queue := j.queue.isSome
  if j.buf = [] ∧ j.put = 0 ∧ (j.inside false g.src g.len = false ∨ (queue = false ∧ j.inside true g.dst g.len = false)) then
    s.failJob j.id 1
  else if queue = true ∧ j.slot = none then s.jobSlot j fun _ _ _ s => s
  else s.jobMove j g queue

/-! ### Gathers (R153, R269, R273, R274) -/

/-- Bytes that a gather's buffer takes: as much of the head row as its cached line holds. -/
def Job.absorb (j : Job) (g : JSeg) (line : List Byte) : Job :=
  let a := g.src + j.put
  let n := lineRest a (g.len - j.put)
  let got := (line.drop (a % 128)).take n
  if g.len ≤ j.put + n then
    let rest := j.segs.drop 1
    let needs (l : Nat) : Bool := rest.any fun r => decide (r.src / 128 ≤ l) && decide (l ≤ (r.src + r.len - 1) / 128)
    { j with segs := rest, put := 0, buf := j.buf ++ got, cache := j.cache.filter fun e => needs e.1 }
  else { j with put := j.put + n, buf := j.buf ++ got }

/-- The bytes that a gather has still to write. -/
def Job.gatherLeft (j : Job) : Nat := j.buf.length + (j.segs.map (·.len)).sum - j.put

/-- The next access of a gather. Each line of its source is read once, whole; each line of its destination is written once, with the
bytes of every row that lies in it. A row is checked before it is read. -/
def State.gatherMove (s : State) (j : Job) : State :=
  let at_ := j.dst + j.moved
  let wn := lineRest at_ j.gatherLeft
  let canWrite := decide (0 < wn) && decide (wn ≤ j.buf.length) && !s.edgeHeld j (lineOf at_)
  let write (s : State) : State :=
    s.jobWrite j at_ (j.buf.take wn) fun j => { j with buf := j.buf.drop wn, moved := j.moved + wn }
  match j.segs with
  | [] => if canWrite then write s else s
  | g :: _ =>
    if j.put = 0 ∧ (j.inside false g.src g.len = false ∨ j.inside true g.dst g.len = false) then s.failJob j.id 1
    else
      let line := (g.src + j.put) / 128
      match aget j.cache line with
      | some bytes => s.modJob j.id fun j => j.absorb g bytes
      | none =>
        let canRead := !s.edgeHeld j line
        let s1 := if canRead && canWrite then { s with free := s.free + 1 } else s
        if canWrite = true ∧ (canRead = false ∨ Config.choice s.free % 2 = 0) then write s1
        else if canRead then s1.jobRead j (128 * line) 128
        else s1

/-! ### Collectives (R75, R79, R273) -/

/-- Bytes that a collective reads at this member, and writes. -/
def collSrc (op me len : Nat) : Nat := if op = 3 ∧ me ≠ 0 then 0 else len
def collDst (op n len : Nat) : Nat := if op = 1 then len / n else if op = 2 then n * len else len

/-- ring_sum (R75). -/
def ringSum (x : Nat → Word) (n start : Nat) : Word :=
  (List.range (n - 1)).foldl (fun acc k => addRne acc (x ((start + k + 1) % n))) (x (start % n))

/-- The word at byte k of a list. -/
def wordAt (l : List Byte) (k : Nat) : Word := BitVec.ofNat 32 (natAt l k 4)

/-- Result of a collective from every member's source: `src i` are member i's bytes. -/
def collResult (op n me len : Nat) (src : Nat → List Byte) : List Byte :=
  let c := len / n
  let sum (k : Nat) : List Byte := leBytes 4 (ringSum (fun i => wordAt (src i) k) n ((k / c + 1) % n)).toNat
  match op with
  | 0 => (List.range (len / 4)).flatMap fun w => sum (4 * w)
  | 1 => (List.range (c / 4)).flatMap fun w => sum (me * c + 4 * w)
  | 2 => (List.range n).flatMap src
  | _ => src 0

/-- The telemetry reference of a reduction: ascending member order (R79). An element's row is its chunk's number, its column the word's
number in the chunk: R81 names no rows and columns of a collective's tile (DESIGN CHOICE, log 65). -/
def collRef (op n me len : Nat) (src : Nat → List Byte) : List (Nat × Nat × Word) :=
  let c := len / n
  let words := if op = 0 then len / 4 else c / 4
  let at_ (w : Nat) : Nat := if op = 0 then 4 * w else me * c + 4 * w
  (List.range words).map fun w => (at_ w / c, at_ w % c / 4, ringSum (fun i => wordAt (src i) (at_ w)) n 0)

/-- A reduction's tile is counted on the engine that ran it, which is free (R265), and recomputed where `%tele` asks for it. The tiles
counted are those of OP 0 and 1, which alone sum (DEDUCED, log 65). -/
def State.collTele (s : State) (j : Job) (op : Nat) (result : List Byte) (ref : List (Nat × Nat × Word)) : State :=
  if op ≥ 2 then s
  else
    let unit := 8 * j.die + Config.choice s.free % 8
    let key := 64 * unit + j.func
    let seq := (aget s.work.collSeq key).getD 0
    let n : BitVec 4 := match j.team with | none => 0 | some t => (s.beam? ⟨t, j.beam⟩).elim 0 (·.tele)
    let s1 := { s with free := s.free + 1, work := { s.work with collSeq := aset s.work.collSeq key (seq + 1) } }
    if n = 0 ∨ seq % 2 ^ n.toNat ≠ 0 then s1
    else
      let got := ref.mapIdx fun w e => (e.1, e.2.1, wordAt result (4 * w))
      let q : TeleJob := { func := j.func, tenant := j.tenant, coll := true, unit := unit, seq := seq, tele := n, fmt := 4,
                           got := got, ref := ref }
      { s1 with work := { s1.work with teleq := s1.work.teleq ++ [q] } }

/-- The other members have arrived: their parts are free values (DESIGN CHOICE, log 11). -/
def State.collMeet (s : State) (j : Job) (op n me : Nat) : State :=
  let s1 := if n = 1 then s else { s with free := s.free + 1 }
  if n ≠ 1 ∧ Config.collMismatch s.free = true then s1.failJob j.id 6
  else
    let src (i : Nat) : List Byte := if i = me then j.buf else (List.range j.len).map fun k => Config.collByte s.free i k
    let out := collResult op n me j.len src
    let s2 := s1.collTele j op out (collRef op n me j.len src)
    s2.modJob j.id fun j => { j with got := true, buf := out, put := 0, segs := if out = [] then [] else [⟨0, j.dst, out.length⟩] }

/-- The next access of a collective. A ring that does not name this device at ME is a mismatch, looked at before the footprint is (DESIGN
CHOICE, log 81). -/
def State.collStep (s : State) (j : Job) (op n me : Nat) (ring : List Nat) : State :=
  let sn := collSrc op me j.len
  let have_ := j.buf.length
  if j.got then
    match j.segs with
    | [] => s
    | g :: _ => s.jobMove j { g with src := 0 } false
  else if ring.getD me 0 ≠ s.fab.dev.toNat then s.failJob j.id 6
  else if j.inside false j.from_ sn = false ∨ j.inside true j.dst (collDst op n j.len) = false then s.failJob j.id 1
  else
    match ring.find? fun i => decide (i ≠ s.fab.dev.toNat) && !s.reachable i with
    | some i => s.remoteFatal (s.jobPacket j .load (some i) .peer j.tenant []) i
    | none =>
      if have_ < sn then
        (if s.edgeHeld j (lineOf (j.from_ + have_)) then s
         else s.jobRead j (j.from_ + have_) (lineRest (j.from_ + have_) (sn - have_)))
      else s.collMeet j op n me

/-! ### Staging (R314, R315) -/

/-- An error of a staging job's translations. -/
def State.stageErr (s : State) (j : Job) (k : KErr) : State :=
  match k with
  | .fault va w => s.jobFault j va w false
  | .upgrade va => s.jobFault j va true true
  | .trap c _ => s.failJob j.id (if c = cMEMFAULT then 2 else 3)

/-- Bytes that the slot must hold. -/
def stageSize (n rb : Nat) : Nat := roundUp (n * rb) 128 + 4 * ((n + 31) / 32)

/-- The rows and the validity bitmap, from rows of `rb` bytes each followed by a validity byte. -/
def stageBytes (n rb : Nat) (l : List Byte) : List Byte :=
  let row (i : Nat) : List Byte := (l.drop (i * (rb + 1))).take (rb + 1)
  let rows := (List.range n).flatMap fun i => (row i).take rb
  let bit (i : Nat) : Nat := if i < n ∧ (row i).getD rb 0 ≠ 0 then 1 else 0
  let word (w : Nat) : Nat := ((List.range 32).map fun k => bit (32 * w + k) * 2 ^ k).sum
  rows ++ List.replicate (roundUp (n * rb) 128 - n * rb) 0 ++ (List.range ((n + 31) / 32)).flatMap fun w => leBytes 4 (word w)

/-- Memory as a job that holds lines sees it: those it has read are as it read them (R153). -/
def State.seen (s : State) (l : List (Nat × List Byte)) : State :=
  { s with mem := l.foldl (fun m e => m.writeBytes (128 * e.1) e.2) s.mem }

/-- Lines that a job reads now, beside those it holds. -/
def State.readLines (s : State) (held : List (Nat × List Byte)) (l : List Nat) : List (Nat × List Byte) :=
  held ++ (l.dedup.filter fun n => !(held.any fun e => decide (e.1 = n))).map fun n => (n, s.mem.readBytes (128 * n) 128)

/-- One position of a staging job, the slot of every head, with the lines that it reads: its block table entry's, its tag's and its
elements'. -/
def State.stageRow (s : State) (j : Job) (q : Requester) (d : KDesc) (pa : Nat) (v : Bool) (layer p : Nat) :
    Except KErr (KvLane × List Nat) :=
  let arg : KvArg :=
    { lane := 0, ctx := j.from_, tenant := d.tenant, pos := p, el := 0, layer := layer, high := 0, node := 0, unit := 0, v := v,
      width := 0, desc := none }
  let base : KvLane := { arg := arg, d := d, desc := pa, there := false, tag := 0, tagk := .hbm, els := [], gen := 0, vas := [] }
  if p ≥ d.pos then .ok (base, [])
  else
    match s.kvPa q d.tenant false (d.btb + 8 * (layer * d.nblk + p / d.bsize)), s.kvBlock q d layer p with
    | .error k, _ => .error k
    | _, .error k => .error k
    | .ok e, .ok none => .ok (base, [lineOf e.1])
    | .ok e, .ok (some blk) =>
      match s.kvEls q d false (d.tagVa blk p :: (List.range d.row).map fun i => d.elVa blk p i v) with
      | .error k => .error k
      | .ok [] => .ok (base, [lineOf e.1])
      | .ok (t :: els) =>
        let k : KvLane := { base with there := true, tag := t.1, tagk := t.2, els := els }
        .ok (k, lineOf e.1 :: k.lines)

/-- The reading of a staging job's descriptor, which it uses throughout (R295). -/
def Job.desc (j : Job) : KDesc := readDesc (Memory.writeBytes [] 0 (j.buf.take 128)) 0

/-- A staging job reads its descriptor, and waits for the frontier where WAITF asks for it: then it has performed the acquire of
`KVWAIT` (R315). The size of its slot is checked. -/
def State.stageOpen (s : State) (j : Job) (q : Requester) (waitf : Bool) (n p0 layer : Nat) : State :=
  match s.kvDesc q j.tenant false j.from_ with
  | .error k => s.stageErr j k
  | .ok (pa, d) =>
    let start (s : State) : State := s.modJob j.id fun j => { j with buf := s.mem.readBytes pa 128, cache := [(lineOf pa, s.mem.readBytes pa 128)] }
    let size := (j.team.bind s.team?).elim 0 fun T => (T.queue (j.queue.getD 0)).size
    if layer ≥ d.layers ∨ stageSize n (d.row * d.es) > size then s.failJob j.id 3
    else if waitf = false then start s
    else
      match s.kvFra q d false layer with
      | .error k => s.stageErr j k
      | .ok (fra, _) => if p0 + n ≤ s.mem.readNat fra 4 then start (s.roClear j.core) else s

/-- The next position of a staging job: its lines are read, but for those that the job holds. -/
def State.stageNext (s : State) (j : Job) (q : Requester) (v : Bool) (p0 layer : Nat) : State :=
  let d := j.desc
  let pa := 128 * (j.cache.head?.elim 0 (·.1))
  let o := s.seen j.cache
  match o.stageRow j q d pa v layer (p0 + j.put) with
  | .error k => s.stageErr j k
  | .ok (k, lines) =>
    let bad := k.bad s
    if k.committed = true ∧ bad = true then s.failJob j.id 4
    else
      let held := s.readLines j.cache lines
      let r := (s.seen held).kvSlot j.func k
      (if bad then s.specPoison j.func k else s).modJob j.id fun j =>
        { j with buf := j.buf ++ leBytes (d.row * d.es) r.2.1 ++ leBytes 1 (if r.1 then 1 else 0), put := j.put + 1, cache := held }

/-- The next step of a staging job: its slot, its descriptor, a position, the fill. The buffer holds the descriptor's bytes, then the
rows. -/
def State.stageStep (s : State) (j : Job) (v waitf : Bool) (n p0 layer : Nat) : State :=
  let q : Requester := { lane := none, core := j.core, func := j.func, part := j.part }
  if j.slot = none then s.jobSlot j fun _ _ _ s => s
  else if j.buf = [] then s.stageOpen j q waitf n p0 layer
  else if j.put < n then s.stageNext j q v p0 layer
  else if j.got then s
  else
    let rb := j.desc.row * j.desc.es
    s.jobSlot j fun T q k s =>
      s.slotWrite j T q k 0 (stageBytes n rb (j.buf.drop 128)) fun j => { j with got := true, moved := n * rb }

/-! ### Steps and completion -/

/-- The release of the job's issue is not met yet: it performs no access (R143, R152). -/
def State.jobAfter (s : State) (j : Job) : Bool :=
  j.after.any fun a => s.relHeld ⟨j.team.getD 0, j.beam⟩ a.1 a.2 2

/-- The next access of a job. -/
def State.jobStep (s : State) (j : Job) : State :=
  if j.status ≠ 0 ∨ j.busy.isSome = true ∨ s.jobAfter j = true then s
  else
    match j.kind with
    | .gather => s.gatherMove j
    | .coll op n me ring _ => s.collStep j op n me ring
    | .stage v w n p0 layer => s.stageStep j v w n p0 layer
    | _ => match j.segs with | [] => s | g :: _ => s.jobSeg j g

/-- One access at a home slice: the k-th packet, or the next access of a job. -/
def execSliceAccess (k : Nat) (s : State) : Host.Outcome State Fault Refusal :=
  match s.net.packets[k]? with
  | some p => .next (s.servePacket k p)
  | none =>
    match s.jobs[k - s.net.packets.length]? with
    | none => .next s
    | some j => .next (s.jobStep j)

/-- Every access of the job has been performed and acknowledged. -/
def Job.done (j : Job) : Bool :=
  decide (j.status = 0) && j.busy.isNone && decide (j.out = []) && (match j.kind with
    | .coll _ _ _ _ _ => j.got && decide (j.segs = [])
    | .stage _ _ _ _ _ => j.got
    | .gather => decide (j.segs = []) && decide (j.buf = [])
    | _ => decide (j.segs = []))

/-- The job waits for no access: a translation fault of a job that has ended is given up. -/
def State.jobQuiet (s : State) (j : Job) : Bool :=
  decide (j.out = []) && match j.busy with
    | none => true
    | some id => s.net.log.any fun g => decide (g.id = id) && decide (g.packet.job = some j.id)

/-- The queue slot status of a job's end (R277, R377). -/
def slotStatus (status : Nat) : Nat := if status = 0 then 0 else if status = 5 then 2 else 1

/-- The team's side of a completion: its slot is committed, its status kept (R274). -/
def Team.jobDone (T : Team) (j : Job) : Team :=
  let w : Word := BitVec.ofNat 32 (j.status * 2 ^ 28 + j.handle)
  let T1 := match j.queue, j.slot with
    | some q, some k => T.commit q k (slotStatus j.status) (j.handle % 2 ^ 24)
    | _, _ => T
  { T1 with
    stats := if handleAge j.handle T1.nextH < 64 then aset T1.stats j.handle w else T1.stats
    unseen := if 1 ≤ j.status ∧ j.status ≤ 4 then T1.unseen ++ [w] else T1.unseen }

/-- Changes a node of a replay. -/
def State.modNode (s : State) (r n : Nat) (f : Node → Node) : State :=
  match aget s.work.replays r with
  | none => s
  | some R =>
    match aget R.nodes n with
    | none => s
    | some N => { s with work := { s.work with replays := aset s.work.replays r { R with nodes := aset R.nodes n (f N) } } }

/-- The k-th job completes: it leaves its scheduler, is charged (R354), and its beam or node can observe it. -/
def execJobComplete (k : Nat) (s : State) : Host.Outcome State Fault Refusal :=
  match s.jobs[k]? with
  | none => .next s
  | some j =>
    if j.done = false ∧ (j.status = 0 ∨ s.jobQuiet j = false) then .next s
    else
      let s1 := ({ s with jobs := s.jobs.eraseIdx k }).dropLog fun g => decide (g.packet.job = some j.id)
      let s2 := s1.charge j.func ((j.moved + 1023) / 1024 * s.regs.jcost.toNat)
      let s3 := match j.team with
        | none => s2
        | some t => s2.modTeam t fun T => T.jobDone j
      match j.node with
      | none => .next s3
      | some (r, n) =>
        let s4 := s3.modNode r n fun N => { N with state := .complete }
        .next (if j.status = 0 then s4 else s4.failReplay r 8 n)

end Sys2Proof.Machine
end

