-- ==== Sys2Proof/Machine/Replay.lean ====
section
/-! DEFINITION. Command graphs (R342 to R350): replays, their nodes and the grids that they launch; replies to watches
(R241, R346). -/

namespace Sys2Proof.Machine

/-! ### Memory as the mailbox and the command processor see it (R345, R395) -/

/-- The pieces of a range that lie in one line each: address and length. -/
def linePieces (fuel va n : Nat) : List (Nat × Nat) :=
  match fuel with
  | 0 => []
  | m + 1 => if n = 0 then [] else (va, lineRest va n) :: linePieces m (va + lineRest va n) (n - lineRest va n)

def pieces (va n : Nat) : List (Nat × Nat) := linePieces (n / 128 + 2) va n

/-- The page of an address for function f: statuses 2 and 3 are FAULT and PROT (R396). -/
def State.funcPage (s : State) (f : Nat) (ok : Leaf → Bool) (va : Nat) : Except Nat (Leaf × Nat) :=
  if va / 2 ^ 56 ≠ 0 then .error 2
  else
    match s.walk f (s.func f).part.toNat va with
    | .invalid => .error 2
    | .memfault => .error 2
    | .prot => .error 3
    | .ok l pa => if l.tenant = (s.func f).ftag ∧ ok l = true then .ok (l, pa) else .error 3

/-- The pieces of a range, translated; every page is checked before any access. -/
def State.funcRange (s : State) (f : Nat) (ok : Leaf → Bool) (va n : Nat) : Except Nat (List (Leaf × Nat × Nat)) :=
  (pieces va n).mapM fun p =>
    match s.funcPage f ok p.1 with
    | .error c => .error c
    | .ok (l, pa) => .ok (l, pa, p.2)

def Leaf.isMem (l : Leaf) : Bool := decide (l.kind = .hbm) || decide (l.kind = .cxl)

/-- Bytes read through function f's table. -/
def State.funcRead (s : State) (f : Nat) (ok : Leaf → Bool) (va n : Nat) : Except Nat (List Byte) :=
  match s.funcRange f ok va n with
  | .error c => .error c
  | .ok l => .ok (l.flatMap fun x => s.homeRead x.1.kind x.2.1 x.2.2)

/-- Writes bytes through translated pieces. -/
def State.funcStore (s : State) (l : List (Leaf × Nat × Nat)) (bytes : List Byte) : State :=
  match l with
  | [] => s
  | x :: r => (s.homeWrite x.1.kind x.2.1 (bytes.take x.2.2)).funcStore r (bytes.drop x.2.2)

/-- The graph header's place: its page was checked when the replay was queued. -/
def State.graphPa (s : State) (f : Nat) (va : Nat) : Option (Leaf × Nat) :=
  match walkFrom s.mem 4 (s.func f).asroot.toNat va with
  | .leaf l => some (l, l.pa va)
  | _ => none

/-- Writes bytes of a graph header. -/
def State.graphWrite (s : State) (f va : Nat) (bytes : List Byte) : State :=
  match s.graphPa f va with
  | none => s
  | some (l, pa) => s.homeWrite l.kind pa bytes

/-! ### Replays (R343, R345) -/

def State.replay? (s : State) (r : Nat) : Option Replay := aget s.work.replays r
def State.setReplay (s : State) (r : Nat) (R : Replay) : State :=
  { s with work := { s.work with replays := aset s.work.replays r R } }

/-- The replays of function f, queued or running. -/
def State.replaysOf (s : State) (f : Nat) : Nat := (s.work.replays.filter fun e => decide (e.2.func = f)).length

/-- A replay is queued (R345): all 64 slots are copied. -/
def State.queueReplay (s : State) (f : Nat) (graph : Dword) : State :=
  let R : Replay := { func := f, graph := graph, started := false, slots := (s.func f).slots, prio := 0, nodes := [], code := 1,
                      node := 0xFFFF, order := s.nextId }
  ({ s with nextId := s.nextId + 1 }).setReplay s.nextId R

/-- The header keeps R343. -/
def headerOk (h : List Byte) : Bool :=
  decide (1 ≤ natAt h 0 2) && decide (natAt h 0 2 ≤ 256) && decide (natAt h 2 1 < 4) && decide (natAt h 3 1 = 0) &&
    decide (natAt h 16 48 = 0)

/-- Patch word i of a node. -/
def patchWord (b : List Byte) (i : Nat) : Nat := natAt b (24 + 4 * i) 4

/-- Replaces bytes of a list. -/
def patchBytes (l : List Byte) (off : Nat) (v : List Byte) : List Byte := l.take off ++ v ++ l.drop (off + v.length)

/-- One patch: a slot's low half, or the whole slot. -/
def applyPatch (slots : List (Nat × Dword)) (b : List Byte) (i : Nat) : List Byte :=
  let w := patchWord b i
  let v := (sget 0 slots (w % 64)).toNat
  let off := 64 + 4 * (w / 256 % 32)
  if w / 2 ^ 13 % 2 = 1 then (if off % 8 = 0 then patchBytes b off (leBytes 8 v) else b) else patchBytes b off (leBytes 4 v)

/-- The command processor's own copy of a node, patched. -/
def patched (slots : List (Nat × Dword)) (b : List Byte) : List Byte :=
  (List.range (Nat.min 8 (natAt b 3 1))).foldl (applyPatch slots) b

/-- A node as it is read; one that cannot be read holds zeros. -/
def State.readNode (s : State) (f graph n : Nat) : List Byte :=
  match s.funcRead f Leaf.isMem (graph + 64 + 192 * n) 192 with
  | .ok b => b
  | .error _ => List.replicate 192 0

/-- An earlier replay of the same graph has not ended. -/
def State.graphBusy (s : State) (R : Replay) : Bool :=
  s.work.replays.any fun e => decide (e.2.func = R.func) && decide (e.2.graph = R.graph) && decide (e.2.order < R.order)

/-- A queued replay of function f is applied: header and nodes are read, CODE = 1 is written. -/
def State.startReplay (s : State) (r : Nat) (R : Replay) : State :=
  let g := R.graph.toNat
  let f := R.func
  match s.graphPa f g with
  | none => s.setReplay r { R with started := true, code := 2 }
  | some (l, pa) =>
    let h := s.homeRead l.kind pa 64
    let nodes := (List.range (natAt h 0 2)).map fun n => (n, ({ bytes := patched R.slots (s.readNode f g n), state := .waiting,
                                                                failed := false, polled := 0 } : Node))
    let s1 := s.graphWrite f (g + 4) (leBytes 2 0xFFFF ++ [0, 1])
    if R.code > 1 ∨ headerOk h = false then
      s1.setReplay r { R with started := true, code := if R.code > 1 then R.code else 2 }
    else s1.setReplay r { R with started := true, prio := natAt h 2 1, nodes := nodes }

def execReplayStart (f : Nat) (s : State) : Host.Outcome State Fault Refusal :=
  if s.sys.dstate ≠ .run then .next s
  else
    match s.work.replays.find? fun e => decide (e.2.func = f) && !e.2.started && !s.graphBusy e.2 with
    | none => .next s
    | some (r, R) => .next (s.startReplay r R)

/-! ### Nodes (R344, R346, R349, R350) -/

/-- Every dependency of a node, direct or indirect. -/
def Replay.depsOf (R : Replay) (fuel : Nat) (l : List Nat) : List Nat :=
  match fuel with
  | 0 => l
  | n + 1 => R.depsOf n (l ++ l.flatMap fun i => (aget R.nodes i).elim [] Node.deps).dedup

/-- The fields of a node header (code 2). -/
def Replay.headOk (R : Replay) (n : Nat) (N : Node) : Bool :=
  let patch (i : Nat) : Bool :=
    let w := patchWord N.bytes i
    decide (w < 2 ^ 14) && decide (w / 64 % 4 = 0) && (decide (w / 2 ^ 13 % 2 = 0) || decide (w / 256 % 2 = 0))
  decide (1 ≤ N.kind) && decide (N.kind ≤ 4) && decide (N.ndep ≤ 8) && decide (N.npatch ≤ 8) &&
    (N.deps.all fun i => decide (i < n)) && (List.range N.npatch).all patch && decide (natAt N.bytes 4 4 = 0) &&
    decide (natAt N.bytes 56 8 = 0) &&
    (decide (N.kind ≠ 1) || decide (N.pnode = 0xFF) ||
      (match aget R.nodes N.pnode with
       | none => false
       | some M => decide (M.kind = 1) && decide (N.pnode ≠ n) && !(R.depsOf 256 N.deps).contains N.pnode))

/-- A node is refused: it completes at once with a code. -/
def State.refuse (s : State) (r n code : Nat) : State :=
  (s.modNode r n fun N => { N with state := .complete, failed := true }).failReplay r code n

/-- A started replay's node that may start now. -/
def State.nodeAt (s : State) (r n : Nat) : Option (Replay × Node) :=
  match s.replay? r with
  | none => none
  | some R =>
    match aget R.nodes n with
    | none => none
    | some N => if R.ready n N = true ∧ s.sys.dstate = .run then some (R, N) else none

/-! ### LAUNCH (R91, R101, R102, R347, R348) -/

/-- The launch record in a node body. -/
def readLaunch (b : List Byte) : Launch :=
  let x := natAt b 14 1
  { gx := natAt b 0 4, gy := natAt b 4 4, gz := natAt b 8 4, np := natAt b 12 1, nc := natAt b 13 1, preg := x % 8,
    creg := x / 8 % 8, paired := decide (x / 64 % 2 = 1), tele := BitVec.ofNat 4 (natAt b 15 1), pool := BitVec.ofNat 32 (natAt b 16 4),
    tvec := BitVec.ofNat 32 (natAt b 20 4), pentry := BitVec.ofNat 64 (natAt b 24 8), centry := BitVec.ofNat 64 (natAt b 32 8),
    image := BitVec.ofNat 64 (natAt b 40 8), tenant := BitVec.ofNat 16 (natAt b 48 2), gang := natAt b 50 2,
    nrange := natAt b 52 4, ranges := BitVec.ofNat 64 (natAt b 56 8) }

/-- Teams of a grid. -/
def Launch.count (l : Launch) : Nat := l.gx * l.gy * l.gz

/-- Bytes of one team's save area (R387). -/
def Launch.area (l : Launch) : Nat := 163840 + 16384 * l.pool4 + 4096 * poolAcc l.pool

/-- The record's own fields (code 2). -/
def launchFields (b : List Byte) : Bool :=
  let l := readLaunch b
  decide (1 ≤ l.gx) && decide (1 ≤ l.gy) && decide (1 ≤ l.gz) && decide (l.count < 2 ^ 32) && decide (l.np ≤ 16) &&
    decide (l.nc ≤ 16) && decide (1 ≤ l.np + l.nc) && decide (l.np + l.nc ≤ 16) && (decide (l.np ≠ 0) || decide (l.preg = 0)) &&
    (decide (l.nc ≠ 0) || decide (l.creg = 0)) && decide (natAt b 14 1 < 128) && decide (natAt b 15 1 < 16) &&
    decide (l.tvec.toNat % 4 = 0) && decide (l.nrange ≤ 4096) && decide (l.ranges.toNat % 16 = 0) && decide (natAt b 64 64 = 0)

/-- The pool word (R102) and the save area (code 3). -/
def State.poolOk (s : State) (l : Launch) : Bool :=
  decide (l.pool.toNat < 2 ^ 18) && decide (poolScr l.pool ≤ 128) && decide (poolAcc l.pool ≤ 16) && decide (poolNq l.pool ≤ 8) &&
    decide (l.pool4 ≤ 128) && decide (l.area ≤ 65536 * s.regs.saveLen.toNat)

def imageSize : Nat := 16512

/-- The macro image, if the function can read all of it. -/
def State.readImage (s : State) (f : Nat) (va : Dword) : Option (List Byte) :=
  match s.funcRead f Leaf.isMem va.toNat imageSize with
  | .ok b => some b
  | .error _ => none

/-- The image of a launch (code 5). -/
def State.imageOk (s : State) (f : Nat) (va : Dword) : Bool :=
  decide (va = 0) || (decide (va.toNat % 128 = 0) && (match s.readImage f va with
    | none => false
    | some b => (List.range 128).all fun i => decide (natAt b (16384 + i) 1 ≤ 32)))

/-- A role's entry PC (code 6). -/
def entryOk (beams : Nat) (e : Dword) : Bool :=
  if beams = 0 then decide (e = 0) else decide (e ≠ 0) && decide (e.toNat % 4 = 0) && decide (e.toNat < 2 ^ 56)

/-- The first check of R349 that a launch fails; 0 where it passes all. -/
def State.launchCode (s : State) (f : Nat) (b : List Byte) : Nat :=
  let l := readLaunch b
  let F := s.func f
  if launchFields b = false then 2
  else if s.poolOk l = false then 3
  else if l.paired = true ∧ l.count % 2 = 1 then 4
  else if s.imageOk f l.image = false then 5
  else if entryOk l.np l.pentry = false ∨ entryOk l.nc l.centry = false then 6
  else if l.tenant ≠ F.ftag ∧ F.tar = false then 7
  else 0

/-- The range list of a grid: base and length; entries that cannot be read, or break R348, are left out. -/
def State.readRanges (s : State) (f : Nat) (l : Launch) : List (Nat × Nat) :=
  (List.range l.nrange).filterMap fun i =>
    match s.funcRead f Leaf.isMem (l.ranges.toNat + 16 * i) 16 with
    | .error _ => none
    | .ok e =>
      let base := natAt e 0 8
      if base % 65536 = 0 ∧ natAt e 8 4 ≥ 1 ∧ natAt e 12 4 = 0 then some (base, 65536 * natAt e 8 4) else none

/-- The tiles of a function are counted afresh from the start of its context: that of a grid while no other grid of it runs (R79,
DEDUCED, log 65). -/
def State.seqStart (s : State) (f : Nat) : State :=
  if s.runsGrid f then s
  else
    { s with
      cores := s.cores.map fun e => (e.1, { e.2 with engSeq := e.2.engSeq.filter fun q => decide (q.1 ≠ f) })
      work := { s.work with collSeq := s.work.collSeq.filter fun q => decide (q.1 % 64 ≠ f) } }

/-- The grid becomes running (R346, R376). -/
def State.startGrid (s : State) (r n : Nat) (R : Replay) (N : Node) : State :=
  let F := s.func R.func
  let l := readLaunch N.body
  let G : Grid :=
    { func := R.func, part := F.part.toNat, replay := r, node := n, launch := l,
      producer := if N.pnode = 0xFF then none else some N.pnode, next := 0, retired := 0, fatal := false, prio := R.prio,
      cap := F.cap.toNat, trap := F.cmode, tar := F.tar, tpri := F.tpri, mark := s.nextId, order := R.order, ranges := s.readRanges R.func l }
  let s0 := s.seqStart R.func
  let s1 := if s0.grids = [] then { s0 with net := { s0.net with codeOld := [] } } else s0
  (({ s1 with nextId := s1.nextId + 1 }).setGrid s1.nextId G).modNode r n fun N => { N with state := .started }

/-- A LAUNCH node starts; a node of no known kind is refused here. -/
def execNodeLaunch (r n : Nat) (s : State) : Host.Outcome State Fault Refusal :=
  match s.nodeAt r n with
  | none => .next s
  | some (R, N) =>
    if N.kind = 2 ∨ N.kind = 3 ∨ N.kind = 4 then .next s
    else if R.headOk n N = false then .next (s.refuse r n 2)
    else
      let code := s.launchCode R.func N.body
      if code ≠ 0 then .next (s.refuse r n code) else .next (s.startGrid r n R N)

/-! ### JOB -/

/-- A JOB node's card keeps R346. -/
def nodeCardOk (b : List Byte) (c : Card) : Bool :=
  c.copyOk && !c.qdst && (c.fps.all fun f => !fpSp f) && decide (natAt b 64 64 = 0)

/-- A JOB node starts, as the budget allows (R355): its job goes to die 0's scheduler. -/
def execNodeJob (r n : Nat) (s : State) : Host.Outcome State Fault Refusal :=
  match s.nodeAt r n with
  | none => .next s
  | some (R, N) =>
    if N.kind ≠ 2 then .next s
    else
      let c := cardAt (Memory.writeBytes [] 0 (N.body.take 64)) 0
      if s.mayDispatch R.func = false then .next s
      else if R.headOk n N = false ∨ nodeCardOk N.body c = false then .next (s.refuse r n 2)
      else
        let F := s.func R.func
        let j : Job :=
          { id := s.nextId, die := 0, core := 0, team := none, beam := 0, node := some (r, n), handle := 0, func := R.func,
            part := F.part.toNat, tenant := F.ftag, kind := .copy, len := c.len, from_ := c.src, dst := c.dst, fps := c.fps,
            queue := none, slot := none, segs := [⟨c.src, c.dst, c.len⟩], buf := [], cache := [], put := 0, moved := 0, busy := none, out := [],
            after := none, addedAt := s.clock, got := false, status := 0 }
        .next (({ s with jobs := s.jobs ++ [j], nextId := s.nextId + 1 }).modNode r n fun N => { N with state := .started })

/-! ### WAIT and SIGNAL -/

def Node.addr (N : Node) : Nat := natAt N.body 0 8
def Node.value (N : Node) : Nat := natAt N.body 8 8
def Node.flags (N : Node) : Nat := natAt N.body 16 1
def Node.size (N : Node) : Nat := if N.flags / 2 % 2 = 1 then 8 else 4

/-- The location satisfies the condition of a WAIT. -/
def Node.met (N : Node) (v : Nat) : Bool :=
  let w := N.value % 2 ^ (8 * N.size)
  if N.flags % 2 = 1 then decide (v = w) else decide (w ≤ v)

/-- The check of a WAIT's or SIGNAL's address, in the order of R349's table: a refusal code, or its page. Another tenant's leaf that the
function may not reach either has code 7. -/
def State.nodeAddr (s : State) (f : Nat) (N : Node) (write add : Bool) : Except Nat (Leaf × Nat) :=
  if N.addr % N.size ≠ 0 ∨ N.addr / 2 ^ 56 ≠ 0 then .error 2
  else
    match s.walk f (s.func f).part.toNat N.addr with
    | .ok l pa =>
      if (l.isMem = false ∧ l.kind ≠ .host) ∨ (add = true ∧ l.kind = .host) ∨ (write = true ∧ l.w = false) ∨
        (l.kind = .host ∧ s.inBar pa = true ∧ f ≠ 0) then .error 2
      else if l.tenant ≠ (s.func f).ftag then .error 7
      else .ok (l, pa)
    | _ =>
      match walkFrom s.mem 4 (s.func f).asroot.toNat N.addr with
      | .leaf l => .error (if l.tenant ≠ (s.func f).ftag then 7 else 2)
      | _ => .error 2

/-- A read by the command processor. -/
def State.cpRead (s : State) (l : Leaf) (pa n : Nat) : Nat :=
  if l.kind = .host ∧ s.inBar pa = true then
    natAt (s.barLoad (pa / 128 * 128) fun i => decide (pa % 128 ≤ i) && decide (i < pa % 128 + n)) (pa % 128) n
  else s.homeNat l.kind pa n

/-- A write by the command processor. -/
def State.cpWrite (s : State) (l : Leaf) (pa : Nat) (bytes : List Byte) : State :=
  if l.kind = .host ∧ s.inBar pa = true then s.barStore (pa / 128 * 128) (lineMap pa bytes) else s.homeWrite l.kind pa bytes

def State.nodeDone (s : State) (r n : Nat) : State := s.modNode r n fun N => { N with state := .complete }

/-- A watch for a WAIT node at its home slice, where the slice has room for it (R241). -/
def State.nodeWatch (s : State) (r n : Nat) (N : Node) (l : Leaf) (pa : Nat) : State :=
  if l.isMem = false ∨ s.watchesAt (homeSlice l.kind pa) ≥ 64 then s
  else
    let f := (s.ownerOf l.tenant).getD ((s.replay? r).elim 0 (·.func))
    let w : Watch := { who := .node r n, kind := l.kind, pa := pa, size := N.size, hit := false, va := N.addr,
                       func := f, gen := (s.func f).gen, cut := false }
    { s with net := { s.net with watches := s.net.watches ++ [w] } }

/-- A WAIT node reads its location: it completes, or goes on waiting. -/
def State.nodeLook (s : State) (r n : Nat) (N : Node) (l : Leaf) (pa : Nat) : State :=
  if N.met (s.cpRead l pa N.size) then s.nodeDone r n
  else if l.isMem then s.nodeWatch r n N l pa
  else s.modNode r n fun N => { N with polled := s.ftime }

def execNodeWait (r n : Nat) (s : State) : Host.Outcome State Fault Refusal :=
  match s.nodeAt r n with
  | none => .next s
  | some (R, N) =>
    if N.kind ≠ 3 then .next s
    else if R.headOk n N = false ∨ N.flags ≥ 4 ∨ natAt N.body 17 111 ≠ 0 then .next (s.refuse r n 2)
    else
      match s.nodeAddr R.func N false false with
      | .error c => .next (s.refuse r n c)
      | .ok (l, pa) => .next ((s.modNode r n fun N => { N with state := .started }).nodeLook r n N l pa)

/-- A WAIT node that holds no watch reads its location again: of a host page once every 1 µs of fabric time, of another as soon as its
home slice has room for the watch. -/
def execWaitPoll (r n : Nat) (s : State) : Host.Outcome State Fault Refusal :=
  match s.replay? r with
  | none => .next s
  | some R =>
    match aget R.nodes n with
    | none => .next s
    | some N =>
      if N.kind ≠ 3 ∨ N.state ≠ .started ∨ (s.net.watches.any fun w => decide (w.who = .node r n)) = true then .next s
      else
        match s.nodeAddr R.func N false false with
        | .error _ => .next s
        | .ok (l, pa) => if l.kind = .host ∧ s.ftime < N.polled + 1000 then .next s else .next (s.nodeLook r n N l pa)

/-- A SIGNAL node: its store or add is applied with a release, and its interrupt follows. -/
def execNodeSignal (r n : Nat) (s : State) : Host.Outcome State Fault Refusal :=
  match s.nodeAt r n with
  | none => .next s
  | some (R, N) =>
    let add := decide (N.flags % 2 = 1)
    if N.kind ≠ 4 then .next s
    else if R.headOk n N = false ∨ N.flags ≥ 16 ∨ natAt N.body 17 1 ≠ 0 ∨ natAt N.body 20 108 ≠ 0 then .next (s.refuse r n 2)
    else
      match s.nodeAddr R.func N true add with
      | .error c => .next (s.refuse r n c)
      | .ok (l, pa) =>
        let old := if add then s.cpRead l pa N.size else 0
        let s1 := (s.cpWrite l pa (leBytes N.size (old + N.value))).nodeDone r n
        .next (if N.flags / 8 % 2 = 1 then s1.sendMsix R.func (natAt N.body 18 2) else s1)

/-! ### Replies to watches (R241, R346) -/

/-- The reply to the k-th watch, which a write of its line has struck. -/
def execWatchReply (k : Nat) (s : State) : Host.Outcome State Fault Refusal :=
  match s.net.watches[k]? with
  | none => .next s
  | some w =>
    if w.hit = false then .next s
    else
      let cut := { s with net := { s.net with watches := s.net.watches.eraseIdx k } }
      let v := s.homeNat w.kind w.pa w.size
      match w.who with
      | .beam r pend => .next (if s.badRange w.pa w.size then cut.watchPoison r pend w.va else cut.watchReply r pend v)
      | .node r n =>
        match (s.replay? r).bind fun R => aget R.nodes n with
        | none => .next cut
        | some N =>
          if N.met v then .next (cut.nodeDone r n)
          else .next { cut with net := { cut.net with watches := cut.net.watches ++ [{ w with hit := false }] } }

/-! ### The end (R343, R346) -/

/-- Nothing of the replay is under way, and nothing can start any more. A reset of its function ends its WAIT nodes (R377). -/
def State.replayOver (s : State) (R : Replay) : Bool :=
  let gone := decide (R.code = 9) && decide ((s.func R.func).state ≠ .run)
  R.started && R.nodes.all fun e =>
    match e.2.state with
    | .complete => true
    | .started => gone && decide (e.2.kind = 3)
    | .waiting => decide (R.code > 1)

/-- DONE + 1 and the final CODE are written together, with a release. -/
def execReplayEnd (r : Nat) (s : State) : Host.Outcome State Fault Refusal :=
  match s.replay? r with
  | none => .next s
  | some R =>
    if s.replayOver R = false then .next s
    else
      let code := if R.code ≤ 1 then 0 else R.code
      let node := if R.code ≤ 1 then 0xFFFF else R.node
      let g := R.graph.toNat
      let done := (s.graphPa R.func g).elim 0 fun x => s.homeNat x.1.kind (x.2 + 8) 8
      let s1 := s.graphWrite R.func (g + 4) (leBytes 2 node ++ [0, BitVec.ofNat 8 code] ++ leBytes 8 (done + 1))
      let mine (w : Watch) : Bool := match w.who with | .node q _ => decide (q = r) | .beam _ _ => false
      .next { s1 with
        work := { s1.work with replays := adel s1.work.replays r }
        net := { s1.net with watches := s1.net.watches.filter fun w => !mine w } }

end Sys2Proof.Machine
end

