-- ==== Sys2Proof/Machine/Mailbox.lean ====
section
/-! DEFINITION. The mailbox (R393 to R396), start-up (R397, R398, R400), identity and attestation (R401, R402), and the PCIe power
states (R403). -/

namespace Sys2Proof.Machine

/-! ### Fetching (R394, R396) -/

/-- A command entry from its 64 bytes. -/
def readCmd (b : List Byte) : Cmd :=
  { opc := natAt b 0 1, tag := BitVec.ofNat 16 (natAt b 2 2), len := natAt b 4 4, daddr := BitVec.ofNat 64 (natAt b 8 8),
    haddr := BitVec.ofNat 64 (natAt b 16 8), value := BitVec.ofNat 64 (natAt b 24 8), nonce := b.drop 32,
    resv := decide (natAt b 1 1 ≠ 0) || (decide (natAt b 0 1 ≠ 6) && decide (natAt b 32 32 ≠ 0)) }

/-- The status of a command in a state in which it is not performed (R395, R396); none where it is. -/
def State.gate (s : State) (f opc : Nat) (f0 : Bool) : Option Nat :=
  if opc = 5 then none
  else
    match s.sys.dstate with
    | .boot => some 7
    | .safe => if opc = 6 ∨ (opc = 7 ∧ f = 0 ∧ f0 = true) then none else some 5
    | .run => if opc = 6 then none else if (s.func f).state ≠ .run then some 6 else none

/-- A reset that function f has commanded is not complete: its completion is owed, and no later command of f is performed before. -/
def State.resetting (s : State) (f : Nat) : Bool :=
  s.regs.funcs.any fun e => e.2.resetTag.any fun p => decide (p.1 = f)

/-- The next command is fetched, when there is one and the completion ring has room; an unknown one completes at once. -/
def execCommandFetch (f : Nat) (s : State) : Host.Outcome State Fault Refusal :=
  let F := s.func f
  let n := 2 ^ F.log2n.toNat
  if f ≥ 64 ∨ F.en = false ∨ F.cmd.isSome = true ∨ s.resetting f = true ∨ F.mbhead = F.mbtail ∨
      (F.mbctail - F.mbchead).toNat = n ∨ s.sys.d3hot = true then
    .next s
  else
    let c := readCmd (s.hostMem.readBytes (F.mbcqb.toNat + 64 * (F.mbhead.toNat % n)) 64)
    let s1 := s.setFunc f { F with mbhead := F.mbhead + 1, cmd := some c }
    if 1 ≤ c.opc ∧ c.opc ≤ 9 then .next s1 else .next (s1.complete f c.tag ((s.gate f c.opc false).getD 1) 0)

/-- What a command comes to: its effect, its status, its value; none where it completes later or never. -/
abbrev CmdDone := State × Option (Nat × Nat)

/-- Performs the fetched command of function f if it has opcode `opc`. -/
def State.command (s : State) (f opc : Nat) (act : Cmd → State → CmdDone) : State :=
  match (s.func f).cmd with
  | none => s
  | some c =>
    if c.opc ≠ opc then s
    else
      match s.gate f opc (decide (c.daddr.toNat % 64 = 0)) with
      | some st => s.complete f c.tag st 0
      | none =>
        if c.resv then s.complete f c.tag 1 0
        else
          match act c s with
          | (s1, some (st, v)) => s1.complete f c.tag st v
          | (s1, none) => s1

/-- A command that only fails. -/
def failed (s : State) (st : Nat) : CmdDone := (s, some (st, 0))

/-! ### WRITE, READ, SETPARAM, REPLAY -/

def actWrite (f : Nat) (c : Cmd) (s : State) : CmdDone :=
  if c.len = 0 ∨ c.len > 4096 then failed s 1
  else
    match s.funcRange f (fun l => l.isMem && l.w) c.daddr.toNat c.len with
    | .error e => failed s e
    | .ok l => (s.funcStore l (s.hostMem.readBytes c.haddr.toNat c.len), some (0, 0))

/-- READ. One that meets a line with an uncorrectable error ends with FAULT and writes nothing: the error is not silent (R405; DESIGN
CHOICE, log 86). -/
def actRead (f : Nat) (c : Cmd) (s : State) : CmdDone :=
  let ok (l : Leaf) : Bool := l.isMem || decide (l.kind = .multicast)
  if c.len = 0 ∨ c.len > 4096 then failed s 1
  else
    match s.funcRange f ok c.daddr.toNat c.len with
    | .error e => failed s e
    | .ok l =>
      if l.any fun x => s.badRange x.2.1 x.2.2 then failed s 2
      else (s.hostPut c.haddr.toNat (l.flatMap fun x => s.homeRead x.1.kind x.2.1 x.2.2), some (0, 0))

def actSetparam (f : Nat) (c : Cmd) (s : State) : CmdDone :=
  (s.setFunc f { s.func f with slots := sset 0 (s.func f).slots (c.daddr.toNat % 64) c.value }, some (0, 0))

def actReplay (f : Nat) (c : Cmd) (s : State) : CmdDone :=
  if c.daddr.toNat % 64 ≠ 0 then failed s 1
  else
    match s.funcPage f (fun l => l.isMem && l.w) c.daddr.toNat with
    | .error e => failed s e
    | .ok _ =>
      if s.replaysOf f ≥ 64 then failed s 4
      else let s1 := s.queueReplay f c.daddr; (s1, some (0, s1.replaysOf f))

def execWrite (f : Nat) (s : State) : Host.Outcome State Fault Refusal := .next (s.command f 1 (actWrite f))
def execRead (f : Nat) (s : State) : Host.Outcome State Fault Refusal := .next (s.command f 2 (actRead f))
def execSetparam (f : Nat) (s : State) : Host.Outcome State Fault Refusal := .next (s.command f 3 (actSetparam f))
def execReplay (f : Nat) (s : State) : Host.Outcome State Fault Refusal := .next (s.command f 4 (actReplay f))

/-! ### QUERY and ATTEST (R398, R401, R402) -/

/-- MR0 to MR7. -/
def State.measured (s : State) : List Byte := (List.range 8).flatMap fun k => leBytes 64 (sget 0 s.sys.mr k).toNat

/-- The failure codes, at most 16. -/
def State.codeBytes (s : State) : List Byte := (s.sys.codes.take 16).flatMap fun c => leBytes 2 c.toNat

/-- The identity public key: 4 bytes of OID, which RFC 8391 gives for XMSS-SHAKE_20_256 (PRESUMED, log 87), the root and the seed. -/
def identityKey : List Byte := [0x00, 0x00, 0x00, 0x09] ++ (List.range 64).map fun i => Config.identityKeyByte (i + 4)

def actQuery (f : Nat) (c : Cmd) (s : State) : CmdDone :=
  let out (b : List Byte) : CmdDone := (s.hostPut c.haddr.toNat b, some (0, b.length))
  match c.daddr.toNat % 256 with
  | 0 => (s, some (0, (s.mbstat f).toNat))
  | 1 => out s.codeBytes
  | 2 => out s.measured
  | 3 => out identityKey
  | _ => failed s 1

/-- A fresh signature index: a new block is burnt where there is none, or it is spent. -/
def Sys.takeIndex (y : Sys) : Option (Nat × Sys) :=
  match y.idBlock with
  | some b =>
    if y.idNext < 256 then some (256 * b + y.idNext, { y with idNext := y.idNext + 1 })
    else if y.idBurnt < 4096 then
      some (256 * y.idBurnt, { y with idBlock := some y.idBurnt, idBurnt := y.idBurnt + 1, idNext := 1 })
    else none
  | none =>
    if y.idBurnt < 4096 then
      some (256 * y.idBurnt, { y with idBlock := some y.idBurnt, idBurnt := y.idBurnt + 1, idNext := 1 })
    else none

/-- The signed part of the report: bytes 0x000 to 0x25F. -/
def State.attestBody (s : State) (f : Nat) (nonce : List Byte) : List Byte :=
  leBytes 4 1 ++ leBytes 2 s.fab.dev.toNat ++ leBytes 2 f ++
    leBytes 4 (match s.sys.dstate with | .boot => 0 | .run => 1 | .safe => 2) ++
    leBytes 2 ((s.sys.codes.map (·.toNat)).headD 0) ++ leBytes 50 0 ++ nonce ++ s.measured

/-- ATTEST. The signature's first 4 bytes are its index, most significant first (RFC 8391; PRESUMED, log 87). -/
def actAttest (f : Nat) (c : Cmd) (s : State) : CmdDone :=
  match s.sys.takeIndex with
  | none => failed s 8
  | some (i, y) =>
    let body := s.attestBody f c.nonce
    let sig := (leBytes 4 i).reverse ++ (List.range 2816).map fun k => Config.signatureByte i body (k + 4)
    ({ s.hostPut c.haddr.toNat (body ++ sig) with sys := y }, some (0, i))

def execQuery (f : Nat) (s : State) : Host.Outcome State Fault Refusal := .next (s.command f 5 (actQuery f))
def execAttest (f : Nat) (s : State) : Host.Outcome State Fault Refusal := .next (s.command f 6 (actAttest f))

/-! ### RESOLVE and FAIL (R373) -/

def actAnswer (f : Nat) (ok : Bool) (c : Cmd) (s : State) : CmdDone :=
  match s.entry? c.value.toNat with
  | none => failed s 9
  | some g =>
    if g.func = f ∧ g.answer = none ∧ g.upgrade = false then (s.answerPage f g.va ok, some (0, 0)) else failed s 9

def execResolve (f : Nat) (s : State) : Host.Outcome State Fault Refusal := .next (s.command f 8 (actAnswer f true))
def execFail (f : Nat) (s : State) : Host.Outcome State Fault Refusal := .next (s.command f 9 (actAnswer f false))

/-! ### Start-up (R397, R398, R400) -/

/-- All work ends and every register takes its reset value; memory, the host's side and what is one-time programmable stay. Fabric
time does not step backward (R422). -/
def State.deviceReset (s : State) (codes : List (BitVec 16)) : State :=
  { State.reset with
    ftime := s.ftime, free := s.free, nextId := s.nextId, agenda := s.agenda, mem := s.mem, hostMem := s.hostMem
    net := { Net.init with badLines := s.net.badLines }
    fab := { Fab.init with dev := s.fab.dev }
    sys := { Sys.init with boot := some codes, idBurnt := s.sys.idBurnt, bar2 := s.sys.bar2, msix := s.sys.msix } }

/-- Stage k is measured before it is checked. -/
def measure (mr : List (Nat × BitVec 512)) (k : Nat) : List (Nat × BitVec 512) := sset 0 mr k (Config.imageDigest k)

/-- The end of the start-up sequence. A failing stage signature stops it, with the stages up to that one measured; then the
self-tests: the PF runs and DSTATE is RUN where none fails. -/
def State.bootEnd (s : State) : State :=
  match s.sys.boot with
  | none => s
  | some codes =>
    let stage := codes.find? fun c => decide (c.extractLsb' 8 8 = 1) && decide ((c.extractLsb' 0 8).toNat < 5)
    let done (n : Nat) (l : List (BitVec 16)) : State :=
      let y := { s.sys with boot := none, codes := l, mr := (List.range n).foldl measure s.sys.mr }
      if l = [] then
        ({ s with sys := { y with dstate := .run } }).setFunc 0 { s.func 0 with state := .run }
      else { s with sys := { y with dstate := .safe } }
    match stage with
    | some c => done ((c.extractLsb' 0 8).toNat + 1) [c]
    | none => done 5 (codes.take 16)

/-- Power-on: memory holds nothing of before; the sequence begins, and will find the given failing codes. -/
def execPowerOn (codes : List (BitVec 16)) (s : State) : Host.Outcome State Fault Refusal :=
  .next { s.deviceReset codes with
    ftime := 0, mem := [], net := Net.init, sys := { Sys.init with boot := some codes, idBurnt := s.sys.idBurnt } }

/-- PERST# is deasserted. -/
def execPerst (codes : List (BitVec 16)) (s : State) : Host.Outcome State Fault Refusal :=
  .next { s.deviceReset codes with sys := { (s.deviceReset codes).sys with bar2 := none } }

/-- RESET: of the device, or of a VF; one whose tag another function in RUN has stays OFF, and the command answers FIELD (R364; DESIGN
CHOICE, log 67). -/
def actReset (f : Nat) (c : Cmd) (s : State) : CmdDone :=
  let g := c.daddr.toNat % 64
  let G := s.func g
  if f ≠ 0 ∧ g ≠ f then failed s 1
  else if g = 0 then (({ s with free := s.free + 1 }).deviceReset (Config.startCodes s.free), none)
  else
    match G.state with
    | .off => if s.tagUsed g G.ftag then failed s 1 else (s.setFunc g { G with state := .run, slots := [] }, some (0, 0))
    | .drained => (s, some (0, 0))
    | _ =>
      let s1 := s.fcfgRst g
      let s2 := s1.setFunc g { s1.func g with resetTag := (s1.func g).resetTag ++ [(f, c.tag)] }
      (s2.setFunc f { s2.func f with cmd := none }, none)

def execReset (f : Nat) (s : State) : Host.Outcome State Fault Refusal := .next (s.command f 7 (actReset f))

/-! ### Power states (R403) -/

def execD3hotEnter (s : State) : Host.Outcome State Fault Refusal := .next { s with sys := { s.sys with d3hot := true } }

def execD0Return (s : State) : Host.Outcome State Fault Refusal := .next { s with sys := { s.sys with d3hot := false } }

end Sys2Proof.Machine
end

