-- ==== Sys2Proof/Machine/Place.lean ====
section
/-! DEFINITION. The distributor (R101 to R106, R351, R352): placement and restore of teams, the choice of teams to
pre-empt, saving (R384 to R389), restoring (R390), retirement and the completion of grids (R112, R113). -/

namespace Sys2Proof.Machine

/-! ### Room (R97, R101, R386) -/

/-- Window slots that a team needs on quadrant q. -/
def Launch.slots (l : Launch) (q : Nat) : Nat := (l.np + l.nc - q + 3) / 4

/-- The launch records of the teams that hold a core. -/
def State.launchesOn (s : State) (c : Nat) : List (Nat × Launch) :=
  s.teams.filterMap fun e =>
    if e.2.core? = some c then (s.gridOf e.2).map fun G => (G.func, G.launch) else none

/-- The whole request of one team fits on a core beside the teams there; no room on it is held for another grid. -/
def State.fitsOn (s : State) (g : Nat) (G : Grid) (c : Nat) : Bool :=
  let l := G.launch
  let on := s.launchesOn c
  let sum (f : Launch → Nat) : Nat := f l + (on.map fun e => f e.2).sum
  decide (c < 1024) && (s.part G.part).pblk.getLsbD (c / 32) &&
    ([0, 1, 2, 3].all fun q => decide (sum (fun m => m.slots q) ≤ 4)) &&
    decide (sum Launch.pool4 + bitCount 128 (sget 0 s.regs.granules c).toNat ≤ 128) &&
    decide (sum (fun m => poolAcc m.pool) ≤ 16) && decide (sum (fun m => poolNq m.pool) ≤ 32) &&
    decide (sum (fun m => if poolPrism m.pool then 1 else 0) ≤ 1) &&
    (on.all fun e => decide (e.1 = G.func) && decide (e.2.image = l.image)) &&
    s.regs.room.all fun e => decide (e.1 ≠ c) || decide (e.2 = g)

/-- The core that a paired team's partner gets: of the same die, its router adjacent (R105, DESIGN CHOICE, log 12). -/
def State.pairCore (s : State) (g : Nat) (G : Grid) (c : Nat) : Option Nat :=
  ((List.range 128).map fun i => c / 128 * 128 + i).find? fun d =>
    decide (d ≠ c) && Config.meshAdjacent (Nat.min c d) (Nat.max c d) && s.fitsOn g G d

/-- Save areas held: address and length. -/
def State.areas (s : State) : List (Nat × Nat) :=
  s.teams.filterMap fun e => (s.gridOf e.2).map fun G => (e.2.area, G.launch.area)

/-- A free save area of n bytes, the first in the region. -/
def State.freeArea (s : State) (l : List (Nat × Nat)) (n : Nat) : Option Nat :=
  let base := s.regs.saveBase.toNat
  (base :: l.map fun x => x.1 + x.2).find? fun a =>
    decide (a + n ≤ base + 65536 * s.regs.saveLen.toNat) &&
      l.all fun x => decide (a + n ≤ x.1) || decide (x.1 + x.2 ≤ a)

/-- Areas for the grid's next team, or for its next pair. -/
def State.newAreas (s : State) (G : Grid) : Option (Nat × Nat) :=
  let n := G.launch.area
  match s.freeArea s.areas n with
  | none => none
  | some a => if G.launch.paired then (s.freeArea ((a, n) :: s.areas) n).map fun b => (a, b) else some (a, a)

/-! ### Who may be placed (R103, R104, R351, R352, R355, R357) -/

/-- The grid of a node of a replay. -/
def State.gridAt (s : State) (r n : Nat) : Option (Nat × Grid) :=
  s.grids.find? fun e => decide (e.2.replay = r) && decide (e.2.node = n)

def State.teamsOf (s : State) (g : Nat) : List (Nat × Team) := s.teams.filter fun e => decide (e.2.grid = g)

/-- Some team of the grid is pre-empted. -/
def State.someAway (s : State) (g : Nat) : Bool := (s.teamsOf g).any fun e => !e.2.isResident

/-- The producer has placed all its teams, and none of them is pre-empted. -/
def State.producerDone (s : State) (G : Grid) : Bool :=
  match G.producer with
  | none => true
  | some p =>
    match s.gridAt G.replay p with
    | some (q, P) => decide (P.launch.count ≤ P.next) && !s.someAway q
    | none => ((s.replay? G.replay).bind fun R => aget R.nodes p).elim true fun N => decide (N.state = .complete) && !N.failed

/-- The producer's node was refused, or its grid ended before all its teams had been placed. -/
def State.producerFailed (s : State) (G : Grid) : Bool :=
  match G.producer with
  | none => false
  | some p => ((s.replay? G.replay).bind fun R => aget R.nodes p).elim false fun N => decide (N.state = .complete) && N.failed

/-- The slice table lets the grid run in its partition. -/
def State.gangAllows (s : State) (G : Grid) : Bool :=
  let g := s.regs.gang
  !g.governed.getLsbD G.part || (!s.gateClosed G.part && (match g.entry with
    | none => false
    | some e => e.pmask.getLsbD G.part && decide (e.gang = G.launch.gang)))

/-- A team waits for its place: of grid `g`, awaiting restore, or the grid's next one. -/
structure Cand where
  g : Nat
  G : Grid
  t : Option (Nat × Nat)
  deriving DecidableEq, Repr

/-- The candidate takes two cores: a first placement of a pair, or a saved pair. A saved team whose partner has retired is restored
alone (R105). -/
def State.asPair (s : State) (c : Cand) : Bool :=
  c.G.launch.paired && match c.t with
    | none => true
    | some t => ((s.team? t.1).bind s.pairOf).isSome

/-- The candidate fits on a core. -/
def State.fitsAt (s : State) (c : Cand) (core : Nat) : Bool :=
  s.fitsOn c.g c.G core && (!s.asPair c || (s.pairCore c.g c.G core).isSome)

/-- A saved team, with its partner if that has not retired, may be restored. -/
def State.restorable (s : State) (G : Grid) (T : Team) : Bool :=
  decide (T.life = .saved) && !T.stopped && !G.fatal && s.producerDone G && s.gangAllows G &&
    (!G.launch.paired || (s.pairOf T).elim true fun u => decide (u.2.life = .saved))

/-- The grid's saved team that was pre-empted first. -/
def State.nextSaved (s : State) (g : Nat) (G : Grid) : Option (Nat × Nat) :=
  ((s.teamsOf g).filter fun e => s.restorable G e.2).foldl (fun m e =>
    match m with
    | none => some (e.1, e.2.savedAt)
    | some x => if e.2.savedAt < x.2 then some (e.1, e.2.savedAt) else some x) none

/-- Room is held for the grid. -/
def State.hasRoom (s : State) (g : Nat) : Bool := s.regs.room.any fun e => decide (e.2 = g)

/-- Some team of partition p awaits restore; one that the gang slice in progress excludes waits for its own slice (R359). -/
def State.awaits (s : State) (p : Nat) : Bool :=
  s.teams.any fun e => decide (e.2.life = .saved) && !e.2.stopped && decide (s.partOf e.2 = p) && (s.gridOf e.2).any s.gangAllows

/-- The grid's next team may be placed for the first time. -/
def State.placeable (s : State) (g : Nat) (G : Grid) : Bool :=
  decide (G.next < G.launch.count) && !G.fatal && decide ((s.func G.func).state = .run) && !s.someAway g &&
    s.producerDone G && s.gangAllows G && s.mayDispatch G.func && (s.newAreas G).isSome &&
    (!s.awaits G.part || s.hasRoom g)

/-- The candidates of partition p. -/
def State.cands (s : State) (p : Nat) : List Cand :=
  s.grids.filterMap fun e =>
    if e.2.part ≠ p then none
    else
      match s.nextSaved e.1 e.2 with
      | some t => some ⟨e.1, e.2, some t⟩
      | none => if s.placeable e.1 e.2 then some ⟨e.1, e.2, none⟩ else none

/-- The keys of R351, in order; room made for a first placement comes before them (R352). -/
def Cand.before (s : State) (a b : Cand) : Bool :=
  if a.t = none ∧ b.t ≠ none then s.hasRoom a.g
  else if a.t ≠ none ∧ b.t = none then !s.hasRoom b.g
  else
    let x := (a.t.getD (0, 0)).2
    let y := (b.t.getD (0, 0)).2
    if x ≠ y then decide (x < y)
    else if a.G.prio ≠ b.G.prio then decide (b.G.prio < a.G.prio)
    else if a.G.order ≠ b.G.order then decide (a.G.order < b.G.order)
    else decide (a.G.node < b.G.node)

/-- The core is one that the candidate may take: where room is held for its grid and fits, that room; a first placement
beside teams that await restore takes nothing else. -/
def State.mayTake (s : State) (c : Cand) (core : Nat) : Bool :=
  let own (d : Nat) : Bool := s.regs.room.any fun e => decide (e = (d, c.g))
  s.fitsAt c core && (own core ||
    ((s.regs.room.all fun e => decide (e.2 ≠ c.g) || !s.fitsAt c e.1) && (c.t.isSome || !s.awaits c.G.part)))

/-- The candidate may take some core. -/
def State.takesSome (s : State) (c : Cand) : Bool := (List.range 1024).any (s.mayTake c)

/-- The opportunity is c's: no candidate before it may take any core. -/
def State.turn (s : State) (c : Cand) : Bool :=
  (s.cands c.G.part).all fun d => !(d.before s c) || !s.takesSome d

/-! ### Placement (R91, R98, R103) -/

/-- Beam k of a team of the launch. -/
def Launch.beam (l : Launch) (now k : Nat) : Beam :=
  let cons := decide (l.np ≤ k)
  let entry := if cons then l.centry else l.pentry
  { consumer := cons, budget := 128 * ((if cons then l.creg else l.preg) + 1), entry := entry, reuse := none, pc := entry,
    waitPc := entry, main := [], win := [], wb := 0, dirty := 0, exm := 0xFFFFFFFF, lvm := 0xFFFFFFFF, eexm := 0, pix := 0,
    cause := 0, epc := 0, skid := 0, tvec := l.tvec, fflags := 0, rmode := 1, chk := 0, tele := l.tele, orc := 0, jstat := 0,
    tenant := ssetAll 0 [] (lanes.map fun i => (i, l.tenant)), issueAt := now, lastIssue := none, scrAt := 0, fix := [], pends := [],
    status := .ready, halt := .run, mcall := none, longs := [], latched := none, trapped := none, resume := none, sibProg := false,
    ptrap := none }

/-- A team at its first placement. -/
def Launch.team (l : Launch) (g index core area now : Nat) : Team :=
  { grid := g, index := index, life := .resident core, since := now, savedAt := 0, area := area,
    beams := (List.range (l.np + l.nc)).map (l.beam now), scratch := [], acc := [], metam := [], tw := [], twq := [], bars := [],
    arrived := 0, tiles := [], tileq := [], queues := [], commits := [], nextH := 0, stats := [], unseen := [], boards := [],
    cancels := [], prism := Prism.init, handler := none, stopped := false, entries := [], bad := [], owed := [] }

/-- The core's control store for a team that is to be placed on it: the image is loaded where no team is there; none where it
cannot be read. The entry lengths are not looked at again: where the image has been changed since the launch's check so that one is above 32,
the rule names no outcome, and the length is loaded as it is (R91, R349; DESIGN CHOICE, log 85). -/
def State.loadImage (s : State) (G : Grid) (c : Nat) : Option State :=
  let C := s.core c
  let fresh (st ln : List (Nat × Nat)) : State :=
    s.setCore c { C with
      image := some (G.func, G.launch.image), store := ssetAll 0 [] (st.map fun e => (e.1, BitVec.ofNat 32 e.2)),
      lens := ssetAll 0 [] ln }
  if s.launchesOn c ≠ [] then some s
  else if G.launch.image = 0 then some (fresh [] [])
  else
    (s.readImage G.func G.launch.image).map fun b =>
      fresh ((List.range 4096).map fun i => (i, natAt b (4 * i) 4)) ((List.range 128).map fun i => (i, natAt b (16384 + i) 1))

/-- A core is made ready and team t enters it; where its image cannot be read the grid ends with a report. -/
def State.enterCore (s : State) (G : Grid) (t : Nat) (T : Team) (c : Nat) : State :=
  match s.loadImage G c with
  | some s1 => (s1.roClear c).setTeam t T
  | none => (s.setTeam t T).fatalStop ⟨t, 0⟩ cMEMFAULT 0 0 0 0

def State.dropRoom (s : State) (g : Nat) : State :=
  { s with regs := { s.regs with room := s.regs.room.filter fun e => decide (e.2 ≠ g) } }

/-- The next team of the grid, or its next pair, is placed. -/
def State.placeTeam (s : State) (g : Nat) (G : Grid) (core : Nat) (a : Nat × Nat) : State :=
  let l := G.launch
  let put (s : State) (i c area : Nat) : State :=
    ({ s with nextId := s.nextId + 1 }).enterCore G s.nextId (l.team g i c area s.clock) c
  let n := if l.paired then 2 else 1
  let s1 := put (s.setGrid g { G with next := G.next + n }) G.next core a.1
  let s2 := match (if l.paired then s.pairCore g G core else none) with
    | none => s1
    | some d => put s1 (G.next + 1) d a.2
  s2.dropRoom g

def execTeamPlace (g core : Nat) (s : State) : Host.Outcome State Fault Refusal :=
  match s.grid? g with
  | none => .next s
  | some G =>
    let c : Cand := ⟨g, G, none⟩
    match s.newAreas G with
    | none => .next s
    | some a =>
      if s.sys.dstate = .run ∧ s.nextSaved g G = none ∧ s.placeable g G = true ∧ s.mayTake c core = true ∧ s.turn c = true then
        .next (s.placeTeam g G core a)
      else .next s

/-! ### Making room (R352) -/

/-- A resident team that a candidate may displace. -/
def State.victim (s : State) (c : Cand) (T : Team) : Bool :=
  T.isResident && !T.stopped && decide (T.grid ≠ c.g) && decide (T.since + 700 * s.regs.quantum.toNat ≤ s.clock) &&
    (match s.gridOf T with
     | none => false
     | some G => decide (G.part = c.G.part) && (c.t.isSome || decide (G.prio ≤ c.G.prio)))

/-- The candidate of the partition that comes first among those that may take no core and may displace a team. -/
def State.needy (s : State) (p : Nat) : Option Cand :=
  ((s.cands p).filter fun c => !s.takesSome c && s.teams.any fun e => s.victim c e.2).foldl (fun m c =>
    match m with
    | none => some c
    | some d => if c.before s d then some c else some d) none

def State.prioOf (s : State) (T : Team) : Nat := (s.gridOf T).elim 0 (·.prio)

/-- A team's quantum is over and the distributor needs its place: the lowest PRIO first, then the longest resident. -/
def execQuantumExpiry (t : Nat) (s : State) : Host.Outcome State Fault Refusal :=
  match s.team? t with
  | none => .next s
  | some T =>
    let p := s.partOf T
    let drains := s.teams.any fun e => decide (s.partOf e.2 = p) && (match e.2.life with | .draining _ _ => true | _ => false)
    match s.needy p with
    | none => .next s
    | some c =>
      let first := s.teams.all fun e => !s.victim c e.2 || decide (s.prioOf T < s.prioOf e.2) ||
        (decide (s.prioOf T = s.prioOf e.2) && decide (T.since ≤ e.2.since))
      if drains = true ∨ s.victim c T = false ∨ first = false then .next s
      else
        let s1 := s.preempt t
        let also := ((s.pairId t).bind s.team?).toList.map fun U => (U.coreId, c.g)
        .next { s1 with regs := { s1.regs with room := (T.coreId, c.g) :: also ++ s1.regs.room } }

/-! ### The end of a drain (R384) -/

/-- A beam of a draining team has come to rest. -/
def Beam.atRest (b : Beam) (now : Nat) : Bool :=
  (match b.halt with | .skidding _ _ => false | _ => true) && decide (b.orc = 0) && decide (b.longs = []) && decide (b.fix = []) &&
    b.pends.all fun p => decide (p.wait ≠ 0) || decide (p.ready ≤ now)

/-- No access of the team is under way. -/
def State.accessesDone (s : State) (t : Nat) : Bool :=
  (s.net.packets.all fun p => decide (p.src.t ≠ t) || p.job.isSome) && (s.net.acks.all fun a => decide (a.src.t ≠ t)) &&
    s.net.remotes.all fun r => decide (r.packet.src.t ≠ t) || r.packet.job.isSome

/-- The matrix engine is between sub-steps of the team's entries. -/
def State.engineRest (s : State) (t c : Nat) : Bool :=
  (s.core c).entries.all fun n => decide (n.src.t ≠ t) ||
    (decide (n.pix < n.total) && (!n.started || s.entryHeld n (n.start + n.pix * n.cycles / n.total)))

/-- A `QCOMMIT` waits for scratchpad reads of an entry that the save takes along: the team is saved with both (R255, R263). -/
def State.commitAway (s : State) (t core : Nat) (c : Commit) : Bool :=
  (s.core core).entries.any fun n =>
    decide (n.src = ⟨t, c.beam⟩) && decide (n.issued < c.sentAt) && decide (n.pix < n.total) && decide (n.bytes ≠ 0)

/-- Everything that the drain of a team waits for. -/
def State.drained (s : State) (t : Nat) (T : Team) : Bool :=
  match T.life with
  | .draining c _ =>
    !T.stopped && (T.beams.all fun b => b.atRest s.clock) && decide (T.twq = []) && (T.commits.all (s.commitAway t c)) &&
      decide (T.cancels = []) && (T.tileq.all fun q => decide (q.1 ≤ s.clock)) && s.accessesDone t && s.engineRest t c &&
      decide (T.prism.state ≠ .running) &&
      (T.boards.all fun e => decide (e.2.captured = []) && decide (e.2.drop = [])) &&
      s.jobs.all fun j => decide (j.team ≠ some t) || j.queue.isNone
  | _ => false

/-! ### Saving (R387 to R389) -/

/-- The bytes of a list by address, in canonical form; the first entry of an address counts. -/
def Memory.canon (r : Memory) : Memory := r.foldr (fun e m => m.write e.1 e.2) []

/-- Replaces the bytes of `[lo, hi)`. -/
def Memory.splice (m : Memory) (lo hi : Nat) (r : Memory) : Memory :=
  (m.filter fun e => decide (e.1 < lo)) ++ Memory.canon (r.filter fun e => decide (lo ≤ e.1) && decide (e.1 < hi)) ++
    m.filter fun e => decide (hi ≤ e.1)

/-- A memory moved up by `a` bytes. -/
def Memory.shift (m : Memory) (a : Nat) : Memory := m.map fun e => (a + e.1, e.2)

/-- Words by index as bytes from address `a`. -/
def wordBytes (a : Nat) (l : List (Nat × Word)) : Memory :=
  l.flatMap fun e => (((leBytes 4 e.2.toNat).zipIdx.map fun b => (a + 4 * e.1 + b.2, b.1)).filter fun x => decide (x.2 ≠ 0))

/-- The state field of a beam record and its wait operand (DESIGN CHOICE, log 7). -/
def Beam.waitRecord (b : Beam) : Nat × Nat :=
  let w : Nat × Nat :=
    match b.status with
    | .bar => (1, 0)
    | .named k tok => (2, k + 2 ^ 32 * tok.toNat)
    | .jwait h => (3, h)
    | .jsleep h _ => (4, h)
    | .xchg tag _ _ _ _ => (5, tag)
    | .qacq q _ _ => (6, q)
    | .qwait q _ _ => (7, q)
    | .pacap _ _ => (8, 0)
    | .retired => (10, 0)
    | _ => (0, 0)
  if w.1 ≠ 10 ∧ b.halt = .stopped then (9, w.2) else w

/-- Fields of a record: offset, bytes, value. -/
abbrev RecField := Nat × Nat × Nat

def Beam.record (b : Beam) (o : Nat) : List RecField :=
  let w := b.waitRecord
  [(o, 8, (match b.latched with | some l => l.pc | none => b.pc).toNat), (o + 8, 8, b.epc.toNat), (o + 0x10, 4, b.pix.toNat),
   (o + 0x14, 4, b.exm.toNat), (o + 0x18, 4, b.lvm.toNat), (o + 0x1C, 4, b.eexm.toNat), (o + 0x20, 4, b.cause.toNat),
   (o + 0x24, 4, b.tvec.toNat),
   (o + 0x28, 4, b.wb.toNat + 2 ^ 10 * b.skid.toNat + 2 ^ 12 * b.fflags.toNat + 2 ^ 17 * b.rmode.toNat + 2 ^ 20 * b.chk.toNat +
     2 ^ 21 * b.tele.toNat + (if b.sibProg then 2 ^ 25 else 0) + (if b.ptrap.isSome then 2 ^ 26 else 0)),
   (o + 0x2C, 4, w.1), (o + 0x30, 8, w.2), (o + 0x38, 4, b.jstat.toNat)]

def SlotSt.code (x : SlotSt) : Nat := match x with | .free => 0 | .acquired => 1 | .full => 2 | .held => 3

def Queue.record (q : Queue) (o : Nat) : List RecField :=
  [(o, 4, q.ctrl.toNat), (o + 4, 4, q.p), (o + 8, 4, q.c),
   (o + 16, 16, ((List.range 64).map fun j => (q.slot j).st.code * 4 ^ j).sum)] ++
    (List.range 64).map fun j => (o + 32 + 4 * j, 4, (q.slot j).status.toNat)

/-- The runs of an ascending list: first and count. -/
def runList (l : List Nat) : List (Nat × Nat) :=
  l.foldr (fun x r => match r with | [] => [(x, 1)] | (y, n) :: q => if x + 1 = y then (x, n + 1) :: q else (x, 1) :: (y, n) :: q) []

def Board.record (b : Board) (o : Nat) : List RecField :=
  let runs := (runList (b.tiles.insertionSort (· ≤ ·))).take 15
  (o, 8, 1 + 2 * b.ch + 4 * b.q + 2 ^ 16 * b.layer + 2 ^ 28 * runs.length) ::
    runs.mapIdx fun i r => (o + 8 + 8 * i, 8, r.1 + 2 ^ 20 * r.2)

def PState.code (p : PState) : Nat := match p with | .idle => 0 | .loaded => 1 | .running => 2 | .done => 3

/-- The Prism part of a team record. -/
def Team.prismRecord (T : Team) : List RecField :=
  let byte (m : List (Nat × Byte)) (o i : Nat) : RecField := (o + i, 1, (sget prismDefault m i).toNat)
  let p := T.prism
  let stopped : Option Nat := T.beams.findSome? fun b => b.latched.bind fun l => match l.op with | .pald _ g _ => some g | _ => none
  ((List.range 64).map (byte p.ins 0x1800)) ++ ((List.range 64).map (byte p.outs 0x1840)) ++
    ((List.range 64).map (byte p.wins 0x1880)) ++
    [(0x18C0, 4, p.state.code + (if p.max then 4 else 0) + 8 * p.w.toNat + 2 ^ 11 * (stopped.getD 0 % 8) +
      (if stopped.isSome then 2 ^ 14 else 0))]

/-- The team record (R388). -/
def Team.record (T : Team) (l : Launch) (neng nlog : Nat) : List RecField :=
  [(0, 4, 2),
   (4, 4, l.np + 2 ^ 5 * l.nc + 2 ^ 10 * l.preg + 2 ^ 13 * l.creg + 2 ^ 16 * neng + 2 ^ 20 * nlog +
     (if poolPrism l.pool then 2 ^ 27 else 0)),
   (8, 4, l.pool.toNat), (12, 4, T.index), (16, 8, l.image.toNat), (0x120, 4, T.arrived.toNat)] ++
    (T.tw.map fun e => (0x40 + 4 * e.1, 4, e.2.toNat)) ++
    (T.bars.map fun e => (0x80 + 8 * e.1, 8, e.2.exp + 2 ^ 8 * e.2.cnt + 2 ^ 32 * e.2.ph.toNat)) ++
    (T.tiles.map fun e => (0x100 + 8 * e.1, 8, e.2.base + 2 ^ 32 * e.2.rows)) ++
    ((T.beams.mapIdx fun k b => b.record (0x200 + 64 * k)).flatten) ++
    (T.queues.flatMap fun e => e.2.record (0x600 + 288 * e.1)) ++
    (T.boards.flatMap fun e => e.2.record (0x1000 + 128 * e.1)) ++
    (if poolPrism l.pool then T.prismRecord else []) ++
    ((T.beams.mapIdx fun k b => b.tenant.map fun e => (0x1900 + 64 * k + 2 * e.1, 2, e.2.toNat)).flatten)

/-- An opaque block of the area (R387, DESIGN CHOICE, log 7). -/
def State.opaqueBlock (s : State) (a n : Nat) : State :=
  { s with
    mem := s.mem.splice a (a + n) (Memory.writeBytes [] a ((List.range n).map fun i => Config.opaqueByte (s.free + i)))
    free := s.free + n }

/-- Log entries of the team's instructions, and how many instructions they are of. -/
def State.logOf (s : State) (t : Nat) : Nat :=
  ((s.net.log.filter fun g => decide (g.packet.src.t = t) && !g.retry && g.packet.job.isNone).map (·.inst)).dedup.length

/-- Writes the save area of a team at rest. -/
def State.saveArea (s : State) (t : Nat) (T : Team) (l : Launch) : State :=
  let a := T.area
  let r0 := a + 0x28000
  let r1 := r0 + 16384 * l.granules
  let r2 := r1 + 16384 * poolScr l.pool
  let r3 := r2 + 32768 * poolAcc l.pool
  let rec0 := (T.record l T.entries.length (s.logOf t)).foldl (fun m f => Memory.writeNat m (a + f.1) f.2.1 f.2.2) ([] : Memory)
  let file (k : Nat) : Nat := r0 + 128 * ((T.beams.take k).map (·.budget)).sum
  let regs : Memory := (T.beams.mapIdx fun k b => wordBytes (file k) b.main).flatten
  let delays : Memory := (List.range 4096).filterMap fun i =>
    let v := sget prismDefault T.prism.delays i
    if v = 0 then none else some (a + 0x6000 + i, v)
  let m1 := s.mem.splice a (a + 0x2000) rec0
  let m2 := if poolPrism l.pool then m1.splice (a + 0x6000) (a + 0x7000) delays else m1
  let m3 := m2.splice r0 (r3 + 4096 * poolAcc l.pool) (regs ++ T.scratch.shift r1 ++ wordBytes r2 T.acc ++ T.metam.shift r3)
  let blocks :=
    (T.beams.mapIdx fun k b =>
      if b.latched.isSome ∨ b.trapped.isSome ∨ b.ptrap.isSome then [(a + 0x2000 + 1024 * k, 1024)] else []).flatten ++
    (T.entries.mapIdx fun i _ => (a + 0x8000 + 8192 * i, 8192)) ++
    ((List.range (s.logOf t)).map fun i => (a + 0x18000 + 1024 * i, 1024))
  blocks.foldl (fun s b => s.opaqueBlock b.1 b.2) { s with mem := m3 }

/-- A beam as it is saved: everything that has come is written, and the window is written back; a result of which something is still
to come stays pending. `%pix` of a beam inside a body is its word (R93), whatever an earlier long instruction has reached since. -/
def Beam.save (b : Beam) : Beam :=
  let d := b.pends.foldl (fun b p => b.wrAll p.vals) b
  let c := match d.mcall with
    | some m => if causeInh d.cause = true ∨ d.latched.isSome = true then d else { d with pix := BitVec.ofNat 32 m.word }
    | none => d
  { c.writeBack 0 with
    win := [], reuse := none, pends := (b.pends.filter fun p => decide (p.wait ≠ 0)).map fun p => { p with vals := [] } }

/-- The last-page registers of a team's lanes are cleared. -/
def State.dropLanes (s : State) (t : Nat) : State :=
  s.tlbDrop fun e => match e.place with | .lane r _ => decide (r.t = t) | _ => false

/-- The watches of a team's beams are dropped. -/
def State.dropTeamWatches (s : State) (t : Nat) : State :=
  { s with net := { s.net with watches := s.net.watches.filter fun w => match w.who with
      | .beam r _ => decide (r.t ≠ t)
      | .node _ _ => true } }

/-- A team at rest is saved and leaves its core. -/
def State.saveTeam (s : State) (t : Nat) (T : Team) (core since : Nat) : State :=
  let C := s.core core
  let own (n : Entry) : Bool := decide (n.src.t = t)
  let cut := C.entries.any own
  let T1 : Team := { T.tileDue s.clock with
    life := .saved, savedAt := since, beams := T.beams.map Beam.save, owed := [], boards := T.boards.map fun e => (e.1, { e.2 with regAt := none }),
    entries := (C.entries.filter own).map fun n => { n with started := false } }
  let s1 := s.setCore core { C with
    entries := C.entries.filter fun n => !own n, engFree := if cut then s.clock else C.engFree }
  let s2 := match s.gridOf T with
    | none => s1
    | some G => s1.saveArea t T1 G.launch
  ((s2.setTeam t T1).dropLanes t).dropTeamWatches t

/-- BUSY of PRECTL (R386). -/
def State.preDone (s : State) : State :=
  let busy := s.regs.preBusy && s.teams.any fun e => decide (s.partOf e.2 = s.regs.preGo.toNat) && !e.2.stopped &&
    (match e.2.life with | .draining _ _ => true | _ => false)
  { s with regs := { s.regs with preBusy := busy } }

/-- A drained team is saved, with its partner once both have come to rest. -/
def execPreempt (t : Nat) (s : State) : Host.Outcome State Fault Refusal :=
  match s.team? t with
  | none => .next s
  | some T =>
    match T.life with
    | .draining c since =>
      if s.drained t T = false then .next s
      else
        match s.pairId t with
        | none => .next (s.saveTeam t T c since).preDone
        | some u =>
          match s.team? u with
          | none => .next (s.saveTeam t T c since).preDone
          | some U =>
            match U.life with
            | .draining d x =>
              if s.drained u U = false then .next s
              else .next ((s.saveTeam t T c since).saveTeam u U d x).preDone
            | _ => .next (s.saveTeam t T c since).preDone
    | _ => .next s

/-- The requests of a beam to other devices that lack their acknowledgement. -/
def State.owed (s : State) (r : Ref) : List Packet :=
  (s.net.remotes.map (·.packet)).filter fun p => decide (p.src = r) && p.op.counted && p.job.isNone

/-- They count as acknowledged (R236). -/
def State.forgive (s : State) (l : List Packet) : State :=
  l.foldl (fun s p =>
    { s with net := { s.net with remotes := s.net.remotes.filter fun q => decide (q.packet.id ≠ p.id) } }.abandon p) s

/-- Beam b of a draining team still lacks an acknowledgement 2 ms after the trigger: `REMOTEFATAL`; the report names the
target of the first request to another device that lacks one (R236). -/
def execPreemptDrainTimeout (t b : Nat) (s : State) : Host.Outcome State Fault Refusal :=
  match s.team? t, s.beam? ⟨t, b⟩ with
  | some T, some B =>
    match T.life with
    | .draining _ since =>
      let l := s.owed ⟨t, b⟩
      if s.clock < since + 1400000 ∨ B.orc = 0 then .next s
      else if T.stopped then .next (s.forgive l)
      else .next ((s.forgive l).fatalStop ⟨t, b⟩ cREMOTEFATAL 0 B.pc ((l.head?.bind (·.target)).getD 0) (l.head?.elim 0 (·.pa))).preDone
    | _ => .next s
  | _, _ => .next s

/-! ### Restoring (R390) -/

/-- Words that memory holds from `lo` on, n of them, by index; those that are 0 are not listed. -/
def wordsFrom (m : Memory) (lo n : Nat) : List (Nat × Word) :=
  (m.filter fun e => decide (lo ≤ e.1) && decide (e.1 < lo + 4 * n)).foldl (fun (l : List (Nat × Word)) e =>
    let k := (e.1 - lo) / 4
    sset (0 : Word) l k (sget (0 : Word) l k ||| ((e.2.setWidth 32 : Word) <<< (8 * ((e.1 - lo) % 4))))) []

/-- Bytes that memory holds from `lo` on, n of them, by offset. -/
def bytesFrom (m : Memory) (lo n : Nat) : Memory :=
  (m.filter fun e => decide (lo ≤ e.1) && decide (e.1 < lo + n)).map fun e => (e.1 - lo, e.2)

/-- A beam with the fields of its record at `o` (R389), its `%tenant` at `x`, and its registers, `n` words from `f`. What its wait and its
latch block stand for is kept beside the area (log 7). -/
def Beam.fromArea (b : Beam) (m : Memory) (o x f : Nat) : Beam :=
  let w := m.readNat (o + 0x28) 4
  { b with
    pc := if b.latched.isSome then b.pc else BitVec.ofNat 64 (m.readNat o 8)
    epc := BitVec.ofNat 64 (m.readNat (o + 8) 8), pix := BitVec.ofNat 32 (m.readNat (o + 0x10) 4)
    exm := BitVec.ofNat 32 (m.readNat (o + 0x14) 4), lvm := BitVec.ofNat 32 (m.readNat (o + 0x18) 4)
    eexm := BitVec.ofNat 32 (m.readNat (o + 0x1C) 4), cause := BitVec.ofNat 32 (m.readNat (o + 0x20) 4)
    tvec := BitVec.ofNat 32 (m.readNat (o + 0x24) 4), wb := BitVec.ofNat 10 w, skid := BitVec.ofNat 2 (w / 2 ^ 10)
    fflags := BitVec.ofNat 5 (w / 2 ^ 12), rmode := BitVec.ofNat 3 (w / 2 ^ 17), chk := BitVec.ofNat 1 (w / 2 ^ 20)
    tele := BitVec.ofNat 4 (w / 2 ^ 21), sibProg := w.testBit 25, jstat := BitVec.ofNat 32 (m.readNat (o + 0x38) 4)
    tenant := ssetAll 0 [] (lanes.map fun i => (i, BitVec.ofNat 16 (m.readNat (x + 2 * i) 2)))
    main := wordsFrom m f (32 * b.budget) }

def SlotSt.ofCode (n : Nat) : SlotSt := match n with | 0 => .free | 1 => .acquired | 2 => .full | _ => .held

/-- A queue with the fields of its record (R388). -/
def Queue.fromArea (q : Queue) (m : Memory) (o : Nat) : Queue :=
  let st := m.readNat (o + 16) 16
  { q with
    ctrl := BitVec.ofNat 32 (m.readNat o 4), p := m.readNat (o + 4) 4, c := m.readNat (o + 8) 4
    slots := ssetAll Slot.init [] ((List.range 64).map fun j =>
      (j, { q.slot j with st := SlotSt.ofCode (st / 4 ^ j % 4), status := BitVec.ofNat 32 (m.readNat (o + 32 + 4 * j) 4) })) }

/-- A board request with the fields of its record. -/
def Board.fromArea (b : Board) (m : Memory) (o : Nat) : Board :=
  let w := m.readNat o 8
  { b with
    ch := w / 2 % 2, q := w / 4 % 8, layer := w / 2 ^ 16 % 2 ^ 12
    tiles := (List.range (w / 2 ^ 28 % 16)).flatMap fun i =>
      let r := m.readNat (o + 8 + 8 * i) 8
      (List.range (r / 2 ^ 20 % 2 ^ 20)).map fun k => r % 2 ^ 20 + k }

def PState.ofCode (n : Nat) : PState := match n with | 0 => .idle | 1 => .loaded | 2 => .running | _ => .done

/-- The Prism array with its fields of the team record at `a`. -/
def Prism.fromArea (p : Prism) (m : Memory) (a : Nat) : Prism :=
  let byte (o n : Nat) : List (Nat × Byte) := ssetAll prismDefault [] ((List.range n).map fun i => (i, m.read (a + o + i)))
  let w := m.readNat (a + 0x18C0) 4
  { p with
    state := PState.ofCode (w % 4), max := w.testBit 2, w := BitVec.ofNat 8 (w / 8), delays := byte 0x6000 4096
    ins := byte 0x1800 64, outs := byte 0x1840 64, wins := byte 0x1880 64 }

/-- A saved team as its save area holds it (R387 to R390): registers, scratchpad, accumulators, metadata, Prism state, team words,
barriers, tile slots, queues and board requests are those bytes. -/
def State.loadArea (s : State) (T : Team) (l : Launch) : Team :=
  let m := s.mem
  let a := T.area
  let r0 := a + 0x28000
  let r1 := r0 + 16384 * l.granules
  let r2 := r1 + 16384 * poolScr l.pool
  let r3 := r2 + 32768 * poolAcc l.pool
  let file (k : Nat) : Nat := r0 + 128 * ((T.beams.take k).map (·.budget)).sum
  { T with
    beams := T.beams.mapIdx fun k b => b.fromArea m (a + 0x200 + 64 * k) (a + 0x1900 + 64 * k) (file k)
    scratch := bytesFrom m r1 (16384 * poolScr l.pool), acc := wordsFrom m r2 (8192 * poolAcc l.pool)
    metam := bytesFrom m r3 (4096 * poolAcc l.pool), tw := wordsFrom m (a + 0x40) 16
    bars := ssetAll NBar.init [] ((List.range 16).map fun b =>
      let w := m.readNat (a + 0x80 + 8 * b) 8
      (b, ⟨w % 256, w / 256 % 256, BitVec.ofNat 32 (w / 2 ^ 32)⟩))
    arrived := BitVec.ofNat 16 (m.readNat (a + 0x120) 4)
    tiles := ssetAll TileSlot.init [] ((List.range 4).map fun k =>
      let w := m.readNat (a + 0x100 + 8 * k) 8
      (k, ⟨w % 2 ^ 32, w / 2 ^ 32 % 2 ^ 10⟩))
    queues := ssetAll Queue.init [] (T.queues.map fun e => (e.1, e.2.fromArea m (a + 0x600 + 288 * e.1)))
    boards := T.boards.map fun e => (e.1, e.2.fromArea m (a + 0x1000 + 128 * e.1))
    prism := if poolPrism l.pool then T.prism.fromArea m a else T.prism }

/-- A beam as it comes back: its window is copied, and a stopped long instruction, or a microprogram, that is its own to resume
goes on. It counts as not having issued (R108). -/
def Beam.restore (b : Beam) (now : Nat) : Beam :=
  let c := { b.fillWindow b.wb.toNat 0 with issueAt := now, lastIssue := none }
  if c.halt = .run then (c.goOn now).recall else c

/-- The parts of a team that a restore renews: board requests are registered afresh, the clock of its quantum starts. -/
def Team.restore (T : Team) (core now ring : Nat) : Team :=
  { T with
    life := .resident core, since := now, entries := [], beams := T.beams.map fun b => b.restore now,
    boards := T.boards.map fun e => (e.1, { e.2 with due := ring + 16, regAt := none }) }

/-- The saved engine entries are accepted again, in their saved order and before what the team issues (R255); the reuse latch that served
one has been released (R254). -/
def State.reaccept (s : State) (core : Nat) (l : List Entry) : State :=
  let C := s.core core
  s.setCore core { C with entries := C.entries ++ l.map fun n => { n with at_ := s.clock, again := true, served := false } }

/-- Its save area has a line with an uncorrectable error: a restore that reads it stops the team (R380). -/
def State.areaBad (s : State) (G : Grid) (T : Team) : Bool := s.badRange T.area G.launch.area

/-- One team is restored on a core. -/
def State.restoreTeam (s : State) (G : Grid) (t : Nat) (T : Team) (core : Nat) : State :=
  let s1 := (s.enterCore G t ((s.loadArea T G.launch).restore core s.clock s.ring) core).dropLanes t
  let s2 := s1.reaccept core T.entries
  let ids := (s2.net.log.filter fun g => decide (g.packet.src.t = t) && g.packet.job.isNone).map (·.id)
  let moved := { s2 with net := { s2.net with
    log := s2.net.log.map fun g => if ids.contains g.id then { g with core := core } else g } }
  let owed := (moved.net.log.filter fun g => ids.contains g.id && !g.retry).map (·.id)
  let s3 := (ids.foldl State.replayEntry moved).modTeam t fun T => { T with owed := owed }
  let s4 := (List.range T.beams.length).foldl (fun s k =>
    match s.beam? ⟨t, k⟩ with
    | some b => if b.ptrap.isSome ∧ b.halt = .run then s.enterPending ⟨t, k⟩ else s
    | none => s) s3
  if s.areaBad G T then s4.fatalStop ⟨t, 0⟩ cPOISONOWN 0 0 0 0 else s4

def execTeamRestore (t core : Nat) (s : State) : Host.Outcome State Fault Refusal :=
  match s.team? t with
  | none => .next s
  | some T =>
    match s.gridOf T with
    | none => .next s
    | some G =>
      let c : Cand := ⟨T.grid, G, some (t, T.savedAt)⟩
      if s.sys.dstate = .run ∧ s.nextSaved T.grid G = some (t, T.savedAt) ∧ s.mayTake c core = true ∧ s.turn c = true then
        let s1 := s.restoreTeam G t T core
        let s2 := match (if G.launch.paired then s.pairOf T else none), (s.pairCore T.grid G core) with
          | some (u, U), some d => s1.restoreTeam G u U d
          | _, _ => s1
        .next (s2.dropRoom T.grid)
      else .next s

/-! ### Retirement (R112, R275, R383) -/

/-- A beam with no live lane and nothing unacknowledged retires: what it waited for is dropped; with the last one the team's board
requests are cancelled. -/
def execBeamRetire (t b : Nat) (s : State) : Host.Outcome State Fault Refusal :=
  let r : Ref := ⟨t, b⟩
  match s.team? t, s.beam? r with
  | some T, some B =>
    if B.status = .retired ∨ B.lvm ≠ 0 ∨ B.orc ≠ 0 then .next s
    else
      let T1 := T.setBeam b { B with status := .retired }
      let last := T1.beams.all fun x => decide (x.status = .retired)
      let s1 := (s.dropWatches r).dropLog fun g => g.of r && g.retry
      .next (s1.setTeam t (if last then T1.cancelBoards else T1))
  | _, _ => .next s

/-- A team that retires with failed jobs that no beam observed reports one: the first to complete (DESIGN CHOICE, log 71). -/
def State.unseenReport (s : State) (T : Team) : State :=
  match T.unseen with
  | [] => s
  | w :: _ => s.teamReport T 4 (w.extractLsb' 28 4).toNat 0 0xFF 0 (T.beams.head?.elim 0 fun b => b.pc.toNat) w.toNat

/-- What the team's instructions have still to send: groups of packets, faulted lanes in the operand log, a job whose rows are being
read (R272). A grid's completion comes after its stores and jobs (R112, R113, DEDUCED, log 61). -/
def State.storesLeft (s : State) (t : Nat) (T : Team) : Bool :=
  (T.beams.any fun b => (b.longs ++ b.latched.toList).any fun l =>
    match l.op with
    | .coal _ gs _ n => (gs.drop n).flatten.any fun p => p.op.counted
    | .kvw _ _ _ _ => true
    | .gatj _ _ _ _ _ _ _ => true
    | _ => false) ||
  s.net.log.any fun g => decide (g.packet.src.t = t) && g.packet.job.isNone && !g.retry && g.packet.op.counted

/-- Everything that a team's retirement waits for. -/
def State.mayRetire (s : State) (t : Nat) (T : Team) : Bool :=
  (((T.beams.all fun b => decide (b.status = .retired) && decide (b.orc = 0)) && !s.storesLeft t T) || T.stopped) && s.accessesDone t &&
    (s.jobs.all fun j => decide (j.team ≠ some t)) && decide (T.boards = []) && decide (T.prism.state ≠ .running) &&
    s.cores.all fun c => c.2.entries.all fun n => decide (n.src.t ≠ t)

/-- A team retires and frees everything that it holds. -/
def State.retireTeam (s : State) (t : Nat) (T : Team) : State :=
  let s1 := if T.stopped then s else s.unseenReport T
  let s2 := (({ s1 with teams := adel s1.teams t }).dropLanes t).dropTeamWatches t
  let s3 := s2.dropLog fun g => decide (g.packet.src.t = t) && g.packet.job.isNone
  match s3.grid? T.grid with
  | none => s3.preDone
  | some G => (s3.setGrid T.grid { G with retired := G.retired + 1 }).preDone

def execTeamRetire (t : Nat) (s : State) : Host.Outcome State Fault Refusal :=
  match s.team? t with
  | none => .next s
  | some T => if s.mayRetire t T then .next (s.retireTeam t T) else .next s

/-- A grid completes: all its teams have retired, or no further one will be placed. -/
def execGridComplete (g : Nat) (s : State) : Host.Outcome State Fault Refusal :=
  match s.grid? g with
  | none => .next s
  | some G =>
    let bad := s.producerFailed G
    let ended := decide (G.launch.count ≤ G.next) || G.fatal || bad || decide ((s.func G.func).state ≠ .run)
    if s.teamsOf g ≠ [] ∨ ended = false then .next s
    else
      let s1 := s.modNode G.replay G.node fun N =>
        { N with state := .complete, failed := N.failed || (decide (G.next < G.launch.count) && (G.fatal || bad)) }
      let s2 := if bad then s1.failReplay G.replay 2 G.node else s1
      .next (({ s2 with grids := adel s2.grids g }).dropRoom g)

end Sys2Proof.Machine
end

