-- ==== Sys2Proof/Machine/Migrate.lean ====
section
/-! DEFINITION. Migration between HBM and CXL (R374) and read-duplicated pages (R375). -/

namespace Sys2Proof.Machine

/-! ### The leaves of a function (R365) -/

/-- A valid leaf as it stands in a table: its virtual address, itself, the address of its entry. -/
structure Mapped where
  va  : Nat
  l   : Leaf
  pte : Nat
  deriving DecidableEq, Repr

def Mapped.size (m : Mapped) : Nat := 2 ^ pageBits m.l.level
def Mapped.base (m : Mapped) : Nat := m.l.frame.toNat * 65536

/-- The leaves and the tables below a table, of `fuel` levels. -/
def tableScan (m : Memory) (fuel table va : Nat) : List Mapped × List Nat :=
  match fuel with
  | 0 => ([], [])
  | n + 1 =>
    (List.range 1024).foldl (fun r i =>
      let a := table + 8 * i
      let v := va + i * 2 ^ pageBits n
      match pteOf (BitVec.ofNat 64 (m.readNat a 8)) n with
      | .leaf l => (r.1 ++ [⟨v, l, a⟩], r.2)
      | .table t => let q := tableScan m n t v; (r.1 ++ q.1, r.2 ++ q.2)
      | _ => r) ([], [table])

def State.scan (s : State) (f : Nat) : List Mapped × List Nat := tableScan s.mem 4 (s.func f).asroot.toNat 0

/-- The leaf that maps an address of f. -/
def State.mapped (s : State) (f va : Nat) : Option Mapped :=
  let rec find (fuel table : Nat) : Option Mapped :=
    match fuel with
    | 0 => none
    | n + 1 =>
      let a := pteAddr table va n
      match pteOf (BitVec.ofNat 64 (s.mem.readNat a 8)) n with
      | .leaf l => some ⟨va / 2 ^ pageBits n * 2 ^ pageBits n, l, a⟩
      | .table t => find n t
      | _ => none
  find 4 (s.func f).asroot.toNat

/-! ### The victim (R374) -/

/-- The range lists in use order: of f's running grids, then of its queued LAUNCH nodes. -/
def State.useOrder (s : State) (f : Nat) : List (Nat × Nat) :=
  let cand (e : Nat × Grid) : Cand := ⟨e.1, e.2, s.nextSaved e.1 e.2⟩
  let run := ((s.grids.filter fun e => decide (e.2.func = f)).map cand).insertionSort fun a b => a.before s b = true
  let nodes : List (Nat × Nat × Nat × Node) := s.work.replays.flatMap fun e =>
    if e.2.func = f ∧ e.2.started = true ∧ e.2.code ≤ 1 then
      (e.2.nodes.filter fun n => decide (n.2.state = .waiting) && decide (n.2.kind = 1)).map fun n => (e.2.prio, e.2.order, n.1, n.2)
    else []
  let wait := nodes.insertionSort fun a b => b.1 < a.1 ∨ (a.1 = b.1 ∧ (a.2.1 < b.2.1 ∨ (a.2.1 = b.2.1 ∧ a.2.2.1 ≤ b.2.2.1)))
  run.flatMap (fun c => c.G.ranges) ++ wait.flatMap fun n => s.readRanges f (readLaunch n.2.2.2.body)

/-- The next use of a page: the first entry that covers it; pages that none covers come last. -/
def nextUse (l : List (Nat × Nat)) (m : Mapped) : Nat :=
  (l.findIdx? fun r => decide (r.1 < m.va + m.size) && decide (m.va < r.1 + r.2)).getD l.length

/-- A leaf names bytes of `[a, a + n)` of this device's memory. -/
def Mapped.meets (m : Mapped) (a n : Nat) : Bool :=
  (decide (m.l.kind = .hbm) || decide (m.l.kind = .cxl) || decide (m.l.kind = .multicast)) &&
    decide (m.base < a + n) && decide (a < m.base + m.size)

/-- The leaves of every function that name bytes of `[a, a + n)` (R364: another table may map the page too). -/
def State.leavesOn (s : State) (a n : Nat) : List (Nat × Mapped) :=
  s.regs.funcs.flatMap fun e =>
    if e.2.state = .off then [] else ((s.scan e.1).1.filter fun m => m.meets a n).map fun m => (e.1, m)

/-- A page that migration may take: it holds no table, and every leaf that names bytes of it lies inside it and may be moved. -/
def State.movable (s : State) (m : Mapped) (tables : List Nat) (k : PKind) : Bool :=
  decide (m.l.kind = k) && (tables.all fun t => decide (t + 8192 ≤ m.base) || decide (m.base + m.size ≤ t)) && !m.l.rd && !m.l.pin &&
    (s.leavesOn m.base m.size).all fun e =>
      !e.2.l.rd && !e.2.l.pin && decide (m.base ≤ e.2.base) && decide (e.2.base + e.2.size ≤ m.base + m.size)

/-- Every table of the package. -/
def State.tables (s : State) : List Nat := s.regs.funcs.flatMap fun e => if e.2.state = .off then [] else (s.scan e.1).2

/-- The victim: the pages with the greatest next use; of pages with none, the one at the lowest address. -/
def State.victimPages (s : State) (f : Nat) : List Mapped :=
  let use := s.useOrder f
  let ps := (s.scan f).1.filter fun m => s.movable m s.tables .hbm
  let top := ps.foldl (fun k m => Nat.max k (nextUse use m)) 0
  let l := ps.filter fun m => decide (nextUse use m = top)
  if top = use.length then l.take 1 else l

/-- Bytes of f's HBM pages. -/
def hbmBytes (l : List Mapped) : Nat := ((l.filter fun m => decide (m.l.kind = .hbm)).map Mapped.size).sum

/-- f's HBM pages exceed its quota. -/
def State.overQuota (s : State) (f more : Nat) : Bool :=
  decide (hbmBytes (s.scan f).1 + more > 2 ^ 26 * (s.func f).hbmq.toNat)

/-- The first pages of a list that fit beside f's HBM pages in its quota. -/
def State.fitQuota (s : State) (f more : Nat) (l : List Mapped) : List Mapped :=
  match l with
  | [] => []
  | m :: r => if s.overQuota f (more + m.size) then [] else m :: s.fitQuota f (more + m.size) r

/-- The CXL pages of the earliest range entry that has any, of a grid none of whose teams has been placed, as far as HBMQ allows. -/
def State.fetchPages (s : State) (f : Nat) : List Mapped :=
  let ps := (s.scan f).1.filter fun m => s.movable m s.tables .cxl
  let on (r : Nat × Nat) : List Mapped := ps.filter fun m => decide (r.1 < m.va + m.size) && decide (m.va < r.1 + r.2)
  s.fitQuota f 0 ((s.grids.findSome? fun e =>
    if e.2.func = f ∧ e.2.next = 0 then
      (e.2.ranges.find? fun r => decide (on r ≠ [])).map on
    else none).getD [])

/-! ### The move -/

/-- Frames for pages, one after another from `a`, each aligned to its page. -/
def placeFrames (l : List Mapped) (a : Nat) : List (Mapped × Nat) :=
  match l with
  | [] => []
  | m :: r => let b := (a + m.size - 1) / m.size * m.size; (m, b) :: placeFrames r (b + m.size)

/-- Where a physical page is used: frames of pages in this device's memory, tables, and targets of moves in progress. -/
def State.usedRanges (s : State) : List (Nat × Nat) :=
  let held (m : Mapped) : Bool := decide (m.l.kind = .hbm) || decide (m.l.kind = .cxl) || decide (m.l.kind = .multicast)
  (s.tables.map fun t => (t, 8192)) ++ (s.net.moves.map fun m => (m.new, m.size)) ++
    s.regs.funcs.flatMap fun e =>
      if e.2.state = .off then [] else ((s.scan e.1).1.filter held).map fun m => (m.base, m.size)

/-- The target is free: inside the partition, of the right memory, and unused. -/
def State.frameFree (s : State) (f : Nat) (k : PKind) (a n : Nat) : Bool :=
  let isIn := if k = .hbm then decide (a + n ≤ hbmTop) else decide (cxlBase ≤ a) && decide (a + n ≤ cxlTop)
  isIn && (s.part (s.func f).part.toNat).covers a n &&
    s.usedRanges.all fun u => decide (a + n ≤ u.1) || decide (u.1 + u.2 ≤ a)

/-- No 64 KiB frame of HBM is free in f's partition: neither at the start of a range nor after a range that is used. -/
def State.hbmFull (s : State) (f : Nat) : Bool :=
  let starts := (List.range 4).map fun r => (sget 0 (s.part (s.func f).part.toNat).base r).toNat * 2 ^ 26
  let ends := s.usedRanges.map fun u => (u.1 + u.2 + 65535) / 65536 * 65536
  (starts ++ ends).all fun a => !s.frameFree f .hbm a 65536

/-- No access that was translated before is on its way to bytes `[a, a + n)`. -/
def State.rangeQuiet (s : State) (a n : Nat) : Bool :=
  let at_ (pa : Nat) : Bool := decide (a ≤ pa) && decide (pa < a + n)
  let pk (p : Packet) : Bool := p.elems.any fun x => at_ x.pa
  let kv (k : KvLane) : Bool := at_ k.tag || at_ k.desc || k.els.any fun x => at_ x.1
  !(s.net.packets.any pk) && s.teams.all fun e => e.2.beams.all fun b =>
    (b.longs ++ b.latched.toList ++ b.trapped.toList).all fun l =>
      match l.op with
      | .coal _ gs _ n => !((gs.drop n).flatten.any pk)
      | .kvw _ ls rest _ => !(ls.any kv) && !(rest.any fun x => x.desc.any fun d => at_ d.1)
      | .kvr ls rest _ _ _ _ => !(ls.any kv) && !(rest.any fun x => x.desc.any fun d => at_ d.1)
      | _ => true

/-- An entry with another frame and kind; its other bits stay. -/
def pteMoved (e k frame : Nat) : Nat := e % 2 ^ 13 + k * 2 ^ 13 + frame * 2 ^ 16 + e / 2 ^ 48 * 2 ^ 48

/-- A leaf in table memory with the frame and kind of the memory that its page has moved to; a multicast leaf keeps its kind. -/
def Memory.moveLeaf (m : Memory) (x : Move) (l : Mapped) : Memory :=
  let k := if l.l.kind = .multicast then 4 else if x.kind = .hbm then 0 else 1
  m.writeNat l.pte 8 (pteMoved (m.readNat l.pte 8) k ((l.base - x.old + x.new) / 65536))

/-- A page moves: its lines are copied with their marks, its leaf is rewritten, and so is every other leaf that names it, so that each
access finds the same bytes as before; their translations are removed. -/
def State.movePage (s : State) (m : Move) : State :=
  let inside (a : Nat) : Bool := decide (m.old ≤ a) && decide (a < m.old + m.size)
  let dest (a : Nat) : Nat := a - m.old + m.new
  let part := ((s.mem.filter fun e => inside e.1).map fun e => (dest e.1, e.2))
  let mem1 := s.mem.splice m.new (m.new + m.size) part
  let e := mem1.readNat m.pte 8
  let mem2 := mem1.writeNat m.pte 8 (pteMoved e (if m.kind = .hbm then 0 else 1) (m.new / 65536))
  let also := (s.leavesOn m.old m.size).filter fun e => decide (e.2.pte ≠ m.pte)
  let gone (l : Nat) : Bool := inside (128 * l) || (decide (m.new ≤ 128 * l) && decide (128 * l < m.new + m.size))
  let s1 := { s with
    mem := also.foldl (fun (x : Memory) (e : Nat × Mapped) => x.moveLeaf m e.2) mem2
    net := { s.net with
      watches := s.net.watches.map fun (w : Watch) => if inside w.pa then { w with pa := dest w.pa, kind := m.kind } else w
      roCache := s.net.roCache.filter fun l => !gone l.line
      badLines := (s.net.badLines.filter fun l => !gone l) ++
        (s.net.badLines.filter fun l => inside (128 * l)).map fun l => dest (128 * l) / 128 } }
  (also.foldl (fun (s : State) (e : Nat × Mapped) => s.dropRange e.1 e.2.va e.2.size) s1).dropRange m.func m.va m.size

/-- Accesses to the page fault from now on (R372, R374): its translations are removed, and the move is in progress. -/
def State.moveBegin (s : State) (m : Move) : State :=
  { s.dropRange m.func m.va m.size with net := { (s.dropRange m.func m.va m.size).net with moves := s.net.moves ++ [m] } }

/-- The move is complete: the lanes that faulted on the page are to be replayed (R373). -/
def State.moveEnd (s : State) (m : Move) : State :=
  let s1 := s.movePage m
  let put (g : LogEntry) : LogEntry :=
    if g.func = m.func ∧ m.va ≤ g.va ∧ g.va < m.va + m.size ∧ g.answer = none ∧ g.upgrade = false then { g with answer := some true } else g
  { s1 with net := { s1.net with
      moves := s1.net.moves.filter fun x => decide (x ≠ m)
      log := s1.net.log.map put } }

/-- The pages that the migration scheduler moves next for f, with the memory that they go to. -/
def State.migrants (s : State) (f : Nat) : PKind × List Mapped :=
  if s.overQuota f 0 || s.hbmFull f then (.cxl, s.victimPages f) else (.hbm, s.fetchPages f)

/-- The moves of pages to frames that follow `frame`; none where a frame is not free. -/
def State.movesOf (s : State) (f frame : Nat) : List Move :=
  let k := (s.migrants f).1
  let ps := placeFrames (s.migrants f).2 (65536 * frame)
  if ps.all fun p => s.frameFree f k p.2 p.1.size then
    ps.map fun p => ⟨f, p.1.va, p.1.size, p.1.pte, p.1.base, p.2, k⟩
  else []

/-- The migration scheduler moves the victim of f to CXL while f's HBM pages exceed its quota or HBM has no free frame, or the first CXL
pages that a new grid will use back to HBM as far as the quota allows. The moves whose first page is at `va` begin; from then on the
event completes a move of that page to that frame, once no access that was translated before is on its way to it (R374). -/
def execPageMigrate (f : Nat) (va : BitVec 64) (frame : Nat) (s : State) : Host.Outcome State Fault Refusal :=
  if (s.func f).state ≠ .run then .next s
  else
    match s.net.moves.find? fun m => decide (m.func = f) && decide (m.va = va.toNat) with
    | some m => if m.new / 65536 = frame ∧ s.rangeQuiet m.old m.size = true then .next (s.moveEnd m) else .next s
    | none =>
      if s.net.moves.any (fun m => decide (m.func = f)) = true ∨ ((s.movesOf f frame).head?.map (·.va)) ≠ some va.toNat then .next s
      else .next ((s.movesOf f frame).foldl State.moveBegin s)

/-! ### Read-duplicated pages (R375) -/

/-- An address of function f lies in a range of its space. -/
def inRange (g f va : Nat) (r : Nat × Nat) : Bool := decide (g = f) && decide (r.1 ≤ va) && decide (va < r.1 + r.2)

/-- The page of an address: its first address and its size; 64 KiB where no leaf maps it. -/
def State.pageRange (s : State) (f va : Nat) : Nat × Nat :=
  match s.mapped f va with
  | some m => (m.va, m.size)
  | none => (va / 65536 * 65536, 65536)

/-- Log entries of an upgrade of a page. -/
def LogEntry.upOf (g : LogEntry) (f : Nat) (r : Nat × Nat) : Bool := g.upgrade && inRange g.func f g.va r

/-- The upgrade of a page. -/
def Upgrade.on (u : Upgrade) (f : Nat) (r : Nat × Nat) : Bool := inRange u.func f u.va r

/-- Entries of the page wait for an upgrade no longer: they are answered, or they are faults like any other. -/
def State.upEnd (s : State) (f : Nat) (r : Nat × Nat) (answer : Option Bool) : State :=
  { s with net := { s.net with
    upgrades := s.net.upgrades.filter fun u => !u.on f r
    log := s.net.log.map fun g => if g.upOf f r then { g with upgrade := false, answer := answer } else g } }

/-- The page has become invalid here: the driver is asked (R373). -/
def State.upFault (s : State) (f : Nat) (r : Nat × Nat) : State :=
  let l := s.net.log.filter fun g => g.upOf f r
  let opened (p : Nat) : Bool := s.net.log.any fun h =>
    !h.upgrade && decide (h.func = f) && decide (h.va / 65536 = p) && decide (h.answer = none)
  let first (p : Nat) : Option LogEntry := if opened p then none else l.find? fun g => decide (g.va / 65536 = p)
  ((l.map fun g => g.va / 65536).eraseDups.filterMap first).foldl
    (fun s g => s.record f 2 (tfaultBody g.id g.va true false g.packet.job.isSome g.core)) (s.upEnd f r none)

def State.rdSend (s : State) (k : RdKind) (dst writer va : Nat) : State :=
  { s with net := { s.net with rdSent := s.net.rdSent ++ [⟨k, dst, writer, BitVec.ofNat 64 va⟩] } }

/-- The read-duplicated page of an address, with its holders. -/
def State.rdPage (s : State) (f va : Nat) : Option (Mapped × List Nat) :=
  match s.mapped f va with
  | none => none
  | some m => if m.l.rd then (s.peerEnt f m.l.aux).map fun p => (m, p.ids) else none

/-- An entry's upgrade goes to the home holder. -/
def execRdUpgrade (id : Nat) (s : State) : Host.Outcome State Fault Refusal :=
  match s.entry? id with
  | none => .next s
  | some g =>
    let page := s.pageRange g.func g.va
    if g.upgrade = false ∨ (s.net.upgrades.any fun u => u.on g.func page) = true then .next s
    else
      match s.rdPage g.func g.va with
      | some (_, ids) =>
        let u : Upgrade := { log := id, va := g.va, func := g.func, holders := ids, granted := none }
        let s1 := { s with net := { s.net with upgrades := s.net.upgrades ++ [u] } }
        let own := s.fab.dev.toNat
        .next (if ids.headD 0 = own then s1 else s1.rdSend .upgrade (ids.headD 0) own g.va)
      | none => if (s.mapped g.func g.va).isSome then .next (s.upEnd g.func page (some true)) else .next (s.upFault g.func page)

/-- A grant that the home holder made for the page is not over (R375): upgrades are granted one after another. -/
def State.granting (s : State) (f : Nat) (r : Nat × Nat) : Bool :=
  (s.net.rdGrants.any fun g => inRange g.func f g.va r) || s.net.upgrades.any fun u => u.on f r && u.granted.isSome

/-- A grant: the home holder sends an invalidate to every other holder; at the writer, its 2 ms begin. -/
def execRdGrant (writer : Nat) (va : BitVec 64) (f : Nat) (s : State) : Host.Outcome State Fault Refusal :=
  match s.rdPage f va.toNat with
  | none => .next s
  | some (m, ids) =>
    let own := s.fab.dev.toNat
    let home := decide (ids.headD 0 = own)
    let open_ := s.net.upgrades.any fun u => u.on f (m.va, m.size) && u.granted.isNone
    if ids.contains writer = false ∨ (writer = own ∧ open_ = false) ∨ (writer ≠ own ∧ home = false) ∨
        (home = true ∧ s.granting f (m.va, m.size) = true) then .next s
    else
      let mark (u : Upgrade) : Upgrade :=
        if writer = own ∧ u.on f (m.va, m.size) = true then { u with granted := some s.ftime } else u
      let s1 := { s with net := { s.net with
        upgrades := s.net.upgrades.map mark
        rdGrants := if home ∧ writer ≠ own then s.net.rdGrants ++ [⟨f, m.va, writer⟩] else s.net.rdGrants } }
      if home then
        let s2 := (ids.filter fun i => decide (i ≠ writer) && decide (i ≠ own)).foldl (fun s i => s.rdSend .invalidate i writer m.va) s1
        .next (if writer = own then s2 else s2.rdSend .grant writer writer m.va)
      else .next s1

/-- An invalidate that this holder cannot complete yet, by its page and writer. -/
def RdHeld.on (h : RdHeld) (f va writer : Nat) : Bool := decide (h.func = f) && decide (h.va = va) && decide (h.writer = writer)

/-- The record of a holder that is silent for 2 ms (R375, R429). -/
def rdupBody (va writer f : Nat) : List Byte := leBytes 8 va ++ leBytes 2 writer ++ leBytes 1 f ++ leBytes 37 0

/-- A holder's copy is invalidated for the writer: its leaf, its translations, and its acknowledgement; until no access translated
before is on its way to the page, the invalidate is held. -/
def execRdInvalidate (writer : Nat) (va : BitVec 64) (f : Nat) (s : State) : Host.Outcome State Fault Refusal :=
  match s.rdPage f va.toNat with
  | none => .next s
  | some (m, ids) =>
    let own := s.fab.dev.toNat
    if writer = own ∨ ids.contains writer = false ∨ ids.contains own = false then .next s
    else if s.rangeQuiet m.base m.size = false then
      if s.net.rdHeld.any fun h => h.on f m.va writer then .next s
      else
        let h : RdHeld := { id := s.nextId, func := f, va := m.va, writer := writer, since := s.ftime, told := false }
        .next { s with nextId := s.nextId + 1, net := { s.net with rdHeld := s.net.rdHeld ++ [h] } }
    else
      let s0 := { s with net := { s.net with
        rdHeld := s.net.rdHeld.filter fun h => !h.on f m.va writer
        rdGrants := s.net.rdGrants.filter fun g => decide (g.func ≠ f) || decide (g.va ≠ m.va) } }
      let s1 := ({ s0 with mem := s.mem.write m.pte (s.mem.read m.pte &&& 0xFE) }).dropRange f m.va m.size
      .next ((s1.upFault f (m.va, m.size)).rdSend .ack writer writer m.va)

/-- Every acknowledgement has arrived: RD is cleared in the writer's leaf, and the entries of the page are to be replayed. -/
def execRdAckComplete (id : Nat) (s : State) : Host.Outcome State Fault Refusal :=
  match s.net.upgrades.find? fun u => decide (u.log = id) with
  | none => .next s
  | some u =>
    match u.granted, s.rdPage u.func u.va with
    | some _, some (m, _) =>
      let s1 := ({ s with mem := s.mem.write (m.pte + 1) (s.mem.read (m.pte + 1) &&& 0xFB) }).dropRange u.func m.va m.size
      .next (s1.upEnd u.func (m.va, m.size) (some true))
    | _, _ => .next s

/-- The physical address of a virtual one in a function's tables, for partition p; 0 where it has none. -/
def State.physical (s : State) (f p va : Nat) : Nat :=
  match s.walk f p va with
  | .ok _ pa => pa
  | _ => 0

/-- A holder records that it has kept an invalidate for 2 ms (R375, R429; from its arrival, DESIGN CHOICE, log 70). -/
def State.rdSilent (s : State) (id : Nat) : State :=
  match s.net.rdHeld.find? fun h => decide (h.id = id) with
  | none => s
  | some h =>
    if h.told = true ∨ s.ftime < h.since + 2000000 then s
    else
      let s1 := { s with net := { s.net with rdHeld := s.net.rdHeld.map fun (x : RdHeld) => if x.id = id then { x with told := true } else x } }
      s1.record 0 8 (rdupBody h.va h.writer h.func)

/-- The entries of a page's upgrade that end with a writer: those of the teams of its grid, or of its job. -/
def State.upWith (s : State) (g h : LogEntry) : Bool :=
  match g.packet.job, h.packet.job with
  | none, none => decide ((s.team? g.packet.src.t).map (·.grid) = (s.team? h.packet.src.t).map (·.grid))
  | some i, some j => decide (i = j)
  | _, _ => false

/-- An acknowledgement is still missing 2 ms after the grant: `REMOTEFATAL` in the writer's context, and its store is not
performed; other writers of the page ask for it again. PEER names one of the other holders (DESIGN CHOICE, log 70). -/
def execRdTimeout (id : Nat) (s : State) : Host.Outcome State Fault Refusal :=
  match s.net.upgrades.find? fun u => decide (u.log = id), s.entry? id with
  | some u, some g =>
    match u.granted with
    | none => .next s
    | some at_ =>
      if s.ftime < at_ + 2000000 then .next s
      else
        let page := s.pageRange u.func u.va
        let s1 := ({ s with free := s.free + 1, net := { s.net with
          upgrades := s.net.upgrades.filter fun v => !v.on u.func page } } : State).dropLog fun h => h.upOf u.func page && s.upWith g h
        let others := u.holders.filter fun i => decide (i ≠ s.fab.dev.toNat)
        let peer := others.getD (Config.choice s.free % others.length) 0
        let info := s.physical g.func g.packet.part g.va
        match g.packet.job with
        | none =>
          .next (s1.fatalStop g.packet.src cREMOTEFATAL 0 ((s1.beam? g.packet.src).elim 0 (·.pc)) peer info)
        | some j =>
          let s2 := s1.modJob j fun j => { j with busy := none }
          match (s2.job? j).bind (·.team) with
          | some t => .next (s2.fatalStop ⟨t, g.packet.src.b⟩ cREMOTEFATAL 0 ((s2.beam? ⟨t, g.packet.src.b⟩).elim 0 (·.pc)) peer info)
          | none => .next (s2.modJob j Job.cancel)
  | _, _ => .next (s.rdSilent id)

end Sys2Proof.Machine
end

