-- ==== Sys2Proof/Machine/Body.lean ====
section
/-! DEFINITION. Words that are no instruction (R11, R39, R40), and the body words of microprograms (R38, R92): the base
instructions that a body may hold, and the issue of the body word that a beam has reached. -/

namespace Sys2Proof.Machine

/-- The selected beam traps at a word that it cannot issue, once it could issue (R11, R39). -/
def Issue.badWord (cause : Nat) (s : State) : Host.Outcome State Fault Refusal :=
  match Issue.select s with
  | none => .fault .noBeam
  | some (r, T, b, s1) =>
    if s1.mayIssue T b r.b then .next (Issue.trap (Issue.issued s1 r (s1.clock + 1)) r cause 0 none none 0)
    else .next (Issue.heldUntil s1 r (s1.clock + 1))

/-- Executes a body word of layout B3 by its opcode; none where a body may not hold it. -/
def bodyB3 (op : Nat) (o : B3) (s : State) : Option (Host.Outcome State Fault Refusal) :=
  match op with
  | 0x01 => some (execMov o s)
  | 0x02 => some (execAdd o s)
  | 0x03 => some (execSub o s)
  | 0x04 => some (execMul o s)
  | 0x05 => some (execAnd o s)
  | 0x06 => some (execOr o s)
  | 0x07 => some (execXor o s)
  | 0x08 => some (execShl o s)
  | 0x09 => some (execShr o s)
  | 0x0A => some (execSar o s)
  | 0x0B => some (execMin o s)
  | 0x0C => some (execMax o s)
  | 0x0D => some (execMinu o s)
  | 0x0E => some (execMaxu o s)
  | 0x0F => some (execAndn o s)
  | 0x15 => some (execCeq o s)
  | 0x16 => some (execCne o s)
  | 0x17 => some (execClt o s)
  | 0x18 => some (execCle o s)
  | 0x19 => some (execCltu o s)
  | 0x1A => some (execCleu o s)
  | 0x1B => some (execSel o s)
  | 0x1C => some (execFadd o s)
  | 0x1D => some (execFsub o s)
  | 0x1E => some (execFmul o s)
  | 0x1F => some (execFmac o s)
  | 0x20 => some (execFmin o s)
  | 0x21 => some (execFmax o s)
  | 0x22 => some (execFceq o s)
  | 0x23 => some (execFclt o s)
  | 0x24 => some (execFcle o s)
  | 0x25 => some (execHadd o s)
  | 0x26 => some (execHmul o s)
  | 0x27 => some (execHmac o s)
  | 0x28 => some (execBadd o s)
  | 0x29 => some (execBmul o s)
  | 0x2A => some (execBmac o s)
  | 0x2B => some (execShfl o s)
  | 0x2C => some (execShflx o s)
  | 0x3A => some (execRadd o s)
  | 0x3B => some (execRmax o s)
  | 0x3C => some (execMad o s)
  | 0x3D => some (execPopc o s)
  | 0x3E => some (execClz o s)
  | _ => none

/-- Executes a body word of layout BI by its opcode; none where a body may not hold it. -/
def bodyBI (op : Nat) (o : BI) (s : State) : Option (Host.Outcome State Fault Refusal) :=
  match op with
  | 0x10 => some (execAddi o s)
  | 0x11 => some (execShli o s)
  | 0x12 => some (execShri o s)
  | 0x13 => some (execSari o s)
  | 0x14 => some (execAndi o s)
  | 0x2D => some (execLdsw o s)
  | 0x2E => some (execStsw o s)
  | 0x2F => some (execTwrd o s)
  | 0x30 => some (execTwwr o s)
  | _ => none

/-- Executes a body word of layout BZ by its opcode; none where a body may not hold it. -/
def bodyBZ (op : Nat) (o : BZ) (s : State) : Option (Host.Outcome State Fault Refusal) :=
  match op with
  | 0x00 => some (execNop o s)
  | _ => none


/-- Executes body word `w`; anything but a legal base word of LEN 0 that a body may hold is `ILLEGAL`. -/
def bodyExec (w : Word) (s : State) : Host.Outcome State Fault Refusal :=
  let op := op6Of w
  let r : Option (Host.Outcome State Fault Refusal) :=
    if lenOf w ≠ 0 then none
    else
      match baseOpsOf w none with
      | none => none
      | some o =>
        if baseOk op o then
          (match o with
           | .b3 p => bodyB3 op p s
           | .bi p => bodyBI op p s
           | .bz p => bodyBZ op p s
           | _ => none)
        else none
  r.getD (Issue.badWord cILLEGAL s)

/-- The next body word of the microprogram that a beam runs; an uncorrectable error in it is fatal (R380). -/
def State.bodyStep (s : State) (r : Ref) (T : Team) (c : CallCtx) : Host.Outcome State Fault Refusal :=
  if (s.core T.coreId).bad.contains (32 * c.entry + c.word) then Issue.badWord cPOISONOWN { s with cur := some r }
  else bodyExec (s.bodyWord T c) { s with cur := some r }

def execMacroBodyWord (t b : Nat) (s : State) : Host.Outcome State Fault Refusal :=
  match s.team? t, s.beam? ⟨t, b⟩ with
  | some T, some B =>
    match B.mcall with
    | none => .next s
    | some c => s.bodyStep ⟨t, b⟩ T c
  | _, _ => .next s

end Sys2Proof.Machine
end

