-- ==== Sys2Proof/Machine/Dispatch.lean ====
section
/-! DEFINITION. What each instruction and each event of the opcode table does: one arm for each constructor. -/

namespace Sys2Proof.Machine

def exec (i : Instr) (s : State) : Host.Outcome State Fault Refusal :=
  match i with
  | .nop o => Sys2Proof.Machine.execNop o s
  | .nopX x => Sys2Proof.Machine.execNopX x s
  | .mov o => Sys2Proof.Machine.execMov o s
  | .movX x => Sys2Proof.Machine.execMovX x s
  | .add o => Sys2Proof.Machine.execAdd o s
  | .addX x => Sys2Proof.Machine.execAddX x s
  | .sub o => Sys2Proof.Machine.execSub o s
  | .subX x => Sys2Proof.Machine.execSubX x s
  | .mul o => Sys2Proof.Machine.execMul o s
  | .mulX x => Sys2Proof.Machine.execMulX x s
  | .and o => Sys2Proof.Machine.execAnd o s
  | .andX x => Sys2Proof.Machine.execAndX x s
  | .or o => Sys2Proof.Machine.execOr o s
  | .orX x => Sys2Proof.Machine.execOrX x s
  | .xor o => Sys2Proof.Machine.execXor o s
  | .xorX x => Sys2Proof.Machine.execXorX x s
  | .shl o => Sys2Proof.Machine.execShl o s
  | .shlX x => Sys2Proof.Machine.execShlX x s
  | .shr o => Sys2Proof.Machine.execShr o s
  | .shrX x => Sys2Proof.Machine.execShrX x s
  | .sar o => Sys2Proof.Machine.execSar o s
  | .sarX x => Sys2Proof.Machine.execSarX x s
  | .min o => Sys2Proof.Machine.execMin o s
  | .minX x => Sys2Proof.Machine.execMinX x s
  | .max o => Sys2Proof.Machine.execMax o s
  | .maxX x => Sys2Proof.Machine.execMaxX x s
  | .minu o => Sys2Proof.Machine.execMinu o s
  | .minuX x => Sys2Proof.Machine.execMinuX x s
  | .maxu o => Sys2Proof.Machine.execMaxu o s
  | .maxuX x => Sys2Proof.Machine.execMaxuX x s
  | .andn o => Sys2Proof.Machine.execAndn o s
  | .andnX x => Sys2Proof.Machine.execAndnX x s
  | .addi o => Sys2Proof.Machine.execAddi o s
  | .addiX x => Sys2Proof.Machine.execAddiX x s
  | .shli o => Sys2Proof.Machine.execShli o s
  | .shliX x => Sys2Proof.Machine.execShliX x s
  | .shri o => Sys2Proof.Machine.execShri o s
  | .shriX x => Sys2Proof.Machine.execShriX x s
  | .sari o => Sys2Proof.Machine.execSari o s
  | .sariX x => Sys2Proof.Machine.execSariX x s
  | .andi o => Sys2Proof.Machine.execAndi o s
  | .andiX x => Sys2Proof.Machine.execAndiX x s
  | .ceq o => Sys2Proof.Machine.execCeq o s
  | .ceqX x => Sys2Proof.Machine.execCeqX x s
  | .cne o => Sys2Proof.Machine.execCne o s
  | .cneX x => Sys2Proof.Machine.execCneX x s
  | .clt o => Sys2Proof.Machine.execClt o s
  | .cltX x => Sys2Proof.Machine.execCltX x s
  | .cle o => Sys2Proof.Machine.execCle o s
  | .cleX x => Sys2Proof.Machine.execCleX x s
  | .cltu o => Sys2Proof.Machine.execCltu o s
  | .cltuX x => Sys2Proof.Machine.execCltuX x s
  | .cleu o => Sys2Proof.Machine.execCleu o s
  | .cleuX x => Sys2Proof.Machine.execCleuX x s
  | .sel o => Sys2Proof.Machine.execSel o s
  | .selX x => Sys2Proof.Machine.execSelX x s
  | .fadd o => Sys2Proof.Machine.execFadd o s
  | .faddX x => Sys2Proof.Machine.execFaddX x s
  | .fsub o => Sys2Proof.Machine.execFsub o s
  | .fsubX x => Sys2Proof.Machine.execFsubX x s
  | .fmul o => Sys2Proof.Machine.execFmul o s
  | .fmulX x => Sys2Proof.Machine.execFmulX x s
  | .fmac o => Sys2Proof.Machine.execFmac o s
  | .fmacX x => Sys2Proof.Machine.execFmacX x s
  | .fmin o => Sys2Proof.Machine.execFmin o s
  | .fminX x => Sys2Proof.Machine.execFminX x s
  | .fmax o => Sys2Proof.Machine.execFmax o s
  | .fmaxX x => Sys2Proof.Machine.execFmaxX x s
  | .fceq o => Sys2Proof.Machine.execFceq o s
  | .fceqX x => Sys2Proof.Machine.execFceqX x s
  | .fclt o => Sys2Proof.Machine.execFclt o s
  | .fcltX x => Sys2Proof.Machine.execFcltX x s
  | .fcle o => Sys2Proof.Machine.execFcle o s
  | .fcleX x => Sys2Proof.Machine.execFcleX x s
  | .hadd o => Sys2Proof.Machine.execHadd o s
  | .haddX x => Sys2Proof.Machine.execHaddX x s
  | .hmul o => Sys2Proof.Machine.execHmul o s
  | .hmulX x => Sys2Proof.Machine.execHmulX x s
  | .hmac o => Sys2Proof.Machine.execHmac o s
  | .hmacX x => Sys2Proof.Machine.execHmacX x s
  | .badd o => Sys2Proof.Machine.execBadd o s
  | .baddX x => Sys2Proof.Machine.execBaddX x s
  | .bmul o => Sys2Proof.Machine.execBmul o s
  | .bmulX x => Sys2Proof.Machine.execBmulX x s
  | .bmac o => Sys2Proof.Machine.execBmac o s
  | .bmacX x => Sys2Proof.Machine.execBmacX x s
  | .shfl o => Sys2Proof.Machine.execShfl o s
  | .shflX x => Sys2Proof.Machine.execShflX x s
  | .shflx o => Sys2Proof.Machine.execShflx o s
  | .shflxX x => Sys2Proof.Machine.execShflxX x s
  | .ldsw o => Sys2Proof.Machine.execLdsw o s
  | .ldswX x => Sys2Proof.Machine.execLdswX x s
  | .stsw o => Sys2Proof.Machine.execStsw o s
  | .stswX x => Sys2Proof.Machine.execStswX x s
  | .twrd o => Sys2Proof.Machine.execTwrd o s
  | .twrdX x => Sys2Proof.Machine.execTwrdX x s
  | .twwr o => Sys2Proof.Machine.execTwwr o s
  | .twwrX x => Sys2Proof.Machine.execTwwrX x s
  | .bra o => Sys2Proof.Machine.execBra o s
  | .braX x => Sys2Proof.Machine.execBraX x s
  | .brany o => Sys2Proof.Machine.execBrany o s
  | .branyX x => Sys2Proof.Machine.execBranyX x s
  | .brall o => Sys2Proof.Machine.execBrall o s
  | .brallX x => Sys2Proof.Machine.execBrallX x s
  | .brnone o => Sys2Proof.Machine.execBrnone o s
  | .brnoneX x => Sys2Proof.Machine.execBrnoneX x s
  | .exit o => Sys2Proof.Machine.execExit o s
  | .exitX x => Sys2Proof.Machine.execExitX x s
  | .bar o => Sys2Proof.Machine.execBar o s
  | .barX x => Sys2Proof.Machine.execBarX x s
  | .maskp o => Sys2Proof.Machine.execMaskp o s
  | .maskpX x => Sys2Proof.Machine.execMaskpX x s
  | .getm o => Sys2Proof.Machine.execGetm o s
  | .getmX x => Sys2Proof.Machine.execGetmX x s
  | .setm o => Sys2Proof.Machine.execSetm o s
  | .setmX x => Sys2Proof.Machine.execSetmX x s
  | .radd o => Sys2Proof.Machine.execRadd o s
  | .raddX x => Sys2Proof.Machine.execRaddX x s
  | .rmax o => Sys2Proof.Machine.execRmax o s
  | .rmaxX x => Sys2Proof.Machine.execRmaxX x s
  | .mad o => Sys2Proof.Machine.execMad o s
  | .madX x => Sys2Proof.Machine.execMadX x s
  | .popc o => Sys2Proof.Machine.execPopc o s
  | .popcX x => Sys2Proof.Machine.execPopcX x s
  | .clz o => Sys2Proof.Machine.execClz o s
  | .clzX x => Sys2Proof.Machine.execClzX x s
  | .call x => Sys2Proof.Machine.execCall x s
  | .callr x => Sys2Proof.Machine.execCallr x s
  | .ret x => Sys2Proof.Machine.execRet x s
  | .jmpr x => Sys2Proof.Machine.execJmpr x s
  | .yield x => Sys2Proof.Machine.execYield x s
  | .yieldj x => Sys2Proof.Machine.execYieldj x s
  | .region x => Sys2Proof.Machine.execRegion x s
  | .mcall x => Sys2Proof.Machine.execMcall x s
  | .barn x => Sys2Proof.Machine.execBarn x s
  | .arrive x => Sys2Proof.Machine.execArrive x s
  | .waitb x => Sys2Proof.Machine.execWaitb x s
  | .twadd x => Sys2Proof.Machine.execTwadd x s
  | .twcas x => Sys2Proof.Machine.execTwcas x s
  | .srd x => Sys2Proof.Machine.execSrd x s
  | .swr x => Sys2Proof.Machine.execSwr x s
  | .trap x => Sys2Proof.Machine.execTrap x s
  | .eret x => Sys2Proof.Machine.execEret x s
  | .brk x => Sys2Proof.Machine.execBrk x s
  | .mulhi x => Sys2Proof.Machine.execMulhi x s
  | .mulhiu x => Sys2Proof.Machine.execMulhiu x s
  | .addp x => Sys2Proof.Machine.execAddp x s
  | .subp x => Sys2Proof.Machine.execSubp x s
  | .mulp x => Sys2Proof.Machine.execMulp x s
  | .lea x => Sys2Proof.Machine.execLea x s
  | .abs x => Sys2Proof.Machine.execAbs x s
  | .rol x => Sys2Proof.Machine.execRol x s
  | .ror x => Sys2Proof.Machine.execRor x s
  | .ctz x => Sys2Proof.Machine.execCtz x s
  | .brev x => Sys2Proof.Machine.execBrev x s
  | .bfx x => Sys2Proof.Machine.execBfx x s
  | .bfxu x => Sys2Proof.Machine.execBfxu x s
  | .bfi x => Sys2Proof.Machine.execBfi x s
  | .divs x => Sys2Proof.Machine.execDivs x s
  | .divu x => Sys2Proof.Machine.execDivu x s
  | .rems x => Sys2Proof.Machine.execRems x s
  | .remu x => Sys2Proof.Machine.execRemu x s
  | .shflu x => Sys2Proof.Machine.execShflu x s
  | .shfld x => Sys2Proof.Machine.execShfld x s
  | .vote x => Sys2Proof.Machine.execVote x s
  | .matchLanes x => Sys2Proof.Machine.execMatchLanes x s
  | .rmin x => Sys2Proof.Machine.execRmin x s
  | .rminu x => Sys2Proof.Machine.execRminu x s
  | .rmaxu x => Sys2Proof.Machine.execRmaxu x s
  | .scan x => Sys2Proof.Machine.execScan x s
  | .xchg x => Sys2Proof.Machine.execXchg x s
  | .rng x => Sys2Proof.Machine.execRng x s
  | .shlp x => Sys2Proof.Machine.execShlp x s
  | .shrp x => Sys2Proof.Machine.execShrp x s
  | .sarp x => Sys2Proof.Machine.execSarp x s
  | .ceqp x => Sys2Proof.Machine.execCeqp x s
  | .cltp x => Sys2Proof.Machine.execCltp x s
  | .cltup x => Sys2Proof.Machine.execCltup x s
  | .ffma x => Sys2Proof.Machine.execFfma x s
  | .fnms x => Sys2Proof.Machine.execFnms x s
  | .fabs x => Sys2Proof.Machine.execFabs x s
  | .fneg x => Sys2Proof.Machine.execFneg x s
  | .fminn x => Sys2Proof.Machine.execFminn x s
  | .fmaxn x => Sys2Proof.Machine.execFmaxn x s
  | .fcun x => Sys2Proof.Machine.execFcun x s
  | .fclass x => Sys2Proof.Machine.execFclass x s
  | .frnd x => Sys2Proof.Machine.execFrnd x s
  | .frcp x => Sys2Proof.Machine.execFrcp x s
  | .frsq x => Sys2Proof.Machine.execFrsq x s
  | .fsqrt x => Sys2Proof.Machine.execFsqrt x s
  | .fexp2 x => Sys2Proof.Machine.execFexp2 x s
  | .flog2 x => Sys2Proof.Machine.execFlog2 x s
  | .ftanh x => Sys2Proof.Machine.execFtanh x s
  | .fscl x => Sys2Proof.Machine.execFscl x s
  | .hfma x => Sys2Proof.Machine.execHfma x s
  | .bfma x => Sys2Proof.Machine.execBfma x s
  | .hmin x => Sys2Proof.Machine.execHmin x s
  | .hmax x => Sys2Proof.Machine.execHmax x s
  | .cvtf x => Sys2Proof.Machine.execCvtf x s
  | .cvtfi x => Sys2Proof.Machine.execCvtfi x s
  | .cvtif x => Sys2Proof.Machine.execCvtif x s
  | .cvtt x => Sys2Proof.Machine.execCvtt x s
  | .cvttf x => Sys2Proof.Machine.execCvttf x s
  | .fredadd x => Sys2Proof.Machine.execFredadd x s
  | .fredmax x => Sys2Proof.Machine.execFredmax x s
  | .fredmin x => Sys2Proof.Machine.execFredmin x s
  | .fredmaxi x => Sys2Proof.Machine.execFredmaxi x s
  | .fredmini x => Sys2Proof.Machine.execFredmini x s
  | .ld x => Sys2Proof.Machine.execLd x s
  | .st x => Sys2Proof.Machine.execSt x s
  | .lda x => Sys2Proof.Machine.execLda x s
  | .stl x => Sys2Proof.Machine.execStl x s
  | .lds x => Sys2Proof.Machine.execLds x s
  | .sts x => Sys2Proof.Machine.execSts x s
  | .atom x => Sys2Proof.Machine.execAtom x s
  | .atoms x => Sys2Proof.Machine.execAtoms x s
  | .red x => Sys2Proof.Machine.execRed x s
  | .fence x => Sys2Proof.Machine.execFence x s
  | .mcst x => Sys2Proof.Machine.execMcst x s
  | .prf x => Sys2Proof.Machine.execPrf x s
  | .cinv x => Sys2Proof.Machine.execCinv x s
  | .tile x => Sys2Proof.Machine.execTile x s
  | .waitm x => Sys2Proof.Machine.execWaitm x s
  | .mma x => Sys2Proof.Machine.execMma x s
  | .mmasp x => Sys2Proof.Machine.execMmasp x s
  | .accz x => Sys2Proof.Machine.execAccz x s
  | .accld x => Sys2Proof.Machine.execAccld x s
  | .accst x => Sys2Proof.Machine.execAccst x s
  | .acccvt x => Sys2Proof.Machine.execAcccvt x s
  | .ldmeta x => Sys2Proof.Machine.execLdmeta x s
  | .mwait x => Sys2Proof.Machine.execMwait x s
  | .qset x => Sys2Proof.Machine.execQset x s
  | .qacq x => Sys2Proof.Machine.execQacq x s
  | .qcommit x => Sys2Proof.Machine.execQcommit x s
  | .qwait x => Sys2Proof.Machine.execQwait x s
  | .qfree x => Sys2Proof.Machine.execQfree x s
  | .cpyj x => Sys2Proof.Machine.execCpyj x s
  | .gatj x => Sys2Proof.Machine.execGatj x s
  | .colj x => Sys2Proof.Machine.execColj x s
  | .jwait x => Sys2Proof.Machine.execJwait x s
  | .jtest x => Sys2Proof.Machine.execJtest x s
  | .hboard x => Sys2Proof.Machine.execHboard x s
  | .hcancel x => Sys2Proof.Machine.execHcancel x s
  | .hlap x => Sys2Proof.Machine.execHlap x s
  | .kvrsv x => Sys2Proof.Machine.execKvrsv x s
  | .kvw x => Sys2Proof.Machine.execKvw x s
  | .kvr x => Sys2Proof.Machine.execKvr x s
  | .kvrt x => Sys2Proof.Machine.execKvrt x s
  | .kvpub x => Sys2Proof.Machine.execKvpub x s
  | .kvacq x => Sys2Proof.Machine.execKvacq x s
  | .kvwait x => Sys2Proof.Machine.execKvwait x s
  | .kvcmt x => Sys2Proof.Machine.execKvcmt x s
  | .kvroll x => Sys2Proof.Machine.execKvroll x s
  | .kvgen x => Sys2Proof.Machine.execKvgen x s
  | .kvstage x => Sys2Proof.Machine.execKvstage x s
  | .pawin x => Sys2Proof.Machine.execPawin x s
  | .pald x => Sys2Proof.Machine.execPald x s
  | .pain x => Sys2Proof.Machine.execPain x s
  | .pago x => Sys2Proof.Machine.execPago x s
  | .pacap x => Sys2Proof.Machine.execPacap x s
  | .paclr x => Sys2Proof.Machine.execPaclr x s
  | .macroBodyWord t b => Sys2Proof.Machine.execMacroBodyWord t b s
  | .fixedResultLand t b => Sys2Proof.Machine.execFixedResultLand t b s
  | .variableResultWrite t b k => Sys2Proof.Machine.execVariableResultWrite t b k s
  | .regionComplete t b => Sys2Proof.Machine.execRegionComplete t b s
  | .dividerSubstep t b => Sys2Proof.Machine.execDividerSubstep t b s
  | .coalescerGroup t b => Sys2Proof.Machine.execCoalescerGroup t b s
  | .kvSubstep t b => Sys2Proof.Machine.execKvSubstep t b s
  | .paldSubstep t => Sys2Proof.Machine.execPaldSubstep t s
  | .yieldEnd t b => Sys2Proof.Machine.execYieldEnd t b s
  | .teamWordApply t => Sys2Proof.Machine.execTeamWordApply t s
  | .beamWake t b => Sys2Proof.Machine.execBeamWake t b s
  | .watchReply k => Sys2Proof.Machine.execWatchReply k s
  | .watchTimeout k => Sys2Proof.Machine.execWatchTimeout k s
  | .siblingStop t b => Sys2Proof.Machine.execSiblingStop t b s
  | .engineEntryStart core => Sys2Proof.Machine.execEngineEntryStart core s
  | .engineSubstep core => Sys2Proof.Machine.execEngineSubstep core s
  | .engineEntryComplete core => Sys2Proof.Machine.execEngineEntryComplete core s
  | .prismWindowEnd t => Sys2Proof.Machine.execPrismWindowEnd t s
  | .telemetryRecompute k => Sys2Proof.Machine.execTelemetryRecompute k s
  | .sliceAccess k => Sys2Proof.Machine.execSliceAccess k s
  | .acknowledgement k => Sys2Proof.Machine.execAcknowledgement k s
  | .packetArbitration ks => Sys2Proof.Machine.execPacketArbitration ks s
  | .pageWalk core f va => Sys2Proof.Machine.execPageWalk core f va s
  | .faultTimeout id => Sys2Proof.Machine.execFaultTimeout id s
  | .operandLogReplay id => Sys2Proof.Machine.execOperandLogReplay id s
  | .shootdownRange f => Sys2Proof.Machine.execShootdownRange f s
  | .shootdownSpace f => Sys2Proof.Machine.execShootdownSpace f s
  | .shootdownTenant f => Sys2Proof.Machine.execShootdownTenant f s
  | .shootdownDone => Sys2Proof.Machine.execShootdownDone s
  | .pageMigrate f va frame => Sys2Proof.Machine.execPageMigrate f va frame s
  | .rdUpgrade id => Sys2Proof.Machine.execRdUpgrade id s
  | .rdGrant writer va f => Sys2Proof.Machine.execRdGrant writer va f s
  | .rdInvalidate writer va f => Sys2Proof.Machine.execRdInvalidate writer va f s
  | .rdAckComplete id => Sys2Proof.Machine.execRdAckComplete id s
  | .rdTimeout id => Sys2Proof.Machine.execRdTimeout id s
  | .jobComplete k => Sys2Proof.Machine.execJobComplete k s
  | .teamPlace g core => Sys2Proof.Machine.execTeamPlace g core s
  | .quantumExpiry t => Sys2Proof.Machine.execQuantumExpiry t s
  | .preempt t => Sys2Proof.Machine.execPreempt t s
  | .teamRestore t core => Sys2Proof.Machine.execTeamRestore t core s
  | .beamRetire t b => Sys2Proof.Machine.execBeamRetire t b s
  | .teamRetire t => Sys2Proof.Machine.execTeamRetire t s
  | .gridComplete g => Sys2Proof.Machine.execGridComplete g s
  | .fcfgRst f => Sys2Proof.Machine.execFcfgRst f s
  | .resetDrained f => Sys2Proof.Machine.execResetDrained f s
  | .fcfgRel f => Sys2Proof.Machine.execFcfgRel f s
  | .registerWrite off wide v => Sys2Proof.Machine.execRegisterWrite off wide v s
  | .counterClear off => Sys2Proof.Machine.execCounterClear off s
  | .gateWays unit mask => Sys2Proof.Machine.execGateWays unit mask s
  | .gateGranules core grp mask => Sys2Proof.Machine.execGateGranules core grp mask s
  | .wakeDone => Sys2Proof.Machine.execWakeDone s
  | .haloRunStart c => Sys2Proof.Machine.execHaloRunStart c s
  | .haloRunStop c => Sys2Proof.Machine.execHaloRunStop c s
  | .haloThrSet c thr => Sys2Proof.Machine.execHaloThrSet c thr s
  | .hnextWrite c part v => Sys2Proof.Machine.execHnextWrite c part v s
  | .lapBoundary c => Sys2Proof.Machine.execLapBoundary c s
  | .tilePassing c stop poison => Sys2Proof.Machine.execTilePassing c stop poison s
  | .tileChecked c stop crcOk => Sys2Proof.Machine.execTileChecked c stop crcOk s
  | .tileCommit c stop => Sys2Proof.Machine.execTileCommit c stop s
  | .boardRegister t id => Sys2Proof.Machine.execBoardRegister t id s
  | .write f => Sys2Proof.Machine.execWrite f s
  | .read f => Sys2Proof.Machine.execRead f s
  | .setparam f => Sys2Proof.Machine.execSetparam f s
  | .replay f => Sys2Proof.Machine.execReplay f s
  | .query f => Sys2Proof.Machine.execQuery f s
  | .attest f => Sys2Proof.Machine.execAttest f s
  | .reset f => Sys2Proof.Machine.execReset f s
  | .resolve f => Sys2Proof.Machine.execResolve f s
  | .fail f => Sys2Proof.Machine.execFail f s
  | .mbtailWrite f v => Sys2Proof.Machine.execMbtailWrite f v s
  | .mbcfgWrite f v => Sys2Proof.Machine.execMbcfgWrite f v s
  | .mbcheadWrite f v => Sys2Proof.Machine.execMbcheadWrite f v s
  | .commandFetch f => Sys2Proof.Machine.execCommandFetch f s
  | .replayStart f => Sys2Proof.Machine.execReplayStart f s
  | .nodeLaunch r n => Sys2Proof.Machine.execNodeLaunch r n s
  | .nodeJob r n => Sys2Proof.Machine.execNodeJob r n s
  | .nodeWait r n => Sys2Proof.Machine.execNodeWait r n s
  | .waitPoll r n => Sys2Proof.Machine.execWaitPoll r n s
  | .nodeSignal r n => Sys2Proof.Machine.execNodeSignal r n s
  | .replayEnd r => Sys2Proof.Machine.execReplayEnd r s
  | .budgetPeriod => Sys2Proof.Machine.execBudgetPeriod s
  | .refillWrite f v => Sys2Proof.Machine.execRefillWrite f v s
  | .prectlGo p => Sys2Proof.Machine.execPrectlGo p s
  | .gsctlEnable => Sys2Proof.Machine.execGsctlEnable s
  | .gsctlDisable => Sys2Proof.Machine.execGsctlDisable s
  | .gangSliceStart => Sys2Proof.Machine.execGangSliceStart s
  | .arrived chip gang n => Sys2Proof.Machine.execArrived chip gang n s
  | .gangDecide => Sys2Proof.Machine.execGangDecide s
  | .openGate => Sys2Proof.Machine.execOpenGate s
  | .forfeit late => Sys2Proof.Machine.execForfeit late s
  | .powerOn codes => Sys2Proof.Machine.execPowerOn codes s
  | .perst codes => Sys2Proof.Machine.execPerst codes s
  | .d3hotEnter => Sys2Proof.Machine.execD3hotEnter s
  | .d0Return => Sys2Proof.Machine.execD0Return s
  | .train l => Sys2Proof.Machine.execTrain l s
  | .drain l => Sys2Proof.Machine.execDrain l s
  | .hold l => Sys2Proof.Machine.execHold l s
  | .dark l => Sys2Proof.Machine.execDark l s
  | .relock l => Sys2Proof.Machine.execRelock l s
  | .release l => Sys2Proof.Machine.execRelease l s
  | .down l => Sys2Proof.Machine.execDown l s
  | .trainTimeout l => Sys2Proof.Machine.execTrainTimeout l s
  | .bankenClear l mask => Sys2Proof.Machine.execBankenClear l mask s
  | .flitReceive l bytes => Sys2Proof.Machine.execFlitReceive l bytes s
  | .nakRepeat l => Sys2Proof.Machine.execNakRepeat l s
  | .markerAck l => Sys2Proof.Machine.execMarkerAck l s
  | .lossOfLight l bank => Sys2Proof.Machine.execLossOfLight l bank s
  | .restripeDone l => Sys2Proof.Machine.execRestripeDone l s
  | .restripeDecode l mask => Sys2Proof.Machine.execRestripeDecode l mask s
  | .portDown p => Sys2Proof.Machine.execPortDown p s
  | .packetReceive bytes => Sys2Proof.Machine.execPacketReceive bytes s
  | .remoteTimeout k => Sys2Proof.Machine.execRemoteTimeout k s
  | .capability src word => Sys2Proof.Machine.execCapability src word s
  | .collimatorStamp g k => Sys2Proof.Machine.execCollimatorStamp g k s
  | .stampedApply g => Sys2Proof.Machine.execStampedApply g s
  | .fabricTimeLock t => Sys2Proof.Machine.execFabricTimeLock t s
  | .evcfgWrite f v => Sys2Proof.Machine.execEvcfgWrite f v s
  | .trainingComplete l peer link level => Sys2Proof.Machine.execTrainingComplete l peer link level s
  | .lossOfSignal l bank => Sys2Proof.Machine.execLossOfSignal l bank s
  | .preemptDrainTimeout t b => Sys2Proof.Machine.execPreemptDrainTimeout t b s
  | .gangSliceEnd => Sys2Proof.Machine.execGangSliceEnd s

end Sys2Proof.Machine
end

