-- ==== Sys2Proof/Machine/Sched.lean ====
section
/-! DEFINITION. What happens next (R107, R108, DESIGN CHOICE, log 2): the events whose cycle has come, the beam that issues, the events whose
time is open, and the passing of a cycle. -/

namespace Sys2Proof.Machine

/-! ### Issue (R107, R108) -/

/-- Quadrant q of a core has issued in this cycle. -/
def State.quadBusy (s : State) (core q : Nat) : Bool :=
  (s.quadBeams core q).any fun e => decide (e.2.2.lastIssue = some s.clock)

/-- The ready beams of quadrants that have not issued in this cycle. -/
def State.readyBeams (s : State) : List (Ref × Team × Beam) :=
  s.teams.flatMap fun e =>
    if e.2.isResident then
      (e.2.beams.mapIdx fun k b => (k, b)).filterMap fun p =>
        if s.ready e.2 p.2 p.1 && !s.quadBusy e.2.coreId (p.1 % 4) then some (⟨e.1, p.1⟩, e.2, p.2) else none
    else []

/-- `a` issues before `b` of its quadrant: least recently issued first; of those that have not issued, the lower window slot
first. No rule says which slots of a quadrant a team takes: slots are ordered by beam index, then by the order of the teams'
placement (R97, R108, DESIGN CHOICE, log 62). -/
def earlier (a b : Ref × Team × Beam) : Bool :=
  match a.2.2.lastIssue, b.2.2.lastIssue with
  | none, none => decide (a.1.b < b.1.b)
  | none, some _ => true
  | some _, none => false
  | some x, some y => decide (x < y)

/-- The instruction at a beam's PC is fetched, decoded and executed (R11, R39, R40). -/
noncomputable def State.fetchIssue (s : State) (r : Ref) (T : Team) (b : Beam) : Host.Outcome State Fault Refusal :=
  match s.fetch T b.pc with
  | (.bytes l, s1) =>
    match decode l with
    | some (i, _) => exec i { s1 with cur := some r }
    | none => Issue.badWord cILLEGAL { s1 with cur := some r }
  | (.fail, s1) => Issue.badWord cMEMFAULT { s1 with cur := some r }
  | (.fault va, s1) => .next (s1.faultWait r T va false true false)

/-- A beam issues: its next body word where it runs a microprogram (R92), else the instruction at its PC. -/
noncomputable def State.issueBeam (s : State) (r : Ref) (T : Team) (b : Beam) : Host.Outcome State Fault Refusal :=
  match b.mcall with
  | some c => s.bodyStep r T c
  | none => s.fetchIssue r T b

/-! ### The order of issues in a cycle (R182) -/

/-- A beam's attempt to issue is held: it is not ready after all (R84, R244, R321). -/
noncomputable def State.held (s : State) (e : Ref × Team × Beam) : Bool :=
  match s.issueBeam e.1 e.2.1 e.2.2 with
  | .next t =>
    match t.beam? e.1 with
    | some b => decide (b.status = .ready) && decide (b.lastIssue = e.2.2.lastIssue) && decide (b.halt = e.2.2.halt) &&
        decide (s.clock < b.issueAt)
    | none => false
  | _ => false

/-- The ready beams that their quadrant may take: those before which every other is held. -/
noncomputable def State.firsts (s : State) : List (Ref × Team × Beam) :=
  let l := s.readyBeams
  l.filter fun a => l.all fun b => decide (a.2.1.coreId ≠ b.2.1.coreId) || decide (a.1.b % 4 ≠ b.1.b % 4) || !earlier b a || s.held b

/-- The groups of instructions whose effects in one cycle a rule orders among themselves: barriers (0, R174), team words (1, R176), the
matrix engine (2, R244), queues and jobs (3, R271), the Halo (4, R289), the Prism array (5, R321). -/
def orderClass (n : Nat) : Option Nat :=
  if 0x048 ≤ n ∧ n ≤ 0x04A then some 0
  else if n = 0x2F ∨ n = 0x30 ∨ n = 0x04B ∨ n = 0x04C then some 1
  else if 0x1C0 ≤ n ∧ n ≤ 0x1C7 then some 2
  else if 0x1E0 ≤ n ∧ n ≤ 0x1E9 then some 3
  else if 0x200 ≤ n ∧ n ≤ 0x202 then some 4
  else if 0x240 ≤ n ∧ n ≤ 0x245 then some 5
  else none

/-- A rule has `a`'s next instruction take effect before `b`'s in one cycle: by quadrant at a matrix engine, by beam index elsewhere. -/
def State.precedes (s : State) (a b : Ref × Team × Beam) : Bool :=
  let k := (s.peekOp a.2.1 a.2.2).bind orderClass
  decide (k = (s.peekOp b.2.1 b.2.2).bind orderClass) &&
    match k with
    | none => false
    | some 2 => decide (a.2.1.coreId = b.2.1.coreId) && decide (a.1.b % 4 < b.1.b % 4)
    | some 3 => decide (a.1.b < b.1.b)
    | some 4 => decide (a.1.b < b.1.b)
    | some _ => decide (a.1.t = b.1.t) && decide (a.1.b < b.1.b)

/-- A beam's next instruction neither traps nor returns from a trap: its team has the same handler after it, and runs on. -/
noncomputable def State.calm (s : State) (e : Ref × Team × Beam) : Bool :=
  match s.issueBeam e.1 e.2.1 e.2.2 with
  | .next t => decide ((t.team? e.1.t).map (fun T => (T.handler, T.stopped)) = some (e.2.1.handler, e.2.1.stopped))
  | _ => false

/-- The lowest beam index. -/
def lowestBeam (l : List (Ref × Team × Beam)) : Option (Ref × Team × Beam) :=
  l.foldl (fun m e => match m with
    | none => some e
    | some (x : Ref × Team × Beam) => if e.1.b < x.1.b then some e else some x) none

/-- The beam that issues next in the cycle's issue. Those whose instructions trap come after all others, which are issued before the halt;
of them the lowest beam traps. The others come in the orders that rules give, and else in any order (R182, DESIGN CHOICE, log 10). -/
noncomputable def State.nextIssue (s : State) : Option (Ref × Team × Beam) :=
  if s.spent then none
  else
    match s.firsts with
    | [a] => some a
    | l =>
      let calm := l.filter s.calm
      match calm.filter fun a => calm.all fun b => !s.precedes b a with
      | [] => lowestBeam l
      | a :: r =>
        let done := (s.teams.flatMap fun e => e.2.beams.filter fun b => decide (b.lastIssue = some s.clock)).length
        some ((a :: r).getD (Config.issueOrder s.clock done % (r.length + 1)) a)

/-! ### Events -/

/-- A list of events, one for each k below n. -/
def upTo (n : Nat) (f : Nat → Instr) : List Instr := (List.range n).map f

/-- Events of one beam at a time that its own state fixes. -/
noncomputable def Beam.timed (b : Beam) (t k : Nat) : List Instr :=
  let long (l : LongRun) : List Instr :=
    match l.op with
    | .div _ _ _ _ _ _ _ => [.dividerSubstep t k]
    | .pald _ _ _ => [.paldSubstep t]
    | _ => []
  (if b.fix = [] then [] else [.fixedResultLand t k]) ++ b.longs.flatMap long ++
    ((List.range b.pends.length).filter fun i => (b.pends[i]?).any (·.exact)).map (.variableResultWrite t k) ++
    (match b.status with
     | .region => [.regionComplete t k]
     | .yielded _ _ => [.yieldEnd t k]
     | .board _ _ _ _ _ _ _ => [.beamWake t k]
     | _ => []) ++
    (match b.halt with | .skidding _ _ => [.siblingStop t k] | _ => [])

/-- Events of one team at fixed times. -/
noncomputable def Team.timed (T : Team) (t : Nat) : List Instr :=
  (T.beams.mapIdx fun k b => b.timed t k).flatten ++ (if T.twq = [] then [] else [.teamWordApply t]) ++
    (if T.prism.state = .running then [.prismWindowEnd t] else []) ++ ((T.boards.map (·.1) ++ T.cancels.map (·.id)).map (.boardRegister t)) ++
    (match T.life with | .draining _ _ => upTo T.beams.length (.preemptDrainTimeout t) | _ => [])

/-- Events of a channel at fixed times. -/
noncomputable def Chan.timed (c : Nat) (C : Chan) : List Instr :=
  if C.runs then (upTo 32 fun k => .tilePassing c k false) ++ [.lapBoundary c] else []

/-- Those that may take a queue's slot: in a cycle they follow the beams' instructions (R277). -/
noncomputable def Chan.late (c : Nat) : List Instr := (upTo 32 fun k => .tileChecked c k true) ++ upTo 32 fun k => .tileCommit c k

/-- The gang table's events. -/
noncomputable def Gang.timed (g : Gang) (dev : BitVec 11) : List Instr :=
  let own (gang n : Nat) : Instr := .arrived (dev.setWidth 16) (BitVec.ofNat 16 gang) n
  (if g.en then [.gangSliceEnd, .gangSliceStart] else []) ++ (if g.en = true ∨ g.past ≠ [] then [.gangDecide] else []) ++
    (match g.cur, g.entry with
      | some p, some e => if g.sent then [] else [own e.gang p.1]
      | _, _ => []) ++
    (g.past.filter fun x => !x.sent).map fun x => own x.entry.gang x.cyc

/-- A saved team that may be restored, a resident one that must make room, and one whose drain is over do so as soon as they can (R116,
R352, R384). -/
noncomputable def State.distTimed (s : State) (t : Nat) (T : Team) : List Instr :=
  match s.gridOf T with
  | none => []
  | some G =>
    match T.life with
    | .saved =>
      let l := (List.range 1024).filter (s.mayTake ⟨T.grid, G, some (t, T.savedAt)⟩)
      (l[Config.restoreCore s.clock t % l.length]?).toList.map (.teamRestore t)
    | .resident _ => if (s.needy G.part).isSome then [.quantumExpiry t] else []
    | .draining _ _ => [.preempt t]

/-- WAIT nodes that read their location again (R346). -/
noncomputable def Replay.polls (R : Replay) (r : Nat) : List Instr :=
  (R.nodes.filter fun e => decide (e.2.kind = 3) && decide (e.2.state = .started)).map fun e => .waitPoll r e.1

/-- Every event that happens in its own cycle, where its condition holds. -/
noncomputable def State.timed (s : State) : List Instr :=
  (s.teams.flatMap fun e => e.2.timed e.1) ++
    (s.cores.flatMap fun e => if e.2.entries = [] then [] else
      [.engineEntryComplete e.1, .engineSubstep e.1, .engineEntryStart e.1]) ++
    (upTo s.net.watches.length .watchTimeout) ++ (s.net.log.map fun g => .faultTimeout g.id) ++
    (s.net.upgrades.map fun u => .rdTimeout u.log) ++
    (s.net.rdHeld.flatMap fun h => [.rdInvalidate h.writer (BitVec.ofNat 64 h.va) h.func, .rdTimeout h.id]) ++
    (upTo s.net.remotes.length .remoteTimeout) ++
    (s.halo.chans.flatMap fun e => Chan.timed e.1 e.2) ++ s.regs.gang.timed s.fab.dev ++
    (s.fab.links.flatMap fun e => [.trainTimeout e.1, .nakRepeat e.1]) ++
    (if s.regs.waking.any fun w => decide (w.2 ≤ s.clock) then [.wakeDone] else []) ++
    (s.work.replays.flatMap fun e => e.2.polls e.1) ++ s.teams.flatMap fun e => s.distTimed e.1 e.2

/-- An event changes the state. -/
def State.moves (s : State) (i : Instr) : Bool :=
  match exec i s with
  | .next t => decide (t ≠ s)
  | _ => false

/-- The first event whose cycle has come. -/
noncomputable def State.due (s : State) : Option Instr := s.timed.find? s.moves

/-- The first of those that follow the issues of their cycle. -/
noncomputable def State.dueLate (s : State) : Option Instr := (s.halo.chans.flatMap fun e => Chan.late e.1).find? s.moves

/-- Events of one beam whose time is open; `commits` says that a `QCOMMIT` of it waits for its release. -/
noncomputable def Beam.open_ (b : Beam) (t k : Nat) (commits : Bool) : List Instr :=
  let long (l : LongRun) : List Instr :=
    match l.op with
    | .coal _ _ _ _ => [.coalescerGroup t k]
    | .kvw _ _ _ _ => [.kvSubstep t k]
    | .kvr _ _ _ _ _ _ => [.kvSubstep t k]
    | .gatj _ _ _ _ _ _ _ => [.kvSubstep t k]
    | _ => []
  upTo b.pends.length (.variableResultWrite t k) ++ b.longs.flatMap long ++
    (if b.status = .ready ∧ b.ptrap = none ∧ commits = false then [] else [.beamWake t k]) ++
    (if b.lvm = 0 then [.beamRetire t k] else [])

noncomputable def Team.open_ (T : Team) (t : Nat) : List Instr :=
  (T.beams.mapIdx fun k b => b.open_ t k (T.commits.any fun c => decide (c.beam = k))).flatten ++ [.teamRetire t]

noncomputable def Replay.open_ (R : Replay) (r : Nat) : List Instr :=
  (R.nodes.flatMap fun e => [.nodeLaunch r e.1, .nodeJob r e.1, .nodeWait r e.1, .nodeSignal r e.1]) ++
    [.replayEnd r]

/-- The command that a function's mailbox has fetched, or the fetch of the next. -/
noncomputable def funcOpen (f : Nat) : List Instr :=
  [.commandFetch f, .write f, .read f, .setparam f, .replay f, .query f, .attest f, .reset f, .resolve f, .fail f,
    .replayStart f, .resetDrained f]

/-- What the migration scheduler may do for a function next: begin a move to a frame, or complete one (R374). -/
noncomputable def State.migration (s : State) (f frame : Nat) : List Instr :=
  match s.net.moves.filter fun m => decide (m.func = f) with
  | [] => ((s.movesOf f frame).head?.map fun m => Instr.pageMigrate f (BitVec.ofNat 64 m.va) frame).toList
  | l => l.map fun m => .pageMigrate f (BitVec.ofNat 64 m.va) (m.new / 65536)

/-- The packets that meet in an arbitration, by the bits of a free value (R136). -/
noncomputable def State.meeting (s : State) (mask : Nat) : List Nat := (List.range s.net.packets.length).filter mask.testBit

/-- Events whose time is open and which come in the end (R118). -/
noncomputable def State.pressing (s : State) : List Instr :=
  (s.teams.flatMap fun e => e.2.open_ e.1) ++
    upTo (s.net.packets.length + s.jobs.length) .sliceAccess ++ upTo s.net.acks.length .acknowledgement ++
    upTo s.net.watches.length .watchReply ++ (s.net.log.flatMap fun g => [.operandLogReplay g.id, .rdUpgrade g.id]) ++
    upTo s.jobs.length .jobComplete ++ upTo s.work.teleq.length .telemetryRecompute ++
    (s.work.replays.flatMap fun e => e.2.open_ e.1) ++ (s.grids.map fun e => .gridComplete e.1) ++
    (s.regs.funcs.flatMap fun e => funcOpen e.1) ++
    (s.work.groups.flatMap fun e => .stampedApply e.1 :: upTo s.net.packets.length (.collimatorStamp e.1)) ++
    (if s.regs.sdBusy then
      [.shootdownRange s.regs.sdFunc, .shootdownSpace s.regs.sdFunc, .shootdownTenant s.regs.sdFunc, .shootdownDone] else []) ++
    (if s.regs.waking = [] then [] else [.wakeDone])

/-- Events whose time is open. `c` is the core that the distributor looks at. -/
noncomputable def State.open_ (s : State) (c : Nat) : List Instr :=
  s.pressing ++ (s.grids.map fun e => .teamPlace e.1 c) ++
    (if s.net.packets.length < 2 then [] else [.packetArbitration (s.meeting (Config.choice (s.free + 2)))]) ++
    s.regs.funcs.flatMap fun e => s.migration e.1 (Config.choice (s.free + 3) % 2 ^ 32)

/-- The placement of a grid's next team on a core that it may take. -/
noncomputable def State.placement (s : State) (g : Nat) (G : Grid) : Option Instr :=
  let l := (List.range 1024).filter (s.mayTake ⟨g, G, none⟩)
  l[Config.choice s.free % l.length]?.map (.teamPlace g)

/-- Every so many cycles each event whose time is open and which presses comes, and each grid places a team where it may; the later
ones of a list first, since those before them keep their places (R118, DESIGN CHOICE, log 78). -/
noncomputable def State.press (s : State) : State :=
  if s.clock % (Config.patience + 1) = 0 then
    { s with agenda := ((s.grids.filterMap fun e => s.placement e.1 e.2) ++ s.pressing.reverse).map some ++ s.agenda, free := s.free + 1 }
  else s

/-! ### A cycle passes -/

/-- Fabric time after `n` cycles: 10 ns in 7 cycles (R118, R422). -/
def cycleNs (n : Nat) : Nat := 10 * n / 7

/-- How far locked fabric time is slewed in this cycle, ahead by 1: at most 1 ns in 10 µs (R422); whether it is, and which way, is free
(DESIGN CHOICE, log 68). -/
noncomputable def State.slew (s : State) : Nat :=
  if s.fab.ftLock = true ∧ s.clock % 7000 = 0 then Config.choice s.free % 3 else 1

/-- The gang messages of this device go out. -/
def State.sendOut (s : State) : State :=
  s.net.sent.foldl (fun s b => (s.sendPacket (natAt b 2 2 % 2048) 0 b).getD s) { s with net := { s.net with sent := [] } }

/-- A link sends what it may in the cycle, and forwards of its receive buffer a number of flits that is free, at times all of them
(R412, DESIGN CHOICE, log 78). -/
noncomputable def State.linkCycle (s : State) (l : Nat) : State :=
  let s1 := s.pump l
  let n := (s1.link l).rxq.length
  if n = 0 then s1
  else State.forwardN (if s.clock % (Config.patience + 1) = 0 then n else Config.choice s.free % (n + 1)) l { s1 with free := s1.free + 1 }

/-- The next cycle: fabric time goes on, the links send and forward, resident teams are charged every microsecond, a budget period closes
every 100 µs; a start-up sequence in progress may end. -/
noncomputable def State.tick (s : State) : State :=
  let t := s.ftime + (cycleNs (s.clock + 1) - cycleNs s.clock) + s.slew - 1
  let s1 := { s with
    clock := s.clock + 1, ftime := t, spent := false, free := s.free + 1
    agenda := if t / 100000 ≠ s.ftime / 100000 then some .budgetPeriod :: s.agenda else s.agenda }
  let s2 := if s1.clock % 700 = 0 then s1.chargeAll else s1
  let s3 := (s2.fab.links.foldl (fun s e => s.linkCycle e.1) s2.sendOut).press
  if s3.sys.boot.isSome then
    let s4 := { s3 with free := s3.free + 1 }
    if Config.choice s3.free % 2 = 0 ∧ s4.clock % (Config.patience + 1) ≠ 0 then s4 else s4.bootEnd
  else s3

/-- One of the open events, or the next cycle. -/
noncomputable def State.idle (s : State) : Host.Outcome State Fault Refusal :=
  match s.open_ (Config.choice (s.free + 1) % 1024) with
  | [] => .next s.tick
  | l =>
    let s1 := { s with free := s.free + 4 }
    match l[Config.choice s.free % (l.length + 1)]? with
    | some i => exec i s1
    | none => .next s1.tick

/-- The machine's own next step: an event whose cycle has come, an issue, an event that follows the issues, one whose time is open, or the
next cycle. Once no beam can issue, none issues any more in the cycle (DESIGN CHOICE, log 2). -/
noncomputable def State.run (s : State) : Host.Outcome State Fault Refusal :=
  match s.due with
  | some i => exec i s
  | none =>
    match s.nextIssue with
    | some (r, T, b) => s.issueBeam r T b
    | none =>
      let s1 := { s with spent := true }
      match s1.dueLate with
      | some i => exec i s1
      | none => s1.idle

/-! ### The instruction that comes next -/

/-- The launch record of the team that `State.withFetchWord` places (DESIGN CHOICE, log 1). -/
def probeLaunch : Launch :=
  { gx := 1, gy := 1, gz := 1, np := 1, nc := 0, preg := 7, creg := 0, paired := false, tele := 0, pool := 0x22208, tvec := 0x40000,
    pentry := 0x10000, centry := 0, image := 0, tenant := 0, gang := 0, nrange := 0, ranges := 0 }

/-- The leaf of its code page. -/
def probeLeaf : Leaf :=
  { tenant := 0, frame := 1, kind := .hbm, w := true, x := true, rd := false, pin := false, aux := 0, level := 0 }

/-- A running grid of one team of one beam, whose PC names a page that its core has a translation of, with the given bytes
there; the machine runs and nothing comes before the beam. -/
def State.place (s : State) (bytes : List Byte) : State :=
  let G : Grid :=
    { func := 0, part := 0, replay := 0, node := 0, launch := probeLaunch, producer := none, next := 1, retired := 0,
      fatal := false, prio := 0, cap := 0, trap := false, tar := false, tpri := 0, mark := s.nextId, order := 0, ranges := [] }
  let T : Team := probeLaunch.team 0 0 0 0 s.clock
  let e : TlbEntry := { place := .core 0, func := 0, gen := 0, page := 1, leaf := probeLeaf }
  { s with
    spent := false, agenda := [], teams := [(0, T)], grids := [(0, G)], mem := s.mem.writeBytes 0x10000 bytes
    net := { s.net with tlb := [e] }, sys := { s.sys with dstate := .run, d3hot := false, boot := none } }

end Sys2Proof.Machine
end

