-- ==== Sys2Proof/Machine/Step.lean ====
section
/-! DEFINITION. One step of the package, and the placing of an instruction where the next step runs it. -/

namespace Sys2Proof.Machine

/-- One step: the event at the head of the agenda, or what the machine does of its own. -/
noncomputable def step (s : State) : Host.Outcome State Fault Refusal :=
  match s.agenda with
  | some i :: r => exec i { s with agenda := r }
  | none :: r => State.run { s with agenda := r }
  | [] => s.run

/-- The state in which the next step issues the instruction of an opcode-table word (DESIGN CHOICE, log 1). -/
def State.withFetchWord (s : State) (nbits w : Nat) : State := s.place (tableBytes nbits w)

end Sys2Proof.Machine
end

