-- ==== Sys2Proof/Safety.lean ====
section
/-! DEFINITION. The terms in which claims about the machine are made: an attempt to issue and what it answers, the conditions
under which an instruction issues, and what a safe run keeps. -/

namespace Sys2Proof.Machine

/-! ### An instruction as its beam sees it -/

/-- OP6 or XOP of an instruction; an event has none. -/
def numberOf (i : Instr) : Nat :=
  match i.form with
  | .base op _ => op
  | .ext n _ => n
  | .event => 0

/-- The fields of an instruction as beam b issues it: a base word stands for its twin (R32). -/
def fieldsOf (i : Instr) (b : Beam) : Ext :=
  match i.form with
  | .base op o => b.baseExt op o
  | .ext _ x => x
  | .event => Ext.zero

/-- Length in bytes (R8). -/
def lengthOf (i : Instr) : Nat :=
  match i.form with
  | .base _ o => baseBytes o
  | .ext _ x => x.bytes
  | .event => 0

/-- An instruction with an encoding; the other rows of the opcode table are events. -/
def isCoded (i : Instr) : Bool := decide (i.form ≠ .event)

/-- What instruction i sees when beam r of team T issues it in cycle `now`. -/
def viewOf (i : Instr) (r : Ref) (T : Team) (b : Beam) (now : Nat) : Env :=
  let x := fieldsOf i b
  let g := (xsig (numberOf i) x).getD {}
  { r := r, T := T, b := b, n := numberOf i, x := x, g := g, len := lengthOf i, far := farCount b g x, act := activeMask b x, now := now }

/-- The lanes of a beam whose `%tenant` is written by effects that are due: their last-page registers are cleared (R124). -/
def State.dueTenants (s : State) (r : Ref) : List Nat := (s.beam? r).elim [] fun b => tenantLanes b.fix s.clock

/-- The selected beam tries i, whose words are legal (R39): `e` is what i sees, `s1` the state with everything that has come due by this cycle. -/
def Attempts (i : Instr) (s : State) (e : Env) (s1 : State) : Prop :=
  i.wf = true ∧ isCoded i = true ∧ s.cur = some e.r ∧ (s.team? e.r.t).map (fun T => T.settle s.clock e.r.b) = some e.T ∧
    e.T.beams[e.r.b]? = some e.b ∧ e = viewOf i e.r e.T e.b s.clock ∧ s1 = (s.setTeam e.r.t e.T).dropPages e.r (s.dueTenants e.r)

/-- The beam may issue in this cycle, and no register that the instruction names is pending (R84, R107). -/
def Env.ready (e : Env) (s1 : State) : Prop := s1.mayIssue e.T e.b e.r.b = true ∧ e.b.blocked e.g e.x = false

/-- Every register that the instruction names lies below the beam's budget (R27). -/
def Env.inBudget (e : Env) : Prop := Machine.inBudget e.g e.x e.b.budget = true

/-- With `%chk` = 1 the instruction meets no fixed-latency hazard (R86). -/
def Env.noHazard (e : Env) : Prop :=
  e.b.chk = 1 → e.b.hazard e.g e.x e.now ((fixedLat e.n).map fun l => e.now + 4 * e.far + l) = false

/-- No register that the instruction reads has an uncorrectable error (R380). -/
def Env.sound (e : Env) : Prop := e.T.badRegs e.r.b e.b (readNames e.g e.x) = false

/-- Instruction i issues: the beam is ready, every check at issue passes (R27, R39, R84, R86, R107), and its registers are read without
an uncorrectable error (R380). -/
def Issues (i : Instr) (s : State) (e : Env) (s1 : State) : Prop :=
  Attempts i s e s1 ∧ e.ready s1 ∧ e.inBudget ∧ e.noHazard ∧ e.sound

/-! ### What an issued instruction answers -/

/-- i completes: its effect leaves `s'`, and the beam goes on after it. -/
def Completes (i : Instr) (s : State) (e : Env) (s' : State) : Prop := exec i s = .next (Issue.finish e s' none)

/-- i completes and the beam goes on at `pc`. -/
def JumpsTo (i : Instr) (s : State) (e : Env) (s' : State) (pc : Dword) : Prop := exec i s = .next (Issue.finish e s' (some pc))

/-- i raises a trap before it has any effect, with its own address as the trap's; it has taken its issue cycle (R82). -/
def TrapsOwn (i : Instr) (s : State) (e : Env) (s1 : State) (cause info : Nat) : Prop :=
  exec i s = .next (Issue.trap (Issue.issued s1 e.r e.next) e.r cause 0 none none info)

/-- i is not issued in this cycle. -/
def Waits (i : Instr) (s : State) (e : Env) (s1 : State) : Prop := exec i s = .next (Issue.heldUntil s1 e.r (s1.clock + 1))

/-! ### What runs keep -/

/-- Both memories are in canonical form. -/
def State.canonical (s : State) : Prop := s.mem.wf = true ∧ s.hostMem.wf = true

/-- Only events stand on the agenda. -/
def State.agendaOfEvents (s : State) : Prop := ∀ i ∈ s.agenda, ∀ j, i = some j → isCoded j = false

/-- The step answers a next state: the machine neither faults nor refuses. -/
def State.goesOn (s : State) : Prop := ∃ t, step s = .next t

end Sys2Proof.Machine
end

