-- ==== Sys2Proof/Certificates/Slice0/Obligations.lean ====
section
/-! DEFINITION. The statements for the provers, in the order of spec/. What each says of a result is written from the rule's own
words, with exact integers narrowed at the end; addresses, register values and lanes are those of the operand rules (R22, R28,
R29), which have statements of their own. -/

open Sys2Proof Sys2Proof.Machine

namespace Sys2Proof.Claim

/-! ### Numbers -/

/-- A result modulo 2^32 (R184). -/
def w32 (n : Nat) : Word := BitVec.ofNat 32 n
/-- An exact integer modulo 2^32 (R184). -/
def z32 (n : Int) : Word := BitVec.ofInt 32 n
/-- A result modulo 2^64 (R184). -/
def w64 (n : Nat) : Dword := BitVec.ofNat 64 n
def z64 (n : Int) : Dword := BitVec.ofInt 64 n
/-- What a compare writes (R184). -/
def truth (p : Prop) [Decidable p] : Word := if p then 1 else 0

/-- Bits that are 0 from bit 31 down, before the first 1. -/
def leading (a : Word) : Nat := ((List.range 32).takeWhile fun k => !a.getLsbD (31 - k)).length
/-- Bits that are 0 from bit 0 up, before the first 1. -/
def trailing (a : Word) : Nat := ((List.range 32).takeWhile fun k => !a.getLsbD k).length

/-! ### Shifts (R186) and field specs (R190) -/

def shl (a c : Word) : Word := if c.toNat ≥ 32 then 0 else w32 (a.toNat * 2 ^ c.toNat)
def shr (a c : Word) : Word := if c.toNat ≥ 32 then 0 else w32 (a.toNat / 2 ^ c.toNat)
def sar (a c : Word) : Word :=
  if c.toNat ≥ 32 then (if a.toInt ≥ 0 then 0 else 0xFFFFFFFF) else z32 (a.toInt / 2 ^ c.toNat)
def shlp (a : Dword) (c : Word) : Dword := if c.toNat ≥ 64 then 0 else w64 (a.toNat * 2 ^ c.toNat)
def shrp (a : Dword) (c : Word) : Dword := if c.toNat ≥ 64 then 0 else w64 (a.toNat / 2 ^ c.toNat)
def sarp (a : Dword) (c : Word) : Dword :=
  if c.toNat ≥ 64 then (if a.toInt ≥ 0 then 0 else 0xFFFFFFFFFFFFFFFF) else z64 (a.toInt / 2 ^ c.toNat)

/-- A rotated left by c bits, c below 32. -/
def rotl (a : Word) (c : Nat) : Word := w32 (a.toNat * 2 ^ c % 2 ^ 32 + a.toNat / 2 ^ (32 - c))

/-- pos and w of a field spec. -/
def fpos (b : Word) : Nat := b.toNat % 32
def fw (b : Word) : Nat := Nat.min (b.toNat / 32 % 64) (32 - fpos b)
/-- The field that the spec names. -/
def field (a b : Word) : Nat := a.toNat / 2 ^ fpos b % 2 ^ fw b

def bfx (a b : Word) : Word :=
  if fw b = 0 then 0
  else if 2 * field a b ≥ 2 ^ fw b then z32 ((field a b : Int) - 2 ^ fw b) else w32 (field a b)
/-- The field of the old D gives way to the low bits of A. -/
def bfi (a b d : Word) : Word :=
  w32 (d.toNat - d.toNat / 2 ^ fpos b % 2 ^ fw b * 2 ^ fpos b + a.toNat % 2 ^ fw b * 2 ^ fpos b)

/-! ### Division (R191) -/

def divs (a b : Word) : Word := if b = 0 then 0xFFFFFFFF else z32 (Int.tdiv a.toInt b.toInt)
def rems (a b : Word) : Word := if b = 0 then a else z32 (a.toInt - b.toInt * Int.tdiv a.toInt b.toInt)
def divu (a b : Word) : Word := if b = 0 then 0xFFFFFFFF else w32 (a.toNat / b.toNat)
def remu (a b : Word) : Word := if b = 0 then a else w32 (a.toNat % b.toNat)

/-! ### Results -/

/-- D of each active lane is to hold `f`, with exceptions `fl`; with no active lane no value is written (R28, R29, R83), and the
write is pending by its cycle and its names all the same (R86). -/
def lanesHold (e : Env) (s1 : State) (f : Nat → Word) (fl : Flags) : State :=
  e.fixed s1 (e.activeLanes.map fun l => (regKey e.x.d.toNat l, f l)) fl

/-- The D pair of each active lane is to hold `f` (R26). -/
def pairsHold (e : Env) (s1 : State) (f : Nat → Dword) : State :=
  e.fixed s1 (e.activeLanes.flatMap fun l =>
    [(regKey e.x.d.toNat l, w32 ((f l).toNat % 2 ^ 32)), (regKey (e.x.d.toNat + 1) l, w32 ((f l).toNat / 2 ^ 32))]) 0

/-- i gives each active lane l the value `f e l` whenever it issues. -/
def GivesLanes (i : Instr) (f : Env → Nat → Word) : Prop :=
  ∀ s e s1, Issues i s e s1 → Completes i s e (lanesHold e s1 (f e) 0)

/-- i gives each active lane l the value `(f e l).1` and the beam the exceptions of `(f e l).2` (R65). -/
def GivesFlagged (i : Instr) (f : Env → Nat → Nat × Flags) : Prop :=
  ∀ s e s1, Issues i s e s1 →
    Completes i s e (lanesHold e s1 (fun l => w32 (f e l).1) (e.activeLanes.foldl (fun m l => m ||| (f e l).2) 0))

def GivesPairs (i : Instr) (f : Env → Nat → Dword) : Prop :=
  ∀ s e s1, Issues i s e s1 → Completes i s e (pairsHold e s1 (f e))

/-- A row of a table of base instructions with their twins: D as a function of A, B and the old D. -/
abbrev TwinRow (α : Type) := (α → Instr) × (Ext → Instr) × (Word → Word → Word → Word)

/-- Both forms of the row give that function's value. -/
def TwinRow.holds {α : Type} (r : TwinRow α) : Prop :=
  (∀ o, GivesLanes (r.1 o) fun e l => r.2.2 (e.a l) (e.bv l) (e.dOld l)) ∧
    ∀ x, GivesLanes (r.2.1 x) fun e l => r.2.2 (e.a l) (e.bv l) (e.dOld l)

/-- R185 and R186: base integer instructions of layout B3. -/
def integerB3 : List (TwinRow B3) :=
  [(.mov, .movX, fun _ b _ => b),
   (.add, .addX, fun a b _ => w32 (a.toNat + b.toNat)),
   (.sub, .subX, fun a b _ => z32 ((a.toNat : Int) - b.toNat)),
   (.mul, .mulX, fun a b _ => w32 (a.toNat * b.toNat)),
   (.and, .andX, fun a b _ => a &&& b),
   (.or, .orX, fun a b _ => a ||| b),
   (.xor, .xorX, fun a b _ => a ^^^ b),
   (.shl, .shlX, fun a b _ => shl a b),
   (.shr, .shrX, fun a b _ => shr a b),
   (.sar, .sarX, fun a b _ => sar a b),
   (.min, .minX, fun a b _ => z32 (Min.min a.toInt b.toInt)),
   (.max, .maxX, fun a b _ => z32 (Max.max a.toInt b.toInt)),
   (.minu, .minuX, fun a b _ => w32 (Min.min a.toNat b.toNat)),
   (.maxu, .maxuX, fun a b _ => w32 (Max.max a.toNat b.toNat)),
   (.andn, .andnX, fun a b _ => a &&& ~~~b),
   (.ceq, .ceqX, fun a b _ => truth (a = b)),
   (.cne, .cneX, fun a b _ => truth (a ≠ b)),
   (.clt, .cltX, fun a b _ => truth (a.toInt < b.toInt)),
   (.cle, .cleX, fun a b _ => truth (a.toInt ≤ b.toInt)),
   (.cltu, .cltuX, fun a b _ => truth (a.toNat < b.toNat)),
   (.cleu, .cleuX, fun a b _ => truth (a.toNat ≤ b.toNat)),
   (.sel, .selX, fun a b d => if d.toNat % 2 = 1 then a else b),
   (.mad, .madX, fun a b d => w32 (d.toNat + a.toNat * b.toNat)),
   (.popc, .popcX, fun a _ _ => w32 ((List.range 32).filter fun k => a.getLsbD k).length),
   (.clz, .clzX, fun a _ _ => w32 (leading a))]

/-- R185 and R186: base integer instructions of layout BI. -/
def integerBI : List (TwinRow BI) :=
  [(.addi, .addiX, fun a b _ => w32 (a.toNat + b.toNat)),
   (.shli, .shliX, fun a b _ => shl a b),
   (.shri, .shriX, fun a b _ => shr a b),
   (.sari, .sariX, fun a b _ => sar a b),
   (.andi, .andiX, fun a b _ => a &&& b)]

/-- R188, R190 and R207 of the counter: extended-only instructions with one register as result. -/
def integerExt : List ((Ext → Instr) × (Word → Word → Word → Word)) :=
  [(.mulhi, fun a b _ => z32 (a.toInt * b.toInt / 2 ^ 32)),
   (.mulhiu, fun a b _ => w32 (a.toNat * b.toNat / 2 ^ 32)),
   (.abs, fun a _ _ => w32 a.toInt.natAbs),
   (.rol, fun a b _ => rotl a (b.toNat % 32)),
   (.ror, fun a b _ => rotl a ((32 - b.toNat % 32) % 32)),
   (.ctz, fun a _ _ => w32 (trailing a)),
   (.brev, fun a _ _ => a.reverse),
   (.bfxu, fun a b _ => w32 (field a b)),
   (.bfx, fun a b _ => bfx a b),
   (.bfi, fun a b d => bfi a b d)]

/-- R188: instructions on pairs, with a pair as result or a truth value. -/
def pairExt : List ((Ext → Instr) × (Dword → Dword → Dword)) :=
  [(.addp, fun a b => w64 (a.toNat + b.toNat)),
   (.subp, fun a b => z64 ((a.toNat : Int) - b.toNat)),
   (.mulp, fun a b => w64 (a.toNat * b.toNat))]

def pairShiftExt : List ((Ext → Instr) × (Dword → Word → Dword)) := [(.shlp, shlp), (.shrp, shrp), (.sarp, sarp)]

def pairCompareExt : List ((Ext → Instr) × (Dword → Dword → Word)) :=
  [(.ceqp, fun a b => truth (a = b)),
   (.cltp, fun a b => truth (a.toInt < b.toInt)),
   (.cltup, fun a b => truth (a.toNat < b.toNat))]

end Sys2Proof.Claim

open Sys2Proof.Claim

/-! ### Integer instructions (R184 to R190) -/

/-- R185, R186: the base integer instructions and their twins complete whenever they issue, and give each active lane the
value of the table. -/
def Sys2Proof.Claim.IntegerResults : Prop := (∀ r ∈ integerB3, r.holds) ∧ ∀ r ∈ integerBI, r.holds

/-- R188, R190: the extended-only integer instructions, on lanes and on pairs, and `LEA` (R189). -/
def Sys2Proof.Claim.ExtendedIntegerResults : Prop :=
  (∀ r ∈ integerExt, ∀ x, GivesLanes (r.1 x) fun e l => r.2 (e.a l) (e.bv l) (e.dOld l)) ∧
  (∀ r ∈ pairExt, ∀ x, GivesPairs (r.1 x) fun e l => r.2 (e.aPair l) (e.bPair l)) ∧
  (∀ r ∈ pairShiftExt, ∀ x, GivesPairs (r.1 x) fun e l => r.2 (e.aPair l) (e.bv l)) ∧
  (∀ r ∈ pairCompareExt, ∀ x, GivesLanes (r.1 x) fun e l => r.2 (e.aPair l) (e.bPair l))

/-- R189: `LEA` adds the B operand, extended by zeros or with SX by its sign and shifted left by s, to the A pair, modulo 2^64.
B is a 32-bit operand: a 10-bit immediate is extended by its sign to 32 bits first, and a literal gives its low 32 bits. The
address is not checked. -/
def Obligations.LeaFormsAnAddress : Prop :=
  (∀ x, GivesPairs (.lea x) fun e l =>
    z64 ((e.aPair l).toNat + (if x.flg.getLsbD 0 then (e.bv l).toInt else (e.bv l).toNat) * 2 ^ (x.x10.toNat % 8))) ∧
  ∀ (e : Env) (l : Nat), e.x.immb = true →
    (e.x.lit = none → e.bv l = z32 e.x.b.toInt) ∧ ∀ v, e.x.lit = some v → e.bv l = w32 (v.toNat % 2 ^ 32)

/-! ### Across lanes (R193 to R196, R199) -/

namespace Sys2Proof.Claim

/-- The active lanes that satisfy p, as a number. -/
def laneSum (e : Env) (p : Nat → Bool) : Nat := ((e.activeLanes.filter p).map fun l => 2 ^ l).sum

/-- The value of `SCAN` in lane l, by the loop of R196 over the active lanes k. -/
def scanTo (op : Word → Word → Word) (excl : Bool) (a : Nat → Word) (l : Nat) : List Nat → Word → Word
  | [], acc => acc
  | k :: r, acc => if k = l then (if excl then acc else op acc (a k)) else scanTo op excl a l r (op acc (a k))

/-- Operation and identity of a `SCAN` op. -/
def scanFold (n : Nat) (x y : Word) : Word :=
  if n = 0 then w32 (x.toNat + y.toNat)
  else if n = 1 then z32 (Max.max x.toInt y.toInt)
  else z32 (Min.min x.toInt y.toInt)
def scanStart (n : Nat) : Word := if n = 0 then 0 else if n = 1 then 0x80000000 else 0x7FFFFFFF

/-- One round of R78 on x and k. -/
def rngRoundNat (p : Nat × Nat) : Nat × Nat :=
  let x1 := (p.1 + p.2) % 2 ^ 32
  let x2 := Nat.xor x1 (x1 / 2 ^ 16)
  let x3 := x2 * 0x4F1BB5C7 % 2 ^ 32
  (Nat.xor x3 (x3 / 2 ^ 15), (p.2 + 0x7C159A3B) % 2 ^ 32)

/-- Folds over the active lanes (R195). -/
def foldRows : List ((Ext → Instr) × (Env → Word)) :=
  [(.raddX, fun e => w32 (e.activeLanes.map fun l => (e.a l).toNat).sum),
   (.rmaxX, fun e => z32 ((e.activeLanes.map fun l => (e.a l).toInt).foldl Max.max (-(2 ^ 31)))),
   (.rmin, fun e => z32 ((e.activeLanes.map fun l => (e.a l).toInt).foldl Min.min (2 ^ 31 - 1))),
   (.rmaxu, fun e => w32 ((e.activeLanes.map fun l => (e.a l).toNat).foldl Max.max 0)),
   (.rminu, fun e => w32 ((e.activeLanes.map fun l => (e.a l).toNat).foldl Min.min (2 ^ 32 - 1)))]

def shflLane (e : Env) (l : Nat) : Word := e.a ((e.bv l).toNat % 32)
def shflxLane (e : Env) (l : Nat) : Word := e.a (Nat.xor l ((e.bv l).toNat % 32))

end Sys2Proof.Claim

/-- R193: the shuffles read A in the lane that B names, or in the lane itself where that lane is out of range. -/
def Sys2Proof.Claim.ShuffleResults : Prop :=
  (∀ o, GivesLanes (.shfl o) shflLane) ∧ (∀ x, GivesLanes (.shflX x) shflLane) ∧
  (∀ o, GivesLanes (.shflx o) shflxLane) ∧ (∀ x, GivesLanes (.shflxX x) shflxLane) ∧
  (∀ x, GivesLanes (.shflu x) fun e l => if (e.bv l).toNat ≤ l then e.a (l - (e.bv l).toNat) else e.a l) ∧
  (∀ x, GivesLanes (.shfld x) fun e l => if l + (e.bv l).toNat ≤ 31 then e.a (l + (e.bv l).toNat) else e.a l)

/-- R194 to R196, R199: `VOTE`, `MATCH`, the folds, `SCAN` and `RNG`. -/
def Sys2Proof.Claim.CrossLaneResults : Prop :=
  (∀ x, GivesLanes (.vote x) fun e _ =>
    let m := laneSum e fun l => decide ((e.a l).toNat % 2 = 1)
    if x.x10.toNat % 4 = 0 then truth (m ≠ 0)
    else if x.x10.toNat % 4 = 1 then truth (m = laneSum e fun _ => true)
    else w32 m) ∧
  (∀ x, GivesLanes (.matchLanes x) fun e l => w32 (laneSum e fun k => decide (e.a k = e.a l))) ∧
  (∀ r ∈ foldRows, ∀ x, GivesLanes (r.1 x) fun e _ => r.2 e) ∧
  (∀ o, GivesLanes (.radd o) fun e _ => w32 (e.activeLanes.map fun l => (e.a l).toNat).sum) ∧
  (∀ o, GivesLanes (.rmax o) fun e _ => z32 ((e.activeLanes.map fun l => (e.a l).toInt).foldl Max.max (-(2 ^ 31)))) ∧
  (∀ x, GivesLanes (.scan x) fun e l =>
    scanTo (scanFold (x.x10.toNat % 4)) (x.x10.getLsbD 2) e.a l e.activeLanes (scanStart (x.x10.toNat % 4))) ∧
  (∀ x, GivesLanes (.rng x) fun e l =>
    w32 (rngRoundNat (rngRoundNat (rngRoundNat ((e.bv l).toNat, (e.a l).toNat)))).1)

/-! ### Division (R191, R192) -/

namespace Sys2Proof.Claim

def divisions : List ((Ext → Instr) × Nat × (Word → Word → Word)) :=
  [(.divs, 0, divs), (.divu, 1, divu), (.rems, 2, rems), (.remu, 3, remu)]

/-- A division in progress: its operands by lane, the lanes it works on, the sub-step it has reached. -/
def divRun (op : Nat) (e : Env) (id step : Nat) : LongRun :=
  ⟨e.b.pc, e.now, e.now, .div op e.x.d.toNat (lanes.map e.a) (lanes.map e.bv) e.act id step⟩

/-- The sub-step that the first division of a list of long instructions has reached. -/
def divReached (l : List LongRun) : Option Nat :=
  (l.filterMap fun x => match x.op with | .div _ _ _ _ _ _ g => some g | _ => none).head?

/-- `%pix` as sub-step n of a long instruction leaves it: in a handler it keeps the trap's value (log 57), and a stop's record stays. -/
def stepPix (b : Beam) (n : Nat) : Word :=
  if causeInh b.cause = true ∨ b.halt = .stopped ∨ b.latched.isSome = true then b.pix else BitVec.ofNat 32 n

/-- Beam r of the state, with its team. -/
def HasBeam (s : State) (r : Ref) (T : Team) (b : Beam) : Prop := s.team? r.t = some T ∧ T.beams[r.b]? = some b

end Sys2Proof.Claim

/-- R192: a division enters its beam with the operands and the active set latched at issue, and D is pending; it begins at
sub-step 0, or where `ERET` resumes it (R183), and `%pix` holds that number, or that of an earlier division of the beam that still
runs; in a handler it keeps the trap's (log 57). With no active lane nothing is to be written, and the same where a resumed one has no
sub-step left (log 59). -/
def Sys2Proof.Claim.DivisionsStart : Prop :=
  ∀ p ∈ divisions, ∀ x s e s1, Issues (p.1 x) s e s1 →
    (e.b.resume.getD 0 < 4 →
      Completes (p.1 x) s e (if e.act = 0 then s1 else
        (e.pendingAt s1 (writeNames e.g e.x) [] 1 0 true).modBeam e.r fun b =>
          { b with longs := b.longs ++ [divRun p.2.1 e s1.nextId (e.b.resume.getD 0)],
                   pix := stepPix b ((divReached b.longs).getD (e.b.resume.getD 0)) })) ∧
    (4 ≤ e.b.resume.getD 0 → Completes (p.1 x) s e s1)

/-- The results of sub-step g of a division: those of lanes 8g to 8g + 7 of D in the latched active lanes, from the latched
operands. -/
def divVals (f : Word → Word → Word) (d g : Nat) (va vb : List Word) (m : Word) : List (Nat × Word) :=
  (((List.range 8).map (8 * g + ·)).filter fun k => m.getLsbD k).map fun k => (32 * d + k, f (va.getD k 0) (vb.getD k 0))

/-- R191, R192: the divider of a quadrant ends sub-step g of the division it serves 8 cycles after that sub-step began. Its
results are written 4 cycles later, the last with the mark of D taken away; until then no register changes, and `%pix` holds the
number of the sub-step that follows, of the beam's next division after the last, but in a handler (log 57). -/
def Sys2Proof.Claim.DivisionSubsteps : Prop :=
  ∀ p ∈ divisions, ∀ (s : State) (r : Ref) (T : Team) (b : Beam) (d id g at_ since : Nat) (pc : Dword) (va vb : List Word) (m : Word)
      (rest : List LongRun),
    HasBeam s r T b → va.length = 32 → vb.length = 32 → d < 1024 → g < 4 →
    b.longs = ⟨pc, at_, since, .div p.2.1 d va vb m id g⟩ :: rest →
    ⟨pc, at_, since, .div p.2.1 d va vb m id g⟩ ∉ rest →
    s.divFirst T.coreId (r.b % 4) = some (since, id) → b.halt = .run →
    Max.max since (sget 0 (s.core T.coreId).divFree (r.b % 4)) + 8 ≤ s.clock →
    ∃ t U c, exec (.dividerSubstep r.t r.b) s = .next t ∧ HasBeam t r U c ∧ t.mem = s.mem ∧
      c.main = b.main ∧ c.win = b.win ∧
      (let done := Max.max since (sget 0 (s.core T.coreId).divFree (r.b % 4)) + 8
       sget 0 (t.core T.coreId).divFree (r.b % 4) = done ∧
       (g < 3 →
          c.fix = insertFix ⟨done + 4, divVals p.2.2 d g va vb m, [], 0, none⟩ b.fix ∧
          c.longs = ⟨pc, at_, since, .div p.2.1 d va vb m id (g + 1)⟩ :: rest ∧ c.pends = b.pends ∧
          c.pix = stepPix b (g + 1)) ∧
       (g = 3 → c.longs = rest ∧ c.fix = b.fix ∧ c.pix = (divReached rest).elim b.pix (stepPix b) ∧
          c.pends = b.pends.map fun q =>
            if q.id = id then { q with vals := divVals p.2.2 d g va vb m, wait := 0, ready := done + 4 } else q))

/-! ### Cross-core exchange (R197) -/

/-- R197: without paired placement `XCHG` is `PROT`; otherwise the beam meets a partner that waits with the same tag, and each
side receives the other's value in the lanes active on both, no earlier than 16 cycles later; it completes with D unchanged
where the partner has retired; else it waits. -/
def Obligations.ExchangeMeets : Prop :=
  ∀ x s e s1, Issues (.xchg x) s e s1 →
    ((s1.gridOf e.T).elim true (fun g => !g.launch.paired) = true → TrapsOwn (.xchg x) s e s1 cPROT 0) ∧
    ((s1.gridOf e.T).any (fun g => g.launch.paired) = true →
      ∃ t U c p, exec (.xchg x) s = .next t ∧ HasBeam t e.r U c ∧ t.mem = s.mem ∧
        (e.b.halt = .run → c.main = e.b.main ∧ c.win = e.b.win) ∧ p ∈ c.pends ∧ p.id = s1.nextId ∧ p.names = [x.d.toNat] ∧
        (∀ u V q m v d i, s1.pairOf e.T = some (u, V) → u ≠ e.r.t → V.beams[e.r.b]? = some q →
          q.status = .xchg x.x10.toNat m v d i →
          c.status = .ready ∧ p.wait = 0 ∧ p.ready = s1.clock + 16 ∧
          (∀ k w, (k, w) ∈ p.vals ↔ ∃ l, (l, w) ∈ v ∧ e.act.getLsbD l = true ∧ m.getLsbD l = true ∧ k = 32 * x.d.toNat + l)) ∧
        (∀ u V q, s1.pairOf e.T = some (u, V) → u ≠ e.r.t → V.beams[e.r.b]? = some q → q.status = .retired →
          c.status = .ready ∧ p.wait = 0 ∧ p.vals = []) ∧
        (∀ u V q, s1.pairOf e.T = some (u, V) → u ≠ e.r.t → V.beams[e.r.b]? = some q → q.status = .ready →
          c.status = .xchg x.x10.toNat e.act (lanes.map fun l => (l, e.a l)) x.d.toNat s1.nextId ∧ p.wait = 1 ∧ p.vals = []))

/-! ### Floating point (R62 to R69, R200 to R219) -/

namespace Sys2Proof.Claim

/-- The formats of R62 by exponent and fraction bits. -/
def formats : List Fmt := [Fmt.fp32, Fmt.fp16, Fmt.bf16]

/-- Sign, magnitude and the code of infinity of an element's bits. -/
def sgn (f : Fmt) (a : Nat) : Bool := decide (a / 2 ^ (f.eb + f.mb) % 2 = 1)
def mag (f : Fmt) (a : Nat) : Nat := a % 2 ^ (f.eb + f.mb)
def infMag (f : Fmt) : Nat := (2 ^ f.eb - 1) * 2 ^ f.mb
def isNanBits (f : Fmt) (a : Nat) : Bool := decide (infMag f < mag f a)
def isInfBits (f : Fmt) (a : Nat) : Bool := decide (mag f a = infMag f)
/-- A NaN whose top fraction bit is 0. -/
def signalling (f : Fmt) (a : Nat) : Bool := isNanBits f a && decide (mag f a / 2 ^ (f.mb - 1) % 2 = 0)
def nanBits (f : Fmt) : Nat := infMag f + 2 ^ (f.mb - 1)

/-- NV for a signalling NaN among the operands. -/
def nv (f : Fmt) (l : List Nat) : Flags := if l.any (signalling f) then 0b10000 else 0

/-- A number as an integer that orders as it does, −0 just below +0. -/
def orderKey (f : Fmt) (a : Nat) : Int := if sgn f a then -(mag f a : Int) - 1 else mag f a
/-- As `orderKey`, with both zeros equal. -/
def compareKey (f : Fmt) (a : Nat) : Int := if sgn f a then -(mag f a : Int) else mag f a

/-- minimumNumber and maximumNumber of R207. -/
def pickNumber (f : Fmt) (big : Bool) (a b : Nat) : Nat × Flags :=
  (if isNanBits f a && isNanBits f b then nanBits f
   else if isNanBits f a then b
   else if isNanBits f b then a
   else if big then (if orderKey f a < orderKey f b then b else a)
   else (if orderKey f b < orderKey f a then b else a), nv f [a, b])

/-- minimum and maximum of R207. -/
def pickStrict (f : Fmt) (big : Bool) (a b : Nat) : Nat × Flags :=
  if isNanBits f a || isNanBits f b then (nanBits f, nv f [a, b]) else pickNumber f big a b

/-- A packed operation on elements 0 and 1, the exceptions of either ORed (R63, R65). -/
def onHalves (g : Nat → Nat → Nat × Flags) (a b : Nat) : Nat × Flags :=
  ((g (a % 65536) (b % 65536)).1 + 65536 * (g (a / 65536) (b / 65536)).1,
   (g (a % 65536) (b % 65536)).2 ||| (g (a / 65536) (b / 65536)).2)
def onHalves3 (g : Nat → Nat → Nat → Nat × Flags) (a b c : Nat) : Nat × Flags :=
  ((g (a % 65536) (b % 65536) (c % 65536)).1 + 65536 * (g (a / 65536) (b / 65536) (c / 65536)).1,
   (g (a % 65536) (b % 65536) (c % 65536)).2 ||| (g (a / 65536) (b / 65536) (c / 65536)).2)

/-- A compare of R208: quiet, false with a NaN. -/
def compareBits (p : Int → Int → Bool) (a b : Nat) : Nat × Flags :=
  (if !isNanBits .fp32 a && !isNanBits .fp32 b && p (compareKey .fp32 a) (compareKey .fp32 b) then 1 else 0, nv .fp32 [a, b])

/-- The bit of the class mask of R209 that is set. -/
def classBit (a : Nat) : Nat :=
  if isNanBits .fp32 a then (if signalling .fp32 a then 8 else 9)
  else if isInfBits .fp32 a then (if sgn .fp32 a then 0 else 7)
  else if mag .fp32 a = 0 then (if sgn .fp32 a then 3 else 4)
  else if mag .fp32 a / 2 ^ 23 = 0 then (if sgn .fp32 a then 2 else 5)
  else (if sgn .fp32 a then 1 else 6)

/-- Exact two-operand arithmetic of a format, rounded once in the mode: sum, difference and product. -/
abbrev Arith2 := Fmt → RMode → Nat → Nat → Nat × Flags

/-- Rows of base floating-point instructions: both forms, and the value by mode, A, B and old D. -/
abbrev FloatRow := (B3 → Instr) × (Ext → Instr) × (RMode → Nat → Nat → Nat → Nat × Flags)

/-- R203, R207, R208: the base floating-point instructions. -/
def floatBase : List FloatRow :=
  [(.fadd, .faddX, fun rm a b _ => faddBits .fp32 rm a b),
   (.fsub, .fsubX, fun rm a b _ => fsubBits .fp32 rm a b),
   (.fmul, .fmulX, fun rm a b _ => fmulBits .fp32 rm a b),
   (.fmac, .fmacX, fun rm a b d => ffmaBits .fp32 rm a b d),
   (.hadd, .haddX, fun rm a b _ => onHalves (faddBits .fp16 rm) a b),
   (.hmul, .hmulX, fun rm a b _ => onHalves (fmulBits .fp16 rm) a b),
   (.hmac, .hmacX, fun rm a b d => onHalves3 (ffmaBits .fp16 rm) a b d),
   (.badd, .baddX, fun rm a b _ => onHalves (faddBits .bf16 rm) a b),
   (.bmul, .bmulX, fun rm a b _ => onHalves (fmulBits .bf16 rm) a b),
   (.bmac, .bmacX, fun rm a b d => onHalves3 (ffmaBits .bf16 rm) a b d),
   (.fmin, .fminX, fun _ a b _ => pickNumber .fp32 false a b),
   (.fmax, .fmaxX, fun _ a b _ => pickNumber .fp32 true a b),
   (.fceq, .fceqX, fun _ a b _ => compareBits (fun x y => decide (x = y)) a b),
   (.fclt, .fcltX, fun _ a b _ => compareBits (fun x y => decide (x < y)) a b),
   (.fcle, .fcleX, fun _ a b _ => compareBits (fun x y => decide (x ≤ y)) a b)]

/-- R204, R206, R207, R209 to R212: extended-only instructions by mode, A, B and C. -/
def floatExt : List ((Ext → Instr) × (RMode → Nat → Nat → Nat → Nat × Flags)) :=
  [(.ffma, fun rm a b c => ffmaBits .fp32 rm a b c),
   (.fnms, fun rm a b c => ffnmaBits .fp32 rm a b c),
   (.hfma, fun rm a b c => onHalves3 (ffmaBits .fp16 rm) a b c),
   (.bfma, fun rm a b c => onHalves3 (ffmaBits .bf16 rm) a b c),
   (.fminn, fun _ a b _ => pickStrict .fp32 false a b),
   (.fmaxn, fun _ a b _ => pickStrict .fp32 true a b),
   (.hmin, fun _ a b _ => onHalves (pickNumber .fp16 false) a b),
   (.hmax, fun _ a b _ => onHalves (pickNumber .fp16 true) a b),
   (.fcun, fun _ a b _ => (if isNanBits .fp32 a || isNanBits .fp32 b then 1 else 0, nv .fp32 [a, b])),
   (.fclass, fun _ a _ _ => (2 ^ classBit a, 0)),
   (.frnd, fun rm a _ _ => frnd rm a),
   (.fscl, fun rm a b _ => fscl rm a (if b < 2 ^ 31 then (b : Int) else (b : Int) - 2 ^ 32)),
   (.frcp, fun rm a _ _ => fnBits 0 rm (w32 a)), (.frsq, fun rm a _ _ => fnBits 1 rm (w32 a)),
   (.fsqrt, fun rm a _ _ => fnBits 2 rm (w32 a)), (.fexp2, fun rm a _ _ => fnBits 3 rm (w32 a)),
   (.flog2, fun rm a _ _ => fnBits 4 rm (w32 a)), (.ftanh, fun rm a _ _ => fnBits 5 rm (w32 a))]

/-- The bits that PK leaves to `FABS` and `FNEG` (R206). -/
def signMask (x : Ext) : Word := if x.x10.toNat % 2 = 1 then 0x80008000 else 0x80000000

/-- One conversion: the exact value of the source rounded to the destination, NV for a signalling NaN. -/
def recode (f g : Fmt) (rm : RMode) (a : Nat) : Nat × Flags :=
  ((pack g rm (FVal.of f a).toX).1, (pack g rm (FVal.of f a).toX).2 ||| nv f [a])

/-- The format of code 1 or 2 (R213). -/
def halfFmt (c : Nat) : Fmt := if c = 1 then .fp16 else .bf16

/-- `CVTF` (R213): SF in X10 [4:3], DF in [6:5], HS in [7]. -/
def cvtfValue (e : Env) (l : Nat) : Nat × Flags :=
  let sf := e.x.x10.toNat / 8 % 4
  let df := e.x.x10.toNat / 32 % 4
  let a := (e.a l).toNat
  if sf = 0 then
    ((recode .fp32 (halfFmt df) e.rmode a).1 + 65536 * (recode .fp32 (halfFmt df) e.rmode (e.bv l).toNat).1,
     (recode .fp32 (halfFmt df) e.rmode a).2 ||| (recode .fp32 (halfFmt df) e.rmode (e.bv l).toNat).2)
  else if df = 0 then recode (halfFmt sf) .fp32 e.rmode (if e.x.x10.getLsbD 7 then a / 65536 else a % 65536)
  else onHalves (fun u _ => recode (halfFmt sf) (halfFmt df) e.rmode u) a 0

/-- Magnitude bits of the tapered format, slot width, and the first bit of the slot (R215). -/
def tapBits (x : Ext) : Nat := if x.x10.getLsbD 3 then 5 else 7
def slotAt (x : Ext) : Nat := (tapBits x + 1) * (x.x10.toNat / 16 % 4)

end Sys2Proof.Claim

/-- R200, R203, R207, R208: the base floating-point instructions and their twins complete whenever they issue, give each active
lane the value of the table and raise the exceptions of every active lane. -/
def Sys2Proof.Claim.FloatResults : Prop :=
  ∀ r ∈ floatBase,
    (∀ o, GivesFlagged (r.1 o) fun e l => r.2.2 e.rmode (e.a l).toNat (e.bv l).toNat (e.dOld l).toNat) ∧
    ∀ x, GivesFlagged (r.2.1 x) fun e l => r.2.2 e.rmode (e.a l).toNat (e.bv l).toNat (e.dOld l).toNat

/-- R204, R206, R207, R209 to R212: the extended-only floating-point instructions. `FABS` and `FNEG` raise nothing. -/
def Sys2Proof.Claim.ExtendedFloatResults : Prop :=
  (∀ r ∈ floatExt, ∀ x, GivesFlagged (r.1 x) fun e l => r.2 e.rmode (e.a l).toNat (e.bv l).toNat (e.c l).toNat) ∧
  (∀ x, GivesLanes (.fabs x) fun e l => e.a l &&& ~~~signMask x) ∧
  (∀ x, GivesLanes (.fneg x) fun e l => e.a l ^^^ signMask x)

/-- R205, R63: a NaN operand gives the canonical NaN, with NV only where it is signalling; infinities of opposite sign and
infinity times zero give the canonical NaN with NV, in a fused form even beside a quiet NaN addend; an exact zero sum of
operands of opposite sign is +0, and −0 under RD. -/
def Sys2Proof.Claim.FloatSpecialCases : Prop :=
  ∀ f ∈ formats, ∀ (rm : RMode) (a b c : Nat), a < 2 ^ (f.eb + f.mb + 1) → b < 2 ^ (f.eb + f.mb + 1) →
    c < 2 ^ (f.eb + f.mb + 1) →
    (isNanBits f a = true ∨ isNanBits f b = true →
      faddBits f rm a b = (nanBits f, nv f [a, b]) ∧ fmulBits f rm a b = (nanBits f, nv f [a, b])) ∧
    (isInfBits f a = true → isInfBits f b = true → sgn f a ≠ sgn f b → faddBits f rm a b = (nanBits f, 0b10000)) ∧
    (isInfBits f a = true → mag f b = 0 →
      fmulBits f rm a b = (nanBits f, 0b10000) ∧ ffmaBits f rm a b c = (nanBits f, 0b10000)) ∧
    (mag f a = mag f b → mag f a < infMag f → sgn f a ≠ sgn f b →
      faddBits f rm a b = (if rm = .rd then 2 ^ (f.eb + f.mb) else 0, 0))

/-- R67: the special cases of the functions. -/
def Sys2Proof.Claim.FunctionSpecialCases : Prop :=
  ∀ rm : RMode,
    (∀ p ∈ [(0x00000000, 0x7F800000, 8), (0x80000000, 0xFF800000, 8), (0x7F800000, 0, 0), (0xFF800000, 0x80000000, 0),
      (0x7FC00000, 0x7FC00000, 0)], fnBits 0 rm (w32 p.1) = (p.2.1, BitVec.ofNat 5 p.2.2)) ∧
    (∀ p ∈ [(0x00000000, 0x7F800000, 8), (0x80000000, 0xFF800000, 8), (0x7F800000, 0, 0), (0xFF800000, 0x7FC00000, 16),
      (0xBF800000, 0x7FC00000, 16)], fnBits 1 rm (w32 p.1) = (p.2.1, BitVec.ofNat 5 p.2.2)) ∧
    (∀ p ∈ [(0x00000000, 0, 0), (0x80000000, 0x80000000, 0), (0x7F800000, 0x7F800000, 0), (0xFF800000, 0x7FC00000, 16),
      (0xBF800000, 0x7FC00000, 16)], fnBits 2 rm (w32 p.1) = (p.2.1, BitVec.ofNat 5 p.2.2)) ∧
    (∀ p ∈ [(0x00000000, 0x3F800000, 0), (0x80000000, 0x3F800000, 0), (0x7F800000, 0x7F800000, 0), (0xFF800000, 0, 0),
      (0x40400000, 0x41000000, 0)], fnBits 3 rm (w32 p.1) = (p.2.1, BitVec.ofNat 5 p.2.2)) ∧
    (∀ p ∈ [(0x00000000, 0xFF800000, 8), (0x80000000, 0xFF800000, 8), (0x7F800000, 0x7F800000, 0), (0xFF800000, 0x7FC00000, 16),
      (0x3F800000, 0, 0), (0xBF800000, 0x7FC00000, 16)], fnBits 4 rm (w32 p.1) = (p.2.1, BitVec.ofNat 5 p.2.2)) ∧
    (∀ p ∈ [(0x00000000, 0, 0), (0x80000000, 0x80000000, 0), (0x7F800000, 0x3F800000, 0), (0xFF800000, 0xBF800000, 0)],
      fnBits 5 rm (w32 p.1) = (p.2.1, BitVec.ofNat 5 p.2.2))

/-- R77, R213 to R216: the conversions between IEEE formats, integers and tapered formats. -/
def Sys2Proof.Claim.ConversionResults : Prop :=
  (∀ x, GivesFlagged (.cvtf x) cvtfValue) ∧
  (∀ x, GivesFlagged (.cvtfi x) fun e l =>
    let lo : Int := if x.x10.getLsbD 3 then 0 else -(2 ^ 31)
    let hi : Int := if x.x10.getLsbD 3 then 2 ^ 32 - 1 else 2 ^ 31 - 1
    match FVal.of .fp32 (e.a l).toNat with
    | .nan => (0, 0b10000)
    | .inf s => ((BitVec.ofInt 32 (if s then lo else hi)).toNat, 0b10000)
    | .fin s m k =>
      let r := roundShift e.rmode s m (-k)
      let v : Int := if s then -(r.1 : Int) else r.1
      if v < lo then ((BitVec.ofInt 32 lo).toNat, 0b10000)
      else if v > hi then ((BitVec.ofInt 32 hi).toNat, 0b10000)
      else ((BitVec.ofInt 32 v).toNat, if r.2 then 1 else 0)) ∧
  (∀ x, GivesFlagged (.cvtif x) fun e l =>
    let v : Int := if x.x10.getLsbD 3 then (e.a l).toNat else (e.a l).toInt
    pack .fp32 e.rmode (.fin (decide (v < 0)) v.natAbs 0 false)) ∧
  (∀ x, GivesFlagged (.cvtt x) fun e l =>
    let byte : Byte := (e.bv l).setWidth 8
    let t : Nat × Flags :=
      if byte = 0x80 then (0, 0)
      else match FVal.of .fp32 (e.a l).toNat with
        | .fin s m k => encodeTap (tapBits x) (.fin s m (k - byte.toInt))
        | v => encodeTap (tapBits x) v
    let m : Word := w32 ((2 ^ (tapBits x + 1) - 1) * 2 ^ slotAt x)
    (((e.dOld l &&& ~~~m) ||| w32 (t.1 * 2 ^ slotAt x)).toNat, t.2)) ∧
  (∀ x, GivesFlagged (.cvttf x) fun e l =>
    let byte : Byte := (e.bv l).setWidth 8
    if byte = 0x80 then (0, 0)
    else match decodeTap (tapBits x) ((e.a l).toNat / 2 ^ slotAt x % 2 ^ (tapBits x + 1)) with
      | .fin s m k => pack .fp32 e.rmode (.fin s m (k + byte.toInt) false)
      | v => pack .fp32 e.rmode v.toX)

namespace Sys2Proof.Claim

/-- fredadd of R73 on 32 values: five levels, each lane l below n taking the sum with lane l + n. -/
def treeLevel (rm : RMode) (n : Nat) (t : List Nat) : List (Nat × Flags) :=
  (List.range n).map fun l => faddBits .fp32 rm (t.getD l 0) (t.getD (l + n) 0)
def treeSum (rm : RMode) : List Nat → List Nat → Flags → Nat × Flags
  | [], t, f => (t.headD 0, f)
  | n :: r, t, f =>
    let v := treeLevel rm n t
    treeSum rm r (v.map (·.1)) (v.foldl (fun m p => m ||| p.2) f)

/-- The active lane that R218 and R219 select among those that hold a number: none is beyond it, and it is the lowest such. -/
def Selects (big : Bool) (e : Env) (w : Nat) : Prop :=
  w ∈ e.activeLanes ∧ isNanBits .fp32 (e.a w).toNat = false ∧
    ∀ k ∈ e.activeLanes, isNanBits .fp32 (e.a k).toNat = false →
      (if big then orderKey .fp32 (e.a k).toNat ≤ orderKey .fp32 (e.a w).toNat
       else orderKey .fp32 (e.a w).toNat ≤ orderKey .fp32 (e.a k).toNat) ∧
      (orderKey .fp32 (e.a k).toNat = orderKey .fp32 (e.a w).toNat → w ≤ k)

/-- NV for a signalling NaN in an active lane. -/
def activeNv (e : Env) : Flags := nv .fp32 (e.activeLanes.map fun l => (e.a l).toNat)

end Sys2Proof.Claim

/-- R73, R217 to R219: `FREDADD` sums by the fixed tree; the others select a lane's value bit for bit, with its index, or the
canonical NaN and 0xFFFFFFFF where every active lane holds a NaN. -/
def Sys2Proof.Claim.ReductionResults : Prop :=
  (∀ x s e s1, Issues (.fredadd x) s e s1 →
    let r := treeSum e.rmode [16, 8, 4, 2, 1] (lanes.map fun l => if e.act.getLsbD l then (e.a l).toNat else 0) 0
    Completes (.fredadd x) s e (lanesHold e s1 (fun _ => w32 r.1) r.2)) ∧
  (∀ p ∈ [(Instr.fredmax, true), (Instr.fredmin, false)], ∀ x s e s1, Issues (p.1 x) s e s1 →
    (∀ w, Selects p.2 e w → Completes (p.1 x) s e (lanesHold e s1 (fun _ => e.a w) (activeNv e))) ∧
    ((∀ l ∈ e.activeLanes, isNanBits .fp32 (e.a l).toNat = true) →
      Completes (p.1 x) s e (lanesHold e s1 (fun _ => 0x7FC00000) (activeNv e)))) ∧
  (∀ p ∈ [(Instr.fredmaxi, true), (Instr.fredmini, false)], ∀ x s e s1, Issues (p.1 x) s e s1 →
    (∀ w, Selects p.2 e w → Completes (p.1 x) s e (e.fixed s1 (e.activeLanes.flatMap fun l =>
      [(regKey x.d.toNat l, e.a w), (regKey (x.d.toNat + 1) l, e.c w)]) (activeNv e))) ∧
    ((∀ l ∈ e.activeLanes, isNanBits .fp32 (e.a l).toNat = true) →
      Completes (p.1 x) s e (e.fixed s1 (e.activeLanes.flatMap fun l =>
        [(regKey x.d.toNat l, 0x7FC00000), (regKey (x.d.toNat + 1) l, 0xFFFFFFFF)]) (activeNv e))) ∧
    (e.act = 0 → Completes (p.1 x) s e (e.fixed s1 [] 0)))

namespace Sys2Proof.Claim

/-- The number that a finite element's bits stand for (R62). -/
def realOf (f : Fmt) (a : Nat) : ℚ :=
  (if sgn f a then -1 else 1) *
    (if mag f a / 2 ^ f.mb = 0 then (mag f a : ℚ) * 2 ^ (f.emin - f.mb)
     else ((2 ^ f.mb + mag f a % 2 ^ f.mb : Nat) : ℚ) * 2 ^ (f.emin - f.mb + (mag f a / 2 ^ f.mb : Nat) - 1))

/-- The number `m * 2 ^ e` with a sign. -/
def exactOf (neg : Bool) (m : Nat) (e : Int) : ℚ := (if neg then -1 else 1) * (m : ℚ) * 2 ^ e

/-- c is no better a result than r for the exact number X in the mode; a tie goes to the even one. -/
def NoBetter (f : Fmt) (rm : RMode) (X : ℚ) (r c : Nat) : Prop :=
  match rm with
  | .rne => |realOf f r - X| ≤ |realOf f c - X| ∧
      (|realOf f r - X| = |realOf f c - X| → realOf f c ≠ realOf f r → mag f r % 2 = 0)
  | .rz => |realOf f r| ≤ |X| ∧ (|realOf f c| ≤ |X| → |realOf f c| ≤ |realOf f r|)
  | .ru => X ≤ realOf f r ∧ (X ≤ realOf f c → realOf f r ≤ realOf f c)
  | .rd => realOf f r ≤ X ∧ (realOf f c ≤ X → realOf f c ≤ realOf f r)

/-- The element's bits are those of a number. -/
def IsNumber (f : Fmt) (a : Nat) : Prop := a < 2 ^ (f.eb + f.mb + 1) ∧ mag f a < infMag f

/-- r is the exact number X rounded once, with its exceptions. -/
def RoundedOnce (f : Fmt) (rm : RMode) (X : ℚ) (r : Nat × Flags) : Prop :=
  ∃ (neg : Bool) (m : Nat) (e : Int), m ≠ 0 ∧ exactOf neg m e = X ∧ r = pack f rm (.fin neg m e false)

end Sys2Proof.Claim

/-- R63, R65: a finite result of rounding an exact number is the number of the format that the mode asks for, and NX is raised
exactly where it differs from the exact number. -/
def Sys2Proof.Claim.RoundsToTheMode : Prop :=
  ∀ f ∈ formats, ∀ (rm : RMode) (neg : Bool) (m : Nat) (e : Int), m ≠ 0 →
    mag f (pack f rm (.fin neg m e false)).1 < infMag f →
    (∀ c, c < 2 ^ (f.eb + f.mb + 1) → mag f c < infMag f →
      NoBetter f rm (exactOf neg m e) (pack f rm (.fin neg m e false)).1 c) ∧
    ((pack f rm (.fin neg m e false)).2.getLsbD 0 = true ↔
      realOf f (pack f rm (.fin neg m e false)).1 ≠ exactOf neg m e)

/-- R63, R203, R204: on numbers, sum, difference, product and the fused forms are the exact value rounded once, where it is not 0. -/
def Sys2Proof.Claim.ArithmeticRoundsOnce : Prop :=
  ∀ f ∈ formats, ∀ (rm : RMode) (a b c : Nat), IsNumber f a → IsNumber f b → IsNumber f c →
    (realOf f a + realOf f b ≠ 0 → RoundedOnce f rm (realOf f a + realOf f b) (faddBits f rm a b)) ∧
    (realOf f a - realOf f b ≠ 0 → RoundedOnce f rm (realOf f a - realOf f b) (fsubBits f rm a b)) ∧
    (realOf f a * realOf f b ≠ 0 → RoundedOnce f rm (realOf f a * realOf f b) (fmulBits f rm a b)) ∧
    (realOf f a * realOf f b + realOf f c ≠ 0 → RoundedOnce f rm (realOf f a * realOf f b + realOf f c) (ffmaBits f rm a b c)) ∧
    (realOf f c - realOf f a * realOf f b ≠ 0 → RoundedOnce f rm (realOf f c - realOf f a * realOf f b) (ffnmaBits f rm a b c))

/-- R67, R210, R212 on FP32 numbers: `FSCL` is the exact A × 2^n rounded once; `FRND` an integer within 1 of A, with NX exactly where it
differs from A; `FRCP` of a number other than 0 is the one that the mode asks for; `FSQRT` of a perfect square and `FEXP2` of an integer
are exact. -/
def Sys2Proof.Claim.FunctionsRoundOnce : Prop :=
  ∀ (rm : RMode) (a : Nat), IsNumber .fp32 a →
    (∀ n : Int, realOf .fp32 a ≠ 0 → RoundedOnce .fp32 rm (realOf .fp32 a * 2 ^ n) (fscl rm a n)) ∧
    (∃ k : Int, realOf .fp32 (frnd rm a).1 = k ∧ |(k : ℚ) - realOf .fp32 a| < 1 ∧
      ((frnd rm a).2.getLsbD 0 = true ↔ (k : ℚ) ≠ realOf .fp32 a) ∧ sgn .fp32 (frnd rm a).1 = sgn .fp32 a) ∧
    (realOf .fp32 a ≠ 0 → mag .fp32 (fnBits 0 rm (w32 a)).1 < infMag .fp32 → ∀ c, IsNumber .fp32 c →
      NoBetter .fp32 rm (1 / realOf .fp32 a) (fnBits 0 rm (w32 a)).1 c) ∧
    (∀ b, IsNumber .fp32 b → sgn .fp32 b = false → realOf .fp32 a = realOf .fp32 b * realOf .fp32 b → realOf .fp32 a ≠ 0 →
      fnBits 2 rm (w32 a) = (b, 0)) ∧
    (∀ n : Int, -149 ≤ n → n ≤ 127 → realOf .fp32 a = n →
      realOf .fp32 (fnBits 3 rm (w32 a)).1 = 2 ^ n ∧ (fnBits 3 rm (w32 a)).2 = 0)

/-- R63, R65, R67, R203, R204, R210, R212: rounding delivers the number that the mode asks for, and the arithmetic on numbers is the exact
value rounded once. -/
def Obligations.RoundingIsCorrect : Prop := RoundsToTheMode ∧ ArithmeticRoundsOnce ∧ FunctionsRoundOnce

/-! ### Control (R163 to R174) -/

namespace Sys2Proof.Claim

/-- The value that a control instruction reads from A for its beam (R163): the lowest live lane's, or the broadcast lane's. -/
def beamLane (e : Env) : Nat :=
  if e.x.bcm = 1 then e.x.bln.toNat
  else if e.x.bcm = 2 ∧ e.act ≠ 0 then e.activeLanes.headD 0
  else ((lanes.filter fun l => e.b.lvm.getLsbD l).headD 0)
def beamA (e : Env) : Word := e.b.rd e.x.a.toNat (beamLane e)
def beamPair (e : Env) : Dword := e.b.rd (e.x.a.toNat + 1) (beamLane e) ++ e.b.rd e.x.a.toNat (beamLane e)

/-- PC + 4 × the offset, in 64 bits (R17). -/
def target (e : Env) (off : Int) : Dword := z64 (e.b.pc.toNat + 4 * off)

/-- The signed offset of a branch's twin, or of `CALL` (R22). -/
def extOffset (x : Ext) : Int := match x.lit with | none => x.b.toInt | some l => l.toInt

/-- A conditional branch: taken where `p` says so of the active lanes and of those with the predicate bit set. -/
def Branches (i : Instr) (off : Int) (p : List Nat → List Nat → Prop) : Prop :=
  ∀ s e s1, Issues i s e s1 →
    let t := e.activeLanes.filter fun l => (e.a l).toNat % 2 = 1
    (p e.activeLanes t → JumpsTo i s e s1 (target e off)) ∧ (¬ p e.activeLanes t → Completes i s e s1)

def anyTaken (_ t : List Nat) : Prop := t ≠ []
def allTaken (act t : List Nat) : Prop := act ≠ [] ∧ t = act
def noneTaken (_ t : List Nat) : Prop := t = []

/-- The link written by `CALL` and `CALLR` is on its way to the D pair of all 32 lanes, and marked pending. -/
def linked (e : Env) (s1 : State) : State :=
  e.pending s1 (writeNames e.g e.x) (lanes.flatMap fun l =>
    [(regKey e.x.d.toNat l, w32 ((e.b.pc.toNat + e.len) % 2 ^ 64 % 2 ^ 32)),
     (regKey (e.x.d.toNat + 1) l, w32 ((e.b.pc.toNat + e.len) % 2 ^ 64 / 2 ^ 32))]) 0 (e.now + 1)

/-- The beam of e is changed by f. -/
def beamNow (e : Env) (s1 : State) (f : Beam → Beam) : State := s1.modBeam e.r f

end Sys2Proof.Claim

/-- R166: `NOP` has no effect besides its issue. -/
def Sys2Proof.Claim.NopHasNoEffect : Prop :=
  (∀ o s e s1, Issues (.nop o) s e s1 → Completes (.nop o) s e s1) ∧ ∀ x s e s1, Issues (.nopX x) s e s1 → Completes (.nopX x) s e s1

/-- R167: which branches are taken, and their targets. -/
def Sys2Proof.Claim.BranchesAreTaken : Prop :=
  (∀ o s e s1, Issues (.bra o) s e s1 → JumpsTo (.bra o) s e s1 (target e o.off.toInt)) ∧
  (∀ x s e s1, Issues (.braX x) s e s1 → JumpsTo (.braX x) s e s1 (target e (extOffset x))) ∧
  (∀ o, Branches (.brany o) o.off.toInt anyTaken) ∧ (∀ x, Branches (.branyX x) (extOffset x) anyTaken) ∧
  (∀ o, Branches (.brall o) o.off.toInt allTaken) ∧ (∀ x, Branches (.brallX x) (extOffset x) allTaken) ∧
  (∀ o, Branches (.brnone o) o.off.toInt noneTaken) ∧ (∀ x, Branches (.brnoneX x) (extOffset x) noneTaken)

/-- R10, R168: calls write the link and go to their target, jumps go to theirs; a register target that is not a multiple of 4 is
`MISALIGN` and nothing is written. -/
def Sys2Proof.Claim.CallsAndJumps : Prop :=
  (∀ x s e s1, Issues (.call x) s e s1 → JumpsTo (.call x) s e (linked e s1) (target e (extOffset x))) ∧
  (∀ x s e s1, Issues (.callr x) s e s1 →
    ((beamPair e).toNat % 4 = 0 → JumpsTo (.callr x) s e (linked e s1) (beamPair e)) ∧
    ((beamPair e).toNat % 4 ≠ 0 → TrapsOwn (.callr x) s e s1 cMISALIGN 0)) ∧
  (∀ i ∈ [Instr.ret, Instr.jmpr], ∀ x s e s1, Issues (i x) s e s1 →
    ((beamPair e).toNat % 4 = 0 → JumpsTo (i x) s e s1 (beamPair e)) ∧
    ((beamPair e).toNat % 4 ≠ 0 → TrapsOwn (i x) s e s1 cMISALIGN 0))

/-- R169: `MASKP` keeps the lanes, live or not, whose A has bit 0 set; `GETM` writes `%exm` to D in all 32 lanes; `SETM` sets it
from A. -/
def Sys2Proof.Claim.MaskInstructions : Prop :=
  (∀ i, (∃ o, i = .maskp o) ∨ (∃ x, i = .maskpX x) → ∀ s e s1, Issues i s e s1 →
    ∃ m : Word, (∀ l, l < 32 → m.getLsbD l = (e.b.exm.getLsbD l && decide ((e.a l).toNat % 2 = 1))) ∧
      Completes i s e (beamNow e s1 fun b => { b with exm := m })) ∧
  (∀ i, (∃ o, i = .getm o) ∨ (∃ x, i = .getmX x) → ∀ s e s1, Issues i s e s1 →
    Completes i s e (e.fixed s1 (lanes.map fun l => (regKey e.x.d.toNat l, e.b.exm)) 0)) ∧
  (∀ i, (∃ o, i = .setm o) ∨ (∃ x, i = .setmX x) → ∀ s e s1, Issues i s e s1 →
    Completes i s e (beamNow e s1 fun b => { b with exm := beamA e }))

/-- R170, R164, R183: `EXIT` clears the live bits of the active lanes and leaves `%exm` and the registers; a handler's beam left
without a live lane ends its handler. -/
def Sys2Proof.Claim.ExitClearsLanes : Prop :=
  ∀ i, (∃ o, i = .exit o) ∨ (∃ x, i = .exitX x) → ∀ s e s1, Issues i s e s1 →
    ∃ t U c, exec i s = .next t ∧ HasBeam t e.r U c ∧ t.mem = s.mem ∧
      c.lvm = e.b.lvm &&& ~~~e.act ∧ c.exm = e.b.exm ∧ (c.lvm = 0 → causeInh c.cause = false) ∧
      (e.b.halt = .run → c.main = e.b.main ∧ c.win = e.b.win ∧ c.fflags = e.b.fflags) ∧
      (e.b.halt = .run → c.lvm ≠ 0 → c.cause = e.b.cause) ∧
      (c.lvm = 0 → causeInh e.b.cause = true → U.handler = none)

/-- R171: `YIELD` leaves the beam yielded, until 8 cycles have passed or the beams that were ready have issued. -/
def Sys2Proof.Claim.YieldYields : Prop :=
  ∀ x s e s1, Issues (.yield x) s e s1 →
    Completes (.yield x) s e (beamNow e s1 fun b => { b with status := .yielded (e.now + 8) (s1.readySiblings e.r e.T.coreId) })

namespace Sys2Proof.Claim

/-- A beam of the team that has not retired, has a live lane and has not arrived at `BAR` (R173, R164). -/
def MissingAtBar (T : Team) (arrived : BitVec 16) : Prop :=
  ∃ k b, T.beams[k]? = some b ∧ b.status ≠ .retired ∧ b.lvm ≠ 0 ∧ arrived.getLsbD k = false

/-- The arrival of R174: token, and the barrier after it. -/
def arriveAt (b : NBar) (n : Nat) : Word × NBar :=
  let exp := if b.cnt = 0 then n else b.exp
  (b.ph, if b.cnt + 1 = exp then ⟨exp, 0, b.ph + 1⟩ else ⟨exp, b.cnt + 1, b.ph⟩)

def barrierOf (T : Team) (k : Nat) : NBar := sget NBar.init T.bars k

/-- The team with barrier k replaced. -/
def withBarrier (T : Team) (k : Nat) (b : NBar) : Team := { T with bars := sset NBar.init T.bars k b }

end Sys2Proof.Claim

/-- R173: `BAR` waits while a beam of the team that is neither retired nor without a live lane has not arrived; the last arrival
takes every arrival back and does not wait. -/
def Sys2Proof.Claim.TeamBarrier : Prop :=
  ∀ i, (∃ o, i = .bar o) ∨ (∃ x, i = .barX x) → ∀ s e s1, Issues i s e s1 → e.r.b < 16 →
    let a := e.T.arrived ||| BitVec.ofNat 16 (2 ^ e.r.b)
    (MissingAtBar e.T a →
      Completes i s e (beamNow e (s1.setTeam e.r.t { e.T with arrived := a }) fun b => { b with status := .bar })) ∧
    (¬ MissingAtBar e.T a → Completes i s e (s1.setTeam e.r.t { e.T with arrived := 0 }))

/-- R174: `ARRIVE` counts an arrival and returns the phase as its token; `BARN` arrives and waits unless its arrival ends the
phase; `WAITB` waits while the barrier's phase is its token. -/
def Sys2Proof.Claim.NamedBarriers : Prop :=
  (∀ x s e s1, Issues (.arrive x) s e s1 →
    let p := arriveAt (barrierOf e.T (x.x10.toNat % 16)) (x.x10.toNat / 16 % 16 + 1)
    Completes (.arrive x) s e (e.pending (s1.setTeam e.r.t (withBarrier e.T (x.x10.toNat % 16) p.2)) (writeNames e.g e.x)
      (lanes.map fun l => (regKey x.d.toNat l, p.1)) 0 (e.now + 1))) ∧
  (∀ x s e s1, Issues (.barn x) s e s1 →
    let k := x.x10.toNat % 16
    let p := arriveAt (barrierOf e.T k) (x.x10.toNat / 16 % 16 + 1)
    let s2 := s1.setTeam e.r.t (withBarrier e.T k p.2)
    (p.2.ph = p.1 → Completes (.barn x) s e (beamNow e s2 fun b => { b with status := .named k p.1 })) ∧
    (p.2.ph ≠ p.1 → Completes (.barn x) s e s2)) ∧
  (∀ x s e s1, Issues (.waitb x) s e s1 →
    let k := x.x10.toNat % 16
    ((barrierOf e.T k).ph = beamA e →
      Completes (.waitb x) s e (beamNow e s1 fun b => { b with status := .named k (beamA e) })) ∧
    ((barrierOf e.T k).ph ≠ beamA e → Completes (.waitb x) s e s1))

/-! ### Team words (R175, R176) -/

namespace Sys2Proof.Claim

/-- Value of A or B in the first active lane. -/
def firstA (e : Env) : Word := e.a (e.activeLanes.headD 0)
def firstB (e : Env) : Word := e.bv (e.activeLanes.headD 0)

/-- A team-word write of this beam is to be applied in cycle t + 3. -/
def twQueued (e : Env) (s1 : State) (word : Nat) (op : TwOp) (pend : Option Nat) : State :=
  s1.modTeam e.r.t fun T => { T with twq := insertTw ⟨e.now + 3, e.r.b, word, op, e.act, e.x.d.toNat, pend⟩ T.twq }

/-- What a team word holds after a write. -/
def twAfter (op : TwOp) (old : Word) : Word :=
  match op with
  | .write v => v
  | .add v => w32 (old.toNat + v.toNat)
  | .cas e v => if old = e then v else old

/-- The queue is in order of cycle, then of beam. -/
def TwOrdered (l : List TwWrite) : Prop :=
  l.Pairwise fun a b => a.due < b.due ∨ (a.due = b.due ∧ a.beam ≤ b.beam)

end Sys2Proof.Claim

/-- R175, R176: `TWRD` gives each active lane the word as it is after this cycle's applications; `TWWR`, `TWADD` and `TWCAS` write in
cycle t + 3, the last two with D pending, and do nothing with no active lane. Each waits while an acquire of its beam has not read its
value (R144). -/
def Sys2Proof.Claim.TeamWordInstructions : Prop :=
  (∀ o s e s1, Issues (.twrd o) s e s1 → s1.acquiring e.r = false →
    Completes (.twrd o) s e (lanesHold e s1 (fun _ => sget 0 e.T.tw o.imm.toNat) 0)) ∧
  (∀ x s e s1, Issues (.twrdX x) s e s1 → s1.acquiring e.r = false →
    Completes (.twrdX x) s e (lanesHold e s1 (fun _ => sget 0 e.T.tw x.immWord.toNat) 0)) ∧
  (∀ o s e s1, Issues (.twwr o) s e s1 → s1.acquiring e.r = false →
    Completes (.twwr o) s e (if e.act = 0 then s1 else twQueued e s1 o.imm.toNat (.write (firstA e)) none)) ∧
  (∀ x s e s1, Issues (.twwrX x) s e s1 → s1.acquiring e.r = false →
    Completes (.twwrX x) s e (if e.act = 0 then s1 else twQueued e s1 x.immWord.toNat (.write (firstA e)) none)) ∧
  (∀ x s e s1, Issues (.twadd x) s e s1 → s1.acquiring e.r = false →
    Completes (.twadd x) s e (if e.act = 0 then s1 else
      twQueued e (e.pending s1 (writeNames e.g e.x) [] 1 (e.now + 4)) (x.x10.toNat % 16) (.add (firstB e)) (some s1.nextId))) ∧
  (∀ x s e s1, Issues (.twcas x) s e s1 → s1.acquiring e.r = false →
    Completes (.twcas x) s e (if e.act = 0 then s1 else
      twQueued e (e.pending s1 (writeNames e.g e.x) [] 1 (e.now + 4)) (x.x10.toNat % 16) (.cas (firstA e) (firstB e))
        (some s1.nextId))) ∧
  (∀ i ∈ [Instr.twrdX, .twwrX, .twadd, .twcas], ∀ x s e s1, Issues (i x) s e s1 → s1.acquiring e.r = true → e.act ≠ 0 →
    Waits (i x) s e s1)

/-- R176: a write takes its place after those of earlier cycles and of lower beams of its own cycle; `TEAM_WORD_APPLY` applies
the first write whose cycle has come as one step, and a `TWADD` or `TWCAS` returns the old value to its active lanes. -/
def Sys2Proof.Claim.TeamWordsApply : Prop :=
  (∀ w l, TwOrdered l → TwOrdered (insertTw w l)) ∧
  (∀ (s : State) (t : Nat) (T : Team) (w : TwWrite) (l : List TwWrite), s.team? t = some T → T.twq = w :: l →
    w.due ≤ s.clock →
    ∃ u U, exec (.teamWordApply t) s = .next u ∧ u.team? t = some U ∧ U.twq = l ∧ u.mem = s.mem ∧
      (∀ k, sget 0 U.tw k = if k = w.word then twAfter w.op (sget 0 T.tw w.word) else sget 0 T.tw k) ∧
      (∀ b id p, w.pend = some id → T.beams[w.beam]? = some b → p ∈ b.pends → p.id = id →
        ∃ c q, U.beams[w.beam]? = some c ∧ q ∈ c.pends ∧ q.id = id ∧ q.wait = p.wait - 1 ∧
          q.vals = p.vals ++ ((lanes.filter fun l => w.mask.getLsbD l).map fun l => (regKey w.d l, sget 0 T.tw w.word))))

/-! ### Special registers (R177 to R180) -/

namespace Sys2Proof.Claim

/-- R179: the value of a special register as lane l of the beam reads it, by its number. -/
def sregRows : List (Nat × (Env → State → Nat → Word)) :=
  let dim (f : Launch → Nat) (e : Env) (s : State) : Nat := (s.gridOf e.T).elim 1 fun g => f g.launch
  [(0x00, fun _ _ l => w32 l),
   (0x01, fun e _ _ => w32 e.r.b),
   (0x02, fun e _ _ => w32 e.T.index),
   (0x03, fun _ _ _ => 0),
   (0x04, fun e s _ => w32 (e.T.index % dim (·.gx) e s)),
   (0x05, fun e s _ => w32 (e.T.index / dim (·.gx) e s % dim (·.gy) e s)),
   (0x06, fun e s _ => w32 (e.T.index / (dim (·.gx) e s * dim (·.gy) e s))),
   (0x07, fun e s _ => w32 (dim (·.gx) e s)),
   (0x08, fun e s _ => w32 (dim (·.gy) e s)),
   (0x09, fun e s _ => w32 (dim (·.gz) e s)),
   (0x0A, fun e _ _ => if e.b.consumer then 1 else 0),
   (0x0B, fun e _ _ => w32 e.T.coreId),
   (0x0C, fun e _ _ => w32 (e.T.coreId / 128)),
   (0x0D, fun _ s _ => w32 s.fab.dev.toNat),
   (0x0E, fun e s _ => w32 ((s.gridOf e.T).elim 0 fun g => g.part)),
   (0x0F, fun e _ l => w32 (sget 0 e.b.tenant l).toNat),
   (0x10, fun e _ _ => e.b.exm),
   (0x11, fun e _ _ => e.b.lvm),
   (0x12, fun e _ _ => w32 e.b.wb.toNat),
   (0x13, fun e _ _ => e.b.pix),
   (0x14, fun e _ _ => e.b.cause),
   (0x15, fun e _ _ => w32 (e.b.epc.toNat % 2 ^ 32)),
   (0x16, fun e _ _ => w32 (e.b.epc.toNat / 2 ^ 32)),
   (0x17, fun e _ _ => w32 e.b.skid.toNat),
   (0x18, fun e _ _ => e.b.tvec),
   (0x19, fun e _ _ => e.b.eexm),
   (0x1A, fun e _ _ => w32 e.b.fflags.toNat),
   (0x1B, fun e _ _ => w32 e.b.rmode.toNat),
   (0x1C, fun e _ _ => w32 e.b.chk.toNat),
   (0x1D, fun e _ _ => w32 e.b.orc.toNat),
   (0x1E, fun e _ _ => w32 e.b.tele.toNat),
   (0x1F, fun e _ _ => e.b.jstat),
   (0x20, fun _ s _ => w32 s.clock),
   (0x21, fun _ s _ => w32 (s.clock / 2 ^ 32)),
   (0x22, fun _ s _ => w32 s.ftime),
   (0x23, fun _ s _ => w32 (s.ftime / 2 ^ 32))]

/-- The first register of a pair that `SRD` may read (R177). -/
def pairRegs : List Nat := [0x02, 0x15, 0x20, 0x22]

/-- R178 to R180: what a beam holds after value v has been written to a register other than `%exm` and `%tenant`. -/
def sregWritten (n : Nat) (v : Word) (b : Beam) : Beam :=
  match n with
  | 0x13 => { b with pix := v }
  | 0x14 => { b with cause := w32 (v.toNat % 2 ^ 16 + v.toNat / 2 ^ 16 % 2 * 2 ^ 16 + b.cause.toNat / 2 ^ 17 % 2 * 2 ^ 17 +
      v.toNat / 2 ^ 18 % 2 * 2 ^ 18) }
  | 0x15 => { b with epc := w64 (b.epc.toNat / 2 ^ 32 * 2 ^ 32 + v.toNat) }
  | 0x16 => { b with epc := w64 (v.toNat * 2 ^ 32 + b.epc.toNat % 2 ^ 32) }
  | 0x18 => if v.toNat % 4 = 0 then { b with tvec := v } else b
  | 0x19 => { b with eexm := v }
  | 0x1A => { b with fflags := BitVec.ofNat 5 v.toNat }
  | 0x1B => if 1 ≤ v.toNat % 8 ∧ v.toNat % 8 ≤ 4 then { b with rmode := BitVec.ofNat 3 v.toNat } else b
  | 0x1C => { b with chk := BitVec.ofNat 1 v.toNat }
  | _ => b

/-- The effect of `SWR` stands among the beam's pending effects, for instructions that issue 4 or more cycles later. -/
def swrPending (e : Env) (s1 : State) (n : Nat) (vs : List (Nat × Word)) : State :=
  s1.modBeam e.r fun b => { b with fix := insertFix ⟨e.now + 4, [], [], 0, some (n, vs)⟩ b.fix }

end Sys2Proof.Claim

/-- R177, R179: `SRD` writes the register's value at the issue cycle into D of each active lane, and with PAIR the two halves of a
64-bit one into D and D + 1. -/
def Sys2Proof.Claim.SpecialRegisterReads : Prop :=
  (∀ r ∈ sregRows, ∀ x s e s1, Issues (.srd x) s e s1 → x.x10.toNat % 64 = r.1 → x.flg.getLsbD 0 = false →
    Completes (.srd x) s e (lanesHold e s1 (r.2 e s1) 0)) ∧
  (∀ r ∈ sregRows, ∀ q ∈ sregRows, ∀ x s e s1, Issues (.srd x) s e s1 → r.1 ∈ pairRegs → q.1 = r.1 + 1 →
    x.x10.toNat % 64 = r.1 → x.flg.getLsbD 0 = true →
    Completes (.srd x) s e (pairsHold e s1 fun l => w64 ((r.2 e s1 l).toNat + 2 ^ 32 * (q.2 e s1 l).toNat)))

/-- R147, R178, R179, R363: `SWR` of `%exm` governs the next instruction; of `%tenant` it needs the tenant-assign right of the grid, taken
at its start (log 47), and sets each active lane's own value; of `%orc` it is ignored, as R147 says (log 73); of any other register the
first active lane's value is stored for instructions 4 or more cycles later; with no active lane nothing is written and no right is needed
(R29). -/
def Sys2Proof.Claim.SpecialRegisterWrites : Prop :=
  ∀ x s e s1, Issues (.swr x) s e s1 →
    let n := x.x10.toNat % 64
    let right := (s1.gridOf e.T).any fun g => g.tar
    (n = 0x0F → right = false → e.act ≠ 0 → TrapsOwn (.swr x) s e s1 cPROT 0) ∧
    (n = 0x0F → right = true → e.act ≠ 0 →
      Completes (.swr x) s e (swrPending e s1 n (e.activeLanes.map fun l => (l, e.a l)))) ∧
    (n = 0x10 → e.act ≠ 0 → Completes (.swr x) s e (beamNow e s1 fun b => { b with exm := firstA e })) ∧
    (n ≠ 0x0F → n ≠ 0x10 → e.act ≠ 0 →
      Completes (.swr x) s e (swrPending e s1 n [(e.activeLanes.headD 0, firstA e)])) ∧
    (e.act = 0 → Completes (.swr x) s e s1)

/-- R178 to R180, R201, R124: when a pending effect lands, its registers are written, a special register takes its value as its map
allows (a write of `%orc` is ignored, R147), and its exceptions are ORed into `%fflags`; the OR of a cycle lands after that cycle's
store. A write of `%tenant` takes away the last-page registers of its lanes. A `REGION` that waits for it may then start. -/
def Sys2Proof.Claim.PendingEffectsLand : Prop :=
  (∀ (b : Beam) (f : Fix) (n : Nat) (v : Word), f.regs = [] → f.flags = 0 → f.sreg = some (n, [(n, v)]) → n ≠ 0x0F →
    b.landOne f = sregWritten n v b) ∧
  (∀ (b : Beam) (f : Fix), f.regs = [] → f.sreg = none → b.landOne f = { b with fflags := b.fflags ||| f.flags }) ∧
  (∀ f g l, f.sreg.isSome = true → g.sreg = none → f.ready = g.ready → insertFix f (g :: l) = f :: g :: l) ∧
  (∀ (s : State) (r : Ref) (T : Team) (b : Beam) (f : Fix) (l : List Fix), HasBeam s r T b → b.fix = f :: l →
    f.ready ≤ s.clock → b.status ≠ .region → (∀ vs, f.sreg ≠ some (0x0F, vs)) →
    exec (.fixedResultLand r.t r.b) s = .next (s.setBeam r { b.landOne f with fix := l })) ∧
  (∀ (s : State) (r : Ref) (T : Team) (b : Beam) (f : Fix) (l : List Fix), HasBeam s r T b → b.fix = f :: l →
    f.ready ≤ s.clock → ∃ t U c, exec (.fixedResultLand r.t r.b) s = .next t ∧ HasBeam t r U c ∧ t.mem = s.mem ∧
      { c with longs := b.longs } = { b.landOne f with fix := l } ∧
      (∀ n k, k < 32 → c.rd n k = ((f.regs.reverse.find? fun p => decide (p.1 = 32 * n + k)).map (·.2)).getD (b.rd n k)) ∧
      (b.status ≠ .region → c.longs = b.longs) ∧
      (∀ vs, f.sreg = some (0x0F, vs) → ∀ x ∈ t.net.tlb, ∀ k, x.place = .lane r k → k ∉ vs.map (·.1)))

/-! ### The window (R88, R90) and macro calls (R91 to R93) -/

namespace Sys2Proof.Claim

/-- Group g of the window, 32 registers from `%wb` + 32 g. -/
def groupOfReg (b : Beam) (n : Nat) : Nat := (n - b.wb.toNat) / 32

/-- The clean groups of the window hold what the main file holds (R88, R90). -/
def WindowCoherent (b : Beam) : Prop :=
  ∀ n l, b.inWin n = true → l < 32 → b.dirty.getLsbD (groupOfReg b n) = false →
    sget 0 b.win (regKey n l) = sget 0 b.main (regKey n l)

/-- The dirty groups, in number. -/
def dirtyCount (b : Beam) : Nat := ((List.range 4).filter fun g => b.dirty.getLsbD g).length

/-- The base opcodes that a macro body may hold (R38): all but the control ones. -/
def bodyMayHold (i : Instr) : Prop := isCoded i = true ∧ numberOf i < 0x40 ∧ ∃ o, i.form = .base (numberOf i) o ∧
  numberOf i ∉ [0x31, 0x32, 0x33, 0x34, 0x35, 0x36, 0x37, 0x38, 0x39]

end Sys2Proof.Claim

namespace Sys2Proof.Claim

/-- A register that a `REGION` copies has an uncorrectable error: of a dirty group in the slot, or of the new window in the file
(R380). -/
def CopiesBadWord (e : Env) (v : Nat) : Prop :=
  ∃ n, (Spot.slot e.r.b n ∈ e.T.bad ∧ e.b.inWin n = true ∧ e.b.dirty.getLsbD (groupOfReg e.b n) = true) ∨
    (Spot.file e.r.b n ∈ e.T.bad ∧ v ≤ n ∧ n < v + 128)

/-- A `REGION` of base v as it waits, from the sub-step it was issued at; `st` is the cycle in which it starts. -/
def regionRun (e : Env) (v : Nat) (st : Option Nat) : LongRun :=
  ⟨e.b.pc, e.now, e.now, .region v (e.b.resume.getD 0) (e.b.resume.getD 0) st⟩

/-- The cycles of a `REGION` from sub-step n on: 8 to set up, 16 for each write-back of a dirty group and for each copy. -/
def regionCycles (b : Beam) (n : Nat) : Nat :=
  8 + 16 * ((List.range 8).filter fun g => decide (n ≤ g ∧ (4 ≤ g ∨ b.dirty.getLsbD g = true))).length

end Sys2Proof.Claim

/-- R90, R380: a `REGION` whose window would pass the budget is `REGBOUND`, and one that copies a register with an uncorrectable error is
fatal; any other makes its beam wait, with its first sub-step in `%pix`, but in a handler (log 57). It starts in the cycle in which no write
to a register of the beam is pending: its own, or that in which the last of them lands. -/
def Sys2Proof.Claim.RegionBegins : Prop :=
  (∀ x s e s1, Issues (.region x) s e s1 →
    let v := x.immWord.toNat
    (v + 127 ≥ e.b.budget → TrapsOwn (.region x) s e s1 cREGBOUND 0) ∧
    (v + 127 < e.b.budget → CopiesBadWord e v → TrapsOwn (.region x) s e s1 cPOISONOWN 0) ∧
    (v + 127 < e.b.budget → ¬ CopiesBadWord e v → (∀ l ∈ e.b.longs, ∀ w f n, l.op ≠ .region w f n none) →
      Completes (.region x) s e (beamNow e s1 fun b => { b with
        status := .region
        longs := b.longs ++ [regionRun e v (if b.pends = [] ∧ ∀ f ∈ b.fix, f.names = [] then some e.now else none)]
        pix := stepPix b (e.b.resume.getD 0) }))) ∧
  ∀ (b : Beam) (now : Nat), b.status = .region →
    (¬ (b.pends = [] ∧ ∀ f ∈ b.fix, f.names = []) → b.regionBegin now = b) ∧
    (b.pends = [] → (∀ f ∈ b.fix, f.names = []) → ∀ (l : LongRun) (v f n : Nat), b.longs = [⟨l.pc, l.at_, l.since, .region v f n none⟩] →
      (b.regionBegin now).longs = [⟨l.pc, l.at_, l.since, .region v f n (some now)⟩])

/-- R88, R90: when a `REGION` completes, the window stands at its new base, every group is clean and the beam is ready. The dirty
groups from its first sub-step on have been written back, and the groups from that sub-step's copy on copied. Issued at sub-step 0,
it leaves every register the value it had and every group in agreement with the main file, if the clean groups agreed before. -/
def Sys2Proof.Claim.RegionCompletes : Prop :=
  ∀ (s : State) (r : Ref) (T : Team) (b : Beam) (pc : Dword) (at_ since v f n st : Nat), HasBeam s r T b → b.status = .region →
    b.longs = [⟨pc, at_, since, .region v f n (some st)⟩] → st + regionCycles b n ≤ s.clock → v + 128 ≤ 1024 →
    ∃ t U c, exec (.regionComplete r.t r.b) s = .next t ∧ HasBeam t r U c ∧ t.mem = s.mem ∧
      c.wb.toNat = v ∧ c.dirty = 0 ∧ c.status = .ready ∧ c.longs = [] ∧
      (∀ k l, l < 32 → sget 0 c.main (regKey k l) =
        if b.inWin k = true ∧ f ≤ groupOfReg b k ∧ b.dirty.getLsbD (groupOfReg b k) = true then sget 0 b.win (regKey k l)
        else sget 0 b.main (regKey k l)) ∧
      (∀ i l, i < 128 → l < 32 → sget 0 c.win (regKey (v + i) l) =
        if f ≤ 4 + i / 32 then sget 0 c.main (regKey (v + i) l) else sget 0 b.win (regKey (b.wb.toNat + i) l)) ∧
      (f = 0 → WindowCoherent b → WindowCoherent c ∧ ∀ k l, l < 32 → c.rd k l = b.rd k l)

/-- R88, R90: a `REGION` issued with no write pending completes 8 cycles after its issue and 16 for each dirty group and each of the
four copies: the window then stands at its base, with every register as it was. -/
def Sys2Proof.Claim.RegionRuns : Prop :=
  ∀ x s e s1, Issues (.region x) s e s1 → x.immWord.toNat + 127 < e.b.budget → e.b.budget ≤ 1024 → ¬ CopiesBadWord e x.immWord.toNat →
    e.b.resume = none → e.b.longs = [] → e.b.pends = [] → e.b.fix = [] → e.b.mcall = none → e.b.halt = .run → WindowCoherent e.b →
    ∃ t u U c, exec (.region x) s = .next t ∧
      exec (.regionComplete e.r.t e.r.b) { t with clock := e.now + 8 + 16 * (dirtyCount e.b + 4) } = .next u ∧ HasBeam u e.r U c ∧
      c.wb.toNat = x.immWord.toNat ∧ c.dirty = 0 ∧ c.status = .ready ∧ c.longs = [] ∧ c.pc = e.b.pc + BitVec.ofNat 64 e.len ∧
      WindowCoherent c ∧ u.mem = s.mem ∧ ∀ k l, l < 32 → c.rd k l = e.b.rd k l

/-- R88: writing a register keeps the window's clean groups in agreement with the main file, and the register then reads as
written while every other keeps its value. -/
def Sys2Proof.Claim.RegisterWrites : Prop :=
  ∀ (b : Beam) (n l : Nat) (v : Word), l < 32 →
    (WindowCoherent b → WindowCoherent (b.wr n l v)) ∧ (b.wr n l v).rd n l = v ∧
    ∀ k j, j < 32 → (k, j) ≠ (n, l) → (b.wr n l v).rd k j = b.rd k j

/-- R27, R92, R93: an `MCALL` with a parameter at or above the budget is `REGBOUND`, one of an undefined entry `ILLEGAL`; any other
starts the entry's body at its first word, or where `ERET` resumes it at that word, when every fixed-latency write of the beam is
ready. Resumed past the last word it completes (log 59). -/
def Sys2Proof.Claim.MacroCalls : Prop :=
  (∀ x s e s1, Issues (.mcall x) s e s1 →
    let lit := (x.lit.getD 0).toNat
    let params := [x.d.toNat, x.a.toNat, x.b.toNat, x.c.toNat, x.p.toNat, lit % 1024, lit / 2 ^ 10 % 1024, lit / 2 ^ 20 % 1024]
    let entry := lit / 2 ^ 30 % 128
    let len := sget 0 (s1.core e.T.coreId).lens entry
    ((∃ p ∈ params, e.b.budget ≤ p) → TrapsOwn (.mcall x) s e s1 cREGBOUND 0) ∧
    ((∀ p ∈ params, p < e.b.budget) → len = 0 → TrapsOwn (.mcall x) s e s1 cILLEGAL 0) ∧
    ((∀ p ∈ params, p < e.b.budget) → len ≠ 0 → e.b.resume.getD 0 < len →
      JumpsTo (.mcall x) s e (beamNow e s1 fun b => { b with
        mcall := some ⟨entry, e.b.resume.getD 0, len, params, e.b.pc + BitVec.ofNat 64 e.len⟩
        issueAt := Max.max b.issueAt b.lastReady }) e.b.pc) ∧
    ((∀ p ∈ params, p < e.b.budget) → len ≠ 0 → len ≤ e.b.resume.getD 0 → Completes (.mcall x) s e s1))

/-- R38, R92, R380: a body word that is a base instruction which a body may hold is executed as that instruction of the beam; any
other word traps `ILLEGAL`; an uncorrectable error in the word is fatal. A word that issues completes: the integer and
floating-point ones give each active lane the value of their tables. -/
def Sys2Proof.Claim.MacroBodyWords : Prop :=
  ∀ (s : State) (r : Ref) (T : Team) (b : Beam) (c : CallCtx), HasBeam s r T b → b.mcall = some c →
    let at_ := 32 * c.entry + c.word
    let w := sget 0 (s.core T.coreId).store at_
    let s0 := { s with cur := some r }
    (at_ ∉ (s.core T.coreId).bad →
      (∀ i, decodeWords [w] = some i → bodyMayHold i → exec (.macroBodyWord r.t r.b) s = exec i s0) ∧
      (∀ i e s1, decodeWords [w] = some i → bodyMayHold i → Issues i s0 e s1 → ∃ t, exec (.macroBodyWord r.t r.b) s = .next t) ∧
      (∀ p ∈ integerB3, ∀ o e s1, decodeWords [w] = some (p.1 o) → Issues (p.1 o) s0 e s1 →
        exec (.macroBodyWord r.t r.b) s =
          .next (Issue.finish e (lanesHold e s1 (fun l => p.2.2 (e.a l) (e.bv l) (e.dOld l)) 0) none)) ∧
      (∀ p ∈ integerBI, ∀ o e s1, decodeWords [w] = some (p.1 o) → Issues (p.1 o) s0 e s1 →
        exec (.macroBodyWord r.t r.b) s =
          .next (Issue.finish e (lanesHold e s1 (fun l => p.2.2 (e.a l) (e.bv l) (e.dOld l)) 0) none)) ∧
      (∀ p ∈ floatBase, ∀ o e s1, decodeWords [w] = some (p.1 o) → Issues (p.1 o) s0 e s1 →
        let f := fun l => p.2.2 e.rmode (e.a l).toNat (e.bv l).toNat (e.dOld l).toNat
        exec (.macroBodyWord r.t r.b) s =
          .next (Issue.finish e (lanesHold e s1 (fun l => w32 (f l).1) (e.activeLanes.foldl (fun m l => m ||| (f l).2) 0)) none)) ∧
      ((∀ i, decodeWords [w] = some i → ¬ bodyMayHold i) →
        exec (.macroBodyWord r.t r.b) s = Issue.badWord cILLEGAL s0)) ∧
    (at_ ∈ (s.core T.coreId).bad → exec (.macroBodyWord r.t r.b) s = Issue.badWord cPOISONOWN s0)

/-! ### Issue (R7, R15, R22, R26 to R32, R82 to R87, R107) -/

namespace Sys2Proof.Claim

/-- The latency of R83 by opcode number: rows of (first, last, L). -/
def latencyRows : List (Nat × Nat × Nat) :=
  [(0x2F, 0x2F, 3), (0x01, 0x1B, 4), (0x38, 0x38, 4), (0x3C, 0x3E, 4), (0x04D, 0x04D, 4), (0x082, 0x083, 4),
   (0x085, 0x08D, 4), (0x09C, 0x0A1, 4), (0x1C, 0x2C, 6), (0x080, 0x081, 6), (0x084, 0x084, 6), (0x092, 0x095, 6),
   (0x100, 0x108, 6), (0x10F, 0x118, 6), (0x09B, 0x09B, 8), (0x3A, 0x3B, 12), (0x096, 0x099, 12), (0x119, 0x11D, 12),
   (0x109, 0x10E, 14)]

end Sys2Proof.Claim

namespace Sys2Proof.Claim

/-- An access of the beam, or of its core's way to a home slice, is not over: a packet, a long instruction, a stamped store that has not
come back, or what R237 has a fence wait for (R135, R140, R149, R159). -/
def AccessesLeft (s1 : State) (e : Env) : Prop :=
  (∃ p ∈ s1.net.packets, p.src = e.r ∨ p.core = e.T.coreId) ∨ e.b.longs ≠ [] ∨ s1.quietBeam e.r e.b = false ∨
    ∃ g ∈ s1.work.groups, ∃ q ∈ g.2.queue, q.src = some e.r

/-- COUNT would pass 1,024 with what the instruction emits: at most 5 packets for a lane, or those latched where it resumes (R147). -/
def CountPasses (s1 : State) (e : Env) : Prop :=
  ∃ n, (n ≤ 160 ∨ e.b.latched ≠ none ∨ e.b.trapped ≠ none) ∧ 1024 < e.b.orc.toNat + s1.reserved e.r + n

/-- A rule holds an instruction of this opcode before issue, as the scoreboard does: team words while an acquire is under way (R144);
memory, scratchpad and context instructions also while the operand log is full (R372), accesses are left or COUNT would be passed; a
matrix instruction with its quadrant's two entries occupied (R244); `QFREE` while reads of the beam are left (R154, R263); jobs while the
beam reads scratchpad or 64 jobs are open (R272); Prism instructions while a `PALD` runs or scratchpad is read (R321, R149). -/
def HeldBefore (n : Nat) (s1 : State) (e : Env) : Prop :=
  ((n = 0x2F ∨ n = 0x30 ∨ n = 0x04B ∨ n = 0x04C) ∧ s1.acquiring e.r = true) ∨
  ((n = 0x2D ∨ n = 0x2E ∨ (0x180 ≤ n ∧ n ≤ 0x18E) ∨ (0x220 ≤ n ∧ n ≤ 0x229)) ∧
    (s1.memHeld e = true ∨ AccessesLeft s1 e ∨ CountPasses s1 e)) ∨
  ((0x1C0 ≤ n ∧ n ≤ 0x1C6) ∧ (s1.quadFull e.T.coreId (e.r.b % 4) = true ∨ s1.acquiring e.r = true)) ∨
  (n = 0x1E4 ∧ (s1.acquiring e.r = true ∨ e.b.longs ≠ [] ∨ ∃ m ∈ (s1.core e.T.coreId).entries, m.src = e.r)) ∨
  (((0x1E5 ≤ n ∧ n ≤ 0x1E7) ∨ n = 0x22A) ∧ (s1.acquiring e.r = true ∨ e.b.scrReading = true ∨ s1.jobsFull e.r.t = true)) ∨
  ((0x240 ≤ n ∧ n ≤ 0x245) ∧ (e.T.paldRuns = true ∨ s1.acquiring e.r = true ∨ e.b.scrReading = true))

/-- A failed check at issue traps; an instruction that another rule holds meanwhile is not attempted, and waits. -/
def FailsAtIssue (i : Instr) (s : State) (e : Env) (s1 : State) (cause : Nat) : Prop :=
  TrapsOwn i s e s1 cause 0 ∨ (HeldBefore (numberOf i) s1 e ∧ Waits i s e s1)

end Sys2Proof.Claim

/-- R27, R39, R84, R86, R107, R380: an instruction that the beam may not issue, or that names a pending register, waits a cycle; one
that names a register at or above the budget is `REGBOUND`; then, with `%chk` = 1, a fixed-latency hazard is `STALLSHORT`; then a
register read with an uncorrectable error is fatal. The checks are made in this order, whichever instruction it is. -/
def Sys2Proof.Claim.ChecksAtIssue : Prop :=
  ∀ i s e s1, Attempts i s e s1 →
    (¬ e.ready s1 → Waits i s e s1) ∧
    (e.ready s1 → ¬ e.inBudget → FailsAtIssue i s e s1 cREGBOUND) ∧
    (e.ready s1 → e.inBudget → ¬ e.noHazard → FailsAtIssue i s e s1 cSTALLSHORT) ∧
    (e.ready s1 → e.inBudget → e.noHazard → ¬ e.sound → FailsAtIssue i s e s1 cPOISONOWN)

/-- R107, R182, R164, R359, R404, R390: when a beam may issue. A handler's beam waits until no sibling skids (log 39), and a restored team
until the operand log entries that its restore had to replay are replayed. -/
def Sys2Proof.Claim.WhenABeamMayIssue : Prop :=
  ∀ (s : State) (T : Team) (b : Beam) (k : Nat),
    s.mayIssue T b k = true ↔
      ((∃ c, T.life = .resident c) ∧ T.stopped = false ∧ s.sys.d3hot = false ∧
        s.regs.gang.closed.getLsbD ((s.gridOf T).elim 0 fun g => g.part) = false ∧
        (T.handler = some k → ∀ c ∈ T.beams, ∀ n m, c.halt ≠ .skidding n m) ∧ (∀ i ∈ T.owed, ∀ g ∈ s.net.log, g.id ≠ i) ∧
        b.status = .ready ∧ b.ptrap = none ∧ b.lvm ≠ 0 ∧ b.issueAt ≤ s.clock ∧
        (b.halt = .run ∨ ∃ n m, b.halt = .skidding n m ∧ (n ≠ 0 ∨ s.clock ≤ m)))

/-- R7, R82, R92: after an instruction the beam's PC is at the next sequential address or the address it went to, the next issues
no earlier than 1 + STALL + 4n cycles later, and nothing else of the beam, its team or the machine changes; in a macro body the
next body word follows and the PC stays, until the last word, after which the beam goes on behind the call. -/
def Obligations.IssueMovesTheBeamOn : Prop :=
  ∀ (e : Env) (s : State) (T : Team) (b : Beam) (pc : Option Dword), HasBeam s e.r T b → b.halt = .run →
    let next := e.now + 1 + e.x.st.toNat + 4 * e.far
    ∃ c, Issue.finish e s pc = s.setBeam e.r c ∧ c.lastIssue = some e.now ∧ c.halt = .run ∧
      (e.b.mcall = none → c = { b with
        pc := pc.getD (b.pc + BitVec.ofNat 64 e.len), issueAt := Max.max b.issueAt next, lastIssue := some e.now, latched := none
        trapped := if causeInh e.b.cause then b.trapped else none
        waitPc := e.b.pc, resume := if e.n = 0x050 then b.resume else none }) ∧
      (∀ m, e.b.mcall = some m → c.rd = b.rd ∧ c.exm = b.exm ∧ c.lvm = b.lvm ∧ c.fix = b.fix ∧ c.pends = b.pends) ∧
      (∀ m, e.b.mcall = some m → m.word + 1 < m.last →
        c.mcall = some { m with word := m.word + 1 } ∧ c.pc = b.pc ∧ c.issueAt = Max.max b.issueAt next) ∧
      (∀ m, e.b.mcall = some m → m.last ≤ m.word + 1 →
        c.mcall = none ∧ c.pc = m.next ∧ c.issueAt = Max.max (Max.max b.issueAt next) b.lastReady)

/-- R83: the fixed latencies by opcode; every other opcode has none. A result is ready L + 4n cycles after its issue. -/
def Sys2Proof.Claim.FixedLatencies : Prop :=
  (∀ n l, fixedLat n = some l ↔ ∃ r ∈ latencyRows, r.1 ≤ n ∧ n ≤ r.2.1 ∧ l = r.2.2) ∧
  ∀ (e : Env) (s : State) (T : Team) (b : Beam) vals fl, HasBeam s e.r T b →
    e.fixed s vals fl = s.setBeam e.r { b with
      fix := insertFix ⟨e.now + 4 * e.far + (fixedLat e.n).getD 0, vals, writeNames e.g e.x, fl, none⟩ b.fix }

/-- R84, R135: a variable-latency result that has arrived whole, whose earliest cycle has come and before which no acknowledgement
is to be delivered, is written, after the fixed-latency results that are due, and its mark is cleared. -/
def Sys2Proof.Claim.VariableResultsAreWritten : Prop :=
  ∀ (s : State) (r : Ref) (T : Team) (b : Beam) (k : Nat) (p : Pend), HasBeam s r T b → b.pends[k]? = some p →
    p.wait = 0 → p.ready ≤ s.clock → (∀ a ∈ s.net.acks, a.id ∉ p.after) →
    ∃ t U c, exec (.variableResultWrite r.t r.b k) s = .next t ∧ HasBeam t r U c ∧ t.mem = s.mem ∧
      c.pends = b.pends.filter (fun q => q.id ≠ p.id) ∧ c.pc = b.pc ∧ c.exm = b.exm ∧ c.lvm = b.lvm ∧
      c.rd = ((b.land s.clock).wrAll p.vals).rd

/-- R14 to R16, R22, R32: a base word stands for its twin with absolute registers: window index w names v(`%wb` + w), or a parameter
where a macro body names one of 120 to 127; a literal or imm7 is its immediate. -/
def Sys2Proof.Claim.BaseWordsStandForTheirTwins : Prop :=
  (∀ (b : Beam) (w : BitVec 7), b.mcall = none → (b.winReg w).toNat = (b.wb.toNat + w.toNat) % 1024) ∧
  (∀ (b : Beam) (w : BitVec 7) (c : CallCtx), b.mcall = some c → w.toNat < 120 →
    (b.winReg w).toNat = (b.wb.toNat + w.toNat) % 1024) ∧
  (∀ (b : Beam) (w : BitVec 7) (c : CallCtx), b.mcall = some c → 120 ≤ w.toNat →
    (b.winReg w).toNat = c.params.getD (w.toNat - 120) 0 % 1024) ∧
  (∀ (b : Beam) (op : Nat) (o : B3), let x := b.baseExt op (.b3 o)
    x.st = o.st ∧ x.d = b.winReg o.d ∧ x.a = b.winReg o.a ∧ (o.lit = none → x.b = b.winReg o.b ∧ x.immb = false) ∧
      (∀ l, o.lit = some l → x.immb = true ∧ x.immWord = w32 (l.toNat % 2 ^ 32) ∧ x.immDword = l)) ∧
  (∀ (b : Beam) (op : Nat) (o : BI), let x := b.baseExt op (.bi o)
    x.st = o.st ∧ x.d = b.winReg o.d ∧ x.a = b.winReg o.a ∧ x.immb = true ∧
      x.immWord = if op = 0x10 ∨ op = 0x14 then z32 o.imm.toInt else w32 o.imm.toNat)

/-- R28 to R30: the active lanes, and the lane from which each source is read under a broadcast. -/
def Sys2Proof.Claim.OperandRules : Prop :=
  (∀ (b : Beam) (x : Ext) (l : Nat), l < 32 →
    (activeMask b x).getLsbD l = (b.exm.getLsbD l && b.lvm.getLsbD l &&
      (!x.pe || (decide ((b.rd x.p.toNat l).toNat % 2 = 1) != x.pn)))) ∧
  (∀ (e : Env) (l : Nat), e.x.bcm = 0 →
    e.a l = e.b.rd e.x.a.toNat l ∧ (e.x.immb = false → e.bv l = e.b.rd e.x.b.toNat l) ∧ e.c l = e.b.rd e.x.c.toNat l) ∧
  (∀ (e : Env) (l : Nat), e.x.immb = true → e.bv l = e.x.immWord) ∧
  (∀ (e : Env) (l : Nat), e.x.bcm = 1 →
    e.a l = e.b.rd e.x.a.toNat (if e.x.bcs = 0 then e.x.bln.toNat else l) ∧
    (e.x.immb = false → e.bv l = e.b.rd e.x.b.toNat (if e.x.bcs = 1 then e.x.bln.toNat else l)) ∧
    e.c l = e.b.rd e.x.c.toNat (if e.x.bcs = 2 then e.x.bln.toNat else l)) ∧
  (∀ (e : Env) (l : Nat), e.x.bcm = 2 → e.act ≠ 0 → e.x.bcs = 0 →
    e.a l = e.b.rd e.x.a.toNat (e.activeLanes.headD 0))

/-! ### Traps and return (R93, R180 to R183, R379 to R383) -/

/-- R181: `TRAP` raises SOFT with the next instruction's address, `BRK` raises BREAK with its own, both with their code, whatever the
masks hold; it has taken its issue cycle (R82); where the beam has a handler and is not in it, `%epc` and ARG of `%cause` hold them
afterwards. -/
def Obligations.TrapAndBreak : Prop :=
  (∀ x s e s1, Issues (.trap x) s e s1 → e.b.mcall = none →
    exec (.trap x) s = .next ((Issue.issued s1 e.r e.next).takeTrap e.r cSOFT (x.x10.toNat % 256) (e.b.pc + BitVec.ofNat 64 e.len) none 0 0)) ∧
  (∀ x s e s1, Issues (.brk x) s e s1 → e.b.mcall = none →
    exec (.brk x) s = .next ((Issue.issued s1 e.r e.next).takeTrap e.r cBREAK (x.x10.toNat % 256) e.b.pc none 0 0)) ∧
  ∀ (s : State) (r : Ref) (T : Team) (b : Beam) (cause arg : Nat) (epc : Dword), HasBeam s r T b → b.halt = .run →
    cause = cSOFT ∨ cause = cBREAK → arg < 256 → causeInh (b.land s.clock).cause = false → (b.land s.clock).tvec ≠ 0 →
    ∃ U c, HasBeam (s.takeTrap r cause arg epc none 0 0) r U c ∧ c.epc = epc ∧ c.cause.toNat % 256 = cause ∧
      c.cause.toNat / 256 % 256 = arg

/-- R82, R93, R108, R182: where a trap of an instruction is reported: at the instruction's address, and inside a macro body at the
`MCALL` with the body word as progress. A running beam's instruction that traps has issued: nothing issues from the beam before its
next cycle, nor from its quadrant in this one; a halted beam stops before it. -/
def Sys2Proof.Claim.WhereATrapIsReported : Prop :=
  ∀ (s : State) (r : Ref) (T : Team) (b : Beam) (cause arg info : Nat) (pix : Option Nat), HasBeam s r T b →
    (b.mcall = none → Issue.trap s r cause arg none pix info = s.takeTrap r cause arg b.pc pix 0 info) ∧
    (∀ c, b.mcall = some c → Issue.trap s r cause arg none pix info = s.takeTrap r cause arg b.pc (some c.word) 0 info) ∧
    ∀ next, (b.halt = .run → Issue.issued s r next = s.setBeam r { b with
        issueAt := Max.max b.issueAt next, lastIssue := some s.clock, latched := none
        trapped := if ∃ l, b.latched = some l ∧ l.pc = b.pc then b.latched else b.trapped }) ∧
      (b.halt ≠ .run → Issue.issued s r next = s)

/-- R87, R180, R182: trap entry of a handleable cause outside a handler, with a handler set: what the beam saves and where it goes;
every other beam of the team is halted. Results that are due have landed; the handler's first instruction issues when every
fixed-latency result is ready, and after a `REGION` or `PACAP` of the beam that has issued (log 79). -/
def Sys2Proof.Claim.TrapEntry : Prop :=
  ∀ (s : State) (r : Ref) (T : Team) (b : Beam) (cause arg : Nat) (epc : Dword) (pix : Option Nat) (peer info : Nat),
    HasBeam s r T b → b.halt = .run → cause ≠ cREMOTEFATAL → cause < 256 → arg < 256 →
    let d := b.land s.clock
    causeInh d.cause = false → d.tvec ≠ 0 →
    ∃ U c, HasBeam (s.takeTrap r cause arg epc pix peer info) r U c ∧ U.handler = some r.b ∧
      c.cause.toNat = cause + 256 * arg + 2 ^ 16 * (d.cause.toNat / 2 ^ 16 % 2) + 2 ^ 17 + (if pix.isSome then 2 ^ 18 else 0) ∧
      (∀ n, pix = some n → c.pix = w32 n) ∧ c.epc = epc ∧ c.eexm = b.exm ∧ c.exm = b.lvm ∧ c.lvm = b.lvm ∧ c.skid = 0 ∧
      c.pc.toNat = b.entry.toNat / 2 ^ 32 * 2 ^ 32 + d.tvec.toNat ∧ c.mcall = none ∧ c.resume = none ∧ c.fix = d.fix ∧
      (∀ f ∈ c.fix, f.names ≠ [] → f.ready ≤ c.issueAt) ∧ c.issueAt ≥ b.issueAt ∧
      (b.status ≠ .region → (∀ d p, b.status ≠ .pacap d p) → c.status = .ready) ∧
      (∀ n l, c.rd n l = d.rd n l) ∧
      (∀ k q, k ≠ r.b → T.beams[k]? = some q → U.beams[k]? = some (q.halted s.clock)) ∧
      (s.takeTrap r cause arg epc pix peer info).mem = s.mem

/-- R182, R383: a fatal cause, a cause inside a handler, or no handler, stops the team: its grid ends, and none of its teams issues
again. -/
def Sys2Proof.Claim.FatalStops : Prop :=
  ∀ (s : State) (r : Ref) (T : Team) (b : Beam) (g : Grid) (cause arg : Nat) (epc : Dword) (pix : Option Nat) (peer info : Nat),
    HasBeam s r T b → b.halt = .run → s.grid? T.grid = some g →
    cause = cREMOTEFATAL ∨ cause = cPOISONOWN ∨ causeInh (b.land s.clock).cause = true ∨ (b.land s.clock).tvec = 0 →
    let t := s.takeTrap r cause arg epc pix peer info
    (∃ h, t.grid? T.grid = some h ∧ h.fatal = true) ∧
      (∀ k U, (k, U) ∈ t.teams → U.grid = T.grid → U.stopped = true) ∧ t.mem = s.mem

/-- R182, R381: a sibling that may issue skids for at most three instructions, each counted in `%skid`, and stops after the third with
the address of its next instruction; after a long one, at that one's next sub-step boundary. An instruction of the trap's own cycle
counts nothing. -/
def Sys2Proof.Claim.SkidsAreCounted : Prop :=
  (∀ (b : Beam) (now : Nat), b.status = .ready → b.halt = .run → b.lastLong = none →
    (b.halted now).halt = .skidding 3 now ∧ (b.halted now).skid = 0) ∧
  (∀ (b : Beam) (left since now : Nat), b.halt = .skidding left since → since < now → 1 < left → b.lastLong = none →
    b.status ≠ .region →
    (b.skidOne now).halt = .skidding (left - 1) since ∧ (b.skidOne now).skid = b.skid + 1) ∧
  (∀ (b : Beam) (left since now : Nat), b.halt = .skidding left since → since < now → b.lastLong ≠ none →
    (b.skidOne now).halt = .skidding 0 now ∧ (b.skidOne now).skid = b.skid + 1) ∧
  (∀ (b : Beam) (since now : Nat), b.halt = .skidding 1 since → since < now → b.longs = [] → b.mcall = none → b.status = .ready →
    (b.skidOne now).halt = .stopped ∧ (b.skidOne now).skid = b.skid + 1 ∧ (b.skidOne now).epc = b.pc ∧
      ∀ t, (b.skidOne now).canGo t = false) ∧
  (∀ (b : Beam) (left since now : Nat), b.halt = .skidding left since → now ≤ since →
    b.skidOne now = { b with halt := .skidding (if b.lastLong = none then 3 else 0) since })

/-- R183: `ERET` outside a handler is `ILLEGAL`; to an address that is not a multiple of 4 it is `MISALIGN`; otherwise the beam goes
on at `%epc` with `%exm` as it was saved, out of the handler, at the sub-step `%pix` where PIXV says so, and its siblings resume. -/
def Sys2Proof.Claim.TrapReturn : Prop :=
  ∀ x s e s1, Issues (.eret x) s e s1 →
    (causeInh e.b.cause = false → TrapsOwn (.eret x) s e s1 cILLEGAL 0) ∧
    (causeInh e.b.cause = true → e.b.epc.toNat % 4 ≠ 0 → TrapsOwn (.eret x) s e s1 cMISALIGN 0) ∧
    (causeInh e.b.cause = true → e.b.epc.toNat % 4 = 0 → e.b.mcall = none →
      ∃ t U c, exec (.eret x) s = .next t ∧ HasBeam t e.r U c ∧ t.mem = s.mem ∧ U.handler = none ∧
        c.pc = e.b.epc ∧ c.lvm = e.b.lvm ∧
        (e.b.halt = .run → c.exm = e.b.eexm ∧ c.fix = e.b.fix ∧ (∀ f ∈ c.fix, f.names ≠ [] → f.ready ≤ c.issueAt) ∧
          (∀ n l, c.rd n l = e.b.rd n l)) ∧
        (e.b.halt = .run → c.cause.toNat = e.b.cause.toNat % 2 ^ 17 ∧
          c.resume = if causePixv e.b.cause then some e.b.pix.toNat else none) ∧
        (∀ k d, k ≠ e.r.b → U.beams[k]? = some d → d.halt = .run))

/-- R381, R182: the halt stops a sibling that issues no more, from the cycle after the trap's, where it stands: nothing is left to it, it
waits, or what it would issue is held; that it stops at once then is the model's choice (log 60). `%epc` is the address of its next
instruction; a watch or a held context operation is withdrawn, and its instruction is the next again. In the trap's own cycle a sibling is
not stopped. -/
def Sys2Proof.Claim.SiblingsStop : Prop :=
  ∀ (s : State) (r : Ref) (T : Team) (b : Beam) (left since : Nat), HasBeam s r T b → b.halt = .skidding left since →
    (since < s.clock → left = 0 ∨ b.status ≠ .ready ∨ (b.issueAt ≤ s.clock ∧ s.ready T b r.b = false) →
      b.longs = [] → b.mcall = none → (∃ c, T.life = .resident c) →
      ∃ t U c, exec (.siblingStop r.t r.b) s = .next t ∧ HasBeam t r U c ∧ t.mem = s.mem ∧ c.halt = .stopped ∧ c.epc = c.pc ∧
        c.fix = b.fix ∧ c.skid = b.skid ∧ (∀ n l, c.rd n l = b.rd n l) ∧
        (b.status = .ready → c.pc = b.pc) ∧
        (∀ p m d l w, b.status = .watch p m d l w → c.pc = b.waitPc ∧ c.status = .ready)) ∧
    (s.clock ≤ since → exec (.siblingStop r.t r.b) s = .next s)

/-! ### Memory instructions (R119, R126, R129, R220 to R242) -/

namespace Sys2Proof.Claim

/-- Bytes of an element (R221). -/
def elemSize (x : Ext) : Nat := 2 ^ (x.x10.toNat % 8)
/-- Registers of a group that holds one element. -/
def groupRegs (size : Nat) : Nat := (size + 3) / 4
/-- A group's value, low register first, cut to the element. -/
def elemOf (size : Nat) (f : Nat → Word) : Nat :=
  ((List.range (groupRegs size)).map fun i => (f i).toNat * 2 ^ (32 * i)).sum % 2 ^ (8 * size)
/-- The effective address of a lane (R222). -/
def address (e : Env) (l : Nat) : Nat := ((e.aPair l).toNat + e.x.immDword.toNat) % 2 ^ 64
/-- The scratchpad offset of a lane (R126, R222). -/
def offsetOf (e : Env) (l : Nat) : Nat := ((e.a l).toNat + e.x.immWord.toNat) % 2 ^ 32

/-- The accesses of the given lanes: address, size, C group, old D group, destination. -/
def accesses (e : Env) (addr : Nat → Nat) (ls : List Nat) : List Acc :=
  ls.map fun l => ⟨l, addr l, elemSize e.x, elemOf (elemSize e.x) fun i => e.cReg i l,
    elemOf (elemSize e.x) fun i => e.b.rd (e.x.d.toNat + i) l, e.x.d.toNat⟩

/-- An element of `size` bytes extended to its group, by its sign or by zeros (R221). -/
def loaded (d l size v : Nat) (sx : Bool) : List (Nat × Word) :=
  let x : Int := if sx && decide (2 ^ (8 * size - 1) ≤ v) then (v : Int) - 2 ^ (8 * size) else v
  (List.range (groupRegs size)).map fun i => (regKey (d + i) l, z32 (x / 2 ^ (32 * i)))

/-- R233: the new value of an atomic on `size` bytes. -/
def atomic (op size old c cmp : Nat) : Nat :=
  let m := 2 ^ (8 * size)
  let sg (v : Nat) : Int := if 2 * v ≥ m then (v : Int) - m else v
  match op with
  | 0 => (old + c) % m
  | 1 => if sg c < sg old then c else old
  | 2 => if sg old < sg c then c else old
  | 3 => Min.min old c
  | 4 => Max.max old c
  | 5 => Nat.land old c
  | 6 => Nat.lor old c
  | 7 => Nat.xor old c
  | 8 => c
  | 9 => if old = cmp then c else old
  | 10 => (faddBits .fp32 .rne old c).1
  | 11 => (pickNumber .fp32 false old c).1
  | 12 => (pickNumber .fp32 true old c).1
  | 13 => (onHalves (faddBits .fp16 .rne) old c).1
  | 14 => (onHalves (faddBits .bf16 .rne) old c).1
  | _ => old

/-- Packets that carry the given elements: one kind of operation of one beam, each packet on one line, no two packets on the same
line of one target (R225). -/
def Carries (e : Env) (op : POp) (pend : Option Nat) (sx : Bool) (ok : List (Acc × Leaf × Nat)) (ps : List Packet) : Prop :=
  (ps.flatMap (·.elems)).Perm
      (ok.map fun o => ⟨o.1.lane, o.1.va, o.2.2, o.1.size, o.1.val, o.1.cmp, o.1.reg, sx⟩) ∧
    (∀ p ∈ ps, p.op = op ∧ p.src = e.r ∧ p.pend = pend ∧ p.sentAt = e.now ∧ p.pc = e.b.pc ∧ p.job = none ∧
      ∀ y ∈ p.elems, ∀ z ∈ p.elems, y.pa / 128 = z.pa / 128) ∧
    ps.Pairwise fun p q => ∀ y ∈ p.elems, ∀ z ∈ q.elems, y.pa / 128 = z.pa / 128 → p.target = q.target →
      p.kind ≠ q.kind ∨ p.tenant ≠ q.tenant

/-- A global instruction: its kind of access, the operation its packets carry, its atomic operation, whether it returns a value and
whether it is counted in `%orc`. -/
structure GlobalRow where
  form : Ext → Instr
  kind : AKind
  op   : Ext → POp
  atom : Ext → Option Nat
  ret  : Bool
  cnt  : Bool

def atomCode (x : Ext) : Nat := x.x10.toNat / 64 % 16

def globalRows : List GlobalRow :=
  [⟨.ld, .load, fun _ => .load, fun _ => none, true, false⟩,
   ⟨.st, .store, fun _ => .store, fun _ => none, false, true⟩,
   ⟨.atom, .atomic, fun x => .atom (atomCode x), fun x => some (atomCode x), true, true⟩,
   ⟨.red, .atomic, fun x => .red (atomCode x), fun x => some (atomCode x), false, true⟩,
   ⟨.lda, .load, fun _ => .load, fun _ => none, true, false⟩,
   ⟨.stl, .store, fun _ => .store, fun _ => none, false, true⟩]

/-- The scope cap lets the instruction's scope through, unclamped (R238); the others have no scope. -/
def ScopePasses (i : Instr) (e : Env) (s1 : State) : Prop :=
  (∀ x, i ≠ .lda x ∧ i ≠ .stl x ∧ i ≠ .fence x) ∨ s1.capScope e.T (e.x.x10.toNat / 8 % 8) = some (e.x.x10.toNat / 8 % 8, false)

/-- No long instruction of which the beam holds the latched operands resumes here (R226). -/
def Fresh (e : Env) : Prop :=
  e.b.resume = none ∨ ∀ l, e.b.latched = some l ∨ e.b.trapped = some l → l.pc ≠ e.b.pc

/-- The access of an instruction's active lanes. -/
def activeAccesses (e : Env) : List Acc := accesses e (address e) e.activeLanes

/-- Nothing holds a global instruction before it issues: room in the operand log and no acquire under way (R144, R372). -/
def MemoryFree (e : Env) (s1 : State) : Prop := s1.memHeld e = false

/-- What the instruction adds to COUNT fits beside the packets that count already and those that the beam has still to emit (R147). -/
def CountFits (e : Env) (s1 : State) (n : Nat) : Prop := e.b.orc.toNat + s1.reserved e.r + n ≤ 1024

/-- No access reaches what a key-value lane in the operand log may reach (R140, R372). -/
def PastKv (e : Env) (s1 : State) (ok : List (Acc × Leaf × Nat)) : Prop := ∀ o ∈ ok, s1.kvBars e.r o.1.lane o.1.va = false

/-- No lane waits for a collimated store of its own on the line (R159). -/
def NoOwnMcst (e : Env) (s1 : State) (ok : List (Acc × Leaf × Nat)) : Prop :=
  ∀ o ∈ ok, s1.mcstOut e.r e.now o.1.lane (o.2.2 / 128) = false

/-- No line of this device's memory that a load reads has an uncorrectable error (R380). -/
def ReadsGoodLines (s1 : State) (ok : List (Acc × Leaf × Nat)) : Prop :=
  ∀ o ∈ ok, o.2.1.kind ≠ .peer → o.2.1.kind ≠ .host → o.2.2 / 128 ∉ s1.net.badLines

/-- Every copy of the translation of an address, and the page table, give the leaf (R124, R365); its page is not being migrated. -/
def MapsTo (s1 : State) (e : Env) (va : Nat) (l : Leaf) : Prop :=
  s1.moving (s1.funcOf e.T) va = false ∧ s1.walk (s1.funcOf e.T) (s1.partOf e.T) va = .ok l (l.pa va) ∧
    ∀ t ∈ s1.net.tlb, t.func = s1.funcOf e.T → t.page = va / 2 ^ pageBits t.leaf.level → t.leaf = l

/-- A lane's access passes every check of R224 and R407 on its page, and neither joins an entry of the operand log, nor reaches what a
key-value lane in the log may reach (R372, R140), nor waits for an upgrade (R375) or for a collimated store of its own (R159). -/
def GoesThrough (g : GlobalRow) (x : Ext) (s1 : State) (e : Env) (a : Acc) (l : Leaf) : Prop :=
  a.va % a.size = 0 ∧ a.va / 2 ^ 56 = 0 ∧ MapsTo s1 e a.va l ∧
    s1.forbids g.kind (s1.funcOf e.T) l (l.pa a.va) (sget 0 e.b.tenant a.lane) = false ∧
    (∀ i, s1.targetOf (s1.funcOf e.T) a l = some i →
      s1.reachable i = true ∧ ∀ op, g.atom x = some op → s1.capable i op a.size = true) ∧
    s1.joins e.r a.lane a.va = false ∧ s1.kvBars e.r a.lane a.va = false ∧ (g.kind.writes = true → l.rd = false) ∧
    (g.kind = .load → (l.kind = .multicast → s1.mcstOut e.r e.now a.lane (l.pa a.va / 128) = false) ∧
      (l.kind ≠ .peer → l.kind ≠ .host → l.pa a.va / 128 ∉ s1.net.badLines))

/-- The lanes whose line the core's read-only cache holds answer at once (R123, R228). -/
def servedByCache (g : GlobalRow) (x : Ext) (s1 : State) (e : Env) (o : Acc × Leaf × Nat) : Bool :=
  decide (g.form x = .ld x) && x.flg.getLsbD 0 && s1.roHit e.T.coreId o

/-- What an instruction leaves when its packets are on their way: at most eight are sent at once and counted; more go in groups of
eight, from the sub-step at which the instruction resumes (R226). -/
def UnderWay (g : GlobalRow) (x : Ext) (s1 : State) (e : Env) (ok : List (Acc × Leaf × Nat)) (id : Nat) (t : State) : Prop :=
  ∃ U c ps, HasBeam t e.r U c ∧ t.mem = s1.mem ∧
    Carries e (g.op x) (if g.ret then some id else none) (g.kind == .load && x.x10.getLsbD 6)
      (ok.filter fun o => !servedByCache g x s1 e o) ps ∧
    (ps.length ≤ 8 → t.net.packets = s1.net.packets ++ ps ∧ c.longs = e.b.longs ∧
      c.orc.toNat = e.b.orc.toNat + (if g.cnt then ps.length else 0)) ∧
    (8 < ps.length → t.net.packets = s1.net.packets ∧ c.orc = e.b.orc ∧
      ∃ gs, gs.flatten = ps ∧ (∀ q ∈ gs, q.length ≤ 8) ∧ (∀ k, k + 1 < gs.length → (gs.getD k []).length = 8) ∧
        c.longs = e.b.longs ++ [⟨e.b.pc, e.now, e.now, .coal id gs [] (e.b.resume.getD 0)⟩]) ∧
    (g.ret = true → ∃ p ∈ c.pends, p.id = id ∧ p.names = writeNames e.g e.x ∧
      (ps.length ≤ 8 → p.wait = ps.length) ∧
      p.vals = s1.roServed e.T.coreId (x.x10.getLsbD 6) (ok.filter (servedByCache g x s1 e))) ∧
    (g.ret = false → c.pends = e.b.pends)

end Sys2Proof.Claim

/-- R224 to R226, R228, R229, R234, R29: a global load, store, atomic or reduction, plain, acquiring or releasing. With no active lane
it does nothing. A lane that fails a check traps before any lane performs anything. Where the checks let every lane go through, the
instruction completes: its packets carry every active lane's element but those that the read-only cache serves at issue (log 53); a returning
instruction has D pending until every packet has answered, and a counted one raises `%orc` by its packets. -/
def Sys2Proof.Claim.GlobalAccesses : Prop :=
  ∀ g ∈ globalRows, ∀ x s e s1, Issues (g.form x) s e s1 → Fresh e →
    (e.act = 0 → Completes (g.form x) s e s1) ∧
    (e.act ≠ 0 → MemoryFree e s1 → ScopePasses (g.form x) e s1 → ∀ c n,
      s1.memChecks e.r e.T e.b g.kind (g.atom x) (activeAccesses e) = .trap c n → TrapsOwn (g.form x) s e s1 c n) ∧
    (e.act ≠ 0 → MemoryFree e s1 → ScopePasses (g.form x) e s1 → ∀ ok s2,
      s1.memChecks e.r e.T e.b g.kind (g.atom x) (activeAccesses e) = .go ok [] s2 → rdLanes g.kind ok = [] →
      (g.kind = .load → NoOwnMcst e s1 ok ∧ ReadsGoodLines s1 ok) → PastKv e s1 ok →
      (x.flg.getLsbD 0 = true → ∀ o ∈ ok, s2.roHit e.T.coreId o = false) → CountFits e s1 ok.length → ok.length ≤ 8 →
      ∃ t U c ps, exec (g.form x) s = .next t ∧ HasBeam t e.r U c ∧ t.mem = s.mem ∧
        t.net.packets = s.net.packets ++ ps ∧
        Carries e (g.op x) (if g.ret then some s2.nextId else none)
          (g.kind == .load && x.x10.getLsbD 6) ok ps ∧
        c.orc.toNat = e.b.orc.toNat + (if g.cnt then ps.length else 0) ∧
        (g.ret = true → ∃ p ∈ c.pends, p.id = s2.nextId ∧ p.names = writeNames e.g e.x ∧ p.wait = ps.length) ∧
        (g.ret = false → c.pends = e.b.pends)) ∧
    (e.act ≠ 0 → MemoryFree e s1 → ScopePasses (g.form x) e s1 → ∀ leaf : Nat → Leaf,
      (∀ a ∈ activeAccesses e, GoesThrough g x s1 e a (leaf a.lane)) → CountFits e s1 e.activeLanes.length → e.b.halt = .run →
      ∃ t, exec (g.form x) s = .next t ∧
        UnderWay g x s1 e ((activeAccesses e).map fun a => (a, leaf a.lane, (leaf a.lane).pa a.va)) s1.nextId t)

/-- R119, R224: the checks on the lanes' accesses are made in order: alignment, then bits [63:56]; the trap reports the first
lane that fails. -/
def Sys2Proof.Claim.AccessChecks : Prop :=
  ∀ (s : State) (r : Ref) (T : Team) (b : Beam) (k : AKind) (op : Option Nat) (m l : List Acc) (a : Acc),
    ((∀ c ∈ m, c.va % c.size = 0) → a.va % a.size ≠ 0 → s.memChecks r T b k op (m ++ a :: l) = .trap cMISALIGN a.va) ∧
    ((∀ c ∈ m ++ a :: l, c.va % c.size = 0) → (∀ c ∈ m, c.va / 2 ^ 56 = 0) → a.va / 2 ^ 56 ≠ 0 →
      s.memChecks r T b k op (m ++ a :: l) = .trap cMEMFAULT a.va)

/-- R120, R243, R367, R364, R426: which accesses a page forbids to a function, whatever else holds: another tenant's page, a write
without W, a collimated store outside a multicast page, a plain store or atomic to a multicast page, an atomic or watch of a host
page, a watch of a peer page, and a VF's access of the PF's own registers through a host page. -/
def Sys2Proof.Claim.PagesForbid : Prop :=
  ∀ (s : State) (k : AKind) (f : Nat) (l : Leaf) (pa : Nat) (tenant : BitVec 16),
    s.forbids k f l pa tenant = true ↔
      l.tenant ≠ tenant ∨ (k ∈ [.store, .atomic, .mcst] ∧ l.w = false) ∨
      (k = .mcst ∧ l.kind ≠ .multicast) ∨ (k ∈ [.store, .atomic] ∧ l.kind = .multicast) ∨
      (k = .mcst ∧ l.kind = .multicast ∧ (s.controlGroup pa).isSome = true) ∨
      (k ∈ [.atomic, .watch] ∧ l.kind = .host) ∨ (k = .watch ∧ l.kind = .peer) ∨
      (l.kind = .host ∧ s.inBar pa = true ∧ f ≠ 0)

/-- R238: an acquire, release or fence whose scope passes the cap is clamped to it, with the sticky SCAP bit set, or traps SCOPECAP
where the policy says so. -/
def Sys2Proof.Claim.ScopeCap : Prop :=
  (∀ (s : State) (T : Team) (g : Grid) (sc : Nat), s.gridOf T = some g →
    let cap := if g.cap = 1 then 2 else if g.cap = 2 then 3 else 4
    s.capScope T sc = if sc ≤ cap then some (sc, false) else if g.trap then none else some (cap, true)) ∧
  (∀ i, (∃ x, i = .lda x) ∨ (∃ x, i = .stl x) → ∀ s e s1, Issues i s e s1 → e.act ≠ 0 →
    s1.capScope e.T (e.x.x10.toNat / 8 % 8) = none → TrapsOwn i s e s1 cSCOPECAP 0) ∧
  (∀ x s e s1, Issues (.fence x) s e s1 → s1.capScope e.T (x.x10.toNat / 8 % 8) = none →
    TrapsOwn (.fence x) s e s1 cSCOPECAP 0)

namespace Sys2Proof.Claim

/-- The read-only cache of a core is empty (R123, R237, R240). -/
def roEmptied (s : State) (core : Nat) : State :=
  { s with net := { s.net with roCache := s.net.roCache.filter fun l => decide (l.core ≠ core) } }

end Sys2Proof.Claim

/-- R142, R145, R237, R123, R372: a fence waits while the core's operand log is full or holds an entry of the beam; one of lane scope
does nothing else; one of a wider scope waits until the beam's accesses are performed and acknowledged; at DV scope or wider it
empties the core's read-only cache. A clamped scope sets SCAP (R238). -/
def Sys2Proof.Claim.Fences : Prop :=
  ∀ x s e s1, Issues (.fence x) s e s1 → ∀ sc clamped, s1.capScope e.T (x.x10.toNat / 8 % 8) = some (sc, clamped) →
    let s2 := if clamped then beamNow e s1 fun b => { b with cause := b.cause ||| 0x10000 } else s1
    let logged := s1.logFull e.T.coreId = true ∨ ∃ g ∈ s1.net.log, g.of e.r = true
    (logged → Waits (.fence x) s e s1) ∧
    (¬ logged → sc = 0 → Completes (.fence x) s e s2) ∧
    (sc ≠ 0 → s1.quietBeam e.r e.b = false ∨ s1.acquiring e.r = true → Waits (.fence x) s e s1) ∧
    (¬ logged → sc ≠ 0 → s1.quietBeam e.r e.b = true → s1.acquiring e.r = false →
      Completes (.fence x) s e (if 2 ≤ sc then roEmptied s2 e.T.coreId else s2))

/-- R239, R240, R372: `CINV` empties the core's read-only cache, at once and again when it completes 4 cycles later; a prefetch changes
no register, no memory and no count, whatever its lanes are, and never traps. Both wait while the operand log is full. -/
def Sys2Proof.Claim.CacheInstructions : Prop :=
  (∀ x s e s1, Issues (.cinv x) s e s1 →
    (s1.logFull e.T.coreId = true → Waits (.cinv x) s e s1) ∧
    (s1.logFull e.T.coreId = false →
      Completes (.cinv x) s e (roEmptied (s1.setCore e.T.coreId { s1.core e.T.coreId with
        cinv := ((s1.core e.T.coreId).cinv.filter fun c => decide (e.now < c)) ++ [e.now + 4] }) e.T.coreId))) ∧
  (∀ (s : State) (core line : Nat) (l : RoLine), s.roFind core line = some l →
    l.core = core ∧ l.line = line ∧ ∀ c ∈ (s.core core).cinv, c ≤ s.clock → c ≤ l.at_) ∧
  (∀ x s e s1, Issues (.prf x) s e s1 → Fresh e → e.act = 0 → Completes (.prf x) s e s1) ∧
  (∀ x s e s1, Issues (.prf x) s e s1 → e.act ≠ 0 → MemoryFree e s1 → e.b.halt = .run →
    ∃ t U c, exec (.prf x) s = .next t ∧ HasBeam t e.r U c ∧ t.mem = s.mem ∧ t.hostMem = s.hostMem ∧ c.main = e.b.main ∧
      c.win = e.b.win ∧ c.pends = e.b.pends ∧ c.fix = e.b.fix ∧ c.orc = e.b.orc ∧ c.exm = e.b.exm ∧ c.lvm = e.b.lvm ∧
      (e.b.mcall = none → c.pc = e.b.pc + BitVec.ofNat 64 e.len))

/-- R242: an `MCST` whose active lanes lie in pages of one group, with its Collimator reachable, sends its packets there; lanes of two
groups are `PROT`. -/
def Sys2Proof.Claim.CollimatedStores : Prop :=
  ∀ x s e s1, Issues (.mcst x) s e s1 → Fresh e →
    (e.act = 0 → Completes (.mcst x) s e s1) ∧
    (e.act ≠ 0 → MemoryFree e s1 → ∀ ok s2,
      s1.memChecks e.r e.T e.b .mcst none (activeAccesses e) = .go ok [] s2 → ok ≠ [] →
      let group (o : Acc × Leaf × Nat) := s1.groupOf (s1.funcOf e.T) o.2.1
      ((∃ o ∈ ok, ∃ p ∈ ok, ∃ a b, group o = some a ∧ group p = some b ∧ a ≠ b) → TrapsOwn (.mcst x) s e s1 cPROT 0) ∧
      (∀ n, (∀ o ∈ ok, group o = some n) → s1.collDead n = false → rdLanes .mcst ok = [] → PastKv e s1 ok →
        CountFits e s1 ok.length → ok.length ≤ 8 →
        ∃ t U c ps, exec (.mcst x) s = .next t ∧ HasBeam t e.r U c ∧ t.mem = s.mem ∧
          t.net.packets = s.net.packets ++ ps ∧ Carries e (.mcst (some n)) none false ok ps ∧
          c.orc.toNat = e.b.orc.toNat + ps.length ∧ c.pends = e.b.pends))

/-- R241: `WAITM` sends a watch of the lowest live lane's element and the beam sleeps, with D pending and the expected value from C;
the limit is 2^L cycles, or none where L is 31. -/
def Sys2Proof.Claim.WatchesBegin : Prop :=
  ∀ x s e s1, Issues (.waitm x) s e s1 → MemoryFree e s1 →
    let l := (lanes.filter fun l => e.b.lvm.getLsbD l).headD 0
    let lim := x.x10.toNat / 8 % 32
    ∀ acc, acc = (⟨l, address e l, elemSize x, elemOf (elemSize x) fun i => e.cReg i l, 0, x.d.toNat⟩ : Acc) →
    (∀ c n, s1.memChecks e.r e.T e.b .watch none [acc] = .trap c n → TrapsOwn (.waitm x) s e s1 c n) ∧
    (∀ ok s2, s1.memChecks e.r e.T e.b .watch none [acc] = .go ok [] s2 → NoOwnMcst e s1 ok → PastKv e s1 ok → e.b.halt = .run →
      ∃ t U c ps, exec (.waitm x) s = .next t ∧ HasBeam t e.r U c ∧ t.mem = s.mem ∧
        t.net.packets = s.net.packets ++ ps ∧ Carries e .watch (some s2.nextId) false ok ps ∧
        c.status = .watch s2.nextId e.act (if lim < 31 then some (e.now + 2 ^ lim) else none) x.d.toNat (elemSize x) ∧
        (∃ p ∈ c.pends, p.id = s2.nextId ∧ p.names = writeNames e.g e.x) ∧ c.orc = e.b.orc)

/-! ### Scratchpad (R126, R129, R230 to R235) -/

namespace Sys2Proof.Claim

/-- The accesses of a scratchpad instruction in its linear form. -/
def linear (e : Env) : List Acc := accesses e (offsetOf e) e.activeLanes

/-- The accesses of `LDSW` and `STSW`: words at A + 4 × imm7. -/
def words (e : Env) : List Acc :=
  e.activeLanes.map fun l => ⟨l, ((e.a l).toNat + 4 * e.x.immWord.toNat) % 2 ^ 32, 4, (e.dOld l).toNat, 0, e.x.d.toNat⟩

/-- Row and column of lane l in a tile form (R232), and the byte offset of an element (R129). -/
def tileCell (e : Env) (l : Nat) : Nat × Nat :=
  let a := (e.a (e.activeLanes.headD 0)).toNat
  if e.x.flg.getLsbD 3 then (a % 65536 + l, a / 65536) else (a % 65536, l)
def tileOffset (t : TileSlot) (c : Nat × Nat) : Nat := 4 * (t.base / 4 + 32 * c.1 + (c.2 + c.1) % 32)
def tileSlot (e : Env) : TileSlot := sget TileSlot.init e.T.tiles (e.x.x10.toNat / 128 % 4)
def tileAccesses (e : Env) : List Acc :=
  e.activeLanes.map fun l => ⟨l, tileOffset (tileSlot e) (tileCell e l), 4, elemOf (elemSize e.x) fun i => e.cReg i l, 0, e.x.d.toNat⟩
/-- Every active lane's element lies in the declared tile. -/
def InTile (e : Env) : Prop :=
  ∀ l ∈ e.activeLanes, (tileCell e l).1 < (tileSlot e).rows ∧ (tileCell e l).2 < 32

/-- The team's scratchpad bytes (R125). -/
def scratchSize (s1 : State) (e : Env) : Nat := (s1.gridOf e.T).elim 0 fun g => 16384 * (g.launch.pool.toNat % 256)

/-- No access passes the scratchpad's end, and each is aligned. -/
def InScratch (s1 : State) (e : Env) (l : List Acc) : Prop := ∀ a ∈ l, a.va % a.size = 0 ∧ a.va + a.size ≤ scratchSize s1 e

/-- What a lane's access finds in the team's scratchpad. -/
def found (e : Env) (a : Acc) : Nat := e.T.scratch.readNat a.va a.size

/-- The quadrant's port takes the accesses: the cycle by which it has performed them, and the state after (R128). -/
def portOf (e : Env) (s1 : State) (l : List Acc) : Nat × State := s1.portTake e.r e.T.coreId (portCycles l)

/-- D is pending with the values that the lanes find, from the cycle in which the port has performed the access. -/
def scratchLoaded (e : Env) (s1 : State) (sx : Bool) (l : List Acc) : State :=
  e.pending (portOf e s1 l).2 (writeNames e.g e.x) (l.flatMap fun a => loaded a.reg a.lane a.size (found e a) sx) 0 (portOf e s1 l).1

/-- No rule holds a scratchpad access before issue: the operand log has room (R372), no acquire of the beam is under way (R144), and no
earlier long instruction of it has scratchpad left to read (R149). -/
def ScratchFree (e : Env) (s1 : State) : Prop :=
  s1.logFull e.T.coreId = false ∧ s1.acquiring e.r = false ∧ e.b.scrReading = false

/-- An access reads a word of the scratchpad with an uncorrectable error (R380). -/
def ReadsBadWord (e : Env) (l : List Acc) : Prop :=
  ∃ a ∈ l, ∃ w, Spot.scratch w ∈ e.T.bad ∧ a.va < 4 * w + 4 ∧ 4 * w < a.va + a.size

/-- The distinct words of accesses in a bank (R128). -/
def bankWords (l : List Acc) (bank : Nat) : List Nat :=
  (l.flatMap fun a => (List.range ((a.size + 3) / 4)).map fun i => a.va / 4 + i).dedup.filter fun w => decide (w % 32 = bank)

/-- A byte of the scratchpad after the stores of a list, in order: the last access that covers it counts. -/
def storedByte (m : Memory) (l : List Acc) (a : Nat) : Byte :=
  match l.reverse.find? fun c => decide (c.va ≤ a) && decide (a < c.va + c.size) with
  | some c => BitVec.ofNat 8 (c.val / 2 ^ (8 * (a - c.va)))
  | none => m.read a

/-- The scratchpad instructions that load, and those that store, with the accesses of a form. -/
inductive ScrForm where
  | linear
  | tile

def scrList (f : ScrForm) (e : Env) : List Acc := match f with | .linear => linear e | .tile => tileAccesses e
def scrFormOk (f : ScrForm) (e : Env) : Prop := match f with | .linear => True | .tile => InTile e

/-- A load gives D what its accesses find; a word with an uncorrectable error is fatal. -/
def ScratchLoads (i : Instr) (s : State) (e : Env) (s1 : State) (sx : Bool) (l : List Acc) : Prop :=
  (¬ ReadsBadWord e l → Completes i s e (if e.act = 0 then s1 else scratchLoaded e s1 sx l)) ∧
  (ReadsBadWord e l → TrapsOwn i s e s1 cPOISONOWN 0)

/-- A store changes exactly the bytes that its accesses cover, and nothing but the scratchpad and the beam's progress. -/
def ScratchStores (i : Instr) (s : State) (e : Env) (s1 : State) (l : List Acc) : Prop :=
  ∃ m, (∀ a, Memory.read m a = storedByte e.T.scratch l a) ∧
    Completes i s e (if e.act = 0 then s1 else (portOf e s1 l).2.modTeam e.r.t fun T => { T with scratch := m })

/-- A scratchpad instruction waits where a rule holds it; with no active lane it does nothing (R29). -/
def ScratchHeld (i : Instr) (s : State) (e : Env) (s1 : State) : Prop :=
  (e.act = 0 → Completes i s e s1) ∧ (e.act ≠ 0 → ¬ ScratchFree e s1 → Waits i s e s1)

/-- The trap of a scratchpad access: `MISALIGN` before `PROT` (R126). -/
def ScratchTraps (i : Instr) (s : State) (e : Env) (s1 : State) (l : List Acc) : Prop :=
  ((∃ a ∈ l, a.va % a.size ≠ 0) → TrapsOwn i s e s1 cMISALIGN 0) ∧
  ((∀ a ∈ l, a.va % a.size = 0) → (∃ a ∈ l, scratchSize s1 e < a.va + a.size) → TrapsOwn i s e s1 cPROT 0)

/-- What the lanes' atomics leave in the scratchpad and find there, in ascending lane order (R235). -/
def atomicsRun (op : Nat) : Memory → List Acc → Memory × List Nat
  | m, [] => (m, [])
  | m, a :: r =>
    let old := m.readNat a.va a.size
    let p := atomicsRun op (m.writeNat a.va a.size (atomic op a.size old a.val a.cmp)) r
    (p.1, old :: p.2)

end Sys2Proof.Claim

/-- R126, R128, R129, R144, R149, R221, R230, R232, R372, R380: scratchpad loads give D what the team's scratchpad holds, and stores change
exactly the bytes of the active lanes' elements, the highest lane's where they overlap; linear, by tile, and the word forms with and
without their twins. A misaligned element, one beyond the scratchpad, or one outside the declared tile traps. An access occupies its
quadrant's port for one cycle for each distinct word of the fullest bank; it acts in its issue cycle, and counts as performed at the end of
its port time (log 64). -/
def Sys2Proof.Claim.ScratchpadAccesses : Prop :=
  (∀ i, (∃ x, i = .ldsw x) ∨ (∃ x, i = .ldswX x) ∨ (∃ x, i = .stsw x) ∨ (∃ x, i = .stswX x) →
    ∀ s e s1, Issues i s e s1 → ScratchHeld i s e s1) ∧
  (∀ i, (∃ x, i = .lds x) ∨ (∃ x, i = .sts x) → ∀ s e s1, Issues i s e s1 →
    (e.x.flg.getLsbD 2 = true → InTile e) → ScratchHeld i s e s1) ∧
  (∀ (l : List Acc) (n : Nat), 1 ≤ n →
    (portCycles l ≤ n ↔ ∀ k, k < 32 → (bankWords l k).length ≤ n) ∧ 1 ≤ portCycles l) ∧
  (∀ (s : State) (r : Ref) (core n : Nat), s.wakeEnd core = none →
    (s.portTake r core n).1 = Max.max s.clock (sget 0 (s.core core).ports (r.b % 4)) + n) ∧
  (∀ x s e s1, Issues (.lds x) s e s1 → ScratchFree e s1 →
    ∀ f, (x.flg.getLsbD 2 = true ↔ f = ScrForm.tile) →
      (scrFormOk f e → InScratch s1 e (scrList f e) → ScratchLoads (.lds x) s e s1 (x.x10.getLsbD 6) (scrList f e)) ∧
      (e.act ≠ 0 → scrFormOk f e → ScratchTraps (.lds x) s e s1 (scrList f e)) ∧
      (e.act ≠ 0 → ¬ scrFormOk f e → TrapsOwn (.lds x) s e s1 cPROT 0)) ∧
  (∀ x s e s1, Issues (.sts x) s e s1 → ScratchFree e s1 →
    ∀ f, (x.flg.getLsbD 2 = true ↔ f = ScrForm.tile) →
      (scrFormOk f e → InScratch s1 e (scrList f e) → ScratchStores (.sts x) s e s1 (scrList f e)) ∧
      (e.act ≠ 0 → scrFormOk f e → ScratchTraps (.sts x) s e s1 (scrList f e)) ∧
      (e.act ≠ 0 → ¬ scrFormOk f e → TrapsOwn (.sts x) s e s1 cPROT 0)) ∧
  (∀ i, (∃ o, i = .ldsw o) ∨ (∃ x, i = .ldswX x) → ∀ s e s1, Issues i s e s1 → ScratchFree e s1 →
    (InScratch s1 e (words e) → ScratchLoads i s e s1 false (words e)) ∧ (e.act ≠ 0 → ScratchTraps i s e s1 (words e))) ∧
  (∀ i, (∃ o, i = .stsw o) ∨ (∃ x, i = .stswX x) → ∀ s e s1, Issues i s e s1 → ScratchFree e s1 →
    (InScratch s1 e (words e) → ScratchStores i s e s1 (words e)) ∧ (e.act ≠ 0 → ScratchTraps i s e s1 (words e)))

/-- R233, R235: `ATOMS` applies its lanes in ascending order, each as one step, and returns what each lane found. -/
def Sys2Proof.Claim.ScratchpadAtomics : Prop :=
  ∀ x s e s1, Issues (.atoms x) s e s1 → ScratchHeld (.atoms x) s e s1 ∧
    (e.act ≠ 0 → ScratchFree e s1 → ScratchTraps (.atoms x) s e s1 (linear e)) ∧
    (e.act ≠ 0 → ScratchFree e s1 → InScratch s1 e (linear e) → ReadsBadWord e (linear e) → TrapsOwn (.atoms x) s e s1 cPOISONOWN 0) ∧
    (e.act ≠ 0 → ScratchFree e s1 → InScratch s1 e (linear e) → ¬ ReadsBadWord e (linear e) →
      let p := atomicsRun (atomCode x) e.T.scratch (linear e)
      Completes (.atoms x) s e (e.pending ((portOf e s1 (linear e)).2.modTeam e.r.t fun T => { T with scratch := p.1 }) (writeNames e.g e.x)
        (((linear e).zip p.2).flatMap fun q => loaded q.1.reg q.1.lane q.1.size q.2 false) 0 (portOf e s1 (linear e)).1))

/-- R231, R372: `TILE` declares a slot for accesses that issue 4 cycles later, or clears it; a base that is no multiple of 128 or a row
count above 512 is `ILLEGAL`, a tile beyond the scratchpad `PROT`; it waits while the operand log is full. -/
def Sys2Proof.Claim.TilesAreDeclared : Prop :=
  (∀ x s e s1, Issues (.tile x) s e s1 → s1.logFull e.T.coreId = true → Waits (.tile x) s e s1) ∧
  ∀ x s e s1, Issues (.tile x) s e s1 → s1.logFull e.T.coreId = false →
    let base := (e.a ((lanes.filter fun l => e.b.lvm.getLsbD l).headD 0)).toNat
    let rows := x.immWord.toNat
    (base % 128 ≠ 0 ∨ 512 < rows → TrapsOwn (.tile x) s e s1 cILLEGAL 0) ∧
    (base % 128 = 0 → rows ≤ 512 → scratchSize s1 e < base + 128 * rows → TrapsOwn (.tile x) s e s1 cPROT 0) ∧
    (base % 128 = 0 → rows ≤ 512 → base + 128 * rows ≤ scratchSize s1 e →
      Completes (.tile x) s e (s1.modTeam e.r.t fun T => { T with
        tileq := T.tileq ++ [(e.now + 4, x.x10.toNat / 128 % 4, if rows = 0 then TileSlot.init else ⟨base, rows⟩)] }))

/-! ### Scratchpad queues and job instructions (R131, R151 to R154, R172, R265 to R278) -/

namespace Sys2Proof.Claim

/-- The queue that an instruction names, and the team's queue of that number. -/
def queueNo (e : Env) : Nat := e.x.x10.toNat % 8
def queueIn (T : Team) (n : Nat) : Queue := sget Queue.init T.queues n
def putQueue (T : Team) (n : Nat) (q : Queue) : Team := { T with queues := sset Queue.init T.queues n q }

/-- The control word of `QSET` (R276): base in units of 128 bytes, slot size 128 × 2^SS, depth. -/
def ctrlBase (w : Word) : Nat := 128 * (w.toNat % 2 ^ 14)
def ctrlSize (w : Word) : Nat := 128 * 2 ^ (w.toNat / 2 ^ 14 % 16)
def ctrlDepth (w : Word) : Nat := w.toNat / 2 ^ 18 % 64 + 1

def slotIn (q : Queue) (j : Nat) : Slot := sget Slot.init q.slots j
def putSlot (q : Queue) (j : Nat) (x : Slot) : Queue := { q with slots := sset Slot.init q.slots j x }
/-- Scratchpad offset of slot j. -/
def slotOffset (q : Queue) (j : Nat) : Nat := ctrlBase q.ctrl + j * ctrlSize q.ctrl

/-- The number of queues of the team's grid (R101). -/
def queuesOf (s1 : State) (e : Env) : Nat := (s1.gridOf e.T).elim 0 fun g => g.launch.pool.toNat / 2 ^ 14 % 16
def QueueThere (e : Env) (s1 : State) : Prop := queueNo e < queuesOf s1 e ∧ (queueIn e.T (queueNo e)).inst = true

/-- The same value in all 32 lanes of a register. -/
def inAllLanes (d : Nat) (v : Word) : List (Nat × Word) := lanes.map fun l => (regKey d l, v)

/-- A control word that `QSET` refuses (R276), and a queue that may not be set again. -/
def BadControl (e : Env) (s1 : State) (w : Word) : Prop :=
  queuesOf s1 e ≤ queueNo e ∨ w.toNat / 2 ^ 24 ≠ 0 ∨ w.toNat / 2 ^ 14 % 16 = 15 ∨
    scratchSize s1 e < ctrlBase w + ctrlDepth w * ctrlSize w
def QueueInUse (e : Env) (s1 : State) : Prop :=
  (queueIn e.T (queueNo e)).inst = true ∧
    ((∃ j x, (j, x) ∈ (queueIn e.T (queueNo e)).slots ∧ x.st ≠ .free) ∨
      (∃ j ∈ s1.jobs, j.team = some e.r.t ∧ j.queue = some (queueNo e)) ∨ ∃ p ∈ e.T.boards, p.2.q = queueNo e)

end Sys2Proof.Claim

/-- R131, R276: `QSET` installs an empty queue of the control word in the lowest live lane; a queue at or above NQ, reserved bits, a
queue beyond the scratchpad, or one still in use is `PROT`. -/
def Sys2Proof.Claim.QueuesAreInstalled : Prop :=
  ∀ x s e s1, Issues (.qset x) s e s1 →
    (BadControl e s1 (beamA e) ∨ QueueInUse e s1 → TrapsOwn (.qset x) s e s1 cPROT 0) ∧
    (¬ BadControl e s1 (beamA e) → ¬ QueueInUse e s1 →
      Completes (.qset x) s e (s1.modTeam e.r.t fun T => putQueue T (queueNo e) ⟨true, beamA e, 0, 0, []⟩))

/-- R277, R143, R154: the slot moves of a beam. `QACQ` takes the next free slot and returns its offset; `QWAIT` takes the next full one and
returns its offset and status; each waits where there is none. `QCOMMIT` of an acquired slot completes at once and holds nothing of its
beam; once the TM wait of its release is met the slot is full with status OK and the tag. `QFREE` makes a held slot free, once the beam has
no more of it to read (that the two instructions issue when they do is log 41, DEDUCED). A queue that is not there, an offset that starts no
slot, or a slot in another state is `PROT`. -/
def Sys2Proof.Claim.QueueSlotsMove : Prop :=
  (∀ i ∈ [Instr.qacq, Instr.qwait, Instr.qcommit, Instr.qfree], ∀ x s e s1, Issues (i x) s e s1 → ¬ QueueThere e s1 →
    TrapsOwn (i x) s e s1 cPROT 0) ∧
  (∀ x s e s1, Issues (.qacq x) s e s1 → QueueThere e s1 →
    let n := queueNo e
    let q := queueIn e.T n
    let j := q.p % ctrlDepth q.ctrl
    ((slotIn q j).st = .free → Completes (.qacq x) s e (e.pending
      (s1.setTeam e.r.t (putQueue e.T n { putSlot q j { slotIn q j with st := .acquired, engine := false } with p := q.p + 1 }))
      (writeNames e.g e.x) (inAllLanes x.d.toNat (w32 (slotOffset q j))) 0 (e.now + 1))) ∧
    ((slotIn q j).st ≠ .free → Completes (.qacq x) s e (beamNow e (e.pending s1 (writeNames e.g e.x) [] 1 0) fun b => { b with
      status := .qacq n x.d.toNat s1.nextId }))) ∧
  (∀ x s e s1, Issues (.qwait x) s e s1 → QueueThere e s1 →
    let n := queueNo e
    let q := queueIn e.T n
    let j := q.c % ctrlDepth q.ctrl
    ((slotIn q j).st = .full → Completes (.qwait x) s e (e.pending
      (s1.setTeam e.r.t (putQueue e.T n { putSlot q j { slotIn q j with st := .held } with c := q.c + 1 }))
      (writeNames e.g e.x)
      (inAllLanes x.d.toNat (w32 (slotOffset q j)) ++ inAllLanes (x.d.toNat + 1) (slotIn q j).status) 0 (e.now + 1))) ∧
    ((slotIn q j).st ≠ .full → Completes (.qwait x) s e (beamNow e (e.pending s1 (writeNames e.g e.x) [] 1 0) fun b => { b with
      status := .qwait n x.d.toNat s1.nextId }))) ∧
  (∀ x s e s1, Issues (.qcommit x) s e s1 → QueueThere e s1 →
    let n := queueNo e
    let q := queueIn e.T n
    ((∀ j, j < ctrlDepth q.ctrl → (beamA e).toNat ≠ slotOffset q j) → TrapsOwn (.qcommit x) s e s1 cPROT 0) ∧
    (∀ j, j < ctrlDepth q.ctrl → (beamA e).toNat = slotOffset q j →
      let committed := ∃ c ∈ e.T.commits, c.q = n ∧ c.slot = j
      ((slotIn q j).st ≠ .acquired ∨ (slotIn q j).engine = true ∨ committed → TrapsOwn (.qcommit x) s e s1 cPROT 0) ∧
      ((slotIn q j).st = .acquired → (slotIn q j).engine = false → ¬ committed →
        let tag := if x.flg.getLsbD 1 then (e.b.rd x.b.toNat (lowestLane e.b.lvm)).toNat % 2 ^ 24 else 0
        Completes (.qcommit x) s e (s1.modTeam e.r.t fun T =>
          { T with commits := T.commits ++ [⟨e.r.b, e.now, e.b.scrAt, n, j, tag⟩] })))) ∧
  (∀ s r T b, HasBeam s r T b → b.status = .ready → b.ptrap = none →
    (∀ c ∈ T.commits, ∀ d ∈ T.commits, c.q = d.q → c.slot = d.slot → c = d) →
    ∃ t U, exec (.beamWake r.t r.b) s = .next t ∧ t.team? r.t = some U ∧ t.mem = s.mem ∧ U.scratch = T.scratch ∧
      U.beams = T.beams ∧
      (∀ c, c ∈ U.commits ↔ c ∈ T.commits ∧ ¬ (c.beam = r.b ∧ s.relHeld r c.sentAt c.scrAt 1 = false)) ∧
      ∀ n j, (∃ c ∈ T.commits, c.q = n ∧ c.slot = j ∧ c.beam = r.b ∧ s.relHeld r c.sentAt c.scrAt 1 = false ∧
          slotIn (queueIn U n) j = ⟨.full, w32 (256 * (c.tag % 2 ^ 24)), false, false⟩) ∨
        ((∀ c ∈ T.commits, c.q = n → c.slot = j → c.beam = r.b → s.relHeld r c.sentAt c.scrAt 1 = true) ∧
          slotIn (queueIn U n) j = slotIn (queueIn T n) j)) ∧
  (∀ x s e s1, Issues (.qfree x) s e s1 → QueueThere e s1 →
    let n := queueNo e
    let q := queueIn e.T n
    ((∀ j, j < ctrlDepth q.ctrl → (beamA e).toNat ≠ slotOffset q j) → TrapsOwn (.qfree x) s e s1 cPROT 0) ∧
    (∀ j, j < ctrlDepth q.ctrl → (beamA e).toNat = slotOffset q j →
      ((slotIn q j).st ≠ .held → TrapsOwn (.qfree x) s e s1 cPROT 0) ∧
      let reads := s1.matrixReads e.r e.T (slotOffset q j) (slotOffset q j + ctrlSize q.ctrl) = true ∨
        e.b.longReads (slotOffset q j) (slotOffset q j + ctrlSize q.ctrl) = true ∨ s1.acquiring e.r = true
      ((slotIn q j).st = .held → reads → Waits (.qfree x) s e s1) ∧
      ((slotIn q j).st = .held → ¬ reads →
        Completes (.qfree x) s e (s1.modTeam e.r.t fun T => putQueue T n (putSlot (queueIn T n) j
          { slotIn (queueIn T n) j with st := .free, engine := false, poison := false })))))

namespace Sys2Proof.Claim

/-- Bytes [lo, lo + n) of a job card at `off` of the team's scratchpad, as a number (R267). -/
def cardField (e : Env) (lo n : Nat) : Nat := e.T.scratch.readNat ((beamA e).toNat + lo) n
/-- Bits [k + n − 1: k] of the card's first word. -/
def cardBits (e : Env) (k n : Nat) : Nat := cardField e 0 4 / 2 ^ k % 2 ^ n

/-- What every kind asks of its card (R272): kind, reserved bits, at most four footprint regions, and Q = 0 without QDST. -/
def CardCommon (e : Env) (kind : Nat) : Prop :=
  cardBits e 0 4 = kind ∧ cardBits e 11 5 = 0 ∧ cardBits e 4 3 ≤ 4 ∧ (cardBits e 7 1 = 1 ∨ cardBits e 8 3 = 0)

/-- A well-formed copy, gather and collective card. -/
def CopyCard (e : Env) : Prop :=
  CardCommon e 1 ∧ cardBits e 16 16 = 0 ∧ cardField e 24 8 = 0 ∧ 1 ≤ cardField e 4 4
def GatherCard (e : Env) : Prop :=
  CardCommon e 2 ∧ cardBits e 16 16 = 0 ∧ cardField e 4 4 = 0 ∧ cardField e 24 4 % 8 = 0 ∧
    cardField e 24 8 / 2 ^ 40 % 4 = 0 ∧ 4 ≤ cardField e 24 8 / 2 ^ 40 ∧ cardField e 24 8 / 2 ^ 40 ≤ 65536
def CollCard (e : Env) : Prop :=
  CardCommon e 3 ∧ cardBits e 28 4 = 0 ∧ cardField e 24 8 / 2 ^ 48 = 0 ∧ cardField e 24 4 % 64 = 0 ∧
    cardBits e 23 5 < cardBits e 18 5 + 1 ∧
    cardField e 4 4 % (if cardBits e 16 2 < 2 then 128 * (cardBits e 18 5 + 1) else 128) = 0

/-- The end of what the issue itself reads from the scratchpad: rows of a gather, the ring of a collective. -/
def issueReach (e : Env) (kind : Nat) : Nat :=
  if kind = 1 then 0
  else if kind = 2 then cardField e 24 4 + 8 * (cardField e 28 1 + 1)
  else cardField e 24 4 + 2 * (cardBits e 18 5 + 1)

/-- Issue waits while 64 jobs of the team are open (R272). -/
def JobHeld (e : Env) (s1 : State) : Prop := 64 ≤ (s1.jobs.filter fun j => decide (j.team = some e.r.t)).length

/-- Issue waits until an acquire of the beam has its values (R144) and an earlier long instruction has read what it reads of the
scratchpad (R149, R272). -/
def CardLater (e : Env) (s1 : State) : Prop := s1.acquiring e.r = true ∨ e.b.scrReading = true

/-- A word of the card has an uncorrectable error (R380). -/
def CardBad (e : Env) : Prop := ∃ w, Spot.scratch w ∈ e.T.bad ∧ (beamA e).toNat < 4 * w + 4 ∧ 4 * w < (beamA e).toNat + 64
def RingBad (e : Env) : Prop :=
  ∃ w, Spot.scratch w ∈ e.T.bad ∧ cardField e 24 4 < 4 * w + 4 ∧ 4 * w < cardField e 24 4 + 2 * (cardBits e 18 5 + 1)

/-- The handle after h: 1 to 2^28 − 1, in turn (R272). -/
def handleAfter (h : Nat) : Nat := if h % (2 ^ 28 - 1) = 0 then 1 else h % (2 ^ 28 - 1) + 1

/-- Job instructions by kind. -/
def jobRows : List ((Ext → Instr) × Nat × (Env → Prop)) :=
  [(.cpyj, 1, CopyCard), (.gatj, 2, GatherCard), (.colj, 3, CollCard)]

/-- Rows [lo, hi) of a gather (R273): a source address of eight bytes each, destinations `rowb` apart. -/
def gatherRows (m : Memory) (idx rowb dst lo hi : Nat) : List JSeg :=
  (List.range (hi - lo)).map fun i => ⟨m.readNat (idx + 8 * (lo + i)) 8, (dst + (lo + i) * rowb) % 2 ^ 64, rowb⟩

/-- The job that a card asks for; a gather's rows are read after its issue. Without NOREL its first access waits for what its beam did
before it (R152). -/
def JobOf (x : Ext) (e : Env) (s1 : State) (kind : Nat) (j : Job) : Prop :=
  j.id = s1.nextId ∧ j.team = some e.r.t ∧ j.beam = e.r.b ∧ j.handle = handleAfter e.T.nextH ∧ j.core = e.T.coreId ∧
    j.after = (if x.flg.getLsbD 0 then none else some (e.now, e.b.scrAt)) ∧ j.func = s1.funcOf e.T ∧ j.tenant = sget 0 e.b.tenant (lowestLane e.b.lvm) ∧ j.len = cardField e 4 4 ∧
    j.from_ = cardField e 8 8 ∧ j.dst = cardField e 16 8 ∧ j.status = 0 ∧ j.moved = 0 ∧
    j.queue = (if cardBits e 7 1 = 1 then some (cardBits e 8 3) else none) ∧
    j.fps = (List.range (cardBits e 4 3)).map (fun i => w64 (cardField e (32 + 8 * i) 8)) ∧
    (kind = 1 → j.kind = .copy ∧ j.segs = [⟨cardField e 8 8, if cardBits e 7 1 = 1 then 0 else cardField e 16 8, cardField e 4 4⟩]) ∧
    (kind = 2 → j.kind = .gather ∧ j.segs = []) ∧
    (kind = 3 → j.kind = .coll (cardBits e 16 2) (cardBits e 18 5 + 1) (cardBits e 23 5)
      ((List.range (cardBits e 18 5 + 1)).map fun i => e.T.scratch.readNat (cardField e 24 4 + 2 * i) 2)
      (cardField e 28 2))

end Sys2Proof.Claim

/-- R144, R149, R267, R272, R273, R380: a job instruction waits for its beam's acquires and scratchpad reads, checks its card's place, the
card, its queue and the scratchpad that its issue reads, in this order, and waits while 64 jobs are open. `CPYJ` and `COLJ` then add
their job behind every other and give their beam the next handle; `GATJ` begins a long instruction, each sub-step of which reads 32
rows, and whose last adds the job on the core on which the team then runs, after those that lower beams add in that cycle. The event
and the port time of a `GATJ`'s sub-steps are log 42 (DEDUCED); that an index list or ring past the scratchpad traps at issue after
check 4 is log 81 (DESIGN CHOICE). -/
def Sys2Proof.Claim.JobsIssue : Prop :=
  (∀ p ∈ jobRows, ∀ x s e s1, Issues (p.1 x) s e s1 → CardLater e s1 → Waits (p.1 x) s e s1) ∧
  (∀ p ∈ jobRows, ∀ x s e s1, Issues (p.1 x) s e s1 → ¬ CardLater e s1 →
    let off := (beamA e).toNat
    let qd := cardBits e 7 1 = 1
    let q := cardBits e 8 3
    let badQ := qd ∧ (queuesOf s1 e ≤ q ∨ (queueIn e.T q).inst = false ∨ ctrlSize (queueIn e.T q).ctrl < cardField e 4 4 ∨ p.2.1 ≠ 1)
    (off % 64 ≠ 0 → TrapsOwn (p.1 x) s e s1 cMISALIGN 0) ∧
    (off % 64 = 0 → scratchSize s1 e < off + 64 → TrapsOwn (p.1 x) s e s1 cPROT 0) ∧
    (off % 64 = 0 → off + 64 ≤ scratchSize s1 e → CardBad e → TrapsOwn (p.1 x) s e s1 cPOISONOWN 0) ∧
    (off % 64 = 0 → off + 64 ≤ scratchSize s1 e → ¬ CardBad e → ¬ p.2.2 e → TrapsOwn (p.1 x) s e s1 cILLEGAL 0) ∧
    (off % 64 = 0 → off + 64 ≤ scratchSize s1 e → ¬ CardBad e → p.2.2 e → badQ ∨ scratchSize s1 e < issueReach e p.2.1 →
      TrapsOwn (p.1 x) s e s1 cPROT 0) ∧
    (off % 64 = 0 → off + 64 ≤ scratchSize s1 e → ¬ CardBad e → p.2.2 e → ¬ badQ → issueReach e p.2.1 ≤ scratchSize s1 e →
      (JobHeld e s1 → Waits (p.1 x) s e s1) ∧
      (¬ JobHeld e s1 → p.2.1 = 3 → RingBad e → TrapsOwn (p.1 x) s e s1 cPOISONOWN 0) ∧
      (¬ JobHeld e s1 → p.2.1 = 1 ∨ (p.2.1 = 3 ∧ ¬ RingBad e) →
        ∃ t U c j, exec (p.1 x) s = .next t ∧ HasBeam t e.r U c ∧ t.mem = s.mem ∧ t.jobs = s.jobs ++ [j] ∧
          JobOf x e s1 p.2.1 j ∧ U.nextH = j.handle ∧ U.scratch = e.T.scratch ∧ (∃ k ∈ c.pends, k.names = writeNames e.g e.x ∧
            k.vals = inAllLanes x.d.toNat (w32 j.handle) ∧ k.wait = 0)) ∧
      (¬ JobHeld e s1 → p.2.1 = 2 → e.b.halt = .run →
        ∃ t U c j k, exec (p.1 x) s = .next t ∧ HasBeam t e.r U c ∧ t.mem = s.mem ∧ t.jobs = s.jobs ∧ JobOf x e s1 2 j ∧
          U.scratch = e.T.scratch ∧
          c.longs = e.b.longs ++ [⟨e.b.pc, e.now, e.now, .gatj j (cardField e 24 4) (cardField e 24 8 / 2 ^ 40)
            (cardField e 28 1 + 1) x.d.toNat k (e.b.resume.getD 0)⟩] ∧
          ∃ q ∈ c.pends, q.id = k ∧ q.names = writeNames e.g e.x ∧ q.wait = 1 ∧ q.vals = []))) ∧
  (∀ (s : State) (r : Ref) (T : Team) (b : Beam) (l : LongRun) (j : Job) (idx rowb n d k g : Nat), HasBeam s r T b →
    l.op = .gatj j idx rowb n d k g → b.longs = [l] → b.held l s.clock = false → b.latched = none → b.halt ≠ .stopped →
    let hi := Min.min n (32 * (g + 1))
    let rows := j.segs ++ gatherRows T.scratch idx rowb j.dst j.segs.length hi
    (∀ w, Spot.scratch w ∈ T.bad → ¬ (idx + 8 * j.segs.length < 4 * w + 4 ∧
      4 * w < idx + 8 * j.segs.length + 8 * (hi - j.segs.length))) →
    (hi < n → ∃ t U c, exec (.kvSubstep r.t r.b) s = .next t ∧ HasBeam t r U c ∧ t.mem = s.mem ∧ t.jobs = s.jobs ∧
      c.longs = [⟨l.pc, l.at_, l.since, .gatj { j with segs := rows } idx rowb n d k (g + 1)⟩] ∧
      (causeInh b.cause = false → c.pix = w32 (g + 1))) ∧
    (n ≤ hi → (s.jobs.filter fun j => decide (j.team = some r.t)).length < 64 →
      (∀ q ∈ s.jobs, q.team = some r.t → r.b < q.beam → q.addedAt ≠ s.clock) →
      ∃ t U c i, exec (.kvSubstep r.t r.b) s = .next t ∧ HasBeam t r U c ∧ t.mem = s.mem ∧ c.longs = [] ∧
        t.jobs = s.jobs ++ [{ j with segs := rows, id := i, handle := handleAfter T.nextH, die := T.coreId / 128, core := T.coreId,
                                     addedAt := s.clock }] ∧ U.nextH = handleAfter T.nextH ∧
        ∀ p ∈ b.pends, p.id = k → ∃ q ∈ c.pends, q.id = k ∧ q.wait = p.wait - 1 ∧
          q.vals = p.vals ++ inAllLanes d (w32 (handleAfter T.nextH))))

namespace Sys2Proof.Claim

/-- The team has no open job of handle h. -/
def JobClosed (s1 : State) (t h : Nat) : Prop := ∀ j ∈ s1.jobs, j.team = some t → j.handle ≠ h

/-- The status word of a job that is not open: the one kept, or code 7 with the handle's low bits (R274). -/
def statusKept (T : Team) (h : Nat) : Word := (aget T.stats h).getD (w32 (7 * 2 ^ 28 + h % 2 ^ 28))

/-- Status codes 1 to 4 trap where they are observed (R275). -/
def statusTraps (w : Word) : Prop := 1 ≤ w.toNat / 2 ^ 28 ∧ w.toNat / 2 ^ 28 ≤ 4
def causeOfStatus (w : Word) : Nat :=
  if w.toNat / 2 ^ 28 = 1 then cFOOTPRINT else if w.toNat / 2 ^ 28 = 2 then cMEMFAULT else if w.toNat / 2 ^ 28 = 3 then cPROT else cPOISON

/-- A sleeping beam awakes with the status of its job in `%jstat`. -/
def awakened (s : State) (r : Ref) (w : Word) : State :=
  let s1 := s.modTeam r.t fun T => { T with unseen := T.unseen.filter fun v => decide (v ≠ w) }
  (s1.modBeam r fun b => { b with jstat := w }).modBeam r fun b => { b with
    status := .ready, issueAt := Max.max b.issueAt s.clock }

/-- The beam has observed a status: `%jstat` holds it; without a trap its core's read-only cache is empty (R152, R275). -/
def observed (e : Env) (s1 : State) (w : Word) : State :=
  let s2 := s1.modTeam e.r.t fun T => { T with unseen := T.unseen.filter fun v => decide (v ≠ w) }
  let s3 := beamNow e s2 fun b => { b with jstat := w }
  if 1 ≤ w.toNat / 2 ^ 28 ∧ w.toNat / 2 ^ 28 ≤ 4 then s3 else roEmptied s3 e.T.coreId

end Sys2Proof.Claim

/-- R172, R275: `JWAIT` sleeps while its job is open, and then observes its status; `YIELDJ` goes to its target, asleep while the job is
open; `JTEST` returns 0 for an open job, and otherwise observes the status and returns it, without a trap. A status with a trap is
observed in the beam's wake, after what its `QCOMMIT`s wait for: the trap is raised then, with the address of the `JWAIT`, or of the
instruction at which a `YIELDJ` resumes. -/
def Sys2Proof.Claim.JobsAreObserved : Prop :=
  (∀ x s e s1, Issues (.jwait x) s e s1 →
    let h := (beamA e).toNat
    (¬ JobClosed s1 e.r.t h ∨ statusTraps (statusKept e.T h) →
      Completes (.jwait x) s e (beamNow e s1 fun b => { b with status := .jwait h })) ∧
    (JobClosed s1 e.r.t h → ¬ statusTraps (statusKept e.T h) → Completes (.jwait x) s e (observed e s1 (statusKept e.T h)))) ∧
  (∀ x s e s1, Issues (.jtest x) s e s1 →
    let h := (beamA e).toNat
    let out (s2 : State) (w : Word) := e.pending s2 (writeNames e.g e.x) (inAllLanes x.d.toNat w) 0 (e.now + 1)
    (¬ JobClosed s1 e.r.t h → Completes (.jtest x) s e (out s1 0)) ∧
    (JobClosed s1 e.r.t h → Completes (.jtest x) s e (out (observed e s1 (statusKept e.T h)) (statusKept e.T h)))) ∧
  (∀ x s e s1, Issues (.yieldj x) s e s1 →
    let h := (beamA e).toNat
    let to_ := target e (extOffset x)
    (¬ JobClosed s1 e.r.t h ∨ statusTraps (statusKept e.T h) →
      JumpsTo (.yieldj x) s e (beamNow e s1 fun b => { b with status := .jsleep h to_ }) to_) ∧
    (JobClosed s1 e.r.t h → ¬ statusTraps (statusKept e.T h) → JumpsTo (.yieldj x) s e (observed e s1 (statusKept e.T h)) to_)) ∧
  (∀ (s : State) (r : Ref) (T : Team) (b : Beam) (h : Nat) (to_ : Dword), HasBeam (s.runCommits r) r T b →
    (∃ c, T.life = .resident c) → T.stopped = false → b.halt = .run → b.ptrap = none → JobClosed (s.runCommits r) r.t h →
    statusTraps (statusKept T h) →
    (b.status = .jwait h → exec (.beamWake r.t r.b) s = .next
      ((awakened (s.runCommits r) r (statusKept T h)).takeTrap r (causeOfStatus (statusKept T h)) 0 b.waitPc none 0 0)) ∧
    (b.status = .jsleep h to_ → exec (.beamWake r.t r.b) s = .next
      ((awakened (s.runCommits r) r (statusKept T h)).takeTrap r (causeOfStatus (statusKept T h)) 0 to_ none 0 0)))

/-! ### The matrix engine (R70 to R72, R244 to R264) -/

namespace Sys2Proof.Claim

/-- ACC: tiles of the team's grid (R101). -/
def tilesHeld (s1 : State) (e : Env) : Nat := (s1.gridOf e.T).elim 0 fun g => g.launch.pool.toNat / 2 ^ 8 % 32
def tileNo (x : Ext) : Nat := x.x10.toNat / 8 % 16
def slabNo (x : Ext) : Nat := x.x10.toNat / 128 % 8
def fmtOf (x : Ext) : Nat := x.flg.toNat % 4

/-- The engine cannot take an entry of the beam's quadrant (R244), or an acquire of the beam holds it (R144). -/
def EngineHolds (e : Env) (s1 : State) : Prop :=
  2 ≤ ((s1.core e.T.coreId).entries.filter fun n => decide (n.quad = e.r.b % 4)).length ∨ s1.acquiring e.r = true

/-- The engine of the beam's core has accepted entry n of instruction i; nothing else of memory or of the beam's registers changes. -/
def Accepted (i : Instr) (s : State) (e : Env) (n : Entry) : Prop :=
  ∃ t U c, exec i s = .next t ∧ HasBeam t e.r U c ∧ t.mem = s.mem ∧
    (t.core e.T.coreId).entries = insertEntry n (s.core e.T.coreId).entries ∧ U.acc = e.T.acc ∧ U.metam = e.T.metam ∧
    (e.b.halt = .run → c.main = e.b.main ∧ c.win = e.b.win) ∧
    n.src = e.r ∧ n.quad = e.r.b % 4 ∧ n.mask = e.act ∧ n.at_ = e.now ∧ n.pix = 0 ∧ n.started = false ∧
    (∀ k ∈ e.b.pends, k ∈ c.pends) ∧
    (∀ p, n.pend = some p ↔ ∃ k ∈ c.pends, k ∉ e.b.pends ∧ k.id = p ∧ k.names = writeNames e.g e.x ∧ k.wait = 1)

/-- Stored bytes of B (R250, R253, R257) and of metadata (R257), where an `MMASP` keeps `k` rows of 64. -/
def denseBytes (fmt : Nat) : Nat := if fmt = 0 then 16384 else if fmt = 1 then 24576 else 8192
def sparseBytes (fmt k : Nat) : Nat := if fmt = 0 then 256 * k else 384 * k
def keptRows (x : Ext) : Nat := if x.x10.toNat / 128 % 4 = 0 then 32 else if x.x10.toNat / 128 % 4 = 1 then 16 else 8

/-- A or C group: register r + q of lane l of the beam at key 32 q + l, in the given lanes. -/
def GroupIs (g : List (Nat × Word)) (b : Beam) (r len : Nat) (ls : List Nat) : Prop :=
  ∀ q l, q < len → l ∈ ls → sget 0 g (regKey q l) = b.rd (r + q) l

/-- What every matrix instruction but `LDMETA` and `MWAIT` does first. -/
def MatrixBegins (i : Instr) (s : State) (e : Env) (s1 : State) : Prop :=
  (e.act = 0 → Completes i s e s1) ∧ (e.act ≠ 0 → EngineHolds e s1 → Waits i s e s1)

/-- Entry n is the multiplication that x asks for, with everything latched (R251). -/
def Multiplies (x : Ext) (e : Env) (n : Entry) : Prop :=
  n.tile = tileNo x ∧ n.fmt = fmtOf x ∧ n.scl = x.flg.getLsbD 2 ∧ n.bs = x.x10.toNat % 4 ∧ n.b0 = (firstB e).toNat ∧
    GroupIs n.rega e.b x.a.toNat (aGroupLen (fmtOf x)) e.activeLanes ∧
    (x.flg.getLsbD 2 = true → GroupIs n.regc e.b x.c.toNat (scaleGroupLen (fmtOf x)) lanes) ∧
    n.served = (x.ru && decide (e.b.reuse = some (x.a.toNat, aGroupLen (fmtOf x), fmtOf x)))

end Sys2Proof.Claim

/-- R244, R246, R250, R251, R253, R257: an `MMA` or `MMASP` with no active lane does nothing; one that the engine cannot take waits; a
misaligned B or metadata offset is `MISALIGN`, a tile or range beyond what the team holds `PROT`, B over a slot delivered with
POISON `HALOTILE`; any other is accepted with its operands latched. -/
def Sys2Proof.Claim.MultiplicationsAreAccepted : Prop :=
  (∀ x s e s1, Issues (.mma x) s e s1 →
    let b0 := (firstB e).toNat
    let n := denseBytes (fmtOf x)
    let beyond := tilesHeld s1 e ≤ tileNo x ∨ scratchSize s1 e < b0 + n
    MatrixBegins (.mma x) s e s1 ∧
    (e.act ≠ 0 → ¬ EngineHolds e s1 →
      (b0 % 128 ≠ 0 → TrapsOwn (.mma x) s e s1 cMISALIGN 0) ∧
      (b0 % 128 = 0 → beyond → TrapsOwn (.mma x) s e s1 cPROT 0) ∧
      (b0 % 128 = 0 → ¬ beyond → e.T.poisoned b0 (b0 + n) = true → TrapsOwn (.mma x) s e s1 cHALOTILE 0) ∧
      (b0 % 128 = 0 → ¬ beyond → e.T.poisoned b0 (b0 + n) = false →
        ∃ m, Accepted (.mma x) s e m ∧ m.kind = .mma ∧ Multiplies x e m ∧ m.pend = none))) ∧
  (∀ x s e s1, Issues (.mmasp x) s e s1 →
    let b0 := (firstB e).toNat
    let m0 := (e.b.rd x.d.toNat (e.activeLanes.headD 0)).toNat
    let n := sparseBytes (fmtOf x) (keptRows x)
    let beyond := tilesHeld s1 e ≤ tileNo x ∨ scratchSize s1 e < b0 + n ∨
      4096 * tilesHeld s1 e < m0 + (if fmtOf x = 0 then 2048 else 4096)
    MatrixBegins (.mmasp x) s e s1 ∧
    (e.act ≠ 0 → ¬ EngineHolds e s1 →
      (b0 % 128 ≠ 0 ∨ m0 % 2048 ≠ 0 → TrapsOwn (.mmasp x) s e s1 cMISALIGN 0) ∧
      (b0 % 128 = 0 → m0 % 2048 = 0 → beyond → TrapsOwn (.mmasp x) s e s1 cPROT 0) ∧
      (b0 % 128 = 0 → m0 % 2048 = 0 → ¬ beyond → e.T.poisoned b0 (b0 + n) = true → TrapsOwn (.mmasp x) s e s1 cHALOTILE 0) ∧
      (b0 % 128 = 0 → m0 % 2048 = 0 → ¬ beyond → e.T.poisoned b0 (b0 + n) = false →
        ∃ m, Accepted (.mmasp x) s e m ∧ m.kind = .mmasp (keptRows x) ∧ Multiplies x e m ∧ m.m0 = m0 ∧ m.pend = none)))

/-- R258 to R262: acceptance of the other matrix instructions: `ACCZ`, `ACCLD`, `ACCST` and `ACCCVT` on a tile that the team holds, with
D pending where registers are delivered; `LDMETA` of aligned ranges; `MWAIT` waits for the entries of its beam or its team. -/
def Sys2Proof.Claim.TileInstructionsAreAccepted : Prop :=
  (∀ i ∈ [Instr.accz, Instr.accld, Instr.accst, Instr.acccvt], ∀ x s e s1, Issues (i x) s e s1 →
    MatrixBegins (i x) s e s1 ∧
    (e.act ≠ 0 → ¬ EngineHolds e s1 → tilesHeld s1 e ≤ tileNo x → TrapsOwn (i x) s e s1 cPROT 0) ∧
    (e.act ≠ 0 → ¬ EngineHolds e s1 → tileNo x < tilesHeld s1 e →
      ∃ m, Accepted (i x) s e m ∧ m.tile = tileNo x ∧ m.slab = slabNo x ∧
        (i x = .accz x → m.kind = .accz ∧ m.pend = none) ∧
        (i x = .accld x → m.kind = .accld ∧ m.pend = none ∧ GroupIs m.rega e.b x.a.toNat 32 e.activeLanes) ∧
        (i x = .accst x → m.kind = .accst ∧ m.pend.isSome = true ∧ m.d = x.d.toNat) ∧
        (i x = .acccvt x → m.kind = .acccvt ∧ m.pend.isSome = true ∧ m.d = x.d.toNat ∧ m.fmt = fmtOf x ∧
          m.rnd = (if x.x10.toNat % 8 = 0 then e.b.rmode.toNat else x.x10.toNat % 8) ∧
          (fmtOf x ≤ 1 → m.scales = lanes.map e.bv)))) ∧
  (∀ x s e s1, Issues (.ldmeta x) s e s1 →
    let src := (beamA e).toNat
    let dst := (e.b.rd x.d.toNat (lowestLane e.b.lvm)).toNat
    let u := x.immWord.toNat
    (EngineHolds e s1 → Waits (.ldmeta x) s e s1) ∧
    (¬ EngineHolds e s1 → src % 128 ≠ 0 ∨ dst % 128 ≠ 0 → TrapsOwn (.ldmeta x) s e s1 cMISALIGN 0) ∧
    (¬ EngineHolds e s1 → src % 128 = 0 → dst % 128 = 0 →
      scratchSize s1 e < src + 128 * u ∨ 4096 * tilesHeld s1 e < dst + 128 * u → TrapsOwn (.ldmeta x) s e s1 cPROT 0) ∧
    (¬ EngineHolds e s1 → src % 128 = 0 → dst % 128 = 0 → src + 128 * u ≤ scratchSize s1 e →
      dst + 128 * u ≤ 4096 * tilesHeld s1 e →
      ∃ m, Accepted (.ldmeta x) s e m ∧ m.kind = .ldmeta ∧ m.b0 = src ∧ m.m0 = dst ∧ m.units = u ∧ m.pend = none)) ∧
  (∀ x s e s1, Issues (.mwait x) s e s1 →
    let ids := ((s1.core e.T.coreId).entries.filter fun n =>
      if x.x10.getLsbD 0 then decide (n.src.t = e.r.t) else decide (n.src = e.r)).map (·.id)
    (ids = [] → Completes (.mwait x) s e s1) ∧
    (ids ≠ [] → Completes (.mwait x) s e (beamNow e s1 fun b => { b with status := .mwait ids })))

namespace Sys2Proof.Claim

/-- Engine cycles of an entry (R245). -/
def engineCycles (n : Entry) : Nat :=
  match n.kind with
  | .mma => 32
  | .mmasp k => if k = 32 then 16 else 8
  | .accz => 2
  | .ldmeta => n.units
  | .accld => 4
  | .accst => 4
  | .acccvt => 4

def multiplies (n : Entry) : Bool := match n.kind with | .mma => true | .mmasp _ => true | _ => false

/-- One product of R71 and R72: the elements of A and B at K position k, with the sum of the block scales; none where a scale is
the code 0x80. -/
def productAt (n : Entry) (T : Team) (i j k : Nat) : Option FVal :=
  if n.scl then
    if n.scaleA i (k / 32) = 0x80 ∨ n.scaleB j (k / 32) = 0x80 then none
    else some (chunkProduct (decodeElem n.fmt (n.aElem i k)) (decodeElem n.fmt (n.bElem T k j))
      ((n.scaleA i (k / 32)).toInt + (n.scaleB j (k / 32)).toInt))
  else some (chunkProduct (decodeElem n.fmt (n.aElem i k)) (decodeElem n.fmt (n.bElem T k j)) 0)

/-- The accumulator of row i, column j after chunk g: one sum of the chunk's 16 products, added once (R72). -/
def afterChunk (n : Entry) (T : Team) (g i j : Nat) : Word :=
  accAdd (sget 0 T.acc (8192 * n.tile + 256 * i + j))
    (chunkSum (((List.range 16).map fun t => productAt n T i j (16 * g + t)).filterMap id))

/-- Element j that `ACCCVT` converts for lane i (R261). -/
def convertedAt (n : Entry) (T : Team) (i j : Nat) : Nat :=
  let x := (sget 0 T.acc (8192 * n.tile + 256 * i + (32 * n.slab + j))).toNat
  let k : Byte := (n.scales.getD i 0).setWidth 8
  if 2 ≤ n.fmt then (recode .fp32 (if n.fmt = 2 then .fp16 else .bf16) (RMode.ofCode n.rnd) x).1
  else if k = 0x80 then 0
  else match FVal.of .fp32 x with
    | .fin s m q => (encodeTap (if n.fmt = 0 then 7 else 5) (.fin s m (q - k.toInt))).1
    | v => (encodeTap (if n.fmt = 0 then 7 else 5) v).1
def convertedBits (n : Entry) : Nat := if n.fmt = 0 then 8 else if n.fmt = 1 then 6 else 16
def convertedWord (n : Entry) (T : Team) (i q : Nat) : Word :=
  w32 (((List.range 32).map fun j => convertedAt n T i j * 2 ^ (convertedBits n * j)).sum / 2 ^ (32 * q))

/-- The accumulators of `U` are those of T but for those of tile n.tile in the latched rows and the given columns, which are as f says. -/
def AccsAre (T U : Team) (n : Entry) (col : Nat → Prop) (f : Nat → Nat → Word) : Prop :=
  (∀ i j, i < 32 → j < 256 → n.mask.getLsbD i = true → col j → sget 0 U.acc (8192 * n.tile + 256 * i + j) = f i j) ∧
    ∀ k, (∀ i j, i < 32 → j < 256 → n.mask.getLsbD i = true → col j → k ≠ 8192 * n.tile + 256 * i + j) →
      sget 0 U.acc k = sget 0 T.acc k

end Sys2Proof.Claim

/-- R249, R250: the elements of A and B that a multiplication reads. Byte k of row i lies in byte k mod 4 of register A + k / 4 of lane
i; B has row k and column c at b0 + 256 k + c (T8) or b0 + 512 k + 2 c (16-bit formats). -/
def Sys2Proof.Claim.ElementsLieAsStated : Prop :=
  ∀ (n : Entry) (T : Team) (b : Beam) (r : Nat) (i k c : Nat), GroupIs n.rega b r (aGroupLen n.fmt) lanes → i < 32 →
    (n.fmt = 0 → k < 64 → n.aElem i k = (b.rd (r + k / 4) i).toNat / 2 ^ (8 * (k % 4)) % 256) ∧
    (2 ≤ n.fmt → k < 16 → n.aElem i k = (b.rd (r + k / 2) i).toNat / 2 ^ (16 * (k % 2)) % 65536) ∧
    (n.fmt = 0 → n.kind = .mma → n.bElem T k c = (T.scratch.read (n.b0 + 256 * k + c)).toNat) ∧
    (2 ≤ n.fmt → n.kind = .mma → n.bElem T k c =
      (T.scratch.read (n.b0 + 512 * k + 2 * c)).toNat + 256 * (T.scratch.read (n.b0 + 512 * k + 2 * c + 1)).toNat)

/-- R245, R252, R255, R258 to R261: what the engine's three events do when their cycle has come: the next entry starts, a sub-step
performs its part of the running entry, and the oldest entry completes, its register results reaching its beam. A tile that an earlier
engine has numbered keeps its number (log 65, DESIGN CHOICE); that a sub-step reads its lines at its end, and with no granule of the core
waking then, is of log 64. -/
def Sys2Proof.Claim.EngineEvents : Prop :=
  (∀ (s : State) (core : Nat) (n : Entry), nextStart (s.core core).entries = some n → n.pix = 0 →
    let start := Max.max (n.at_ + (if n.served then 1 else 4)) (s.core core).engFree
    start ≤ s.clock → s.entryHeld n start = false →
    let f := (s.team? n.src.t).elim 0 s.funcOf
    ∃ t m, exec (.engineEntryStart core) s = .next t ∧ m ∈ (t.core core).entries ∧ m.id = n.id ∧ m.started = true ∧
      m.start = start ∧ m.kind = n.kind ∧ m.pix = 0 ∧ (t.core core).engFree = start + engineCycles n ∧ t.mem = s.mem ∧
      t.teams = s.teams ∧
      (multiplies n = true → m.seq = if n.counted then n.seq else sget 0 (s.core core).engSeq f) ∧
      sget 0 (t.core core).engSeq f =
        sget 0 (s.core core).engSeq f + (if multiplies n = true ∧ n.counted = false then 1 else 0)) ∧
  (∀ (s : State) (core : Nat) (n : Entry) (T : Team), nowRunning (s.core core).entries = some n → s.team? n.src.t = some T →
    n.start + (n.pix + 1) * engineCycles n / n.total ≤ s.clock →
    s.entryHeld n (n.start + n.pix * engineCycles n / n.total) = false → n.poisoned T = false ∨ T.stopped = true →
    (∀ w, s.wakeEnd core = some w → w ≤ s.clock) →
    ∃ t U m, exec (.engineSubstep core) s = .next t ∧ t.team? n.src.t = some U ∧ m ∈ (t.core core).entries ∧ m.id = n.id ∧
      m.pix = n.pix + 1 ∧ t.mem = s.mem ∧ U.beams = T.beams ∧ U.scratch = T.scratch ∧
      (n.kind ≠ .ldmeta → U.metam = T.metam) ∧
      (multiplies n = true → AccsAre T U n (fun _ => True) (afterChunk n T n.pix)) ∧
      (n.kind = .accz → AccsAre T U n (fun _ => True) fun _ _ => 0) ∧
      (n.kind = .accld → n.slab < 8 → AccsAre T U n (fun j => j / 32 = n.slab) fun i j => sget 0 n.rega (regKey (j % 32) i)) ∧
      (n.kind = .accst ∨ n.kind = .acccvt ∨ n.kind = .ldmeta → U.acc = T.acc) ∧
      (n.kind = .accst → ∀ k w, (k, w) ∈ m.rega ↔ ∃ i j, i < 32 ∧ j < 32 ∧ n.mask.getLsbD i = true ∧ k = regKey (n.d + j) i ∧
        w = sget 0 T.acc (8192 * n.tile + 256 * i + (32 * n.slab + j))) ∧
      (n.kind = .acccvt → ∀ k w, (k, w) ∈ m.rega ↔ ∃ i q, i < 32 ∧ q < convertedBits n ∧ n.mask.getLsbD i = true ∧
        k = regKey (n.d + q) i ∧ w = convertedWord n T i q) ∧
      (n.kind = .ldmeta → ∀ a, U.metam.read a =
        if n.m0 ≤ a ∧ a < n.m0 + 128 * n.units then T.scratch.read (n.b0 + (a - n.m0)) else T.metam.read a)) ∧
  (∀ (s : State) (core : Nat) (n : Entry) (r : List Entry) (T : Team) (b : Beam), (s.core core).entries = n :: r →
    n.started = true → n.pix = n.total → n.start + engineCycles n + 4 ≤ s.clock → HasBeam s n.src T b →
    ∃ t U c, exec (.engineEntryComplete core) s = .next t ∧ (t.core core).entries = r ∧ HasBeam t n.src U c ∧ t.mem = s.mem ∧
      c.main = b.main ∧ c.win = b.win ∧ (n.pend = none → c = b) ∧
      (∀ id p, n.pend = some id → p ∈ b.pends → p.id = id →
        ∃ q ∈ c.pends, q.id = id ∧ q.vals = p.vals ++ n.rega ∧ q.wait = p.wait - 1))

/-! ### The Prism array (R319 to R329) -/

namespace Sys2Proof.Claim

/-- What every Prism instruction checks (R321, R323): the grid owns an array, no `PALD` runs, the array is in one of the states. -/
def PrismChecks (i : Instr) (s : State) (e : Env) (s1 : State) (ok : PState → Prop) (then_ : Prop) : Prop :=
  let owns := (s1.gridOf e.T).any fun g => g.launch.pool.getLsbD 13
  (owns = false → TrapsOwn i s e s1 cPROT 0) ∧
    (owns = true → e.T.paldRuns = true → Waits i s e s1) ∧
    (owns = true → e.T.paldRuns = false → ¬ ok e.T.prism.state → TrapsOwn i s e s1 cPASTATE 0) ∧
    (owns = true → e.T.paldRuns = false → ok e.T.prism.state → then_)

def idleOrLoaded (p : PState) : Prop := p = .idle ∨ p = .loaded

/-- The team's array is changed by f. -/
def prismNow (e : Env) (s1 : State) (f : Prism → Prism) : State := s1.modTeam e.r.t fun T => { T with prism := f T.prism }

/-- The time of output j by R319, 1000 standing for never: the earliest, or with MAX the latest, sum of an input's time and its delay
over the connected inputs that rise; with MAX every connected input must rise. -/
def ArrivesAt (p : Prism) (j t : Nat) : Prop :=
  let c := (List.range 64).filter fun i => p.delay i j ≠ 255
  let rises (i : Nat) : Prop := p.inp i ≠ 255
  if p.max then
    ((c = [] ∨ ∃ i ∈ c, ¬ rises i) ∧ t = 1000) ∨
      (c ≠ [] ∧ (∀ i ∈ c, rises i) ∧ (∃ i ∈ c, p.inp i + p.delay i j = t) ∧ ∀ i ∈ c, p.inp i + p.delay i j ≤ t)
  else
    ((∀ i ∈ c, ¬ rises i) ∧ t = 1000) ∨
      ((∃ i ∈ c, rises i ∧ p.inp i + p.delay i j = t) ∧ ∀ i ∈ c, rises i → t ≤ p.inp i + p.delay i j)

end Sys2Proof.Claim

/-- R320 to R329: each Prism instruction in each state of the array: what it checks, and what it does. -/
def Sys2Proof.Claim.PrismInstructions : Prop :=
  (∀ x s e s1, Issues (.pawin x) s e s1 → PrismChecks (.pawin x) s e s1 idleOrLoaded
    (Completes (.pawin x) s e (prismNow e s1 fun p => { p with
      max := x.x10.getLsbD 0, w := BitVec.ofNat 8 (x.x10.toNat / 2) }))) ∧
  (∀ x s e s1, Issues (.pald x) s e s1 →
    let a := (beamA e).toNat
    let g := e.b.resume.getD 0
    PrismChecks (.pald x) s e s1 idleOrLoaded
      ((a % 128 ≠ 0 → TrapsOwn (.pald x) s e s1 cMISALIGN 0) ∧
       (a % 128 = 0 → scratchSize s1 e < a + 4096 → TrapsOwn (.pald x) s e s1 cPROT 0) ∧
       (a % 128 = 0 → a + 4096 ≤ scratchSize s1 e → CardLater e s1 → Waits (.pald x) s e s1) ∧
       (a % 128 = 0 → a + 4096 ≤ scratchSize s1 e → ¬ CardLater e s1 → e.b.halt = .run →
         ∃ t U c at_, exec (.pald x) s = .next t ∧ HasBeam t e.r U c ∧ t.mem = s.mem ∧ U.scratch = e.T.scratch ∧
           U.prism = e.T.prism ∧ e.now ≤ at_ ∧ (s.wakeEnd e.T.coreId = none → at_ = e.now) ∧
           c.longs = e.b.longs ++ [⟨e.b.pc, e.now, e.now, .pald a g
             (if g < 8 ∧ sget 0 (s.core e.T.coreId).ports (e.r.b % 4) ≤ e.now then some at_ else none)⟩]))) ∧
  (∀ x s e s1, Issues (.pain x) s e s1 → PrismChecks (.pain x) s e s1 idleOrLoaded
    (∃ m, (∀ i, sget prismDefault m i = if i < 64 ∧ e.act.getLsbD (i / 2) = true then
        BitVec.ofNat 8 ((e.a (i / 2)).toNat / 2 ^ (8 * (i % 2))) else sget prismDefault e.T.prism.ins i) ∧
      Completes (.pain x) s e (prismNow e s1 fun p => { p with state := .loaded, ins := m }))) ∧
  (∀ x s e s1, Issues (.pago x) s e s1 → PrismChecks (.pago x) s e s1 (fun p => p = .loaded)
    (Completes (.pago x) s e (prismNow e s1 fun p => { p with
      state := .running, doneAt := e.now + 2 + (p.w.toNat + 3) / 4 }))) ∧
  (∀ x s e s1, Issues (.pacap x) s e s1 → PrismChecks (.pacap x) s e s1 (fun p => p = .running ∨ p = .done)
    ((e.T.prism.state = .done → Completes (.pacap x) s e (e.pendingAt (prismNow e s1 fun p => { p with state := .idle })
        (writeNames e.g e.x) (lanes.map fun l => (regKey x.d.toNat l, e.T.prism.result l)) 0 (e.now + 4) true)) ∧
     (e.T.prism.state = .running → Completes (.pacap x) s e (beamNow e (e.pendingAt s1 (writeNames e.g e.x) [] 1 0 true) fun b => { b with
        status := .pacap x.d.toNat s1.nextId })))) ∧
  (∀ x s e s1, Issues (.paclr x) s e s1 → PrismChecks (.paclr x) s e s1 (fun p => p ≠ .running)
    (Completes (.paclr x) s e (prismNow e s1 fun p => { p with state := .idle, ins := [], outs := [], wins := [] })))

/-- R319, R325, R327, R328: a `PALD` sub-step begins when its quadrant's port is free (and, while granules of its core wake, perhaps at the
end of their wake: R133, log 64), takes 4 cycles, and loads its eight rows of delays; the instruction completes 4 cycles after the last; at
the end of a window every output has the time of R319, or 255 where the window closes first, with the lowest input that gave it; `PACAP`
delivers them. -/
def Sys2Proof.Claim.PrismEvents : Prop :=
  (∀ (s : State) (t : Nat) (T : Team) (k g a : Nat) (st : Option Nat) (l : LongRun) (b : Beam), HasBeam s ⟨t, k⟩ T b →
    T.paldBeam = some (k, l, a, g, st) → l.op = .pald a g st → b.longs = [l] → b.halt = .run →
    let port := sget 0 (s.core T.coreId).ports (k % 4)
    (st = none → g < 8 → l.since ≤ s.clock → port ≤ s.clock →
      ∃ u U c at_, exec (.paldSubstep t) s = .next u ∧ HasBeam u ⟨t, k⟩ U c ∧ u.mem = s.mem ∧ U.scratch = T.scratch ∧
        U.prism = T.prism ∧ s.clock ≤ at_ ∧ (s.wakeEnd T.coreId = none → at_ = s.clock) ∧
        c.longs = [⟨l.pc, l.at_, l.since, .pald a g (some at_)⟩] ∧
        (causeInh b.cause = false → b.latched = none → c.pix = w32 g) ∧
        sget 0 (u.core T.coreId).ports (k % 4) = at_ + 4) ∧
    (∀ at_, st = some at_ → g < 8 → at_ + 4 ≤ s.clock →
      (∀ w, Spot.scratch w ∈ T.bad → ¬ (a + 512 * g < 4 * w + 4 ∧ 4 * w < a + 512 * g + 512)) →
      ∃ u U c from_, exec (.paldSubstep t) s = .next u ∧ HasBeam u ⟨t, k⟩ U c ∧ u.mem = s.mem ∧ U.scratch = T.scratch ∧
        s.clock ≤ from_ ∧ (s.wakeEnd T.coreId = none → from_ = s.clock) ∧
        c.longs = [⟨l.pc, l.at_, s.clock, .pald a (g + 1) (if g + 1 < 8 ∧ port ≤ s.clock then some from_ else none)⟩] ∧
        ∀ i, sget prismDefault U.prism.delays i =
          if 512 * g ≤ i ∧ i < 512 * (g + 1) then T.scratch.read (a + i) else sget prismDefault T.prism.delays i) ∧
    (st = none → 8 ≤ g → l.since + 4 ≤ s.clock →
      ∃ u U c, exec (.paldSubstep t) s = .next u ∧ HasBeam u ⟨t, k⟩ U c ∧ u.mem = s.mem ∧ U.scratch = T.scratch ∧ U.prism = T.prism ∧
        c.longs = [])) ∧
  (∀ (s : State) (t : Nat) (T : Team), s.team? t = some T → T.prism.state = .running → T.prism.doneAt ≤ s.clock →
    ∃ u U, exec (.prismWindowEnd t) s = .next u ∧ u.team? t = some U ∧ u.mem = s.mem ∧
      U.prism.state = (if T.pacapWaits then .idle else .done) ∧
      (∀ j v, j < 64 → ArrivesAt T.prism j v →
        (sget prismDefault U.prism.outs j).toNat = (if v < T.prism.w.toNat then v else 255) ∧
        (T.prism.w.toNat ≤ v → sget prismDefault U.prism.wins j = 255) ∧
        (v < T.prism.w.toNat → ∃ i, (sget prismDefault U.prism.wins j).toNat = i ∧ T.prism.inp i ≠ 255 ∧ T.prism.delay i j ≠ 255 ∧
          T.prism.inp i + T.prism.delay i j = v ∧
          ∀ q, q < i → T.prism.inp q ≠ 255 → T.prism.delay q j ≠ 255 → T.prism.inp q + T.prism.delay q j ≠ v))) ∧
  (∀ (p : Prism) (l : Nat), (p.result l).toNat = (sget prismDefault p.outs (2 * l)).toNat +
    2 ^ 8 * (sget prismDefault p.outs (2 * l + 1)).toNat + 2 ^ 16 * (sget prismDefault p.wins (2 * l)).toNat +
    2 ^ 24 * (sget prismDefault p.wins (2 * l + 1)).toNat)

/-! ### The Halo (R279 to R293) -/

namespace Sys2Proof.Claim

/-- The register of the beam's lowest live lane. -/
def lowReg (e : Env) (n : Nat) : Word := e.b.rd n ((lanes.filter fun l => e.b.lvm.getLsbD l).headD 0)

/-- The operands of `HBOARD` (R289): channel, queue, first tile, count, layer. -/
def hChan (e : Env) : Nat := e.x.x10.toNat % 2
def hQueue (e : Env) : Nat := e.x.x10.toNat / 2 % 8
def hTile (e : Env) : Nat := (beamA e).toNat
def hCount (e : Env) : Nat := if e.x.immb then e.x.immWord.toNat else (lowReg e e.x.b.toNat).toNat
def hLayer (e : Env) : Nat := (lowReg e e.x.c.toNat).toNat

/-- The queue can take tiles: it is installed, and its slots hold 65,536 bytes. -/
def TileQueue (e : Env) (s1 : State) : Prop :=
  hQueue e < queuesOf s1 e ∧ (queueIn e.T (hQueue e)).inst = true ∧ 65536 ≤ ctrlSize (queueIn e.T (hQueue e)).ctrl
def TilesNamed (e : Env) : Prop :=
  hTile e < 2 ^ 20 ∧ 1 ≤ hCount e ∧ hTile e + hCount e ≤ 2 ^ 20 ∧ hLayer e < 4096

/-- The lowest of the team's 16 board ids that is free. -/
def LowestFree (T : Team) (id : Nat) : Prop :=
  id < 16 ∧ aget T.boards id = none ∧ ∀ j, j < id → aget T.boards j ≠ none

/-- A new request (R285, R290): nothing captured, to register 16 ring cycles from now. -/
def newBoard (e : Env) (s1 : State) : Board :=
  { ch := hChan e, q := hQueue e, layer := hLayer e, tiles := (List.range (hCount e)).map fun i => hTile e + i, captured := [],
    drop := [], crcFail := [], tenant := sget 0 e.b.tenant (lowestLane e.b.lvm), due := 2 * s1.clock + 16, regAt := none,
    back := .toSet }

/-- D is pending with a result that is written 8 cycles from now, once its `wait` parts have come. -/
def HasResult (e : Env) (s1 : State) (c : Beam) (vals : List (Nat × Word)) (wait : Nat) : Prop :=
  ∃ p ∈ c.pends, p.id = s1.nextId ∧ p.names = writeNames e.g e.x ∧ p.vals = vals ∧ p.wait = wait ∧ p.ready = e.now + 8 ∧ p.exact = true

/-- Segments that hold no tile twice, each with a tile (R283). -/
def SegsApart (l : List Seg) : Prop :=
  (∀ g ∈ l, 1 ≤ g.ntile) ∧
    l.Pairwise fun g h => g.layer ≠ h.layer ∨ g.tbase + g.ntile ≤ h.tbase ∨ h.tbase + h.ntile ≤ g.tbase

end Sys2Proof.Claim

/-- R290: which requests a running channel takes: every tile lies in a segment of its layer that the partition may board. -/
def Sys2Proof.Claim.WhatMayBeBoarded : Prop :=
  ∀ (s : State) (c part layer tile count : Nat) (d : Sched), (s.chan c).sched = some d → SegsApart d.segs → 1 ≤ count →
    (s.boardable c part layer tile count = true ↔ (s.chan c).runs = true ∧ ∀ i, i < count →
      ∃ g ∈ d.segs, g.layer = layer ∧ g.tbase ≤ tile + i ∧ tile + i < g.tbase + g.ntile ∧ g.pmask.getLsbD part = true)

/-- R290 to R292: `HBOARD` checks its queue, its operands and the running schedule, in this order; it returns the lowest free board id
and its request enters the table, or it waits for an id. `HCANCEL` returns 0 for an id that is not in use, and otherwise sends the
cancel to the stop and has its answer in D after 8 cycles. `HLAP` returns the lap, and the schedule id and segment of the next tile. -/
def Sys2Proof.Claim.HaloInstructions : Prop :=
  (∀ x s e s1, Issues (.hboard x) s e s1 →
    let may := s1.boardable (hChan e) (s1.partOf e.T) (hLayer e) (hTile e) (hCount e) = true
    (¬ TileQueue e s1 → TrapsOwn (.hboard x) s e s1 cPROT 0) ∧
    (TileQueue e s1 → ¬ TilesNamed e → TrapsOwn (.hboard x) s e s1 cILLEGAL 0) ∧
    (TileQueue e s1 → TilesNamed e → ¬ may → TrapsOwn (.hboard x) s e s1 cPROT 0) ∧
    (TileQueue e s1 → TilesNamed e → may → ∀ id, LowestFree e.T id →
      ∃ t U c, exec (.hboard x) s = .next t ∧ HasBeam t e.r U c ∧ t.mem = s.mem ∧ aget U.boards id = some (newBoard e s1) ∧
        (∀ j, j ≠ id → aget U.boards j = aget e.T.boards j) ∧ HasResult e s1 c (inAllLanes x.d.toNat (w32 id)) 0) ∧
    (TileQueue e s1 → TilesNamed e → may → (∀ id, id < 16 → aget e.T.boards id ≠ none) →
      Completes (.hboard x) s e (beamNow e (e.pendingAt s1 (writeNames e.g e.x) [] 1 0 true) fun b => { b with
        status := .board (hChan e) (hQueue e) (hLayer e) (hTile e) (hCount e) x.d.toNat s1.nextId }))) ∧
  (∀ x s e s1, Issues (.hcancel x) s e s1 →
    let id := (beamA e).toNat
    (aget e.T.boards id = none →
      Completes (.hcancel x) s e (e.pendingAt s1 (writeNames e.g e.x) (inAllLanes x.d.toNat 0) 0 (e.now + 8) true)) ∧
    (∀ b, aget e.T.boards id = some b →
      ∃ t U c, exec (.hcancel x) s = .next t ∧ HasBeam t e.r U c ∧ t.mem = s.mem ∧ U.boards = e.T.boards ∧
        U.cancels = e.T.cancels ++ [⟨2 * s1.clock + 16, id, e.r.b, x.d.toNat, s1.nextId⟩] ∧
        HasResult e s1 c [] 1)) ∧
  (∀ x s e s1, Issues (.hlap x) s e s1 →
    let C := s1.chan (x.x10.toNat % 2)
    let out (lap seg : Word) := Completes (.hlap x) s e (e.pendingAt s1 (writeNames e.g e.x)
      (inAllLanes x.d.toNat lap ++ inAllLanes (x.d.toNat + 1) seg) 0 (e.now + 8) true)
    (C.runs = false → out C.lap (w32 (2 ^ 16 * C.sid.toNat + 0xFFFF))) ∧
    (∀ d n g i, C.runs = true → C.sched = some d → n < 2 ^ 16 →
      segAt d.segs 0 (s1.stop (x.x10.toNat % 2) (e.T.coreId / 32)).passed = some (n, g, i) →
      out C.lap (w32 (2 ^ 16 * C.sid.toNat + n))) ∧
    (∀ d, C.runs = true → C.sched = some d → segAt d.segs 0 (s1.stop (x.x10.toNat % 2) (e.T.coreId / 32)).passed = none →
      C.run = true → out (C.lap + 1) (w32 (2 ^ 16 * (C.pend.getD d).sid.toNat))))

namespace Sys2Proof.Claim

/-- Where the tile that passes next lies: segment and place in it, and its number. -/
def NextTile (s : State) (c k : Nat) (d : Sched) (g : Seg) (i : Nat) : Prop :=
  (s.chan c).sched = some d ∧ ∃ n, segAt d.segs 0 (s.stop c k).passed = some (n, g, i)

/-- Every stop has passed the tile before the one that stop k passes next (R282). -/
def AllReached (s : State) (c k : Nat) : Prop := k < 32 ∧ ∀ j, j < 32 → (s.stop c k).passed ≤ (s.stop c j).passed

/-- The tile may pass: the channel runs (in DSTATE = RUN alone: R397, R400), every stop has passed the tile before it, and its ring cycle
has come (R282). -/
def MayPass (s : State) (c k : Nat) : Prop :=
  s.sys.dstate = .run ∧ (s.chan c).runs = true ∧ AllReached s c k ∧ (s.stop c k).due ≤ s.hring

/-- The requests of the block's resident teams that capture a tile which passes at ring cycle `at_` (R285). -/
def Captures (s : State) (c k layer tile at_ : Nat) (t id : Nat) : Prop :=
  ∃ T core b, (t, T) ∈ s.teams ∧ T.life = .resident core ∧ core / 32 = k ∧ (id, b) ∈ T.boards ∧ b.ch = c ∧ b.layer = layer ∧
    tile ∈ b.tiles ∧ ∃ r, b.regAt = some r ∧ r + 64 ≤ at_

/-- In FLOW mode the channel pauses: at some stop the next tile finds a full buffer and a request that it matches (R287). -/
def Pauses (s : State) (c : Nat) (d : Sched) : Prop :=
  d.free = false ∧ ∃ k g i, NextTile s c k d g i ∧ AllReached s c k ∧ 4 ≤ (s.stop c k).entries.length ∧
    ∃ t id, Captures s c k g.layer (g.tbase + i) s.hring t id

end Sys2Proof.Claim

/-- R280, R282, R285, R287, R288: a tile that passes a stop is captured there by the requests that registered 64 ring cycles before and
want it, as its source held it, if the stop's buffer of four has room; in FREE mode a full buffer lets it pass uncaptured, in FLOW mode
the channel pauses at every stop. The stop's next tile passes 256 / THR ring cycles later, rounded up. -/
def Sys2Proof.Claim.TilesPass : Prop :=
  (∀ (s : State) (c k layer tile at_ t id : Nat),
    (t, id) ∈ s.captures c k layer tile at_ ↔ Captures s c k layer tile at_ t id) ∧
  (∀ (s : State) (c k : Nat) (p : Bool) (d : Sched), (s.chan c).sched = some d → Pauses s c d → exec (.tilePassing c k p) s = .next s) ∧
  (∀ (s : State) (c k : Nat) (p : Bool) (d : Sched) (g : Seg) (i : Nat), NextTile s c k d g i → MayPass s c k → ¬ Pauses s c d →
    let hits := s.captures c k g.layer (g.tbase + i) s.hring
    let st := s.stop c k
    let goesOn (t : State) := t.mem = s.mem ∧ (t.stop c k).passed = st.passed + 1 ∧ (t.stop c k).last = s.hring ∧
      (t.stop c k).due = s.hring + (255 + (s.chan c).thr.toNat) / (s.chan c).thr.toNat
    (hits = [] ∨ 4 ≤ st.entries.length → ∃ t, exec (.tilePassing c k p) s = .next t ∧ goesOn t ∧
      t.teams = s.teams ∧ (t.stop c k).entries = st.entries) ∧
    (hits ≠ [] → st.entries.length < 4 → (∀ q ∈ (s.chan c).inj, q.idx ≠ st.passed) →
      let from_ := g.from_.toNat + 65536 * i
      ∃ t n, exec (.tilePassing c k p) s = .next t ∧ goesOn t ∧
        (t.stop c k).entries = st.entries ++ [n] ∧ n.layer = g.layer ∧ n.tile = g.tbase + i ∧ n.lap = (s.chan c).lap ∧
        n.sid = d.sid ∧ n.free = d.free ∧ n.passAt = s.hring ∧ n.reqs = hits ∧ n.checked = false ∧ n.payload.length = 65536 ∧
        n.crc = crc64 n.payload ∧ (n.poison = true ↔ p = true ∨ ∃ m, m < 512 ∧ s.tileLineBad from_ m p = true) ∧
        ∀ m j, m < 512 → s.tileLineBad from_ m p = false → j < 128 →
          n.payload.getD (128 * m + j) 0 = s.mem.read (from_ + 128 * m + j)))

/-- R283, R284: the channel events: a lap ends when every stop has passed its last tile, and the pending schedule or the same one
begins, or the channel stops; RUN, THR and HNEXT as their registers say. No channel starts but in DSTATE = RUN (R397, R400; log 66). -/
def Sys2Proof.Claim.ChannelEvents : Prop :=
  (∀ (s : State) (c : Nat) (d : Sched), (s.chan c).sched = some d → (s.chan c).runs = true →
    (∀ k, k < 32 → d.total ≤ (s.stop c k).passed) →
    ∃ t, exec (.lapBoundary c) s = .next t ∧ t.mem = s.mem ∧ (∀ k, k < 32 → (t.stop c k).passed = 0) ∧
      t.chan c = { s.chan c with
        sched := some ((s.chan c).pend.getD d), pend := none, sid := ((s.chan c).pend.getD d).sid
        runs := (s.chan c).run, lap := (s.chan c).lap + 1, inj := [] }) ∧
  (∀ (s : State) (c : Nat), (s.chan c).runs = true ∨ s.sys.dstate ≠ .run →
    exec (.haloRunStart c) s = .next (s.setChan c { s.chan c with run := true })) ∧
  (∀ (s : State) (c : Nat) (d : Sched), (s.chan c).runs = false → s.sys.dstate = .run →
    (s.chan c).pend = some d ∨ ((s.chan c).pend = none ∧ (s.chan c).sched = some d) →
    ∃ t, exec (.haloRunStart c) s = .next t ∧ t.mem = s.mem ∧
      t.chan c = { s.chan c with run := true, runs := true, sched := some d, pend := none, sid := d.sid, inj := [] } ∧
      ∀ k, k < 32 → (t.stop c k).passed = 0 ∧ 2 * s.clock < (t.stop c k).due ∧ (t.stop c k).due ≤ 2 * s.clock + 1400) ∧
  (∀ (s : State) (c : Nat), exec (.haloRunStop c) s = .next (s.setChan c { s.chan c with run := false })) ∧
  (∀ (s : State) (c : Nat) (v : BitVec 5), exec (.haloThrSet c v) s =
    .next (if 1 ≤ v.toNat ∧ v.toNat ≤ 16 then s.setChan c { s.chan c with thr := v } else s)) ∧
  (∀ (s : State) (c : Nat) (v : Dword), ∃ t, exec (.hnextWrite c 0 v) s = .next t ∧ t.mem = s.mem ∧ (t.chan c).hnext = v ∧
    (∀ n, readSched s.mem v = .error n → (t.chan c).code = BitVec.ofNat 8 n ∧ (t.chan c).pend = (s.chan c).pend) ∧
    (∀ d, readSched s.mem v = .ok d → (t.chan c).code = 0 ∧
      ((s.chan c).run = false ∨ (s.chan c).runs = true ∨ s.sys.dstate ≠ .run →
        (t.chan c).pend = some d ∧ (t.chan c).sched = (s.chan c).sched ∧ (t.chan c).runs = (s.chan c).runs) ∧
      ((s.chan c).run = true → (s.chan c).runs = false → s.sys.dstate = .run →
        (t.chan c).sched = some d ∧ (t.chan c).runs = true))) ∧
  (∀ (m : Memory) (a : Dword), (a.toNat % 64 ≠ 0 → readSched m a = .error 1) ∧
    (a.toNat % 64 = 0 → m.readNat (a.toNat + 4) 4 = 0 ∨ 4096 < m.readNat (a.toNat + 4) 4 ∨ 1 < (m.read (a.toNat + 2)).toNat →
      readSched m a = .error 2))

namespace Sys2Proof.Claim

/-- Only the given entry at the stops of a block waits for a slot before ring cycle `at_`. -/
def NothingWaits (s : State) (k at_ : Nat) : Prop :=
  ∀ c, c = 0 ∨ c = 1 → ∀ m ∈ (s.stop c k).entries, m.passAt < at_ → m.todo = []

/-- No tile of an ended request waits to be delivered as CANCELLED (R284). -/
def NothingToDrop (s : State) : Prop := ∀ e ∈ s.teams, e.2.flushDrops = e.2

/-- A slot for the engine is free at the queue, and no beam waits for one. -/
def SlotForEngine (T : Team) (q j : Nat) : Prop :=
  T.qacqWaits q = false ∧ j = (queueIn T q).p % ctrlDepth (queueIn T q).ctrl ∧ (slotIn (queueIn T q) j).st = .free

end Sys2Proof.Claim

/-- R286, R287: what becomes of a tile captured for one request: its check 16 ring cycles after its passing acquires a slot of its
queue, or after a first CRC failure gives it back to the request and counts it; the delivery bus takes 64 ring cycles, and at its
end, where no granule of the core wakes (log 64), the slot holds the payload and is full with status OK and the tile and board id as
tag. -/
def Sys2Proof.Claim.TilesAreDelivered : Prop :=
  (∀ (s : State) (c k u id j : Nat) (n : StopEntry) (T : Team) (b : Board), c < 2 →
    (s.stop c k).entries = [n] → n.checked = false → n.passAt + 16 ≤ s.hring → n.reqs = [(u, id)] → n.slots = [] →
    n.poison = false → s.team? u = some T → aget T.boards id = some b → n.tile ∈ b.captured → NothingWaits s k n.passAt →
    (crc64 n.payload = n.crc → SlotForEngine T b.q j → ∃ t U m, exec (.tileChecked c k true) s = .next t ∧ t.mem = s.mem ∧ t.team? u = some U ∧
      (t.stop c k).entries = [m] ∧ m.checked = true ∧ m.slots = [(u, id, j, 0)] ∧ m.todo = [] ∧ m.payload = n.payload ∧
      (slotIn (queueIn U b.q) j).st = .acquired ∧ (slotIn (queueIn U b.q) j).engine = true) ∧
    (T.isResident = true → n.tile ∉ b.crcFail → b.back = .toSet → (s.chan c).crcf ≠ 0xFFFF →
      ∃ t U d, exec (.tileChecked c k false) s = .next t ∧ t.mem = s.mem ∧ t.team? u = some U ∧ (t.stop c k).entries = [] ∧
        (t.chan c).crcf = (s.chan c).crcf + 1 ∧ aget U.boards id = some d ∧ n.tile ∈ d.tiles ∧ n.tile ∉ d.captured ∧
        n.tile ∈ d.crcFail)) ∧
  (∀ (s : State) (c k : Nat) (n : StopEntry), c < 2 → (s.stop c k).entries = [n] → (s.stop (1 - c) k).entries = [] →
    n.checked = true → n.todo = [] → n.slots ≠ [] → n.busAt = none → NothingToDrop s → sget 0 s.halo.busFree k ≤ s.hring →
    ∃ t m, exec (.tileCommit c k) s = .next t ∧ t.mem = s.mem ∧ (t.stop c k).entries = [m] ∧ m.slots = n.slots ∧
      m.busAt = some s.hring ∧ sget 0 t.halo.busFree k = s.hring + 64) ∧
  (∀ (s : State) (c k u id j at_ : Nat) (n : StopEntry) (T : Team) (b : Board), c < 2 → (s.stop c k).entries = [n] →
    (s.stop (1 - c) k).entries = [] → n.checked = true → n.todo = [] → n.slots = [(u, id, j, 0)] → n.busAt = some at_ →
    at_ + 64 ≤ s.hring → n.payload.length = 65536 → s.team? u = some T → aget T.boards id = some b → NothingToDrop s →
    n.tile ∈ b.captured → (∀ core, T.core? = some core → s.wakeEnd core = none) →
    let off := slotOffset (queueIn T b.q) j
    ∃ t U, exec (.tileCommit c k) s = .next t ∧ t.mem = s.mem ∧ t.team? u = some U ∧ (t.stop c k).entries = [] ∧
      (∀ i, i < 65536 → U.scratch.read (off + i) = n.payload.getD i 0) ∧
      (∀ a, a < off ∨ off + 65536 ≤ a → U.scratch.read a = T.scratch.read a) ∧
      slotIn (queueIn U b.q) j = ⟨.full, w32 (256 * ((n.tile + id * 2 ^ 20) % 2 ^ 24)), false, false⟩ ∧
      ∀ d, aget U.boards id = some d → n.tile ∉ d.captured ∧ d.tiles = b.tiles) ∧
  (∀ (s : State) (u id : Nat) (T : Team) (b : Board), s.team? u = some T → T.boards = [(id, b)] → b.drop = [] →
    (T.isResident = true → b.regAt = none → b.due ≤ s.hring → T.cancels = [] → b.tiles ≠ [] →
      ∃ t U, exec (.boardRegister u id) s = .next t ∧ t.mem = s.mem ∧ t.team? u = some U ∧
        U.boards = [(id, { b with regAt := some b.due })]) ∧
    (∀ at_ k d p r B, b.regAt = some r → T.cancels = [⟨at_, id, k, d, p⟩] → b.due ≤ at_ → at_ ≤ s.hring → T.beams[k]? = some B →
      ∃ t U C, exec (.boardRegister u id) s = .next t ∧ t.mem = s.mem ∧ t.team? u = some U ∧ U.beams[k]? = some C ∧ U.cancels = [] ∧
        (∀ q ∈ B.pends, q.id = p → ∃ y ∈ C.pends, y.id = p ∧ y.wait = q.wait - 1 ∧
          y.vals = q.vals ++ inAllLanes d (w32 b.tiles.length)) ∧
        ∀ e, aget U.boards id = some e → e.tiles = [] ∧ e.captured = b.captured))

/-! ### Key-value memory and shared contexts (R294 to R317) -/

namespace Sys2Proof.Claim

/-- The context that a context operation names: the A pair of the lowest live lane. -/
def ctxVa (e : Env) : Nat := (e.b.rdPair e.x.a.toNat (lowestLane e.b.lvm)).toNat
/-- B of the beam, or the immediate. -/
def kvNumber (e : Env) : Nat := if e.x.immb then e.x.immWord.toNat else (lowReg e e.x.b.toNat).toNat

def kvReqOf (e : Env) (s1 : State) : Requester := s1.laneReq e.r e.T (lowestLane e.b.lvm)
def kvTenantOf (e : Env) : BitVec 16 := sget 0 e.b.tenant (lowestLane e.b.lvm)

/-- Earlier accesses of the beam's core on their way to the home slices of these addresses, or of the beam's long instructions to their
lines, come first (R135, R140). -/
def Behind (e : Env) (s1 : State) (pas : List Nat) : Prop := s1.ahead e.r e.T.coreId (s1.clock + 1) pas = true

/-- Nothing holds a context operation: the operand log, an acquire, or an access of its lane that waits in the log. -/
def ContextOpen (e : Env) (s1 : State) : Prop := s1.memHeld e = false ∧ e.kvLogged s1 = false

/-- The context's descriptor, which the operation writes or only reads, has been read and passes R295: it lies at `pa` and is d. -/
def Context (write : Bool) (e : Env) (s1 : State) (pa : Nat) (d : KDesc) : Prop :=
  ContextOpen e s1 ∧ ctxVa e % 128 = 0 ∧ ctxVa e / 2 ^ 56 = 0 ∧
    s1.kvDesc (kvReqOf e s1) (kvTenantOf e) write (ctxVa e) = .ok (pa, d) ∧ ¬ Behind e s1 [pa]

/-- The state in which the translation of the context's address has been remembered (R124). -/
def contextRead (e : Env) (s1 : State) : State := s1.touch (kvReqOf e s1) [ctxVa e]

/-- Values for D, D + 1, … in all 32 lanes. -/
def kvResult (e : Env) (vals : List Word) : List (Nat × Word) :=
  (vals.mapIdx fun i v => inAllLanes (e.x.d.toNat + i) v).flatten

/-- i completes with these results; memory differs from before only in the given byte ranges (address, length). -/
def KvDone (i : Instr) (s : State) (e : Env) (s1 : State) (vals : List Word) (touched : List (Nat × Nat)) (p : State → Prop) : Prop :=
  ∃ t U c, exec i s = .next t ∧ HasBeam t e.r U c ∧
    (∀ a, (∀ r ∈ touched, a < r.1 ∨ r.1 + r.2 ≤ a) → t.mem.read a = s.mem.read a) ∧
    (vals ≠ [] → ∃ q ∈ c.pends, q.id = s1.nextId ∧ q.names = writeNames e.g e.x ∧ q.wait = 0 ∧ q.vals = kvResult e vals) ∧ p t

/-- Every slot of the layers at positions [lo, hi) is written in the present generation, is not poisoned and has a readable tag (R306,
R316). -/
def SlotsWritten (e : Env) (s1 s2 : State) (d : KDesc) (lo hi : Nat) : Prop :=
  ∀ L p, L < d.layers → lo ≤ p → p < hi → ∃ pa k, s2.kvTag (kvReqOf e s1) d false L p = .ok (some (pa, k)) ∧
    s2.mem.readNat pa 4 / 2 ^ 24 % 4 = 1 ∧ s2.mem.readNat pa 4 % 2 ^ 12 = d.vgen.toNat ∧ s2.badRange pa 4 = false

/-- Where the block table entries and tags of those slots lie. -/
def slotPlaces (e : Env) (s1 s2 : State) (d : KDesc) (lo hi : Nat) : List Nat :=
  s2.kvPas (kvReqOf e s1) d.tenant (s2.kvVas (kvReqOf e s1) d (d.slots lo hi))

/-- The block tables of those slots can all be read. -/
def SlotsReadable (e : Env) (s1 s2 : State) (d : KDesc) (lo hi : Nat) : Prop :=
  ∀ L p, L < d.layers → lo ≤ p → p < hi → ∃ o, s2.kvTag (kvReqOf e s1) d false L p = .ok o

/-- The half-word of VGEN, SPOIS and DEAD (R294). -/
def flagsHalf (g : Nat) (spois dead : Bool) : Nat := g + (if spois then 2 ^ 12 else 0) + (if dead then 2 ^ 13 else 0)

/-- Position p of a layer has been published: below the frontier, or its bit of the window is set (R296). -/
def PublishedIn (m : Memory) (fra p : Nat) : Prop :=
  p < m.readNat fra 4 ∨ (m.readNat (fra + 8) 32).testBit (p - m.readNat fra 4) = true

/-- The context operations, and whether they write the descriptor. -/
noncomputable def contextOps : List ((Ext → Instr) × (Ext → Bool)) :=
  [(.kvrsv, fun _ => true), (.kvpub, fun _ => false), (.kvacq, fun _ => false), (.kvwait, fun _ => false), (.kvcmt, fun _ => true),
   (.kvroll, fun _ => true), (.kvgen, fun x => x.flg.getLsbD 0)]

/-- No beam waits with a publish held or for a frontier. -/
def NoneHeld (s : State) : Prop :=
  ∀ p ∈ s.teams, ∀ b ∈ p.2.beams, (∀ c l a n q t, b.status ≠ .kvpub c l a n q t) ∧ ∀ c l a d q t, b.status ≠ .kvwait c l a d q t

/-- Only beam r does. -/
def OnlyHeld (s : State) (r : Ref) : Prop :=
  s.teams.Pairwise (fun p q => p.1 ≠ q.1) ∧ ∀ u V k c, HasBeam s ⟨u, k⟩ V c → (⟨u, k⟩ : Ref) ≠ r →
    (∀ f l a n q t, c.status ≠ .kvpub f l a n q t) ∧ ∀ f l a d q t, c.status ≠ .kvwait f l a d q t

/-- The frontier entry at `fra` has taken the publish of positions [p0, p0 + n): it rises over every position published without a gap, and
the window holds the others (R310). -/
def HasPublished (m m' : Memory) (fra p0 n : Nat) : Prop :=
  ∃ f, m.readNat fra 4 ≤ f ∧ m'.readNat fra 4 = f % 2 ^ 32 ∧
    (∀ p, p < f → PublishedIn m fra p ∨ (p0 ≤ p ∧ p < p0 + n)) ∧ ¬ (PublishedIn m fra f ∨ (p0 ≤ f ∧ f < p0 + n)) ∧
    ∀ j, j < 256 → ((m'.readNat (fra + 8) 32).testBit j = true ↔ PublishedIn m fra (f + j) ∨ (p0 ≤ f + j ∧ f + j < p0 + n))

end Sys2Proof.Claim

/-- R135, R140, R302, R309, R372, R375: the checks of every context operation on its descriptor, in order: a context address that is not a
multiple of 128 is `MISALIGN`, one at or beyond 2^56 `MEMFAULT`, and what the descriptor's own checks refuse traps as they say; a
descriptor whose page has no translation, or is to be upgraded before a write (log 22), makes the beam wait in the operand log; earlier accesses
of its core on their way to the descriptor's home slice hold the operation. The count of a `KVRSV` is checked before all this (log 76,
DESIGN CHOICE). -/
def Sys2Proof.Claim.ContextChecks : Prop :=
  ∀ o ∈ contextOps, ∀ x s e s1, let i := o.1
    Issues (i x) s e s1 → (i x = .kvrsv x → 1 ≤ kvNumber e ∧ kvNumber e ≤ 65536) →
    let desc := s1.kvDesc (kvReqOf e s1) (kvTenantOf e) (o.2 x) (ctxVa e)
    let at_ := s1.kvPas (kvReqOf e s1) (kvTenantOf e) [ctxVa e]
    let aligned := ContextOpen e s1 ∧ ctxVa e % 128 = 0 ∧ ctxVa e / 2 ^ 56 = 0
    let reached := aligned ∧ ¬ Behind e s1 at_
    (∀ va w, reached → desc = .error (.fault va w) → exec (i x) s = .next (s1.faultWait e.r e.T va w false false)) ∧
    (∀ va, reached → desc = .error (.upgrade va) → exec (i x) s = .next (s1.faultWait e.r e.T va true false true)) ∧
    (aligned → Behind e s1 at_ → Waits (i x) s e s1) ∧
    (¬ ContextOpen e s1 → Waits (i x) s e s1) ∧
    (ContextOpen e s1 → ctxVa e % 128 ≠ 0 → TrapsOwn (i x) s e s1 cMISALIGN (ctxVa e)) ∧
    (ContextOpen e s1 → ctxVa e % 128 = 0 → ctxVa e / 2 ^ 56 ≠ 0 → TrapsOwn (i x) s e s1 cMEMFAULT (ctxVa e)) ∧
    (∀ c v, reached → desc = .error (.trap c v) → TrapsOwn (i x) s e s1 c v)

/-- R306 to R309: `KVRSV` takes the next positions and returns the first, or all ones where the context is full; `KVCMT` raises CMT where
every slot up to it is written; `KVROLL` drops the uncommitted positions and starts a new generation; `KVGEN` returns the
generation, flags and CMT, clearing SPOIS where asked. Each changes only the words of the descriptor, and the tags, that its rule
names. -/
def Sys2Proof.Claim.ContextOperations : Prop :=
  (∀ x s e s1 pa d, Issues (.kvrsv x) s e s1 → Context true e s1 pa d →
    let n := kvNumber e
    (1 ≤ n → n ≤ 65536 → d.pos + n ≤ d.nblk * 2 ^ d.log2b → KvDone (.kvrsv x) s e s1 [w32 d.pos] [(pa + 28, 4), (pa + 36, 4)]
      fun t => t.mem.readNat (pa + 28) 4 = (d.pos + n) % 2 ^ 32 ∧ t.mem.readNat (pa + 36) 4 = Max.max d.hwm (d.pos + n) % 2 ^ 32) ∧
    (1 ≤ n → n ≤ 65536 → d.nblk * 2 ^ d.log2b < d.pos + n → KvDone (.kvrsv x) s e s1 [0xFFFFFFFF] [] fun _ => True)) ∧
  (∀ x s e s1, Issues (.kvrsv x) s e s1 → kvNumber e = 0 ∨ 65536 < kvNumber e → TrapsOwn (.kvrsv x) s e s1 cILLEGAL 0) ∧
  (∀ x s e s1 pa d, Issues (.kvcmt x) s e s1 → Context true e s1 pa d →
    let c := kvNumber e
    let s2 := contextRead e s1
    let held := Behind e s2 (slotPlaces e s1 s2 d d.cmt c)
    (c ≤ d.cmt → Completes (.kvcmt x) s e s2) ∧
    (d.cmt < c → d.pos < c → TrapsOwn (.kvcmt x) s e s1 cKVTAG 0) ∧
    (d.cmt < c → c ≤ d.pos → held → Waits (.kvcmt x) s e s1) ∧
    (d.cmt < c → c ≤ d.pos → ¬ held → SlotsReadable e s1 s2 d d.cmt c → ¬ SlotsWritten e s1 s2 d d.cmt c →
      TrapsOwn (.kvcmt x) s e s1 cKVTAG 0) ∧
    (d.cmt < c → c ≤ d.pos → ¬ held → SlotsWritten e s1 s2 d d.cmt c →
      KvDone (.kvcmt x) s e s1 [] [(pa + 32, 4)] fun t => t.mem.readNat (pa + 32) 4 = c % 2 ^ 32)) ∧
  (∀ x s e s1 pa d, Issues (.kvroll x) s e s1 → Context true e s1 pa d →
    (d.vgen ≠ 4095 → KvDone (.kvroll x) s e s1 [w32 (d.vgen.toNat + 1)] [(pa + 28, 4), (pa + 40, 2)] fun t =>
      t.mem.readNat (pa + 28) 4 = d.cmt % 2 ^ 32 ∧ t.mem.readNat (pa + 40) 2 = flagsHalf (d.vgen.toNat + 1) d.spois d.dead) ∧
    (d.vgen = 4095 → 256 < d.hwm - d.cmt → TrapsOwn (.kvroll x) s e s1 cKVTAG 0) ∧
    let s2 := contextRead e s1
    let held := Behind e s2 (slotPlaces e s1 s2 d d.cmt d.hwm)
    (d.vgen = 4095 → d.hwm - d.cmt ≤ 256 → held → Waits (.kvroll x) s e s1) ∧
    (∀ tags, d.vgen = 4095 → d.hwm - d.cmt ≤ 256 → ¬ held →
      s2.kvTags (kvReqOf e s1) d true (d.slots d.cmt d.hwm) = .ok tags →
        KvDone (.kvroll x) s e s1 [0] ([(pa + 28, 4), (pa + 36, 4), (pa + 40, 2)] ++ tags.map fun a => (a, 4)) fun t =>
          t.mem.readNat (pa + 28) 4 = d.cmt % 2 ^ 32 ∧ t.mem.readNat (pa + 36) 4 = d.cmt % 2 ^ 32 ∧
          t.mem.readNat (pa + 40) 2 = flagsHalf 0 d.spois d.dead ∧
          ∀ a ∈ tags, a + 4 ≤ pa + 28 ∨ pa + 42 ≤ a → t.mem.readNat a 4 = 0)) ∧
  (∀ x s e s1 pa d, Issues (.kvgen x) s e s1 → Context (x.flg.getLsbD 0) e s1 pa d →
    KvDone (.kvgen x) s e s1 [w32 (flagsHalf d.vgen.toNat d.spois d.dead), w32 d.cmt]
      (if x.flg.getLsbD 0 then [(pa + 40, 2)] else [])
      fun t => x.flg.getLsbD 0 = true → t.mem.readNat (pa + 40) 2 = flagsHalf d.vgen.toNat false d.dead)

/-- R135, R140, R296, R310, R311: `KVPUB` publishes positions, raising the frontier over every position published without a gap, or waits
while they pass its window of 256; `KVACQ` returns the frontier, `KVWAIT` waits until it has reached the target, and both empty the
core's read-only cache. A publish or wait that was held is applied when its beam is tried and its condition holds. -/
def Sys2Proof.Claim.Frontiers : Prop :=
  (∀ x s e s1 pa d, Issues (.kvpub x) s e s1 → Context false e s1 pa d →
    let n := (lowReg e x.d.toNat).toNat
    let p0 := (lowReg e x.b.toNat).toNat
    let layer := (lowReg e x.c.toNat).toNat
    (n = 0 ∨ 256 < n → TrapsOwn (.kvpub x) s e s1 cILLEGAL 0) ∧
    (1 ≤ n → n ≤ 256 → d.layers ≤ layer ∨ d.pos < p0 + n → TrapsOwn (.kvpub x) s e s1 cPROT 0) ∧
    let s2 := contextRead e s1
    let s3 := s2.touch (kvReqOf e s1) [d.fra + 64 * layer]
    (1 ≤ n → n ≤ 256 → layer < d.layers → p0 + n ≤ d.pos → s2.quietBeam e.r e.b = false → Waits (.kvpub x) s e s1) ∧
    (∀ fra k, 1 ≤ n → n ≤ 256 → layer < d.layers → p0 + n ≤ d.pos → s2.quietBeam e.r e.b = true →
      s2.kvPa (kvReqOf e s1) d.tenant true (d.fra + 64 * layer) = .ok (fra, k) →
      (s1.mem.readNat fra 4 + 256 < p0 + n →
        Completes (.kvpub x) s e (beamNow e { s3 with nextId := s3.nextId + 1 } fun b => { b with
          orc := b.orc + 1, status := .kvpub (ctxVa e) layer p0 n s3.nextId (kvTenantOf e) })) ∧
      (p0 + n ≤ s1.mem.readNat fra 4 + 256 → NoneHeld s1 →
        KvDone (.kvpub x) s e s1 [] [(fra, 4), (fra + 8, 32)] fun t => HasPublished s1.mem t.mem fra p0 n))) ∧
  (∀ s r T b ctx layer q pa d fra k (t : BitVec 16), HasBeam s r T b → T.isResident = true → T.stopped = false → b.ptrap = none →
    b.halt = .run → OnlyHeld s r → (∀ c ∈ T.commits, c.beam ≠ r.b) →
    s.kvDesc (s.laneReq r T (lowestLane b.lvm)) t false ctx = .ok (pa, d) →
    (∀ p0 n, b.status = .kvpub ctx layer p0 n q t →
      s.kvPa (s.laneReq r T (lowestLane b.lvm)) d.tenant true (d.fra + 64 * layer) = .ok (fra, k) →
      p0 + n ≤ s.mem.readNat fra 4 + 256 →
      ∃ u U c, exec (.beamWake r.t r.b) s = .next u ∧ HasBeam u r U c ∧ c.status = .ready ∧ c.orc = b.orc - 1 ∧
        HasPublished s.mem u.mem fra p0 n) ∧
    (∀ a f, b.status = .kvwait ctx layer a f q t →
      s.kvPa (s.laneReq r T (lowestLane b.lvm)) d.tenant false (d.fra + 64 * layer) = .ok (fra, k) →
      a ≤ s.mem.readNat fra 4 →
      ∃ u U c, exec (.beamWake r.t r.b) s = .next u ∧ HasBeam u r U c ∧ u.mem = s.mem ∧ c.status = .ready ∧
        u.net.roCache = (roEmptied s T.coreId).net.roCache ∧
        ∀ p ∈ b.pends, p.id = q → ∃ y ∈ c.pends, y.id = q ∧ y.wait = p.wait - 1 ∧
          y.vals = p.vals ++ inAllLanes f (w32 (s.mem.readNat fra 4)))) ∧
  (∀ i x s e s1 pa d fra k, i = .kvacq x ∨ i = .kvwait x → Issues i s e s1 → Context false e s1 pa d → kvNumber e < d.layers →
    (contextRead e s1).kvPa (kvReqOf e s1) d.tenant false (d.fra + 64 * kvNumber e) = .ok (fra, k) →
    let f := s1.mem.readNat fra 4
    let s3 := (contextRead e s1).touch (kvReqOf e s1) [d.fra + 64 * kvNumber e]
    (Behind e s3 [fra] → Waits i s e s1) ∧
    (¬ Behind e s3 [fra] → i = .kvacq x ∨ (lowReg e x.c.toNat).toNat ≤ f →
      Completes i s e (e.pending (roEmptied s3 e.T.coreId) (writeNames e.g e.x) (kvResult e [w32 f]) 0 (e.now + 1))) ∧
    (¬ Behind e s3 [fra] → i = .kvwait x → f < (lowReg e x.c.toNat).toNat →
      Completes i s e (beamNow e (e.pending s3 (writeNames e.g e.x) [] 1 0) fun b => { b with
        status := .kvwait (ctxVa e) (kvNumber e) (lowReg e x.c.toNat).toNat x.d.toNat s3.nextId (kvTenantOf e) }))) ∧
  (∀ i x s e s1 pa d, i = .kvacq x ∨ i = .kvwait x → Issues i s e s1 → Context false e s1 pa d → d.layers ≤ kvNumber e →
    TrapsOwn i s e s1 cPROT 0)

namespace Sys2Proof.Claim

/-- The instruction has lanes: active ones, or those that it latched where it resumes part way (R226). -/
def KvHasLanes (e : Env) : Prop := e.kvPrior.isSome = true ∨ e.act ≠ 0

/-- Nothing holds the instruction: not the log or an acquire, nor earlier accesses of its core on their way to the descriptors and block
table entries that its lanes read (R135, R140). -/
def KvOpen (e : Env) (s1 : State) (kind : KvKind) : Prop :=
  s1.memHeld e = false ∧ ¬ Behind e s1 ((e.kvArgs kind).flatMap (s1.kvSeen e.r e.T))

/-- A lane's page may be among those that an entry of the same lane in the operand log has still to access (R140). -/
def KvBarred (e : Env) (s1 : State) (ok : List KvLane) : Prop := ∃ k ∈ ok, ∃ va ∈ k.vas, s1.kvBars e.r k.arg.lane va = true

/-- What an instruction on the slots of its lanes does first (R29, R226, R302, R379). -/
def KvBegins (i : Instr) (s : State) (e : Env) (s1 : State) (kind : KvKind) : Prop :=
  (¬ KvHasLanes e → Completes i s e s1) ∧ (KvHasLanes e → ¬ KvOpen e s1 kind → Waits i s e s1) ∧
    (∀ c v, KvHasLanes e → KvOpen e s1 kind → s1.kvChecks e.r e.T kind (e.kvArgs kind) = .trap c v →
      exec i s = .next (Issue.trap (Issue.issued s1 e.r e.next) e.r c 0 none
        (e.kvPrior.bind fun p => if p.1 = 0 then none else some p.1) v)) ∧
    ∀ ok aside, KvHasLanes e → KvOpen e s1 kind → s1.kvChecks e.r e.T kind (e.kvArgs kind) = .go ok aside → KvBarred e s1 ok →
      Waits i s e s1

/-- The instruction's checks pass: lanes `ok` go ahead, and lanes `aside` wait for a translation or an upgrade. -/
def KvPasses (e : Env) (s1 : State) (kind : KvKind) (ok : List KvLane) (aside : List (KvArg × KErr)) : Prop :=
  KvHasLanes e ∧ KvOpen e s1 kind ∧ s1.kvChecks e.r e.T kind (e.kvArgs kind) = .go ok aside ∧ ¬ KvBarred e s1 ok

/-- The translations of the lanes that go ahead have been remembered (R124). -/
def lanesRead (e : Env) (s1 : State) (ok : List KvLane) : State := s1.kvTouch e.r e.T ok

/-- The packets of a `KVW`, with what the beam has still to count, do not fit in `%orc` (R147). -/
def KvCrowded (e : Env) (s2 : State) (ok : List KvLane) (aside : List (KvArg × KErr)) : Prop :=
  1024 < e.b.orc.toNat + s2.reserved e.r + Machine.kvCount ok e.kvFirst + 5 * aside.length

/-- A committed slot on a line with an uncorrectable error (R317). -/
def Poisoned (s1 : State) (k : KvLane) : Prop := k.committed = true ∧ k.bad s1 = true

/-- kvslot of R300 on a slot without an error: valid where it is committed or its tag is written in the present generation. -/
def slotValid (s : State) (k : KvLane) : Bool :=
  k.there && (k.committed || (decide (s.mem.readNat k.tag 4 / 2 ^ 24 % 2 = 1) &&
    decide (s.mem.readNat k.tag 4 % 2 ^ 12 = k.d.vgen.toNat)))
/-- The unit's elements as one number, the first lowest. -/
def unitAt (s : State) (k : KvLane) : Nat :=
  ((List.range k.els.length).map fun i => s.mem.readNat ((k.els.map (·.1)).getD i 0) k.es * 2 ^ (8 * k.es * i)).sum

/-- The stores of one lane of a `KVW`: its unit's elements, and the tag (R303). -/
def kvStores (k : KvLane) : List Elem :=
  (k.els.mapIdx fun i a => ⟨k.lane, a.1, a.1, k.es, k.unit / 2 ^ (8 * k.es * i) % 2 ^ (8 * k.es), 0, 0, false⟩) ++
    [⟨k.lane, k.tag, k.tag, 4, k.d.vgen.toNat + 2 ^ 12 * (k.arg.node % 2 ^ 12) + 2 ^ 24, 0, 0, false⟩]

/-- The operands of a lane ask for what its context does not hold (R303, R304). -/
def UnitMisplaced (k : KvKind) (a : KvArg) (d : KDesc) : Prop := k ≠ .tag ∧ a.width / d.es ≠ 0 ∧ a.el % (a.width / d.es) ≠ 0
def UnitOutside (k : KvKind) (a : KvArg) (d : KDesc) : Prop :=
  d.layers ≤ a.layer ∨ (k = .write ∧ (a.high ≠ 0 ∨ a.pos < d.cmt ∨ d.pos ≤ a.pos)) ∨
    (k ≠ .tag ∧ (a.width / d.es = 0 ∨ d.heads * d.dim < a.el + a.width / d.es))

end Sys2Proof.Claim

/-- R302 to R304: the checks of the lanes' contexts and operands, in order, before any lane is performed: a context address that is no
multiple of 128 is `MISALIGN`, one at or beyond 2^56 `MEMFAULT`; an element index that no unit starts at is `MISALIGN`, and a layer, a
position to be written or a unit outside the context is `PROT`. -/
def Sys2Proof.Claim.SlotChecks : Prop :=
  ∀ (s : State) (r : Ref) (T : Team) (k : KvKind) (l : List KvArg), (∀ a ∈ l, a.desc = none) →
    let res := s.kvChecks r T k l
    ((∃ a ∈ l, a.ctx % 128 ≠ 0) → ∃ v, res = .trap cMISALIGN v) ∧
    ((∀ a ∈ l, a.ctx % 128 = 0) → (∃ a ∈ l, a.ctx / 2 ^ 56 ≠ 0) → ∃ v, res = .trap cMEMFAULT v) ∧
    ∀ f : KvArg → Nat × KDesc, (∀ a ∈ l, a.ctx % 128 = 0 ∧ a.ctx / 2 ^ 56 = 0 ∧
        s.kvDesc (s.laneReq r T a.lane) a.tenant false a.ctx = .ok (f a)) →
      ((∃ a ∈ l, UnitMisplaced k a (f a).2) → ∃ v, res = .trap cMISALIGN v) ∧
      ((∀ a ∈ l, ¬ UnitMisplaced k a (f a).2) → (∃ a ∈ l, UnitOutside k a (f a).2) → ∃ v, res = .trap cPROT v)

/-- R123, R147, R226, R302 to R305, R317, R372: `KVW`, `KVR` and `KVRT` do nothing with no lane and trap before any lane is performed;
otherwise `KVW` and `KVR` enter their beam as long instructions, `KVW` emptying its lines from the core's read-only cache, once `%orc` has
room for its packets, `KVR` with D pending, and `KVRT` returns the tags. Lanes of `KVW` that meet a translation fault enter the operand log,
and the others go ahead. A poisoned committed slot traps `KVPOISON` where the beam has a handler: the lanes before its sub-step are
delivered, and the rest stays latched. -/
def Sys2Proof.Claim.SlotInstructions : Prop :=
  (∀ x s e s1, Issues (.kvw x) s e s1 → KvBegins (.kvw x) s e s1 .write ∧
    (∀ ok aside, KvPasses e s1 .write ok aside → KvCrowded e (lanesRead e s1 ok) ok aside → Waits (.kvw x) s e s1) ∧
    (∀ ok, KvPasses e s1 .write ok [] → let s2 := lanesRead e s1 ok
      ¬ KvCrowded e s2 ok [] →
      Completes (.kvw x) s e (beamNow e
        (({ s2 with nextId := s2.nextId + 1 } : State).roDrop e.T.coreId (ok.flatMap KvLane.lines)) fun b => { b.atStep e.kvFirst with
          longs := b.longs ++ [⟨e.b.pc, e.now, e.now, .kvw s2.nextId ok [] e.kvFirst⟩] })) ∧
    ∀ ok aside, KvPasses e s1 .write ok aside → let s2 := lanesRead e s1 ok
      ¬ KvCrowded e s2 ok aside → e.b.halt = .run →
      ∃ t U c, exec (.kvw x) s = .next t ∧ HasBeam t e.r U c ∧
        c.longs = e.b.longs ++ [⟨e.b.pc, e.now, e.now, .kvw s2.nextId ok [] e.kvFirst⟩] ∧
        ∀ a ∈ aside, ∃ g ∈ t.net.log, g.packet.src = e.r ∧ g.inst = s2.nextId ∧ g.va / 65536 = a.2.va / 65536 ∧
          ∃ f, g.kv = some f ∧ f.kind = .write ∧ a.1 ∈ f.args) ∧
  (∀ x s e s1, Issues (.kvr x) s e s1 → KvBegins (.kvr x) s e s1 .read ∧
    ∀ ok, KvPasses e s1 .read ok [] → let s2 := lanesRead e s1 ok
      (∀ k ∈ ok, ¬ Poisoned s2 k) →
      Completes (.kvr x) s e (beamNow e (e.pending s2 (writeNames e.g e.x) [] (Max.max 1 (4 - e.kvFirst)) 0) fun b =>
        { b.atStep e.kvFirst with
          longs := b.longs ++ [⟨e.b.pc, e.now, e.now, .kvr ok [] e.kvNamed x.d.toNat s2.nextId e.kvFirst⟩] })) ∧
  (∀ x s e s1, Issues (.kvrt x) s e s1 → KvBegins (.kvrt x) s e s1 .tag ∧
    (∀ ok aside, KvPasses e s1 .tag ok aside → Behind e (lanesRead e s1 ok) (ok.flatMap KvLane.pas) → Waits (.kvrt x) s e s1) ∧
    (∀ ok, KvPasses e s1 .tag ok [] → let s2 := lanesRead e s1 ok
      ¬ Behind e s2 (ok.flatMap KvLane.pas) → (∀ k ∈ ok, k.bad s2 = false) →
      Completes (.kvrt x) s e (e.pending s2 (writeNames e.g e.x)
        (ok.map fun k => (regKey x.d.toNat k.lane, w32 (if k.there then s1.mem.readNat k.tag 4 else 0))) 0 (e.now + 1)))) ∧
  (∀ i x kind s e s1, (i = .kvr x ∧ kind = .read) ∨ (i = .kvrt x ∧ kind = .tag) → Issues i s e s1 →
    ∀ ok aside p q, KvPasses e s1 kind ok aside → let s2 := lanesRead e s1 ok
      ok.filter (fun k => k.committed && k.bad s2) = p :: q → (Behind e s2 (ok.flatMap KvLane.pas) → Waits i s e s1) ∧
      (¬ Behind e s2 (ok.flatMap KvLane.pas) → e.b.tvec ≠ 0 →
      let at_ (k : KvLane) := Max.max e.kvFirst (k.lane / 8)
      ∀ g, (∀ k ∈ p :: q, g ≤ at_ k) → (∃ k ∈ p :: q, g = at_ k) → (∀ k ∈ ok, at_ k < 4) →
      ∃ s3 U c l, exec i s = .next (Issue.trap (Issue.issued s3 e.r e.next) e.r cKVPOISON 0 none (some g) p.ctx) ∧
        HasBeam s3 e.r U c ∧ c.trapped = some l ∧ l.pc = e.b.pc ∧ l.at_ = e.now ∧
        (∃ n, l.op = .kvr (ok.filter fun k => decide (g ≤ at_ k)) (aside.map (·.1)) e.kvNamed x.d.toNat n g) ∧
        ∃ y ∈ c.pends, y.names = writeNames e.g e.x ∧ y.wait = 0 ∧
          y.vals = (s2.kvValues kind (s2.funcOf e.T) x.d.toNat (ok.filter fun k => decide (at_ k < g))).1))

/-- R135, R140, R300, R303 to R305, R371: sub-step g of a `KVW` sends the units and tags of the lanes up to 8g + 7 that are left, in its place in
program order and under the generation of its translations; of a `KVR` it delivers the values and validity of theirs. `%pix` follows,
but in a handler (log 57). -/
def Sys2Proof.Claim.SlotSubsteps : Prop :=
  (∀ (s : State) (r : Ref) (T : Team) (b : Beam) (i : Nat) (ls : List KvLane) (rest : List KvArg) (g : Nat) (l : LongRun),
    HasBeam s r T b → b.halt = .run → b.latched = none → l.op = .kvw i ls rest g → b.longs = [l] → b.orc.toNat + 136 ≤ 1024 →
    (∀ k ∈ ls, k.els.length ≤ 16) →
    let own := ls.filter fun k => decide (k.lane / 8 ≤ g)
    own.length ≤ 8 →
    ∃ t U c ps, exec (.kvSubstep r.t r.b) s = .next t ∧ HasBeam t r U c ∧ t.mem = s.mem ∧ t.net.packets = s.net.packets ++ ps ∧
      (ps.flatMap (·.elems)).Perm (own.flatMap kvStores) ∧
      (∀ p ∈ ps, p.op = .store ∧ p.src = r ∧ p.sentAt = l.at_ ∧ ∀ n, (∀ k ∈ own, k.gen = n) → p.gen = n) ∧
      c.orc.toNat = b.orc.toNat + ps.length ∧
      (g + 1 < 4 → c.longs = [⟨l.pc, l.at_, l.since, .kvw i (ls.filter fun k => decide (g < k.lane / 8)) rest (g + 1)⟩] ∧
        (causeInh b.cause = false → c.pix = w32 (g + 1))) ∧
      (4 ≤ g + 1 → c.longs = [])) ∧
  (∀ (s : State) (r : Ref) (T : Team) (b : Beam) (ls : List KvLane) (rest : List KvArg) (m : List (Nat × Nat)) (d id g : Nat)
    (l : LongRun), HasBeam s r T b → b.halt = .run → b.latched = none → l.op = .kvr ls rest m d id g → b.longs = [l] →
    let own := ls.filter fun k => decide (k.lane / 8 ≤ g)
    (s.ahead r T.coreId l.at_ (own.flatMap KvLane.pas) = true → exec (.kvSubstep r.t r.b) s = .next s) ∧
    (s.ahead r T.coreId l.at_ (own.flatMap KvLane.pas) = false → (∀ k ∈ own, k.bad s = false) →
    (∀ k ∈ own, k.gen = (s.func ((s.ownerOf k.tenant).getD (s.funcOf T))).gen) →
    ∃ t U c, exec (.kvSubstep r.t r.b) s = .next t ∧ HasBeam t r U c ∧ t.mem = s.mem ∧
      (g + 1 < 4 → c.longs = [⟨l.pc, l.at_, l.since, .kvr (ls.filter fun k => decide (g < k.lane / 8)) [] m d id (g + 1)⟩] ∧
        (causeInh b.cause = false → c.pix = w32 (g + 1))) ∧
      (4 ≤ g + 1 → c.longs = []) ∧
      ∀ q ∈ b.pends, q.id = id → ∃ y ∈ c.pends, y.id = id ∧ y.wait = q.wait - 1 ∧ y.vals = q.vals ++ own.flatMap fun k =>
        [(regKey d k.lane, w32 (if slotValid s k then unitAt s k else 0)),
         (regKey (d + 1) k.lane, if slotValid s k then 1 else 0)]))

/-- R144, R149, R267, R272, R314, R380: `KVSTAGE` makes the checks of a job on a staging card and adds its job. -/
def Sys2Proof.Claim.StagingIssues : Prop :=
  (∀ x s e s1, Issues (.kvstage x) s e s1 → CardLater e s1 → Waits (.kvstage x) s e s1) ∧
  ∀ x s e s1, Issues (.kvstage x) s e s1 → ¬ CardLater e s1 →
    let off := (beamA e).toNat
    let ok := cardBits e 0 4 = 4 ∧ cardBits e 11 5 = 0 ∧ cardBits e 4 3 = 0 ∧ cardBits e 7 1 = 1 ∧ cardBits e 18 14 = 0 ∧
      1 ≤ cardField e 4 4 ∧ cardField e 4 4 ≤ 1024 ∧ cardField e 16 8 = 0 ∧ cardField e 24 8 / 2 ^ 44 = 0
    let q := cardBits e 8 3
    let there := q < queuesOf s1 e ∧ (queueIn e.T q).inst = true
    (off % 64 ≠ 0 → TrapsOwn (.kvstage x) s e s1 cMISALIGN 0) ∧
    (off % 64 = 0 → scratchSize s1 e < off + 64 → TrapsOwn (.kvstage x) s e s1 cPROT 0) ∧
    (off % 64 = 0 → off + 64 ≤ scratchSize s1 e → CardBad e → TrapsOwn (.kvstage x) s e s1 cPOISONOWN 0) ∧
    (off % 64 = 0 → off + 64 ≤ scratchSize s1 e → ¬ CardBad e → ¬ ok → TrapsOwn (.kvstage x) s e s1 cILLEGAL 0) ∧
    (off % 64 = 0 → off + 64 ≤ scratchSize s1 e → ¬ CardBad e → ok → ¬ there → TrapsOwn (.kvstage x) s e s1 cPROT 0) ∧
    (off % 64 = 0 → off + 64 ≤ scratchSize s1 e → ¬ CardBad e → ok → there → JobHeld e s1 → Waits (.kvstage x) s e s1) ∧
    (off % 64 = 0 → off + 64 ≤ scratchSize s1 e → ¬ CardBad e → ok → there → ¬ JobHeld e s1 →
      ∃ t U c j, exec (.kvstage x) s = .next t ∧ HasBeam t e.r U c ∧ t.mem = s.mem ∧ t.jobs = s.jobs ++ [j] ∧
        j.team = some e.r.t ∧ j.beam = e.r.b ∧ j.handle = handleAfter e.T.nextH ∧ j.queue = some q ∧
        j.from_ = cardField e 8 8 ∧ j.after = (if x.flg.getLsbD 0 then none else some (e.now, e.b.scrAt)) ∧
        j.kind = .stage (decide (cardBits e 16 1 = 1)) (decide (cardBits e 17 1 = 1)) (cardField e 4 4) (cardField e 24 4)
          (cardField e 28 4 % 4096) ∧ U.nextH = j.handle ∧
        ∃ k ∈ c.pends, k.names = writeNames e.g e.x ∧ k.vals = inAllLanes x.d.toNat (w32 j.handle) ∧ k.wait = 0)

/-! ### Waits that end (R109, R171 to R174, R197, R241, R262, R275, R277, R285, R310, R311, R328) -/

namespace Sys2Proof.Claim

/-- The beam is ready again, in no earlier cycle than this one. -/
def wokenBeam (b : Beam) (now : Nat) : Beam := { b with status := .ready, issueAt := Max.max b.issueAt now }

/-- The pending result of the given id has all its values. -/
def Answered (b c : Beam) (id : Nat) (vals : List (Nat × Word)) : Prop :=
  ∀ p ∈ b.pends, p.id = id → ∃ q ∈ c.pends, q.id = id ∧ q.names = p.names ∧ q.vals = p.vals ++ vals ∧ q.wait = p.wait - 1

/-- The wait of beam r ends with a result: the beam is ready and D is answered. -/
def WakesWith (i : Instr) (s : State) (r : Ref) (b : Beam) (id : Nat) (vals : List (Nat × Word)) : Prop :=
  ∃ t U c, exec i s = .next t ∧ HasBeam t r U c ∧ t.mem = s.mem ∧ c.status = .ready ∧ c.pc = b.pc ∧ Answered b c id vals

end Sys2Proof.Claim

/-- R171 to R174, R262, R275, R277, R290, R328: `YIELD_END` and `BEAM_WAKE` end a wait when its condition is met: a yield at its limit, or
once each sibling that was ready has issued; `BAR` once its arrival has been taken back; a named barrier whose phase is no longer the
token; `MWAIT` when its entries have gone; `QACQ` and `QWAIT` when their slot can be taken, the lower beam first of two that came in one
cycle (R271); `PACAP` from DONE; `JWAIT` and the sleep of `YIELDJ` on a closed job without a trap; `HBOARD` once a board id is free. The
ends of `WAITM` are in WatchesEnd, those of `KVPUB` and `KVWAIT` in Frontiers, those of `XCHG` in ExchangeMeets. -/
def Obligations.WaitsEnd : Prop :=
  ∀ (s : State) (r : Ref) (T : Team) (b : Beam), HasBeam s r T b → (∃ c, T.life = .resident c) → T.stopped = false →
    b.ptrap = none → (∀ c ∈ T.commits, c.beam ≠ r.b) →
    let wake := Instr.beamWake r.t r.b
    (∀ l q, b.status = .yielded l q → l ≤ s.clock ∨
        (∀ k ∈ q, ∀ c, s.beam? k = some c → ∃ x, c.lastIssue = some x ∧ ∀ y, b.lastIssue = some y → y < x) →
      exec (.yieldEnd r.t r.b) s = .next (s.setBeam r { b with status := .ready })) ∧
    (b.status = .bar → T.arrived.getLsbD r.b = false → exec wake s = .next (s.setBeam r (wokenBeam b s.clock))) ∧
    (b.status = .bar → T.arrived.getLsbD r.b = true → exec wake s = .next s) ∧
    (∀ k tok, b.status = .named k tok → (barrierOf T k).ph ≠ tok → exec wake s = .next (s.setBeam r (wokenBeam b s.clock))) ∧
    (∀ ids, b.status = .mwait ids → (∀ n ∈ (s.core T.coreId).entries, n.id ∉ ids) →
      exec wake s = .next (s.setBeam r (wokenBeam b s.clock))) ∧
    (∀ q d id, b.status = .qacq q d id → (∃ k c d' id', k < r.b ∧ T.beams[k]? = some c ∧ c.status = .qacq q d' id' ∧
      c.lastIssue = b.lastIssue) → exec wake s = .next s) ∧
    (∀ q d id, b.status = .qwait q d id → (∃ k c d' id', k < r.b ∧ T.beams[k]? = some c ∧ c.status = .qwait q d' id' ∧
      c.lastIssue = b.lastIssue) → exec wake s = .next s) ∧
    (∀ q d id, b.status = .qacq q d id →
      (∀ k c d' id', k < r.b → T.beams[k]? = some c → c.status = .qacq q d' id' → c.lastIssue ≠ b.lastIssue) →
      (slotIn (queueIn T q) ((queueIn T q).p % ctrlDepth (queueIn T q).ctrl)).st = .free → WakesWith wake s r b id
        (inAllLanes d (w32 (slotOffset (queueIn T q) ((queueIn T q).p % ctrlDepth (queueIn T q).ctrl))))) ∧
    (∀ q d id, b.status = .qwait q d id →
      (∀ k c d' id', k < r.b → T.beams[k]? = some c → c.status = .qwait q d' id' → c.lastIssue ≠ b.lastIssue) →
      let j := (queueIn T q).c % ctrlDepth (queueIn T q).ctrl
      (slotIn (queueIn T q) j).st = .full → WakesWith wake s r b id
        (inAllLanes d (w32 (slotOffset (queueIn T q) j)) ++ inAllLanes (d + 1) (slotIn (queueIn T q) j).status)) ∧
    (∀ d id, b.status = .pacap d id → T.prism.state = .done →
      WakesWith wake s r b id (lanes.map fun l => (regKey d l, T.prism.result l))) ∧
    (∀ h to_, b.status = .jwait h ∨ b.status = .jsleep h to_ → JobClosed s r.t h → ¬ statusTraps (statusKept T h) →
      ∃ t U c, exec wake s = .next t ∧ HasBeam t r U c ∧ t.mem = s.mem ∧ c.status = .ready ∧ c.jstat = statusKept T h ∧ c.pc = b.pc) ∧
    (∀ ch q layer tile n d id no, b.status = .board ch q layer tile n d id → LowestFree T no → 1 ≤ n →
      ∃ t U c B, exec wake s = .next t ∧ HasBeam t r U c ∧ t.mem = s.mem ∧ c.status = .ready ∧ c.pc = b.pc ∧
        aget U.boards no = some B ∧ B.ch = ch ∧ B.q = q ∧ B.layer = layer ∧ B.tiles = (List.range n).map (fun i => tile + i) ∧
        B.captured = [] ∧ B.due = 2 * s.clock + 16 ∧
        ∀ p ∈ b.pends, p.id = id → ∃ y ∈ c.pends, y.id = id ∧ y.names = p.names ∧ y.vals = inAllLanes d (w32 no) ∧ y.wait = 0 ∧
          y.ready = s.clock + 8)

/-- R147, R226: the next group of a memory instruction with more than eight packets is sent while `%orc` has room for it. -/
def Sys2Proof.Claim.CoalescerGroups : Prop :=
  ∀ (s : State) (r : Ref) (T : Team) (b : Beam) (i : Nat) (gs : List (List Packet)) (rest : List Elem) (ps : List Packet) (n : Nat)
    (l : LongRun), HasBeam s r T b → b.halt = .run → l.op = .coal i gs rest n → b.longs = [l] → gs[n]? = some ps →
    let counted := (ps.filter fun p => p.op.counted).length
    (1024 < b.orc.toNat + counted → exec (.coalescerGroup r.t r.b) s = .next s) ∧
    (b.orc.toNat + counted ≤ 1024 → (∀ p ∈ ps, s.poisoned p = false) →
      ∃ t U c, exec (.coalescerGroup r.t r.b) s = .next t ∧ HasBeam t r U c ∧ t.mem = s.mem ∧
        t.net.packets = s.net.packets ++ ps ∧ c.orc.toNat = b.orc.toNat + counted ∧
        c.pix = (if n + 1 < gs.length then stepPix b (n + 1) else b.pix) ∧
        c.longs = (if n + 1 < gs.length then [⟨l.pc, l.at_, l.since, .coal i gs [] (n + 1)⟩] else []))

/-! ### Packets at home slices (R120, R135 to R148, R225 to R241, R371) -/

namespace Sys2Proof.Claim

/-- The k-th packet is due at its home slice on this device, in its function's present generation. -/
def AtHome (s : State) (k : Nat) (p : Packet) : Prop :=
  s.net.packets[k]? = some p ∧ s.servable k p = true ∧ p.gen = (s.func p.func).gen ∧ p.target = none ∧
    (p.kind = .hbm ∨ p.kind = .cxl)

/-- The elements lie on one line, each aligned (R119, R225). -/
def OnOneLine (p : Packet) : Prop :=
  ∀ x ∈ p.elems, x.pa / 128 = p.pa / 128 ∧ 0 < x.size ∧ x.pa % x.size = 0 ∧ 128 % x.size = 0 ∧ x.val < 2 ^ (8 * x.size)

/-- A byte of memory after the elements of a store, in order: the last element that covers it counts (R229). -/
def storedElem (m : Memory) (l : List Elem) (a : Nat) : Byte :=
  match l.reverse.find? fun x => decide (x.pa ≤ a) && decide (a < x.pa + x.size) with
  | some x => BitVec.ofNat 8 (x.val / 2 ^ (8 * (a - x.pa)))
  | none => m.read a

/-- What the lanes' atomics leave in memory and find there, in order (R234). -/
def elemAtomics (op : Nat) : Memory → List Elem → Memory × List Nat
  | m, [] => (m, [])
  | m, x :: r =>
    let old := m.readNat x.pa x.size
    let p := elemAtomics op (m.writeNat x.pa x.size (atomic op x.size old x.val x.cmp)) r
    (p.1, old :: p.2)

/-- The packet has left the network, its beam b is now c, and no register, count or other state of the beams changes at once. -/
def Served (s t : State) (k : Nat) (p : Packet) (T U : Team) (b c : Beam) : Prop :=
  exec (.sliceAccess k) s = .next t ∧ t.net.packets = s.net.packets.eraseIdx k ∧ HasBeam s p.src T b ∧ HasBeam t p.src U c ∧
    c.main = b.main ∧ c.win = b.win ∧ c.orc = b.orc ∧ U.scratch = T.scratch

/-- An acknowledgement of the packet sets out for its beam (R148), with the request's slack tag (R137). -/
def AckSent (s t : State) (p : Packet) : Prop := t.net.acks = s.net.acks ++ [⟨p.id, p.src, p.sentAt, p.place, p.core, p.slack⟩]

end Sys2Proof.Claim

/-- R121, R139, R140, R228 to R234, R371: a packet at its home slice: a load returns its line's elements and changes no memory; a store
changes exactly the bytes of its elements; an atomic or reduction applies its lanes in order, the atomic returning what each found; a
prefetch changes nothing; stores, atomics and reductions are acknowledged. A packet that an earlier one holds back stays. One of an
old generation changes no memory and is counted. -/
def Sys2Proof.Claim.PacketsAtSlices : Prop :=
  (∀ s k p, s.net.packets[k]? = some p → s.servable k p = false → exec (.sliceAccess k) s = .next s) ∧
  (∀ s k p T b id, AtHome s k p → OnOneLine p → HasBeam s p.src T b → p.op = .load → p.pend = some id →
    ∃ t U c, Served s t k p T U b c ∧ t.mem = s.mem ∧
      Answered b c id (p.elems.flatMap fun x => loaded x.reg x.lane x.size (s.mem.readNat x.pa x.size) x.sx)) ∧
  (∀ s k p T b, AtHome s k p → OnOneLine p → HasBeam s p.src T b → p.op = .store → p.job = none →
    ∃ t, Served s t k p T T b b ∧ AckSent s t p ∧ t.teams = s.teams ∧ ∀ a, t.mem.read a = storedElem s.mem p.elems a) ∧
  (∀ s k p T b op, AtHome s k p → OnOneLine p → HasBeam s p.src T b → p.op = .red op → p.job = none →
    ∃ t, Served s t k p T T b b ∧ AckSent s t p ∧ ∀ a, t.mem.read a = (elemAtomics op s.mem p.elems).1.read a) ∧
  (∀ s k p T b op id, AtHome s k p → OnOneLine p → (∀ x ∈ p.elems, x.size = p.size) → HasBeam s p.src T b → p.op = .atom op →
    p.pend = some id → p.job = none →
    ∃ t U c, Served s t k p T U b c ∧ AckSent s t p ∧ (∀ a, t.mem.read a = (elemAtomics op s.mem p.elems).1.read a) ∧
      Answered b c id ((p.elems.zip (elemAtomics op s.mem p.elems).2).flatMap fun q => loaded q.1.reg q.1.lane q.1.size q.2 false)) ∧
  (∀ s k p T b, AtHome s k p → HasBeam s p.src T b → p.op = .prefetch →
    ∃ t, Served s t k p T T b b ∧ t.mem = s.mem ∧ t.teams = s.teams) ∧
  (∀ s k p T b, s.net.packets[k]? = some p → s.servable k p = true → p.gen ≠ (s.func p.func).gen → p.op = .store →
    HasBeam s p.src T b → (s.func p.func).stale.toNat < 2 ^ 32 - 1 →
    ∃ t, Served s t k p T T b b ∧ t.mem = s.mem ∧ (t.func p.func).stale = (s.func p.func).stale + 1)

namespace Sys2Proof.Claim

/-- A packet of the management class, where none has won at its slice in the last 8 mesh cycles, which are 4 cycles of the clock (R2,
R3, R137). -/
def Managing (s : State) (p : Packet) : Prop :=
  p.mgmt = true ∧ ∀ c, aget s.net.mgmtAt (homeSlice p.kind p.pa) = some c → c + 4 ≤ s.clock

/-- How many input ports come before the packet's in a round robin that port `last` has won last. -/
def portTurn (last : Nat) (p : Packet) : Nat := (Config.inPort p.core (homeSlice p.kind p.pa) % 8 + 7 - last) % 8

/-- The order of R136 between two packets that wait: a strictly comes before b. -/
def Before (s : State) (last : Nat) (a b : Packet) : Prop :=
  (Managing s a ∧ ¬ Managing s b) ∨ ((Managing s a ↔ Managing s b) ∧
    ((a.age = 255 ∧ b.age ≠ 255) ∨ (a.age ≠ 255 ∧ b.age ≠ 255 ∧ (a.slack < b.slack ∨ (a.slack = b.slack ∧
      (b.pri < a.pri ∨ (b.pri = a.pri ∧ portTurn last a < portTurn last b)))))))

/-- The k-th packet competes: it is among those of the place, and nothing else holds it. -/
def Competes (s : State) (ks : List Nat) (k : Nat) (p : Packet) : Prop :=
  k ∈ ks ∧ s.net.packets[k]? = some p ∧ s.servable k p = true

/-- The element that a watch compares. -/
def watched (p : Packet) : Elem := p.elems.headD ⟨0, 0, 0, 4, 0, 0, 0, false⟩

/-- The value reaches every lane of the watch's mask, and the beam is ready. -/
def WatchEnds (i : Instr) (s : State) (r : Ref) (b : Beam) (id v : Nat) (m : Word) (d size : Nat) : Prop :=
  WakesWith i s r b id ((lanes.filter fun l => m.getLsbD l).flatMap fun l => loaded d l size v false)

end Sys2Proof.Claim

/-- R135, R136, R137, R147: an acknowledgement lowers `%orc` by one, behind every earlier one from its place to its core; arbitration
chooses a waiting packet before which no other comes and, among equals, the one that arrived first (which port of a router's output won
last is free, that of a slice's queue is remembered: log 63, DESIGN CHOICE); every other packet that competed
grows older, to 255 at most, and those of the winner's place are served after it. -/
def Sys2Proof.Claim.AcknowledgementAndArbitration : Prop :=
  (∀ (s : State) (k j : Nat) (a c : Ack), s.net.acks[k]? = some a → j < k → s.net.acks[j]? = some c → c.place = a.place →
    c.core = a.core → exec (.acknowledgement k) s = .next s) ∧
  (∀ (s : State) (k : Nat) (a : Ack) (T : Team) (b : Beam), s.net.acks[k]? = some a →
    (∀ (j : Nat) (c : Ack), j < k → s.net.acks[j]? = some c → c.place = a.place → c.core ≠ a.core) →
    HasBeam s a.src T b → 1 ≤ b.orc.toNat →
    ∃ t U c, exec (.acknowledgement k) s = .next t ∧ t.net.acks = s.net.acks.eraseIdx k ∧ HasBeam t a.src U c ∧
      c.orc.toNat = b.orc.toNat - 1 ∧ c.main = b.main ∧ t.mem = s.mem) ∧
  (∀ (s : State) (ks : List Nat), (∃ k p, Competes s ks k p) →
    ∃ t w p last, exec (.packetArbitration ks) s = .next t ∧ Competes s ks w p ∧ t.mem = s.mem ∧ t.teams = s.teams ∧
      t.net.packets.length = s.net.packets.length ∧
      let one := ∀ k q, Competes s ks k q → homeSlice q.kind q.pa = homeSlice p.kind p.pa
      (one → last = sget 0 s.net.turns (homeSlice p.kind p.pa)) ∧
      (∀ k q, Competes s ks k q → ¬ Before s last q p ∧ (k < w → Before s last p q)) ∧
      (∀ k q, Competes s ks k q → k ≠ w → t.net.packets[k]? = some { q with
        age := min (q.age + 1) 255, behind := if q.place = p.place then q.behind ++ [p.id] else q.behind }) ∧
      (∀ (k : Nat) (q : Packet), s.net.packets[k]? = some q → ¬ Competes s ks k q ∨ k = w → t.net.packets[k]? = some q) ∧
      (one → sget 0 t.net.turns (homeSlice p.kind p.pa) = Config.inPort p.core (homeSlice p.kind p.pa) % 8)) ∧
  (∀ (s : State) (k : Nat) (p q : Packet), q ∈ s.net.packets → q.id ∈ p.behind → s.servable k p = false)

/-- R241, R371, R380: a watch whose element differs already answers at once; any other is held at the slice; a write of its line answers it,
and its limit withdraws it and reads the element as a load, under the watch's own translation. An uncorrectable error in the element traps
`POISON` at the `WAITM`. -/
def Sys2Proof.Claim.WatchesEnd : Prop :=
  (∀ s k p T b id m lim d size, AtHome s k p → HasBeam s p.src T b → p.op = .watch → p.pend = some id → 0 < size →
    (watched p).size = size → b.status = .watch id m lim d size → s.badRange (watched p).pa size = false →
    let v := s.mem.readNat (watched p).pa size
    (v ≠ (watched p).val → WatchEnds (.sliceAccess k) s p.src b id v m d size) ∧
    (v = (watched p).val → s.watchesAt (homeSlice p.kind (watched p).pa) < 64 → (∀ l, lim = some l → s.clock < l) →
      ∃ t, Served s t k p T T b b ∧ t.mem = s.mem ∧
        t.net.watches = s.net.watches ++
          [⟨.beam p.src id, p.kind, (watched p).pa, size, false, (watched p).va, p.func, p.gen, false⟩])) ∧
  (∀ (s : State) (k : Nat) (r : Ref) (T : Team) (b : Beam) (id : Nat) (w : Watch) (m : Word) (lim : Option Nat) (d : Nat),
    s.net.watches[k]? = some w → w.who = .beam r id → w.hit = true → w.kind = .hbm ∨ w.kind = .cxl → 0 < w.size → HasBeam s r T b →
    b.status = .watch id m lim d w.size →
    (s.badRange w.pa w.size = false → WatchEnds (.watchReply k) s r b id (s.mem.readNat w.pa w.size) m d w.size) ∧
    (s.badRange w.pa w.size = true → exec (.watchReply k) s = .next
      ((({ s with net := { s.net with watches := s.net.watches.eraseIdx k } } : State).modBeam r Beam.withdraw).lateTrap r cPOISON 0
        b.waitPc none 0 w.va))) ∧
  (∀ (s : State) (k : Nat) (r : Ref) (T : Team) (b : Beam) (id : Nat) (w : Watch) (m : Word) (l : Nat) (d : Nat),
    s.net.watches[k]? = some w → w.who = .beam r id → HasBeam s r T b → b.status = .watch id m (some l) d w.size →
    l ≤ s.clock → m ≠ 0 → s.badRange w.pa w.size = false →
    ∃ t U c p, exec (.watchTimeout k) s = .next t ∧ HasBeam t r U c ∧ t.mem = s.mem ∧ c.status = .ready ∧
      t.net.watches = s.net.watches.eraseIdx k ∧ t.net.packets = s.net.packets ++ [p] ∧ p.op = .load ∧ p.src = r ∧
      p.pend = some id ∧ p.func = w.func ∧ p.gen = w.gen ∧
      p.elems = (lanes.filter fun l => m.getLsbD l).map fun l => ⟨l, w.va, w.pa, w.size, 0, 0, d, false⟩)

/-! ### Translation faults, walks and shootdown (R365 to R373) -/

namespace Sys2Proof.Claim

/-- A level of the table in memory (R365): the 8-byte entry at index va [25 + 10 n : 16 + 10 n]. -/
def tableEntry (m : Memory) (table va n : Nat) : Dword :=
  w64 (m.readNat (table + 8 * (va / 2 ^ (16 + 10 * n) % 1024)) 8)

/-- The cached translations that satisfy p are gone, and the others stand. -/
def TlbWithout (s t : State) (p : TlbEntry → Prop) : Prop := ∀ e, e ∈ t.net.tlb ↔ e ∈ s.net.tlb ∧ ¬ p e

/-- A shootdown of the mode is in progress for the function and has not removed anything yet. -/
def ShootdownDue (s : State) (mode : Nat) (f : BitVec 6) : Prop :=
  s.regs.sdBusy = true ∧ s.regs.sdMode.toNat = mode ∧ s.regs.sdFunc = f ∧ s.regs.sdMark = none

/-- An entry covers an address of the range. -/
def TouchesRange (e : TlbEntry) (f lo len : Nat) : Prop :=
  e.func = f ∧ e.page * 2 ^ (16 + 10 * e.leaf.level) < lo + len ∧ lo < (e.page + 1) * 2 ^ (16 + 10 * e.leaf.level)

end Sys2Proof.Claim

/-- R365: a walk reads one entry at each level from the root, and ends at an invalid entry, a leaf or an ill-formed one. -/
def Sys2Proof.Claim.WalksReadTheTable : Prop :=
  ∀ (m : Memory) (n table va : Nat), n ≤ 3 →
    walkFrom m (n + 1) table va = match pteOf (tableEntry m table va n) n with
      | .table a => walkFrom m n a va
      | x => x

/-- R366, R367: what an entry says: V clear is invalid; a leaf is ill-formed at level 3, with a reserved kind, with bit 8 set, with a frame
that its level does not align, or where the replica of a multicast page lies outside the HBM and CXL ranges; an entry that is no leaf
leads to the next table, unless at level 0, with a reserved bit set or with a table outside HBM. -/
def Sys2Proof.Claim.EntriesAreRead : Prop :=
  ∀ (e : Dword) (n : Nat),
    (e.toNat % 2 = 0 → pteOf e n = .invalid) ∧
    (e.toNat % 4 = 3 → (n = 3 ∨ e.toNat / 2 ^ 8 % 2 = 1 ∨ 5 ≤ e.toNat / 2 ^ 13 % 8 ∨ e.toNat / 2 ^ 16 % 2 ^ 32 % 2 ^ (10 * n) ≠ 0) →
      pteOf e n = .bad) ∧
    (e.toNat % 4 = 3 → n < 3 → e.toNat / 2 ^ 8 % 2 = 0 → e.toNat / 2 ^ 13 % 8 < 4 → e.toNat / 2 ^ 16 % 2 ^ 32 % 2 ^ (10 * n) = 0 →
      ∃ l, pteOf e n = .leaf l ∧ l.tenant.toNat = e.toNat / 2 ^ 48 ∧ l.frame.toNat = e.toNat / 2 ^ 16 % 2 ^ 32 ∧
        l.w = e.getLsbD 12 ∧ l.x = e.getLsbD 11 ∧ l.rd = e.getLsbD 10 ∧ l.pin = e.getLsbD 9 ∧ l.aux = e.toNat / 4 % 64 ∧
        l.level = n ∧ l.kind = [PKind.hbm, .cxl, .host, .peer].getD (e.toNat / 2 ^ 13 % 8) .hbm) ∧
    (e.toNat % 4 = 3 → n < 3 → e.toNat / 2 ^ 8 % 2 = 0 → e.toNat / 2 ^ 13 % 8 = 4 → e.toNat / 2 ^ 16 % 2 ^ 32 % 2 ^ (10 * n) = 0 →
      let replica := e.toNat / 2 ^ 16 % 2 ^ 32 * 2 ^ 16
      (replica < 2 ^ 40 ∨ (2 ^ 44 ≤ replica ∧ replica < 2 ^ 45) → ∃ l, pteOf e n = .leaf l ∧ l.kind = .multicast ∧
        l.tenant.toNat = e.toNat / 2 ^ 48 ∧ l.frame.toNat = e.toNat / 2 ^ 16 % 2 ^ 32 ∧ l.w = e.getLsbD 12 ∧ l.aux = e.toNat / 4 % 64 ∧
        l.level = n) ∧
      (2 ^ 40 ≤ replica → replica < 2 ^ 44 ∨ 2 ^ 45 ≤ replica → pteOf e n = .bad)) ∧
    (e.toNat % 4 = 1 → n = 0 ∨ e.toNat / 2 ^ 48 ≠ 0 ∨ e.toNat / 4 % 2 ^ 11 ≠ 0 ∨ 2 ^ 40 ≤ e.toNat / 2 ^ 13 % 2 ^ 35 * 2 ^ 13 →
      pteOf e n = .bad) ∧
    (e.toNat % 4 = 1 → n ≠ 0 → e.toNat / 2 ^ 48 = 0 → e.toNat / 4 % 2 ^ 11 = 0 → e.toNat / 2 ^ 13 % 2 ^ 35 * 2 ^ 13 < 2 ^ 40 →
      pteOf e n = .table (e.toNat / 2 ^ 13 % 2 ^ 35 * 2 ^ 13))

/-- R369 to R374: a walk that ends at a valid leaf is cached, and no other; a shootdown removes exactly the translations that its mode
names and is done when every earlier access has been performed, those of long instructions and held watches among them; a fault not
answered within FTMO is answered as failed, but for a page in migration. -/
def Sys2Proof.Claim.TranslationEvents : Prop :=
  (∀ (s : State) (core f : Nat) (va : Dword) (l : Leaf) (pa : Nat), core < 1024 → f < 64 → va.toNat < 2 ^ 56 →
    s.walk f (s.func f).part.toNat va.toNat = .ok l pa →
    ∃ t, exec (.pageWalk core f va) s = .next t ∧ t.mem = s.mem ∧ t.teams = s.teams ∧
      ∃ e ∈ t.net.tlb, e.place = .core core ∧ e.func = f ∧ e.leaf = l ∧ e.page = va.toNat / 2 ^ (16 + 10 * l.level)) ∧
  (∀ (s : State) (core f : Nat) (va : Dword), (∀ l pa, s.walk f (s.func f).part.toNat va.toNat ≠ .ok l pa) →
    exec (.pageWalk core f va) s = .next s) ∧
  (∀ (s : State) (f : BitVec 6),
    (ShootdownDue s 0 f → ∃ t, exec (.shootdownRange f) s = .next t ∧ t.mem = s.mem ∧ t.regs.sdMark = some s.nextId ∧
      TlbWithout s t fun e => TouchesRange e f.toNat s.regs.sdVa.toNat (65536 * s.regs.sdLen.toNat)) ∧
    (ShootdownDue s 1 f → ∃ t, exec (.shootdownSpace f) s = .next t ∧ t.mem = s.mem ∧ t.regs.sdMark = some s.nextId ∧
      TlbWithout s t fun e => e.func = f.toNat) ∧
    (ShootdownDue s 2 f → ∃ t, exec (.shootdownTenant f) s = .next t ∧ t.mem = s.mem ∧ t.regs.sdMark = some s.nextId ∧
      TlbWithout s t fun e => e.leaf.tenant = (s.func f.toNat).ftag)) ∧
  (∀ (s : State) (n : Nat), s.regs.sdBusy = true → s.regs.sdMark = some n → (∀ p ∈ s.net.packets, n ≤ p.id) →
    (∀ r ∈ s.net.remotes, n ≤ r.packet.id) → (∀ w ∈ s.net.watches, w.cut = false) →
    (∀ p ∈ s.teams, ∀ b ∈ p.2.beams, ∀ l ∈ b.longs, (∀ i gs rest k, l.op = .coal i gs rest k → ∀ q ∈ (gs.drop k).flatten, n ≤ q.id) ∧
      (∀ i ls rest k, l.op = .kvw i ls rest k → n ≤ i) ∧ ∀ ls rest m d i k, l.op = .kvr ls rest m d i k → n ≤ i) →
    exec .shootdownDone s = .next { s with regs := { s.regs with sdBusy := false, sdMark := none } }) ∧
  (∀ (s : State) (g : LogEntry), s.net.log.find? (fun h => decide (h.id = g.id)) = some g → g.answer = none → g.upgrade = false →
    s.moving g.func g.va = false → g.raised + 1000 * (s.func g.func).ftmo.toNat ≤ s.ftime →
    ∃ t, exec (.faultTimeout g.id) s = .next t ∧ t.mem = s.mem ∧ t.teams = s.teams ∧ t.net.log.length = s.net.log.length ∧
      ∀ (k : Nat) (h : LogEntry), s.net.log[k]? = some h → t.net.log[k]? = some (if h.func = g.func ∧ h.va / 65536 = g.va / 65536 ∧ h.answer = none ∧
        h.upgrade = false then { h with answer := some false } else h)) ∧
  (∀ (s : State) (g : LogEntry) (T : Team) (b : Beam), s.net.log = [g] → g.packet.job = none → g.retry = true →
    HasBeam s g.packet.src T b → (∃ c, T.life = .resident c) → T.stopped = false → s.moving g.func g.va = false →
    (g.answer = some true → s.walk g.func g.packet.part g.va ≠ .invalid →
      ∃ t U c, exec (.operandLogReplay g.id) s = .next t ∧ HasBeam t g.packet.src U c ∧ t.mem = s.mem ∧ t.net.log = [] ∧
        c.status = .ready ∧ c.pc = b.pc) ∧
    (g.answer = some false → b.halt = .run → b.lvm ≠ 0 → causeInh (b.land s.clock).cause = false → (b.land s.clock).tvec ≠ 0 →
      ∃ t U c, exec (.operandLogReplay g.id) s = .next t ∧ HasBeam t g.packet.src U c ∧ t.mem = s.mem ∧ t.net.log = [] ∧
        c.cause.toNat % 256 = cMEMFAULT ∧ c.epc = b.pc ∧ U.handler = some g.packet.src.b))

/-! ### Job engines (R151, R153, R265 to R275, R314, R315) and telemetry (R79 to R81) -/

namespace Sys2Proof.Claim

/-- A copy of one segment between pages of this device, in progress; the release of its issue is met. -/
def Copying (s : State) (k : Nat) (j : Job) (g : JSeg) : Prop :=
  s.jobs[k]? = some j ∧ (∀ i q, s.jobs[i]? = some q → q.id = j.id → i = k) ∧ s.jobAfter j = false ∧ j.kind = .copy ∧ j.status = 0 ∧ j.busy = none ∧ j.queue = none ∧ j.segs = [g] ∧
    j.inside false g.src g.len = true ∧ j.inside true g.dst g.len = true

/-- The page of an address that the job may use, with the physical address, on this device and outside the register window. -/
def JobPage (s : State) (j : Job) (va : Nat) (w : Bool) (pa : Nat) (s1 : State) : Prop :=
  ∃ l, s.jobReach j va w = .page l pa s1 ∧ (l.kind = .hbm ∨ l.kind = .cxl)

/-- What a completed job leaves for its beam (R274): its status word. -/
def jobWord (j : Job) : Word := w32 (j.status * 2 ^ 28 + j.handle)

end Sys2Proof.Claim

/-- R143, R151, R152, R153, R269, R273: a job performs no access before the release of its issue is met; a copy reads its source line by
line into the engine and writes lines of its destination from there, in the order of log 24; one whose footprint does not cover it ends with
code 1 without an access. -/
def Sys2Proof.Claim.CopiesMove : Prop :=
  (∀ (s : State) (k at_ scr : Nat) (j : Job), s.jobs[k]? = some j → j.after = some (at_, scr) →
    s.relHeld ⟨j.team.getD 0, j.beam⟩ at_ scr 2 = true → exec (.sliceAccess (s.net.packets.length + k)) s = .next s) ∧
  (∀ (s : State) (k : Nat) (j : Job) (g : JSeg) (pa : Nat) (s1 : State), Copying s k j g → j.buf = [] → j.put = 0 → 0 < g.len →
    s.edgeHeld j (g.src / 128) = false → JobPage s j g.src false pa s1 → s1.net.badLines = [] →
    ∃ t q, exec (.sliceAccess (s.net.packets.length + k)) s = .next t ∧ t.mem = s.mem ∧ t.jobs[k]? = some q ∧
      q.buf = s.mem.readBytes pa (min g.len (128 - g.src % 128)) ∧ q.put = 0 ∧ q.segs = j.segs) ∧
  (∀ (s : State) (k : Nat) (j : Job) (g : JSeg) (pa : Nat) (s1 : State), Copying s k j g → j.buf.length = g.len → j.put < g.len →
    s.edgeHeld j ((g.dst + j.put) / 128) = false → JobPage s j (g.dst + j.put) true pa s1 →
    let n := min (g.len - j.put) (128 - (g.dst + j.put) % 128)
    ∃ t q, exec (.sliceAccess (s.net.packets.length + k)) s = .next t ∧ t.jobs[k]? = some q ∧ q.moved = j.moved + n ∧
      (∀ i, i < n → t.mem.read (pa + i) = j.buf.getD (j.put + i) 0) ∧
      (∀ a, a < pa ∨ pa + n ≤ a → t.mem.read a = s.mem.read a) ∧
      (g.len = j.put + n → q.segs = []) ∧ (j.put + n < g.len → q.segs = [g] ∧ q.put = j.put + n)) ∧
  (∀ (s : State) (k : Nat) (j : Job) (g : JSeg), s.jobs[k]? = some j → (∀ i q, s.jobs[i]? = some q → q.id = j.id → i = k) →
    j.kind = .copy → j.status = 0 → j.busy = none → s.jobAfter j = false →
    j.segs = [g] → j.buf = [] → j.put = 0 → j.inside false g.src g.len = false →
    ∃ t q, exec (.sliceAccess (s.net.packets.length + k)) s = .next t ∧ t.mem = s.mem ∧ t.jobs[k]? = some q ∧ q.status = 1)

namespace Sys2Proof.Claim

/-- The k-th job, the only one of its id, may go on: it has not ended, waits for no answer, and the release of its issue is met. -/
def JobRuns (s : State) (k : Nat) (j : Job) : Prop :=
  s.jobs[k]? = some j ∧ (∀ i q, s.jobs[i]? = some q → q.id = j.id → i = k) ∧ s.jobAfter j = false ∧ j.status = 0 ∧ j.busy = none

/-- The next access of the k-th job answers a next state, in which the job is q, as p says. -/
def JobGoes (s : State) (k : Nat) (p : State → Job → Prop) : Prop :=
  ∃ t q, exec (.sliceAccess (s.net.packets.length + k)) s = .next t ∧ t.jobs[k]? = some q ∧ p t q

/-- Bytes of a list are in memory from `pa` on, and nothing else has changed. -/
def WroteBytes (m m' : Memory) (pa : Nat) (l : List Byte) : Prop :=
  (∀ i, i < l.length → m'.read (pa + i) = l.getD i 0) ∧ ∀ a, a < pa ∨ pa + l.length ≤ a → m'.read a = m.read a

/-- Element w (four bytes) of a list. -/
def word4 (l : List Byte) (w : Nat) : Word :=
  w32 ((l.getD (4 * w) 0).toNat + 2 ^ 8 * (l.getD (4 * w + 1) 0).toNat + 2 ^ 16 * (l.getD (4 * w + 2) 0).toNat +
    2 ^ 24 * (l.getD (4 * w + 3) 0).toNat)

/-- ring_sum of R75 after `k` additions: it starts at member `start` and goes on in ring order, each step rounded in FP32 RNE. -/
def ringAfter (x : Nat → Word) (n start : Nat) : Nat → Word
  | 0 => x (start % n)
  | k + 1 => addRne (ringAfter x n start k) (x ((start + (k + 1)) % n))

/-- The result of a collective of n members at member `me`, where member i holds `src i` of `len` bytes each (R273). -/
def CollectiveIs (op n me len : Nat) (src : Nat → List Byte) (out : List Byte) : Prop :=
  let summed (w : Nat) : Word := ringAfter (fun i => word4 (src i) w) n ((4 * w / (len / n) + 1) % n) (n - 1)
  (op = 0 → out.length = len ∧ ∀ w, 4 * w < len → word4 out w = summed w) ∧
    (op = 1 → out.length = len / n ∧ ∀ w, 4 * w < len / n → word4 out w = summed (me * (len / n) / 4 + w)) ∧
    (op = 2 → out = (List.range n).flatMap src) ∧ (op = 3 → out = src 0)

/-- A collective that has met no error: its ring names this device at ME and others that can be reached, and its footprint covers its source
and its result. -/
def Collective (s : State) (j : Job) (op n me : Nat) : Prop :=
  ∃ ring tag, j.kind = .coll op n me ring tag ∧ j.got = false ∧ me < n ∧ ring.getD me 0 = s.fab.dev.toNat ∧
    (∀ i ∈ ring, i ≠ s.fab.dev.toNat → s.reachable i = true) ∧ j.inside false j.from_ (collSrc op me j.len) = true ∧
    j.inside true j.dst (collDst op n j.len) = true ∧ (op < 2 → j.len % (128 * n) = 0)

end Sys2Proof.Claim

/-- R153, R269, R273: a gather reads each line of its rows once, whole, takes the bytes of the row from the lines that it holds, and writes
the rows one after the other from DST on, a line's worth at a time. -/
def Sys2Proof.Claim.GathersMove : Prop :=
  (∀ (s : State) (k : Nat) (j : Job) (g : JSeg) (rest : List JSeg) (pa : Nat) (s1 : State), JobRuns s k j → j.kind = .gather →
    j.segs = g :: rest → j.put = 0 → j.buf = [] → j.inside false g.src g.len = true → j.inside true g.dst g.len = true →
    aget j.cache (g.src / 128) = none → s.edgeHeld j (g.src / 128) = false → JobPage s j (128 * (g.src / 128)) false pa s1 →
    s1.net.badLines = [] →
    JobGoes s k fun t q => t.mem = s.mem ∧ aget q.cache (g.src / 128) = some (s.mem.readBytes pa 128) ∧ q.segs = j.segs ∧ q.buf = [] ∧
      q.put = 0 ∧ q.moved = j.moved) ∧
  (∀ (s : State) (k : Nat) (j : Job) (g : JSeg) (rest : List JSeg) (bytes : List Byte), JobRuns s k j → j.kind = .gather →
    j.segs = g :: rest → (j.put = 0 → j.inside false g.src g.len = true ∧ j.inside true g.dst g.len = true) →
    aget j.cache ((g.src + j.put) / 128) = some bytes →
    let n := min (g.len - j.put) (128 - (g.src + j.put) % 128)
    JobGoes s k fun t q => t.mem = s.mem ∧ q.buf = j.buf ++ (bytes.drop ((g.src + j.put) % 128)).take n ∧ q.moved = j.moved ∧
      (g.len ≤ j.put + n → q.segs = rest ∧ q.put = 0) ∧ (j.put + n < g.len → q.segs = j.segs ∧ q.put = j.put + n)) ∧
  (∀ (s : State) (k : Nat) (j : Job) (pa : Nat) (s1 : State), JobRuns s k j → j.kind = .gather → j.segs = [] → j.put = 0 → j.buf ≠ [] →
    s.edgeHeld j ((j.dst + j.moved) / 128) = false → JobPage s j (j.dst + j.moved) true pa s1 →
    let n := min j.buf.length (128 - (j.dst + j.moved) % 128)
    JobGoes s k fun t q => WroteBytes s.mem t.mem pa (j.buf.take n) ∧ q.buf = j.buf.drop n ∧ q.moved = j.moved + n ∧ q.segs = []) ∧
  (∀ (s : State) (k : Nat) (j : Job) (g : JSeg) (rest : List JSeg), JobRuns s k j → j.kind = .gather → j.segs = g :: rest → j.put = 0 →
    j.inside false g.src g.len = false ∨ j.inside true g.dst g.len = false →
    JobGoes s k fun t q => t.mem = s.mem ∧ q.status = 1)

/-- R75, R273: a collective reads its source line by line; once it holds it, and no member disagrees, it has the result of its operation
over the members' data, and writes it from DST on. The other members' data are free values (log 11, DESIGN CHOICE); that a ring which
does not name this device at ME is looked at before the footprint is log 81 (DESIGN CHOICE). -/
def Sys2Proof.Claim.CollectivesMove : Prop :=
  (∀ (s : State) (k op n me : Nat) (j : Job) (pa : Nat) (s1 : State), JobRuns s k j → Collective s j op n me →
    j.buf.length < collSrc op me j.len → let a := j.from_ + j.buf.length
    s.edgeHeld j (a / 128) = false → JobPage s j a false pa s1 → s1.net.badLines = [] →
    JobGoes s k fun t q => t.mem = s.mem ∧ q.got = false ∧
      q.buf = j.buf ++ s.mem.readBytes pa (min (collSrc op me j.len - j.buf.length) (128 - a % 128))) ∧
  (∀ (s : State) (k op n me : Nat) (j : Job), JobRuns s k j → Collective s j op n me → op < 4 → j.buf.length = collSrc op me j.len →
    n = 1 ∨ Config.collMismatch s.free = false →
    JobGoes s k fun t q => t.mem = s.mem ∧ t.teams = s.teams ∧ q.got = true ∧ q.put = 0 ∧
      q.segs = (if q.buf = [] then [] else [⟨0, j.dst, q.buf.length⟩]) ∧
      ∃ src : Nat → List Byte, src me = j.buf ∧ (∀ i, i ≠ me → (src i).length = j.len) ∧ CollectiveIs op n me j.len src q.buf) ∧
  (∀ (s : State) (k op n me : Nat) (ring : List Nat) (tag : Nat) (j : Job), JobRuns s k j → j.kind = .coll op n me ring tag →
    j.got = false → ring.getD me 0 ≠ s.fab.dev.toNat → JobGoes s k fun t q => t.mem = s.mem ∧ q.status = 6) ∧
  (∀ (s : State) (k op n me : Nat) (ring : List Nat) (tag : Nat) (j : Job) (g : JSeg) (pa : Nat) (s1 : State), JobRuns s k j →
    j.kind = .coll op n me ring tag → j.got = true → j.segs = [g] → j.buf.length = g.len → j.put < g.len →
    s.edgeHeld j ((g.dst + j.put) / 128) = false → JobPage s j (g.dst + j.put) true pa s1 →
    let n := min (g.len - j.put) (128 - (g.dst + j.put) % 128)
    JobGoes s k fun t q => WroteBytes s.mem t.mem pa ((j.buf.drop j.put).take n) ∧ (g.len = j.put + n → q.segs = []) ∧
      (j.put + n < g.len → q.put = j.put + n ∧ q.buf = j.buf ∧ q.got = true))

/-- R300, R312, R314, R315: a staging job that holds its slot reads its descriptor, with WAITF once the frontier has come to the end of its
positions; then position by position the unit of every head with its validity, a poisoned committed slot ending it with code 4; and at
last it fills its slot with the rows and the bitmap of their validity. What does not fit the slot ends it with code 3. -/
def Sys2Proof.Claim.StagingMoves : Prop :=
  (∀ (s : State) (k n p0 layer i pa : Nat) (v waitf : Bool) (j : Job) (d : KDesc) (t : Nat) (T : Team), JobRuns s k j →
    j.kind = .stage v waitf n p0 layer → j.slot = some i → j.buf = [] → j.team = some t → s.team? t = some T →
    let q : Requester := { lane := none, core := j.core, func := j.func, part := j.part }
    let rb := d.heads * d.dim * d.es
    let fits := layer < d.layers ∧ roundUp (n * rb) 128 + 4 * ((n + 31) / 32) ≤ ctrlSize (queueIn T (j.queue.getD 0)).ctrl
    s.kvDesc q j.tenant false j.from_ = .ok (pa, d) →
    (fits → waitf = false → JobGoes s k fun u r => u.mem = s.mem ∧ r.buf = s.mem.readBytes pa 128 ∧ r.put = j.put) ∧
    (∀ fra kd, fits → waitf = true → s.kvPa q d.tenant false (d.fra + 64 * layer) = .ok (fra, kd) →
      (p0 + n ≤ s.mem.readNat fra 4 → JobGoes s k fun u r => u.mem = s.mem ∧ r.buf = s.mem.readBytes pa 128 ∧
        u.net.roCache = (roEmptied s j.core).net.roCache) ∧
      (s.mem.readNat fra 4 < p0 + n → exec (.sliceAccess (s.net.packets.length + k)) s = .next s)) ∧
    (¬ fits → JobGoes s k fun u r => u.mem = s.mem ∧ r.status = 3)) ∧
  (∀ (s : State) (k n p0 layer i : Nat) (v waitf : Bool) (j : Job) (slot : KvLane) (lines : List Nat), JobRuns s k j →
    j.kind = .stage v waitf n p0 layer → j.slot = some i → j.buf ≠ [] → j.put < n →
    let q : Requester := { lane := none, core := j.core, func := j.func, part := j.part }
    (s.seen j.cache).stageRow j q j.desc (128 * (j.cache.head?.elim 0 (·.1))) v layer (p0 + j.put) = .ok (slot, lines) →
    let s2 := s.seen (s.readLines j.cache lines)
    (slot.committed = true → slot.bad s = true → JobGoes s k fun t r => t.mem = s.mem ∧ r.status = 4) ∧
    (slot.bad s = false → JobGoes s k fun t r => t.mem = s.mem ∧ r.put = j.put + 1 ∧
      r.buf = j.buf ++ leBytes (j.desc.heads * j.desc.dim * j.desc.es) (if slotValid s2 slot then unitAt s2 slot else 0) ++
        [if slotValid s2 slot then 1 else 0])) ∧
  (∀ (s : State) (k n p0 layer i qn : Nat) (v waitf : Bool) (j : Job) (t : Nat) (T : Team), JobRuns s k j →
    j.kind = .stage v waitf n p0 layer → j.slot = some i → j.buf ≠ [] → n ≤ j.put → j.got = false → j.team = some t → s.team? t = some T →
    j.queue = some qn → s.wakeEnd T.coreId = none →
    let rb := j.desc.heads * j.desc.dim * j.desc.es
    let off := slotOffset (queueIn T qn) i
    j.buf.length = 128 + n * (rb + 1) →
    JobGoes s k fun u r => u.mem = s.mem ∧ r.got = true ∧ r.moved = n * rb ∧ ∃ U, u.team? t = some U ∧
      (∀ x y, x < n → y < rb → U.scratch.read (off + x * rb + y) = j.buf.getD (128 + x * (rb + 1) + y) 0) ∧
      (∀ x, x < n → ((U.scratch.readNat (off + roundUp (n * rb) 128 + 4 * (x / 32)) 4).testBit (x % 32) = true ↔
        j.buf.getD (128 + x * (rb + 1) + rb) 0 ≠ 0)) ∧
      ∀ a, a < off ∨ off + roundUp (n * rb) 128 + 4 * ((n + 31) / 32) ≤ a → U.scratch.read a = T.scratch.read a)

/-- R274, R275, R354: a job whose work is done, or which has ended with a code and waits for nothing, leaves its scheduler; its team
keeps its status word; a slot that it filled becomes full. R79, R81: a telemetry recompute ends and leaves its queue (which tiles and
collectives are sampled: log 65). -/
def Sys2Proof.Claim.JobsComplete : Prop :=
  (∀ (s : State) (k : Nat) (j : Job) (t : Nat) (T : Team), s.jobs[k]? = some j → j.team = some t → s.team? t = some T → j.node = none →
    (j.status = 0 ∧ j.kind = .copy ∧ j.busy = none ∧ j.segs = []) ∨ (j.status ≠ 0 ∧ j.busy = none) → j.out = [] →
    handleAge j.handle T.nextH < 64 →
    ∃ u U, exec (.jobComplete k) s = .next u ∧ u.jobs = s.jobs.eraseIdx k ∧ u.mem = s.mem ∧ u.team? t = some U ∧
      aget U.stats j.handle = some (jobWord j) ∧ U.beams = T.beams ∧
      (j.queue = none → U.queues = T.queues) ∧
      (∀ q i, j.queue = some q → j.slot = some i → j.status = 0 →
        slotIn (queueIn U q) i = ⟨.full, w32 (256 * (j.handle % 2 ^ 24)), false, false⟩)) ∧
  (∀ (s : State) (k : Nat) (j : Job), s.jobs[k]? = some j → j.done = false → j.status = 0 → exec (.jobComplete k) s = .next s) ∧
  (∀ (s : State) (k : Nat) (q : TeleJob), s.work.teleq[k]? = some q → (s.func q.func).teln = 0 →
    exec (.telemetryRecompute k) s = .next { s with work := { s.work with teleq := s.work.teleq.eraseIdx k } }) ∧
  (∀ (s : State) (k : Nat) (q : TeleJob), s.work.teleq[k]? = some q → (s.func q.func).teln ≠ 0 → q.pairs ≠ [] →
    ∃ t, exec (.telemetryRecompute k) s = .next t ∧ t.work.teleq = s.work.teleq.eraseIdx k ∧ t.teams = s.teams ∧
      (t.func q.func).telat = (s.func q.func).telat + 1 ∧
      ∀ a, a < (s.func q.func).telbase.toNat + 32 * ((s.func q.func).telat % (s.func q.func).teln) ∨
          (s.func q.func).telbase.toNat + 32 * ((s.func q.func).telat % (s.func q.func).teln) + 32 ≤ a →
        t.mem.read a = s.mem.read a)

/-! ### Registers of the host (R353, R361 to R364, R370, R392, R393, R404, R424, R427) -/

namespace Sys2Proof.Claim

/-- Instruction i changes the registers of function f to F, and nothing else. -/
def FuncBecomes (i : Instr) (s : State) (f : Nat) (F : Func) : Prop := exec i s = .next (s.setFunc f F)

/-- A partition would be left with no way of a slice that is not gated (R404). -/
def WaysShort (s : State) (mask : BitVec 16) : Prop := ∃ e ∈ s.regs.parts, e.2.pway ≠ 0 ∧ e.2.pway &&& ~~~mask = 0

/-- A request is refused with a status; nothing is gated. -/
def GateRefused (i : Instr) (s : State) (stat : BitVec 2) : Prop :=
  exec i s = .next { s with regs := { s.regs with pgStat := stat, pgBusy := false } }

/-- Granule k of core c is gated. -/
def gatedNow (s : State) (c k : Nat) : Bool := (sget 0 s.regs.granules c).getLsbD k

/-- Granule k of core c is to be gated after a request that names those of group g. -/
def gatedThen (s : State) (c g : Nat) (m : BitVec 16) (k : Nat) : Bool := if k / 16 = g then m.getLsbD (k % 16) else gatedNow s c k

/-- Unit n wakes from now on in t, within 1,400 cycles of the request, and the request is in progress until then. -/
def Wakes (s t : State) (n : Nat) : Prop := t.regs.waking = s.regs.waking ++ [(n, s.clock + 1400)] ∧ t.regs.pgBusy = true

end Sys2Proof.Claim

/-- R392, R393, R424, R427: the mailbox and event registers of a function; a tail that would pass the ring's size is not stored; a
counter that is written becomes 0; a 32-bit write of a half of a 64-bit register changes that half. -/
def Sys2Proof.Claim.HostRegisters : Prop :=
  (∀ (s : State) (f : Nat) (v : Word), (v - (s.func f).mbhead).toNat ≤ 2 ^ (s.func f).log2n.toNat →
    FuncBecomes (.mbtailWrite f v) s f { s.func f with mbtail := v }) ∧
  (∀ (s : State) (f : Nat) (v : Word), 2 ^ (s.func f).log2n.toNat < (v - (s.func f).mbhead).toNat →
    exec (.mbtailWrite f v) s = .next s) ∧
  (∀ (s : State) (f : Nat) (v : Word), FuncBecomes (.mbcheadWrite f v) s f { s.func f with mbchead := v }) ∧
  (∀ (s : State) (f : Nat) (v : Word), (s.func f).en = true →
    FuncBecomes (.mbcfgWrite f v) s f { s.func f with en := v.getLsbD 4, irqen := v.getLsbD 27 }) ∧
  (∀ (s : State) (f : Nat) (v : Word), (s.func f).en = false →
    ∃ F : Func, FuncBecomes (.mbcfgWrite f v) s f F ∧ F.en = v.getLsbD 4 ∧ F.irqen = v.getLsbD 27 ∧
      F.irqv.toNat = v.toNat / 2 ^ 16 % 2 ^ 11 ∧
      (4 ≤ v.toNat % 16 ∧ v.toNat % 16 ≤ 12 → F.log2n.toNat = v.toNat % 16) ∧
      (v.toNat % 16 < 4 ∨ 12 < v.toNat % 16 → F.log2n = (s.func f).log2n) ∧
      (v.getLsbD 4 = true → F.mbhead = (s.func f).mbtail ∧ F.mbctail = (s.func f).mbchead) ∧
      (v.getLsbD 4 = false → F.mbhead = (s.func f).mbhead ∧ F.mbctail = (s.func f).mbctail)) ∧
  (∀ (s : State) (f : Nat) (v : Word),
    ∃ F : Func, FuncBecomes (.evcfgWrite f v) s f F ∧ F.even_ = v.getLsbD 4 ∧ F.evirqen = v.getLsbD 27 ∧
      F.evirqv.toNat = v.toNat / 2 ^ 16 % 2 ^ 11 ∧
      (4 ≤ v.toNat % 16 ∧ v.toNat % 16 ≤ 12 → F.evlog2n.toNat = v.toNat % 16) ∧
      (v.getLsbD 4 = true ∧ (s.func f).even_ = false → F.evtail = (s.func f).evhead ∧ F.evlost = 0 ∧ F.evseq = 0) ∧
      (v.getLsbD 4 = false ∨ (s.func f).even_ = true → F.evtail = (s.func f).evtail ∧ F.evlost = (s.func f).evlost)) ∧
  (∀ (s : State) (off : Nat) (wide : Bool) (v : Dword), ∃ t, exec (.registerWrite off wide v) s = .next t) ∧
  (∀ (s : State) (off : Nat), ∃ t, exec (.counterClear off) s = .next t ∧ t.mem = s.mem) ∧
  (∀ (s : State) (l : Nat), l < 96 →
    exec (.counterClear (0x40000 + 0x40 * l + 0x10)) s = .next (s.setLink l { s.link l with crc := 0 }) ∧
    exec (.counterClear (0x40000 + 0x40 * l + 0x14)) s = .next (s.setLink l { s.link l with rpl := 0 }) ∧
    exec (.counterClear (0x40000 + 0x40 * l + 0x18)) s = .next (s.setLink l { s.link l with restr := 0, naks := 0 })) ∧
  (∀ (s : State) (c : Nat), c < 2 →
    exec (.counterClear (0x20000 + 0x100 * c + 0x1C)) s = .next (s.setChan c { s.chan c with psn := 0, crcf := 0 })) ∧
  (∀ (s : State) (f : Nat), f < 64 → FuncBecomes (.counterClear (0x400 + 0x40 * f + 0x1C)) s f { s.func f with stale := 0 }) ∧
  (∀ (s : State) (f : Nat) (v : Dword), f < 64 →
    exec (.registerWrite (2 ^ 24 + 0x1000 * f + 0x14) false v) s = exec (.mbtailWrite f (w32 v.toNat)) s ∧
    exec (.registerWrite (2 ^ 24 + 0x1000 * f + 0x10) false v) s = exec (.mbcfgWrite f (w32 v.toNat)) s ∧
    exec (.registerWrite (2 ^ 24 + 0x1000 * f + 0x48) false v) s = exec (.evcfgWrite f (w32 v.toNat)) s ∧
    exec (.registerWrite (0x10100 + 0x40 * f) false v) s = exec (.refillWrite f (w32 v.toNat)) s) ∧
  (∀ (s : State) (v : Dword),
    exec (.registerWrite 0x1808 true v) s = .next { s with regs := { s.regs with sdVa := v } } ∧
    exec (.registerWrite 0x1808 false v) s =
      .next { s with regs := { s.regs with sdVa := w64 (s.regs.sdVa.toNat / 2 ^ 32 * 2 ^ 32 + v.toNat % 2 ^ 32) } } ∧
    exec (.registerWrite 0x180C false v) s =
      .next { s with regs := { s.regs with sdVa := w64 (s.regs.sdVa.toNat % 2 ^ 32 + v.toNat % 2 ^ 32 * 2 ^ 32) } }) ∧
  (∀ (s : State) (off : Nat) (v : Dword), (off % 4 ≠ 0 → exec (.registerWrite off false v) s = .next s) ∧
    (off % 8 ≠ 0 → exec (.registerWrite off true v) s = .next s)) ∧
  (∀ (s : State) (f : Nat) (v : Dword), f < 64 →
    (1 ≤ v.toNat % 2 ^ 32 ∧ v.toNat % 2 ^ 32 ≤ 1000000 →
      FuncBecomes (.registerWrite (0x400 + 0x40 * f + 0x24) false v) s f { s.func f with ftmo := w32 v.toNat }) ∧
    (v.toNat % 2 ^ 32 = 0 ∨ 1000000 < v.toNat % 2 ^ 32 → exec (.registerWrite (0x400 + 0x40 * f + 0x24) false v) s = .next s)) ∧
  (∀ (s : State) (v : Dword), s.regs.sdBusy = false →
    ∃ t, exec (.registerWrite 0x1800 false v) s = .next t ∧ t.regs.sdFunc.toNat = v.toNat / 2 ^ 12 % 64 ∧
      t.regs.sdMode.toNat = v.toNat / 2 ^ 18 % 4 ∧ (t.regs.sdBusy = true ↔ v.toNat % 2 = 1 ∧ v.toNat / 2 ^ 18 % 4 ≠ 3) ∧
      t.net.tlb = s.net.tlb)

/-- R132, R133, R404: a gating request names the units to be gated from then on; one that names a unit out of range is refused with 2,
one that leaves a partition without a way, or names a granule that is held, with 1; what is named no more wakes within 1,400 cycles, and
is valid when the wake is done. Which granules the teams of a core hold is the model's free choice (log 2): a request that newly gates
one is refused where those named and those held are more than the core's 128, done where no team holds the core, and either between. -/
def Sys2Proof.Claim.PowerRequests : Prop :=
  (∀ (s : State) (u : Nat) (m : BitVec 16), s.regs.pgBusy = true →
    exec (.gateWays u m) s = .next s ∧ ∀ c, exec (.gateGranules c u m) s = .next s) ∧
  (∀ (s : State) (u : Nat) (m : BitVec 16), s.regs.pgBusy = false → 128 ≤ u → GateRefused (.gateWays u m) s 2) ∧
  (∀ (s : State) (u : Nat) (m : BitVec 16), s.regs.pgBusy = false → u < 128 → WaysShort s m → GateRefused (.gateWays u m) s 1) ∧
  (∀ (s : State) (u : Nat) (m : BitVec 16), s.regs.pgBusy = false → u < 128 → ¬ WaysShort s m →
    ∃ t, exec (.gateWays u m) s = .next t ∧ (∀ k, sget 0 t.regs.ways k = if k = u then m else sget 0 s.regs.ways k) ∧
      t.regs.pgStat = 0 ∧ (sget 0 s.regs.ways u &&& ~~~m ≠ 0 → Wakes s t u) ∧
      (sget 0 s.regs.ways u &&& ~~~m = 0 → t.regs.waking = s.regs.waking ∧ t.regs.pgBusy = false) ∧ t.teams = s.teams ∧ t.mem = s.mem) ∧
  (∀ (s : State) (c g : Nat) (m : BitVec 16), s.regs.pgBusy = false → 1024 ≤ c ∨ 8 ≤ g → GateRefused (.gateGranules c g m) s 2) ∧
  (∀ (s : State) (c g : Nat) (m : BitVec 16), s.regs.pgBusy = false → c < 1024 → g < 8 →
    (∃ k, k < 128 ∧ gatedThen s c g m k = true ∧ gatedNow s c k = false) →
    128 < ((List.range 128).filter (gatedThen s c g m)).length + s.heldGranules c →
    exec (.gateGranules c g m) s = .next { s with free := s.free + 1, regs := { s.regs with pgStat := 1, pgBusy := false } }) ∧
  (∀ (s : State) (c g : Nat) (m : BitVec 16), s.regs.pgBusy = false → c < 1024 → g < 8 →
    ∃ t, exec (.gateGranules c g m) s = .next t ∧ t.teams = s.teams ∧ t.mem = s.mem ∧
      (t.regs = { s.regs with pgStat := 1, pgBusy := false } ∨
        t.regs.pgStat = 0 ∧ (∀ k, k < 128 → gatedNow t c k = gatedThen s c g m k) ∧
          ((∃ k, k < 128 ∧ gatedNow s c k = true ∧ gatedThen s c g m k = false) → Wakes s t (128 + c)) ∧
          ((∀ k, k < 128 → gatedNow s c k = true → gatedThen s c g m k = true) → t.regs.waking = s.regs.waking ∧ t.regs.pgBusy = false)) ∧
      ((∀ e ∈ s.teams, e.2.core? ≠ some c) ∨ (∀ k, k < 128 → gatedThen s c g m k = true → gatedNow s c k = true) → t.regs.pgStat = 0)) ∧
  (∀ (s : State) (u : Nat) (m : BitVec 16), ∃ t, exec (.gateWays u m) s = .next t ∧ t.teams = s.teams ∧ t.mem = s.mem) ∧
  (∀ (s : State) (c g : Nat) (m : BitVec 16), ∃ t, exec (.gateGranules c g m) s = .next t ∧ t.teams = s.teams ∧ t.mem = s.mem) ∧
  (∀ s : State, exec .wakeDone s = .next { s with regs := { s.regs with waking := [], pgBusy := false } })

namespace Sys2Proof.Claim

/-- The balance of a function after pass 1 of a period, before its cap (R356). -/
def refilled (F : Func) : Int := F.bal + F.refill.toNat - Nat.min F.debt (F.refill.toNat / 2)

/-- The pool after pass 1, where f alone is metered. -/
def poolAfter (s : State) (F : Func) : Nat :=
  Nat.min (Nat.min (s.regs.pool + Nat.min F.debt (F.refill.toNat / 2)) s.regs.pcap.toNat + (refilled F - F.bcap.toNat).toNat)
    s.regs.pcap.toNat

/-- Function f is metered, and no other is. -/
def OnlyMetered (s : State) (f : Nat) : Prop :=
  f < 64 ∧ (s.func f).refill ≠ 0xFFFFFFFF ∧ ∀ g, g < 64 → g ≠ f → (s.func g).refill = 0xFFFFFFFF

end Sys2Proof.Claim

/-- R353 to R356: REFILL starts a budget; a period pays debt with at most half of the refill, adds the rest up to BCAP, and puts what is
over into the pool; a function in want with no balance left borrows. -/
def Sys2Proof.Claim.Budgets : Prop :=
  (∀ (s : State) (f : Nat) (v : Word),
    FuncBecomes (.refillWrite f v) s f { s.func f with refill := v, bal := (Nat.min v.toNat (s.func f).bcap.toNat : Nat), debt := 0 }) ∧
  (∀ s : State, (∀ f, f < 64 → (s.func f).refill = 0xFFFFFFFF) → exec .budgetPeriod s = .next s) ∧
  (∀ s : State, ∃ t, exec .budgetPeriod s = .next t ∧ t.teams = s.teams ∧ t.mem = s.mem) ∧
  (∀ (s : State) (f : Nat), OnlyMetered s f →
    let F := s.func f
    let bal := min (refilled F) (F.bcap.toNat : Int)
    let debt := F.debt - F.refill.toNat / 2
    let lend := if bal ≤ 0 ∧ s.wantsWork f = true then Nat.min (Nat.min (poolAfter s F) F.loan.toNat) (F.dmax.toNat - debt) else 0
    ∃ t, exec .budgetPeriod s = .next t ∧ t.func f = { F with bal := bal + lend, debt := debt + lend } ∧
      t.regs.pool = poolAfter s F - lend ∧ t.teams = s.teams ∧ t.mem = s.mem)

/-! ### The reset of a function, start-up and power states (R363, R371, R377, R378, R397, R400, R403) -/

namespace Sys2Proof.Claim

/-- Another function in RUN has the tag of f (R364). -/
def TagClashes (s : State) (f : Nat) : Prop :=
  ∃ e ∈ s.regs.funcs, e.1 ≠ f ∧ e.2.state = .run ∧ e.2.ftag = (s.func f).ftag

/-- No `KVR` of a beam has a lane of function F's tag that was translated under an older generation. -/
def NoOldLane (b : Beam) (F : Func) : Prop :=
  ∀ l ∈ b.longs, ∀ ls rest m d p n, l.op = .kvr ls rest m d p n → ∀ k ∈ ls, k.tenant = F.ftag → k.gen = F.gen

end Sys2Proof.Claim

/-- R363, R364, R371, R377, R378: a function that is reset takes a new generation, loses its parameter slots, its translations, its jobs and
its held watches (log 77); it is drained when nothing of an older generation is left, in the network or to be sent by a `KVR`, and runs
again on release, where no other running function has its tag (log 67). -/
def Sys2Proof.Claim.FunctionResets : Prop :=
  (∀ (s : State) (f : Nat), (s.func f).state = .run →
    ∃ t, exec (.fcfgRst f) s = .next t ∧ t.mem = s.mem ∧ (t.func f).state = .reset ∧ (t.func f).gen = (s.func f).gen + 1 ∧
      (t.func f).slots = [] ∧ TlbWithout s t (fun e => e.leaf.tenant = (s.func f).ftag) ∧ (∀ w ∈ t.net.watches, w.func ≠ f) ∧
      ∀ (k : Nat) (j : Job), s.jobs[k]? = some j →
        ∃ q, t.jobs[k]? = some q ∧ (j.tenant = (s.func f).ftag → j.status = 0 → q.status = 5)) ∧
  (∀ (s : State) (f : Nat), (s.func f).state ≠ .run → exec (.fcfgRst f) s = .next s) ∧
  (∀ (s : State) (f : Nat), (s.func f).state = .reset → (s.func f).resetTag = [] →
    (∀ p ∈ s.net.packets, p.func = f → p.gen = (s.func f).gen) → (∀ r ∈ s.net.remotes, r.packet.func = f → r.packet.gen = (s.func f).gen) →
    (∀ j ∈ s.jobs, j.tenant ≠ (s.func f).ftag) → (∀ e ∈ s.teams, ∀ b ∈ e.2.beams, NoOldLane b (s.func f)) →
    FuncBecomes (.resetDrained f) s f { s.func f with state := .drained }) ∧
  (∀ (s : State) (f : Nat), (s.func f).state ≠ .reset ∨ (∃ j ∈ s.jobs, j.tenant = (s.func f).ftag) → exec (.resetDrained f) s = .next s) ∧
  (∀ (s : State) (f : Nat), (s.func f).state = .drained → ¬ TagClashes s f →
    FuncBecomes (.fcfgRel f) s f { s.func f with state := .run }) ∧
  (∀ (s : State) (f : Nat), (s.func f).state ≠ .drained ∨ TagClashes s f → exec (.fcfgRel f) s = .next s)

namespace Sys2Proof.Claim

/-- The start-up sequence is in progress, with every register at its reset value and no work. -/
def Starting (t : State) (codes : List (BitVec 16)) : Prop :=
  t.sys.dstate = .boot ∧ t.sys.boot = some codes ∧ t.teams = [] ∧ t.grids = [] ∧ t.jobs = [] ∧ t.regs = Regs.init ∧ t.halo = Halo.init ∧
    t.net.packets = [] ∧ t.net.tlb = []

end Sys2Proof.Claim

/-- R397, R400, R403: power-on and PERST# begin the start-up sequence, power-on with memory lost, which then reads 0 (log 3); it ends in RUN
with the PF running where no test fails, in SAFE with the codes otherwise; D3hot and D0. -/
def Sys2Proof.Claim.StartUp : Prop :=
  (∀ (s : State) (l : List (BitVec 16)), ∃ t, exec (.powerOn l) s = .next t ∧ Starting t l ∧ ∀ a, t.mem.read a = 0) ∧
  (∀ (s : State) (l : List (BitVec 16)), ∃ t, exec (.perst l) s = .next t ∧ Starting t l ∧ t.mem = s.mem ∧ t.ftime = s.ftime) ∧
  (∀ s : State, s.sys.boot = some [] → s.bootEnd.sys.dstate = .run ∧ (s.bootEnd.func 0).state = .run ∧ s.bootEnd.sys.codes = []) ∧
  (∀ (s : State) (l : List (BitVec 16)), s.sys.boot = some l → l ≠ [] → (∀ c ∈ l, c.toNat / 256 ≠ 1) →
    s.bootEnd.sys.dstate = .safe ∧ s.bootEnd.sys.codes = l.take 16 ∧ s.bootEnd.regs = s.regs) ∧
  (∀ s : State, exec .d3hotEnter s = .next { s with sys := { s.sys with d3hot := true } }) ∧
  (∀ s : State, exec .d0Return s = .next { s with sys := { s.sys with d3hot := false } })

/-! ### The mailbox (R393 to R396, R398, R401, R402, R373, R378) -/

namespace Sys2Proof.Claim

/-- Where the next completion of a mailbox goes. -/
def completionAt (F : Func) : Nat := F.mbcpb.toNat + 16 * (F.mbctail.toNat % 2 ^ F.log2n.toNat)

/-- The entry of a completion (R396): tag, status, the phase of the pass, four bytes of 0, the value. -/
def CompletionIs (m : Memory) (F : Func) (tag : BitVec 16) (status value : Nat) : Prop :=
  let a := completionAt F
  m.readNat a 2 = tag.toNat ∧ m.readNat (a + 2) 1 = status ∧
    m.readNat (a + 3) 1 = (if F.mbctail.toNat / 2 ^ F.log2n.toNat % 2 = 0 then 1 else 0) ∧ m.readNat (a + 4) 4 = 0 ∧
    m.readNat (a + 8) 8 = value % 2 ^ 64

/-- The command of function f, whose registers are F but for the completion, is complete with a status and a value; the interrupt
follows where it is enabled. -/
def CompletesWith (i : Instr) (s t : State) (f : Nat) (F : Func) (tag : BitVec 16) (status value : Nat) : Prop :=
  exec i s = .next t ∧ t.func f = { F with mbctail := F.mbctail + 1, cmd := none } ∧ CompletionIs t.hostMem F tag status value ∧
    t.sys.msix = if F.irqen = true then (f, F.irqv.toNat) :: s.sys.msix else s.sys.msix

/-- The mailbox of f holds command c with opcode opc, and DSTATE and the function allow it. -/
def Fetched (s : State) (f opc : Nat) (c : Cmd) : Prop :=
  s.sys.dstate = .run ∧ (s.func f).state = .run ∧ (s.func f).cmd = some c ∧ c.opc = opc ∧ c.resv = false

/-- The completion of a RESET that f has commanded is owed: the reset has not drained (R396). -/
def Owes (s : State) (f : Nat) : Prop := ∃ e ∈ s.regs.funcs, ∃ p ∈ e.2.resetTag, p.1 = f

/-- Address a of host memory is outside the next completion of f. -/
def NotCompletion (F : Func) (a : Nat) : Prop := a < completionAt F ∨ completionAt F + 16 ≤ a

/-- The range of a command lies in one line of a page that the function may use. -/
def OneLine (s : State) (f : Nat) (c : Cmd) (write : Bool) (pa : Nat) : Prop :=
  1 ≤ c.len ∧ c.daddr.toNat % 128 + c.len ≤ 128 ∧ c.daddr.toNat < 2 ^ 56 ∧
    ∃ l, s.walk f (s.func f).part.toNat c.daddr.toNat = .ok l pa ∧ l.tenant = (s.func f).ftag ∧ (l.kind = .hbm ∨ l.kind = .cxl) ∧
      (write = true → l.w = true)

/-- The mailbox commands with their opcodes. -/
noncomputable def commandRows : List (Nat × (Nat → Instr)) :=
  [(1, .write), (2, .read), (3, .setparam), (4, .replay), (5, .query), (6, .attest), (7, .reset), (8, .resolve), (9, .fail)]

/-- The faults that wait for an answer to the page of g. -/
def answeredLog (g h : LogEntry) (ok : Bool) : LogEntry :=
  if h.func = g.func ∧ h.va / 65536 = g.va / 65536 ∧ h.answer = none ∧ h.upgrade = false then { h with answer := some ok } else h

end Sys2Proof.Claim

/-- R394 to R396: a mailbox fetches the next of its commands while none is in progress, a RESET that drains among them, and the completion
ring has room; a command is
refused with BOOT, SAFE, STATE or FIELD where these rules say so; without a fetched command of its opcode a command event has no effect. -/
def Sys2Proof.Claim.CommandsAreFetched : Prop :=
  (∀ (s : State) (f : Nat), f < 64 → (s.func f).en = true → (s.func f).cmd = none → (s.func f).mbhead ≠ (s.func f).mbtail →
    ((s.func f).mbctail - (s.func f).mbchead).toNat ≠ 2 ^ (s.func f).log2n.toNat → s.sys.d3hot = false → ¬ Owes s f →
    let F := s.func f
    let a := F.mbcqb.toNat + 64 * (F.mbhead.toNat % 2 ^ F.log2n.toNat)
    let m := s.hostMem
    (1 ≤ m.readNat a 1 ∧ m.readNat a 1 ≤ 9 →
      ∃ c : Cmd, FuncBecomes (.commandFetch f) s f { F with mbhead := F.mbhead + 1, cmd := some c } ∧ c.opc = m.readNat a 1 ∧
        c.tag.toNat = m.readNat (a + 2) 2 ∧ c.len = m.readNat (a + 4) 4 ∧ c.daddr.toNat = m.readNat (a + 8) 8 ∧
        c.haddr.toNat = m.readNat (a + 16) 8 ∧ c.value.toNat = m.readNat (a + 24) 8 ∧ c.nonce = m.readBytes (a + 32) 32) ∧
    (m.readNat a 1 = 0 ∨ 9 < m.readNat a 1 → s.sys.dstate = .run → F.state = .run →
      ∃ t, CompletesWith (.commandFetch f) s t f { F with mbhead := F.mbhead + 1 } (BitVec.ofNat 16 (m.readNat (a + 2) 2)) 1 0 ∧
        t.mem = s.mem)) ∧
  (∀ (s : State) (f : Nat), (s.func f).en = false ∨ (s.func f).cmd ≠ none ∨ Owes s f ∨ (s.func f).mbhead = (s.func f).mbtail ∨
    ((s.func f).mbctail - (s.func f).mbchead).toNat = 2 ^ (s.func f).log2n.toNat → exec (.commandFetch f) s = .next s) ∧
  (∀ r ∈ commandRows, ∀ (s : State) (f : Nat), ((s.func f).cmd = none ∨ ∃ c, (s.func f).cmd = some c ∧ c.opc ≠ r.1) →
    exec (r.2 f) s = .next s) ∧
  (∀ r ∈ commandRows, r.1 ≠ 5 → ∀ (s : State) (f : Nat) (c : Cmd), (s.func f).cmd = some c → c.opc = r.1 →
    (s.sys.dstate = .boot → ∃ t, CompletesWith (r.2 f) s t f (s.func f) c.tag 7 0 ∧ t.mem = s.mem) ∧
    (s.sys.dstate = .safe → r.1 ≠ 6 → r.1 ≠ 7 → ∃ t, CompletesWith (r.2 f) s t f (s.func f) c.tag 5 0 ∧ t.mem = s.mem) ∧
    (s.sys.dstate = .run → r.1 ≠ 6 → (s.func f).state ≠ .run →
      ∃ t, CompletesWith (r.2 f) s t f (s.func f) c.tag 6 0 ∧ t.mem = s.mem) ∧
    (s.sys.dstate = .run → (s.func f).state = .run → c.resv = true →
      ∃ t, CompletesWith (r.2 f) s t f (s.func f) c.tag 1 0 ∧ t.mem = s.mem))

/-- R345, R373, R378, R395, R396, R401, R402: the effect of every mailbox command, with its completion; a READ that meets a line with an
uncorrectable error answers FAULT (R405; log 86), an address without a translation too (log 27); a RESET to a tag that a running function
has, or by a VF of another function, answers FIELD (logs 67 and 27); a function's own RESET is complete once it has drained, and until then no further
command is fetched. -/
def Sys2Proof.Claim.CommandEffects : Prop :=
  (∀ (s : State) (f : Nat) (c : Cmd) (pa : Nat), Fetched s f 1 c → OneLine s f c true pa →
    ∃ t, CompletesWith (.write f) s t f (s.func f) c.tag 0 0 ∧
      (∀ i, i < c.len → t.mem.read (pa + i) = s.hostMem.read (c.haddr.toNat + i)) ∧
      ∀ a, a < pa ∨ pa + c.len ≤ a → t.mem.read a = s.mem.read a) ∧
  (∀ (s : State) (f : Nat) (c : Cmd) (pa : Nat), Fetched s f 2 c → OneLine s f c false pa → lineOf pa ∈ s.net.badLines →
    ∃ t, CompletesWith (.read f) s t f (s.func f) c.tag 2 0 ∧ t.mem = s.mem ∧
      ∀ a, NotCompletion (s.func f) a → t.hostMem.read a = s.hostMem.read a) ∧
  (∀ (s : State) (f : Nat) (c : Cmd) (pa : Nat), Fetched s f 2 c → OneLine s f c false pa → lineOf pa ∉ s.net.badLines →
    ∃ t, CompletesWith (.read f) s t f (s.func f) c.tag 0 0 ∧ t.mem = s.mem ∧
      ∀ a, NotCompletion (s.func f) a → t.hostMem.read a =
        if c.haddr.toNat ≤ a ∧ a < c.haddr.toNat + c.len then s.mem.read (pa + (a - c.haddr.toNat)) else s.hostMem.read a) ∧
  (∀ (s : State) (f : Nat) (c : Cmd), c.len = 0 ∨ 4096 < c.len →
    (Fetched s f 1 c → ∃ t, CompletesWith (.write f) s t f (s.func f) c.tag 1 0 ∧ t.mem = s.mem) ∧
    (Fetched s f 2 c → ∃ t, CompletesWith (.read f) s t f (s.func f) c.tag 1 0 ∧ t.mem = s.mem)) ∧
  (∀ (s : State) (f : Nat) (c : Cmd), 1 ≤ c.len → c.len ≤ 4096 → c.daddr.toNat < 2 ^ 56 →
    s.walk f (s.func f).part.toNat c.daddr.toNat = .invalid →
    (Fetched s f 1 c → ∃ t, CompletesWith (.write f) s t f (s.func f) c.tag 2 0 ∧ t.mem = s.mem) ∧
    (Fetched s f 2 c → ∃ t, CompletesWith (.read f) s t f (s.func f) c.tag 2 0 ∧ t.mem = s.mem)) ∧
  (∀ (s : State) (f : Nat) (c : Cmd), Fetched s f 3 c →
    ∃ t F, CompletesWith (.setparam f) s t f F c.tag 0 0 ∧ t.mem = s.mem ∧ { F with slots := (s.func f).slots } = s.func f ∧
      ∀ k, sget 0 F.slots k = if k = c.daddr.toNat % 64 then c.value else sget 0 (s.func f).slots k) ∧
  (∀ (s : State) (f : Nat) (c : Cmd), Fetched s f 4 c →
    (c.daddr.toNat % 64 ≠ 0 → ∃ t, CompletesWith (.replay f) s t f (s.func f) c.tag 1 0 ∧ t.work = s.work) ∧
    (∀ pa, c.daddr.toNat % 64 = 0 → OneLine s f { c with len := 1 } true pa →
      let n := (s.work.replays.filter fun e => decide (e.2.func = f)).length
      (64 ≤ n → ∃ t, CompletesWith (.replay f) s t f (s.func f) c.tag 4 0 ∧ t.work = s.work) ∧
      (n < 64 → (∀ e ∈ s.work.replays, e.1 ≠ s.nextId) →
        ∃ t R, CompletesWith (.replay f) s t f (s.func f) c.tag 0 (n + 1) ∧ t.replay? s.nextId = some R ∧ R.func = f ∧
          R.graph = c.daddr ∧ R.started = false ∧ R.slots = (s.func f).slots))) ∧
  (∀ (s : State) (f : Nat) (c : Cmd), (s.func f).cmd = some c → c.opc = 5 → c.resv = false →
    (c.daddr.toNat % 256 = 0 →
      ∃ t, CompletesWith (.query f) s t f (s.func f) c.tag 0
        ((s.sys.codes.headD 0).toNat * 2 ^ 16 + 4 * (match (s.func f).state with | .off => 0 | .run => 1 | .reset => 2 | .drained => 3) +
          (match s.sys.dstate with | .boot => 0 | .run => 1 | .safe => 2)) ∧ t.mem = s.mem) ∧
    (c.daddr.toNat % 256 = 2 →
      ∃ t, CompletesWith (.query f) s t f (s.func f) c.tag 0 512 ∧ t.mem = s.mem ∧
        ∀ k i, k < 8 → i < 64 → NotCompletion (s.func f) (c.haddr.toNat + 64 * k + i) →
          (t.hostMem.read (c.haddr.toNat + 64 * k + i)).toNat = (sget 0 s.sys.mr k).toNat / 2 ^ (8 * i) % 256) ∧
    (4 ≤ c.daddr.toNat % 256 → ∃ t, CompletesWith (.query f) s t f (s.func f) c.tag 1 0 ∧ t.mem = s.mem)) ∧
  (∀ (s : State) (f : Nat) (c : Cmd), (s.func f).cmd = some c → c.opc = 6 → c.resv = false → s.sys.dstate ≠ .boot →
    c.nonce.length = 32 → s.sys.idBlock = none →
    (s.sys.idBurnt < 4096 →
      ∃ t, CompletesWith (.attest f) s t f (s.func f) c.tag 0 (256 * s.sys.idBurnt) ∧ t.mem = s.mem ∧
        t.sys.idBurnt = s.sys.idBurnt + 1 ∧ t.sys.idNext = 1 ∧
        ∀ i, i < 32 → NotCompletion (s.func f) (c.haddr.toNat + 64 + i) →
          t.hostMem.read (c.haddr.toNat + 64 + i) = c.nonce.getD i 0) ∧
    (4096 ≤ s.sys.idBurnt → ∃ t, CompletesWith (.attest f) s t f (s.func f) c.tag 8 0 ∧ t.sys.idBurnt = s.sys.idBurnt)) ∧
  (∀ (s : State) (c : Cmd), Fetched s 0 7 c → c.daddr.toNat % 64 = 0 →
    ∃ t l, exec (.reset 0) s = .next t ∧ Starting t l ∧ t.mem = s.mem ∧ t.hostMem = s.hostMem) ∧
  (∀ (s : State) (f g : Nat) (c : Cmd), Fetched s f 7 c → c.daddr.toNat % 64 = g →
    (f ≠ 0 → g ≠ f → ∃ t, CompletesWith (.reset f) s t f (s.func f) c.tag 1 0) ∧
    (f = 0 → g ≠ 0 → (s.func g).state = .off →
      (¬ TagClashes s g →
        ∃ t, CompletesWith (.reset f) s t f (s.func f) c.tag 0 0 ∧ (t.func g).state = .run ∧ (t.func g).slots = []) ∧
      (TagClashes s g → ∃ t, CompletesWith (.reset f) s t f (s.func f) c.tag 1 0 ∧ t.func g = s.func g)) ∧
    (g = f → f ≠ 0 →
      ∃ t, exec (.reset f) s = .next t ∧ t.mem = s.mem ∧ t.hostMem = s.hostMem ∧ (t.func g).state = .reset ∧
        (t.func g).gen = (s.func g).gen + 1 ∧ (t.func g).resetTag = (s.func g).resetTag ++ [(f, c.tag)] ∧ (t.func f).cmd = none ∧
        exec (.commandFetch f) t = .next t ∧ exec (.reset f) t = .next t)) ∧
  (∀ (s : State) (f : Nat) (c : Cmd) (g : LogEntry), s.net.log.find? (fun h => decide (h.id = c.value.toNat)) = some g →
    g.func = f → g.answer = none → g.upgrade = false →
    (Fetched s f 8 c → ∃ t, CompletesWith (.resolve f) s t f (s.func f) c.tag 0 0 ∧ t.mem = s.mem ∧
      t.net.log = s.net.log.map fun h => answeredLog g h true) ∧
    (Fetched s f 9 c → ∃ t, CompletesWith (.fail f) s t f (s.func f) c.tag 0 0 ∧ t.mem = s.mem ∧
      t.net.log = s.net.log.map fun h => answeredLog g h false)) ∧
  (∀ (s : State) (f : Nat) (c : Cmd), (∀ h ∈ s.net.log, h.id ≠ c.value.toNat) →
    (Fetched s f 8 c → ∃ t, CompletesWith (.resolve f) s t f (s.func f) c.tag 9 0 ∧ t.net.log = s.net.log) ∧
    (Fetched s f 9 c → ∃ t, CompletesWith (.fail f) s t f (s.func f) c.tag 9 0 ∧ t.net.log = s.net.log))

/-! ### Graphs (R342 to R350) -/

namespace Sys2Proof.Claim

/-- Node n of replay r in state s. -/
def nodeIn (s : State) (r n : Nat) : Option Node := (s.replay? r).bind fun R => aget R.nodes n

/-- The next state of i leaves node n of replay r complete, or otherwise as g says, and changes no other node. -/
def NodeBecomes (s t : State) (r n : Nat) (N : Node) : Prop :=
  nodeIn t r n = some N ∧ ∀ m, m ≠ n → nodeIn t r m = nodeIn s r m

/-- Node n of replay r may start: the replay runs without a failure, the node waits, every node that it names is complete (R344, R350). -/
def MayStart (s : State) (r n : Nat) (R : Replay) (N : Node) : Prop :=
  s.sys.dstate = .run ∧ s.replay? r = some R ∧ aget R.nodes n = some N ∧ R.started = true ∧ R.code ≤ 1 ∧ N.state = .waiting ∧
    ∀ i, i < N.ndep → i < 8 → ∀ M, aget R.nodes (natAt N.bytes (8 + 2 * i) 2) = some M → natAt N.bytes (8 + 2 * i) 2 < n → M.state = .complete

/-- The node's header is well formed, without patches and without a producer (R344). -/
def PlainHeader (n : Nat) (N : Node) (kind : Nat) : Prop :=
  natAt N.bytes 0 1 = kind ∧ natAt N.bytes 1 1 ≤ 8 ∧ natAt N.bytes 2 1 = 0xFF ∧ natAt N.bytes 3 1 = 0 ∧ natAt N.bytes 4 4 = 0 ∧
    natAt N.bytes 56 8 = 0 ∧ ∀ i, i < natAt N.bytes 1 1 → natAt N.bytes (8 + 2 * i) 2 < n

/-- A field of a node's body. -/
def bodyAt (N : Node) (off k : Nat) : Nat := natAt N.bytes (64 + off) k

/-- The location of a WAIT or SIGNAL node: aligned, in a page of this device of the function's tenant. -/
def Location (s : State) (f : Nat) (N : Node) (size pa : Nat) (write : Bool) : Prop :=
  bodyAt N 0 8 % size = 0 ∧ bodyAt N 0 8 < 2 ^ 56 ∧
    ∃ l, s.walk f (s.func f).part.toNat (bodyAt N 0 8) = .ok l pa ∧ l.tenant = (s.func f).ftag ∧ (l.kind = .hbm ∨ l.kind = .cxl) ∧
      (write = true → l.w = true)

/-- The size that a WAIT or SIGNAL node names. -/
def nodeSize (N : Node) : Nat := if bodyAt N 16 1 / 2 % 2 = 1 then 8 else 4

/-- The location of a WAIT node: aligned, in a page of host memory of the function's tenant, outside this device's BAR. -/
def HostLocation (s : State) (f : Nat) (N : Node) (l : Leaf) (pa : Nat) : Prop :=
  bodyAt N 0 8 % nodeSize N = 0 ∧ bodyAt N 0 8 < 2 ^ 56 ∧ s.walk f (s.func f).part.toNat (bodyAt N 0 8) = .ok l pa ∧
    l.tenant = (s.func f).ftag ∧ l.kind = .host ∧ s.inBar pa = false

/-- A WAIT is met: the value is equal to the node's, or at least it, over its size. -/
def WaitMet (N : Node) (v : Nat) : Prop :=
  if bodyAt N 16 1 % 2 = 1 then v = bodyAt N 8 8 % 2 ^ (8 * nodeSize N) else bodyAt N 8 8 % 2 ^ (8 * nodeSize N) ≤ v

/-- A WAIT node without reserved bits. -/
def WaitNode (n : Nat) (N : Node) : Prop := PlainHeader n N 3 ∧ bodyAt N 16 1 < 4 ∧ bodyAt N 17 111 = 0

/-- The graph lies at its alignment in a page of this device, at pa. -/
def GraphAt (s : State) (R : Replay) (pa : Nat) : Prop :=
  R.graph.toNat % 64 = 0 ∧ ∃ l, walkFrom s.mem 4 (s.func R.func).asroot.toNat R.graph.toNat = .leaf l ∧ (l.kind = .hbm ∨ l.kind = .cxl) ∧ l.pa R.graph.toNat = pa

end Sys2Proof.Claim

/-- R343, R345, R350: a queued replay starts: NNODE nodes are read, all waiting, and CODE 1 is written with no failing node; a malformed
header ends it with code 2. A node's patches put slots into the command processor's copy. Once every node is complete, DONE rises by
one and CODE is 0; after a failure, CODE is the failure's, as soon as nothing of the replay is under way. -/
def Sys2Proof.Claim.ReplaysRun : Prop :=
  (∀ (s : State) (r f : Nat) (R : Replay) (pa : Nat), s.sys.dstate = .run → s.work.replays = [(r, R)] → R.func = f → R.started = false →
    R.code = 1 → GraphAt s R pa →
    let n := s.mem.readNat pa 2
    let ok := 1 ≤ n ∧ n ≤ 256 ∧ s.mem.readNat (pa + 2) 1 < 4 ∧ s.mem.readNat (pa + 3) 1 = 0 ∧ s.mem.readNat (pa + 16) 48 = 0
    ∃ t Q, exec (.replayStart f) s = .next t ∧ t.replay? r = some Q ∧ Q.started = true ∧ t.mem.readNat (pa + 4) 4 = 0x0100FFFF ∧
      (∀ a, a < pa + 4 ∨ pa + 8 ≤ a → t.mem.read a = s.mem.read a) ∧ (¬ ok → Q.code = 2) ∧
      (ok → Q.code = 1 ∧ Q.prio = s.mem.readNat (pa + 2) 1 ∧ Q.nodes.map (·.1) = List.range n ∧ ∀ e ∈ Q.nodes, e.2.state = .waiting)) ∧
  (∀ (slots : List (Nat × Dword)) (b : List Byte) (i : Nat), b.length = 192 → i < 8 →
    let w := natAt b (24 + 4 * i) 4
    let off := 64 + 4 * (w / 256 % 32)
    let v := (sget 0 slots (w % 64)).toNat
    (w / 2 ^ 13 % 2 = 0 → natAt (applyPatch slots b i) off 4 = v % 2 ^ 32 ∧
      ∀ k, k < off ∨ off + 4 ≤ k → (applyPatch slots b i).getD k 0 = b.getD k 0) ∧
    (w / 2 ^ 13 % 2 = 1 → w / 256 % 2 = 0 → natAt (applyPatch slots b i) off 8 = v ∧
      ∀ k, k < off ∨ off + 8 ≤ k → (applyPatch slots b i).getD k 0 = b.getD k 0)) ∧
  (∀ (s : State) (r : Nat) (R : Replay) (pa : Nat), s.replay? r = some R → R.started = true → GraphAt s R pa →
    (R.code ≤ 1 → (∀ e ∈ R.nodes, e.2.state = .complete) →
      ∃ t, exec (.replayEnd r) s = .next t ∧ t.replay? r = none ∧ t.mem.readNat (pa + 4) 4 = 0x0000FFFF ∧
        t.mem.readNat (pa + 8) 8 = (s.mem.readNat (pa + 8) 8 + 1) % 2 ^ 64 ∧ ∀ a, a < pa + 4 ∨ pa + 16 ≤ a → t.mem.read a = s.mem.read a) ∧
    (1 < R.code → R.code < 256 → R.node < 65536 → (∀ e ∈ R.nodes, e.2.state ≠ .started) →
      ∃ t, exec (.replayEnd r) s = .next t ∧ t.replay? r = none ∧ t.mem.readNat (pa + 4) 4 = R.code * 2 ^ 24 + R.node ∧
        t.mem.readNat (pa + 8) 8 = (s.mem.readNat (pa + 8) 8 + 1) % 2 ^ 64) ∧
    (R.code ≤ 1 → (∃ e ∈ R.nodes, e.2.state ≠ .complete) → exec (.replayEnd r) s = .next s))

/-- R344, R346 to R349: a node that may start: a LAUNCH that passes every check starts a grid, one that fails a check ends with the code of
the first; a JOB becomes a copy job of die 0, once its function's budget allows; a WAIT reads its location, and completes when it is met,
over the width that it names (log 28), and one on a host page reads it again once every 1 us; one whose address is another tenant's is
refused with TENANT, whatever else bars that page; a SIGNAL stores or adds and completes. -/
def Sys2Proof.Claim.NodesRun : Prop :=
  (∀ (s : State) (r n : Nat) (R : Replay) (N : Node), MayStart s r n R N → PlainHeader n N 1 →
    (s.launchCode R.func N.body = 0 →
      ∃ t G, exec (.nodeLaunch r n) s = .next t ∧ t.grid? s.nextId = some G ∧ G.func = R.func ∧ G.part = (s.func R.func).part.toNat ∧
        G.replay = r ∧ G.node = n ∧ G.next = 0 ∧ G.retired = 0 ∧ G.fatal = false ∧ G.cap = (s.func R.func).cap.toNat ∧ G.tpri = (s.func R.func).tpri ∧
        G.launch.gx = bodyAt N 0 4 ∧ G.launch.gy = bodyAt N 4 4 ∧ G.launch.gz = bodyAt N 8 4 ∧ G.launch.np = bodyAt N 12 1 ∧
        G.launch.nc = bodyAt N 13 1 ∧ G.launch.pool.toNat = bodyAt N 16 4 ∧ G.launch.tvec.toNat = bodyAt N 20 4 ∧
        G.launch.pentry.toNat = bodyAt N 24 8 ∧ G.launch.centry.toNat = bodyAt N 32 8 ∧ G.launch.image.toNat = bodyAt N 40 8 ∧
        G.launch.tenant.toNat = bodyAt N 48 2 ∧ NodeBecomes s t r n { N with state := .started } ∧ t.mem = s.mem) ∧
    (s.launchCode R.func N.body ≠ 0 →
      ∃ t Q, exec (.nodeLaunch r n) s = .next t ∧ t.replay? r = some Q ∧ Q.code = s.launchCode R.func N.body ∧ Q.node = n ∧
        NodeBecomes s t r n { N with state := .complete, failed := true } ∧ t.grids = s.grids)) ∧
  (∀ (s : State) (f : Nat) (b : List Byte), s.launchCode f b ∈ [0, 2, 3, 4, 5, 6, 7] ∧
    (natAt b 0 4 = 0 ∨ natAt b 4 4 = 0 ∨ natAt b 8 4 = 0 ∨ natAt b 12 1 + natAt b 13 1 = 0 ∨ 16 < natAt b 12 1 + natAt b 13 1 ∨
      natAt b 20 4 % 4 ≠ 0 → s.launchCode f b = 2) ∧
    (s.launchCode f b = 0 → natAt b 48 2 = (s.func f).ftag.toNat ∨ (s.func f).tar = true)) ∧
  (∀ (s : State) (r n : Nat) (R : Replay) (N : Node), MayStart s r n R N → PlainHeader n N 2 →
    nodeCardOk N.body (cardAt (Memory.writeBytes [] 0 (N.body.take 64)) 0) = true → s.mayDispatch R.func = true →
    ∃ t j, exec (.nodeJob r n) s = .next t ∧ t.jobs = s.jobs ++ [j] ∧ j.die = 0 ∧ j.team = none ∧ j.node = some (r, n) ∧ j.func = R.func ∧
      j.tenant = (s.func R.func).ftag ∧ j.kind = .copy ∧ j.status = 0 ∧ j.len = bodyAt N 0x04 4 ∧ j.from_ = bodyAt N 0x08 8 ∧
      j.dst = bodyAt N 0x10 8 ∧ NodeBecomes s t r n { N with state := .started } ∧ t.mem = s.mem) ∧
  (∀ (s : State) (r n : Nat) (R : Replay) (N : Node), MayStart s r n R N → natAt N.bytes 0 1 = 2 → s.mayDispatch R.func = false →
    exec (.nodeJob r n) s = .next s) ∧
  (∀ (s : State) (r n : Nat) (R : Replay) (N : Node) (pa : Nat), MayStart s r n R N → WaitNode n N → Location s R.func N (nodeSize N) pa false →
    let v := s.mem.readNat pa (nodeSize N)
    (WaitMet N v → ∃ t, exec (.nodeWait r n) s = .next t ∧ NodeBecomes s t r n { N with state := .complete } ∧ t.mem = s.mem) ∧
    (¬ WaitMet N v →
      ∃ t, exec (.nodeWait r n) s = .next t ∧ NodeBecomes s t r n { N with state := .started } ∧ t.mem = s.mem ∧
        ∀ l, s.walk R.func (s.func R.func).part.toNat (bodyAt N 0 8) = .ok l pa → s.watchesAt (homeSlice l.kind pa) < 64 →
          let f := (s.ownerOf l.tenant).getD R.func
          t.net.watches = s.net.watches ++ [⟨.node r n, l.kind, pa, nodeSize N, false, bodyAt N 0 8, f, (s.func f).gen, false⟩])) ∧
  (∀ (s : State) (r n : Nat) (R : Replay) (N : Node) (l : Leaf), MayStart s r n R N → WaitNode n N → bodyAt N 0 8 % nodeSize N = 0 →
    bodyAt N 0 8 < 2 ^ 56 → walkFrom s.mem 4 (s.func R.func).asroot.toNat (bodyAt N 0 8) = .leaf l → l.kind = .hbm ∨ l.kind = .cxl →
    l.tenant ≠ (s.func R.func).ftag →
    ∃ t Q, exec (.nodeWait r n) s = .next t ∧ t.replay? r = some Q ∧ Q.code = 7 ∧ Q.node = n ∧
      NodeBecomes s t r n { N with state := .complete, failed := true } ∧ t.mem = s.mem) ∧
  (∀ (s : State) (r n : Nat) (R : Replay) (N : Node) (pa : Nat), s.replay? r = some R → aget R.nodes n = some N → N.state = .started →
    natAt N.bytes 0 1 = 3 → (∀ w ∈ s.net.watches, w.who ≠ .node r n) → Location s R.func N (nodeSize N) pa false →
    WaitMet N (s.mem.readNat pa (nodeSize N)) →
    ∃ t, exec (.waitPoll r n) s = .next t ∧ NodeBecomes s t r n { N with state := .complete } ∧ t.mem = s.mem) ∧
  (∀ (s : State) (r n : Nat) (R : Replay) (N : Node) (l : Leaf) (pa : Nat), s.replay? r = some R → aget R.nodes n = some N →
    N.state = .started → natAt N.bytes 0 1 = 3 → (∀ w ∈ s.net.watches, w.who ≠ .node r n) → HostLocation s R.func N l pa →
    (s.ftime < N.polled + 1000 → exec (.waitPoll r n) s = .next s) ∧
    (N.polled + 1000 ≤ s.ftime → ¬ WaitMet N (s.hostMem.readNat pa (nodeSize N)) →
      ∃ t, exec (.waitPoll r n) s = .next t ∧ NodeBecomes s t r n { N with polled := s.ftime } ∧ t.mem = s.mem) ∧
    (N.polled + 1000 ≤ s.ftime → WaitMet N (s.hostMem.readNat pa (nodeSize N)) →
      ∃ t, exec (.waitPoll r n) s = .next t ∧ NodeBecomes s t r n { N with state := .complete } ∧ t.mem = s.mem)) ∧
  (∀ (s : State) (r n : Nat) (R : Replay) (N : Node) (pa : Nat), MayStart s r n R N → PlainHeader n N 4 → bodyAt N 16 1 < 16 →
    bodyAt N 17 1 = 0 → bodyAt N 20 108 = 0 → Location s R.func N (nodeSize N) pa true →
    let old := if bodyAt N 16 1 % 2 = 1 then s.mem.readNat pa (nodeSize N) else 0
    ∃ t, exec (.nodeSignal r n) s = .next t ∧ NodeBecomes s t r n { N with state := .complete } ∧
      t.mem.readNat pa (nodeSize N) = (old + bodyAt N 8 8) % 2 ^ (8 * nodeSize N) ∧
      (∀ a, a < pa ∨ pa + nodeSize N ≤ a → t.mem.read a = s.mem.read a) ∧
      t.sys.msix = if bodyAt N 16 1 / 8 % 2 = 1 then (R.func, bodyAt N 18 2) :: s.sys.msix else s.sys.msix)

/-! ### Teams and grids (R98, R103, R106, R112, R113, R351, R352, R384 to R387, R390) -/

namespace Sys2Proof.Claim

/-- Team i of state t runs down its drain since cycle `now`, on the core that it held. -/
def DrainsIn (t : State) (i core now : Nat) : Prop := ∃ U, t.team? i = some U ∧ U.life = .draining core now

/-- A beam as it is placed (R98). -/
def PlacedBeam (l : Launch) (k : Nat) (b : Beam) : Prop :=
  b.pc = (if k < l.np then l.pentry else l.centry) ∧ b.exm = 0xFFFFFFFF ∧ b.lvm = 0xFFFFFFFF ∧ (∀ n i, b.rd n i = 0) ∧ b.wb = 0 ∧
    b.cause = 0 ∧ b.epc = 0 ∧ b.pix = 0 ∧ b.eexm = 0 ∧ b.fflags = 0 ∧ b.rmode = 1 ∧ b.chk = 0 ∧ b.orc = 0 ∧ b.jstat = 0 ∧
    b.tvec = l.tvec ∧ b.tele = l.tele ∧ b.status = .ready ∧ b.halt = .run ∧ ∀ i, i < 32 → sget 0 b.tenant i = l.tenant

/-- Grid g may have its next team placed on a core (R103 to R106, R351). -/
def MayPlace (s : State) (g : Nat) (G : Grid) (core : Nat) : Prop :=
  s.sys.dstate = .run ∧ s.grid? g = some G ∧ s.nextSaved g G = none ∧ s.placeable g G = true ∧ s.mayTake ⟨g, G, none⟩ core = true ∧
    s.turn ⟨g, G, none⟩ = true ∧ G.launch.paired = false ∧ G.launch.image = 0

/-- Where the save area of a team has the record of beam k, and its registers. -/
def beamRecord (T : Team) (k : Nat) : Nat := T.area + 0x200 + 64 * k
def beamFile (T : Team) (k : Nat) : Nat := T.area + 0x28000 + 128 * ((T.beams.take k).map (·.budget)).sum

/-- Beam b is as the record at o of a save area says (R389); the pc where no long instruction of it was stopped. -/
def AsRecorded (m : Memory) (o : Nat) (b : Beam) : Prop :=
  (b.latched = none → b.pc.toNat = m.readNat o 8) ∧ b.epc.toNat = m.readNat (o + 8) 8 ∧ b.exm.toNat = m.readNat (o + 0x14) 4 ∧
    b.lvm.toNat = m.readNat (o + 0x18) 4 ∧ b.eexm.toNat = m.readNat (o + 0x1C) 4 ∧ b.cause.toNat = m.readNat (o + 0x20) 4 ∧
    b.tvec.toNat = m.readNat (o + 0x24) 4 ∧ b.jstat.toNat = m.readNat (o + 0x38) 4 ∧
    let w := m.readNat (o + 0x28) 4
    b.skid.toNat = w / 2 ^ 10 % 4 ∧ b.fflags.toNat = w / 2 ^ 12 % 32 ∧ b.rmode.toNat = w / 2 ^ 17 % 8 ∧ b.chk.toNat = w / 2 ^ 20 % 2 ∧
      b.tele.toNat = w / 2 ^ 21 % 16

/-- A line of the team's save area has an uncorrectable error. -/
def AreaBad (s : State) (T : Team) (G : Grid) : Prop :=
  ∃ l ∈ s.net.badLines, lineOf T.area ≤ l ∧ l ≤ lineOf (T.area + G.launch.area - 1)

/-- Team i, which is saved, may be restored on a core (R351, R390). -/
def MayRestore (s : State) (i core : Nat) (T : Team) (G : Grid) : Prop :=
  s.sys.dstate = .run ∧ s.team? i = some T ∧ s.grid? T.grid = some G ∧ s.nextSaved T.grid G = some (i, T.savedAt) ∧
    s.mayTake ⟨T.grid, G, some (i, T.savedAt)⟩ core = true ∧ s.turn ⟨T.grid, G, some (i, T.savedAt)⟩ = true ∧
    G.launch.paired = false ∧ G.launch.image = 0

end Sys2Proof.Claim

/-- R98, R101, R103: the next team of a grid is placed on a core with all its beams as R98 gives them; one that waits for its place but
may not be placed stays. R387 to R390: a saved team is restored with registers, masks, scratchpad, accumulators and team words as its save
area holds them; what a beam waits for is as it was saved (log 7). R380: with an uncorrectable error in its save area it is stopped. -/
def Sys2Proof.Claim.TeamsArePlaced : Prop :=
  (∀ (s : State) (g core : Nat) (G : Grid), MayPlace s g G core →
    ∃ t T H, exec (.teamPlace g core) s = .next t ∧ t.team? s.nextId = some T ∧ T.grid = g ∧ T.index = G.next ∧ T.life = .resident core ∧
      T.since = s.clock ∧ T.beams.length = G.launch.np + G.launch.nc ∧ (∀ (k : Nat) (b : Beam), T.beams[k]? = some b → PlacedBeam G.launch k b) ∧
      T.scratch = [] ∧ T.acc = [] ∧ T.tw = [] ∧ T.bars = [] ∧ T.tiles = [] ∧ T.queues = [] ∧ T.prism = Prism.init ∧ T.handler = none ∧
      t.grid? g = some H ∧ H.next = G.next + 1 ∧ t.mem = s.mem) ∧
  (∀ (s : State) (g core : Nat) (G : Grid), s.grid? g = some G → s.sys.dstate ≠ .run ∨ s.placeable g G = false ∨ s.fitsAt ⟨g, G, none⟩ core = false →
    exec (.teamPlace g core) s = .next s) ∧
  (∀ (s : State) (i core : Nat) (T : Team) (G : Grid), MayRestore s i core T G →
    (∀ h ∈ s.net.log, h.packet.src.t = i → h.packet.job ≠ none) → (∀ b ∈ T.beams, b.ptrap = none) → ¬ AreaBad s T G → s.mem.wf = true →
    let scr := T.area + 0x28000 + 16384 * G.launch.granules
    let acc := scr + 16384 * poolScr G.launch.pool
    ∃ t U, exec (.teamRestore i core) s = .next t ∧ t.team? i = some U ∧ U.life = .resident core ∧ U.since = s.clock ∧ t.mem = s.mem ∧
      U.beams.length = T.beams.length ∧ (∀ a, a < 16384 * poolScr G.launch.pool → U.scratch.read a = s.mem.read (scr + a)) ∧
      (∀ n, n < 8192 * poolAcc G.launch.pool → (sget 0 U.acc n).toNat = s.mem.readNat (acc + 4 * n) 4) ∧
      (∀ n, n < 16 → (sget 0 U.tw n).toNat = s.mem.readNat (T.area + 0x40 + 4 * n) 4) ∧
      (∀ q, (∃ e ∈ T.queues, e.1 = q) → let o := T.area + 0x600 + 288 * q
        (sget Queue.init U.queues q).ctrl.toNat = s.mem.readNat o 4 ∧ (sget Queue.init U.queues q).p = s.mem.readNat (o + 4) 4 ∧
          (sget Queue.init U.queues q).c = s.mem.readNat (o + 8) 4) ∧
      ∀ (k : Nat) (b c : Beam), T.beams[k]? = some b → U.beams[k]? = some c →
        (b.latched = none → AsRecorded s.mem (beamRecord T k) c) ∧ c.exm.toNat = s.mem.readNat (beamRecord T k + 0x14) 4 ∧
        c.lvm.toNat = s.mem.readNat (beamRecord T k + 0x18) 4 ∧
        c.status = b.status ∧ c.lastIssue = none ∧ c.mcall = (if b.halt = .run then none else b.mcall) ∧
        (b.halt = .run → b.latched = none → ∀ m, b.mcall = some m → c.resume = some m.word) ∧
        ∀ n l, n < b.budget → l < 32 → (c.rd n l).toNat = s.mem.readNat (beamFile T k + 128 * n + 4 * l) 4) ∧
  (∀ (s : State) (i core : Nat) (T : Team) (G : Grid), MayRestore s i core T G → AreaBad s T G → (∀ b ∈ T.beams, b.ptrap = none) →
    (∀ h ∈ s.net.log, h.packet.src.t = i → h.packet.job ≠ none) →
    ∃ t U H, exec (.teamRestore i core) s = .next t ∧ t.team? i = some U ∧ U.stopped = true ∧ t.grid? T.grid = some H ∧ H.fatal = true ∧
      t.mem = s.mem) ∧
  (∀ (s : State) (i core : Nat) (T : Team), s.team? i = some T → (∀ e ∈ s.teams, e.1 = i → e.2 = T) → T.life ≠ .saved →
    exec (.teamRestore i core) s = .next s)

/-- R352, R384 to R389: pre-emption begins where a quantum has expired and a candidate may take no core, or at a PRECTL write; a team at rest
is saved, its beams in their records, which changes no memory outside its save area; a drain that lacks an acknowledgement after 2 ms is
fatal for the grid. -/
def Obligations.TeamsArePreempted : Prop :=
  (∀ (s : State) (i core : Nat) (T : Team) (c : Cand), s.team? i = some T → T.life = .resident core → s.needy (s.partOf T) = some c →
    (∀ e ∈ s.teams, s.partOf e.2 = s.partOf T → ∀ x y, e.2.life ≠ .draining x y) → s.victim c T = true →
    (∀ e ∈ s.teams, s.victim c e.2 = true → s.prioOf T < s.prioOf e.2 ∨ (s.prioOf T = s.prioOf e.2 ∧ T.since ≤ e.2.since)) →
    ∃ t, exec (.quantumExpiry i) s = .next t ∧ DrainsIn t i core s.clock ∧ t.mem = s.mem ∧ (core, c.g) ∈ t.regs.room) ∧
  (∀ (s : State) (i : Nat) (T : Team), s.team? i = some T → s.needy (s.partOf T) = none → exec (.quantumExpiry i) s = .next s) ∧
  (∀ (s : State) (p : BitVec 4), s.regs.preBusy = false → p.toNat < 12 →
    ∃ t, exec (.prectlGo p) s = .next t ∧ t.regs.prePart = p ∧ t.mem = s.mem ∧
      ∀ (i core : Nat) (T : Team) (G : Grid), s.team? i = some T → T.life = .resident core → T.stopped = false → s.grid? T.grid = some G →
        G.part = p.toNat → DrainsIn t i core s.clock ∧ t.regs.preBusy = true) ∧
  (∀ (s : State) (p : BitVec 4), s.regs.preBusy = true ∨ 12 ≤ p.toNat → exec (.prectlGo p) s = .next s) ∧
  (∀ (s : State) (i c since : Nat) (T : Team) (G : Grid), s.team? i = some T → T.life = .draining c since → s.grid? T.grid = some G →
    G.launch.paired = false → s.drained i T = true → ((s.core c).entries.filter fun n => decide (n.src.t = i)).length ≤ 8 → s.logOf i ≤ 64 →
    T.beams.length ≤ 16 →
    ∃ t U, exec (.preempt i) s = .next t ∧ t.team? i = some U ∧ U.life = .saved ∧ U.savedAt = since ∧ U.scratch = T.scratch ∧
      U.acc = T.acc ∧ U.beams.length = T.beams.length ∧
      (∀ (k : Nat) (b : Beam), T.beams[k]? = some b → b.latched = none → AsRecorded t.mem (beamRecord T k) b) ∧
      (∀ a, a < T.area ∨ T.area + G.launch.area ≤ a → t.mem.read a = s.mem.read a) ∧
      ∀ n ∈ (t.core c).entries, n.src.t ≠ i) ∧
  (∀ (s : State) (i : Nat) (T : Team), s.team? i = some T → s.drained i T = false → exec (.preempt i) s = .next s) ∧
  (∀ (s : State) (i b c since : Nat) (T : Team) (B : Beam) (G : Grid), HasBeam s ⟨i, b⟩ T B → T.life = .draining c since → T.stopped = false →
    since + 1400000 ≤ s.clock → B.orc ≠ 0 → s.grid? T.grid = some G →
    ∃ t H U, exec (.preemptDrainTimeout i b) s = .next t ∧ t.grid? T.grid = some H ∧ H.fatal = true ∧ t.team? i = some U ∧
      U.stopped = true ∧ t.mem = s.mem)

/-- R112, R113, R164, R275: a beam with no live lane and no unacknowledged request retires; a team all of whose beams have retired, with no
job, board request, engine entry, access under way or unsent store left (log 61), retires; a grid without teams completes, once all have
been placed or none will be. -/
def Sys2Proof.Claim.TeamsRetire : Prop :=
  (∀ (s : State) (i k : Nat) (T : Team) (b : Beam), HasBeam s ⟨i, k⟩ T b → b.lvm = 0 → b.orc = 0 → b.status ≠ .retired →
    ∃ t U c, exec (.beamRetire i k) s = .next t ∧ HasBeam t ⟨i, k⟩ U c ∧ c.status = .retired ∧ t.mem = s.mem ∧
      ∀ j, j ≠ k → U.beams[j]? = T.beams[j]?) ∧
  (∀ (s : State) (i k : Nat) (T : Team) (b : Beam), HasBeam s ⟨i, k⟩ T b → b.lvm ≠ 0 ∨ b.orc ≠ 0 → exec (.beamRetire i k) s = .next s) ∧
  (∀ (s : State) (i : Nat) (T : Team) (G : Grid), s.team? i = some T → (∀ b ∈ T.beams, b.status = .retired) →
    (∀ b ∈ T.beams, b.orc = 0 ∧ b.longs = [] ∧ b.latched = none) → (∀ p ∈ s.net.packets, p.src.t = i → p.job ≠ none) →
    (∀ a ∈ s.net.acks, a.src.t ≠ i) → (∀ r ∈ s.net.remotes, r.packet.src.t = i → r.packet.job ≠ none) → (∀ g ∈ s.net.log, g.packet.src.t = i → g.packet.job ≠ none) →
    (∀ j ∈ s.jobs, j.team ≠ some i) → T.boards = [] → T.prism.state ≠ .running → (∀ c ∈ s.cores, ∀ n ∈ c.2.entries, n.src.t ≠ i) →
    s.grid? T.grid = some G →
    ∃ t H, exec (.teamRetire i) s = .next t ∧ t.team? i = none ∧ t.grid? T.grid = some H ∧ H.retired = G.retired + 1 ∧ t.mem = s.mem) ∧
  (∀ (s : State) (i : Nat) (T : Team), s.team? i = some T → T.stopped = false → (∃ b ∈ T.beams, b.status ≠ .retired ∨ b.orc ≠ 0) →
    exec (.teamRetire i) s = .next s) ∧
  (∀ (s : State) (g : Nat) (G : Grid) (N : Node), s.grid? g = some G → (∀ e ∈ s.teams, e.2.grid ≠ g) → G.producer = none →
    nodeIn s G.replay G.node = some N →
    (G.launch.gx * G.launch.gy * G.launch.gz ≤ G.next →
      ∃ t, exec (.gridComplete g) s = .next t ∧ t.grid? g = none ∧ NodeBecomes s t G.replay G.node { N with state := .complete }) ∧
    (G.next < G.launch.gx * G.launch.gy * G.launch.gz → G.fatal = true →
      ∃ t, exec (.gridComplete g) s = .next t ∧ t.grid? g = none ∧
        NodeBecomes s t G.replay G.node { N with state := .complete, failed := true }) ∧
    (G.next < G.launch.gx * G.launch.gy * G.launch.gz → G.fatal = false → (s.func G.func).state = .run →
      exec (.gridComplete g) s = .next s))

/-! ### The gang slice table (R357 to R359) -/

namespace Sys2Proof.Claim

/-- Where entry k of the table lies. -/
def gangAt (s : State) (k : Nat) : Nat := s.regs.gang.base.toNat + 128 * k

/-- The table in memory is one that EN accepts (R357). -/
def TableOk (s : State) : Prop :=
  let m := s.mem
  let n := s.regs.gang.count.toNat
  s.regs.gang.base.toNat % 128 = 0 ∧ 1 ≤ n ∧ n ≤ 64 ∧ 10000 ≤ s.regs.gang.period.toNat ∧ s.regs.gang.period.toNat ≤ 4000000000 ∧
    (∀ k, k < n → m.readNat (gangAt s k + 14) 2 < 4096 ∧ 1 ≤ m.readNat (gangAt s k + 16) 1 ∧ m.readNat (gangAt s k + 16) 1 ≤ 32 ∧
      m.readNat (gangAt s k + 17) 47 = 0 ∧ ∀ i, i < 32 → m.readNat (gangAt s k + 64 + 2 * i) 2 < 2048) ∧
    (∀ k, k + 1 < n → m.readNat (gangAt s k) 8 < m.readNat (gangAt s (k + 1)) 8 ∧
      m.readNat (gangAt s k) 8 + m.readNat (gangAt s k + 8) 4 ≤ m.readNat (gangAt s (k + 1)) 8) ∧
    m.readNat (gangAt s (n - 1)) 8 + m.readNat (gangAt s (n - 1) + 8) 4 ≤ s.regs.gang.period.toNat

/-- Slice (n, k) is in progress, and e is its entry. -/
def InSlice (s : State) (n k : Nat) (e : GangEntry) : Prop :=
  s.regs.gang.cur = some (n, k) ∧ s.regs.gang.table[k]? = some e

/-- The fabric time at which slice n of entry e starts. -/
def sliceStart (s : State) (n : Nat) (e : GangEntry) : Nat := s.regs.gang.epoch.toNat + n * s.regs.gang.period.toNat + e.start

/-- The gate of partition p is closed. -/
def Closed (s : State) (p : Nat) : Prop := s.regs.gang.closed.getLsbD p = true

/-- Every team of the slice's partitions that is not of its gang holds no core. -/
def OthersSaved (s : State) (e : GangEntry) : Prop :=
  ∀ x ∈ s.teams, ∀ G, s.grid? x.2.grid = some G → e.pmask.getLsbD G.part = true → G.launch.gang ≠ e.gang → x.2.core? = none

end Sys2Proof.Claim

/-- R357 to R359: EN = 1 copies a table that keeps R357 and closes its partitions, and sets ERR for another, at EN = 1 too (log 14); a
slice pre-empts the teams of its partitions that are not of its gang and keeps their gate closed where it has a gang; the gate opens when
every member has arrived in time, and else the slice is forfeited, also one that has ended by then; at its end its partitions are closed,
as they are between slices (log 13). -/
def Obligations.GangSlices : Prop :=
  (∀ s : State, TableOk s →
    ∃ t, exec .gsctlEnable s = .next t ∧ t.regs.gang.en = true ∧ t.regs.gang.err = false ∧ t.regs.gang.cur = none ∧ t.teams = s.teams ∧
      t.regs.gang.table.length = s.regs.gang.count.toNat ∧
      (∀ (k : Nat) (e : GangEntry), t.regs.gang.table[k]? = some e →
        e.start = s.mem.readNat (gangAt s k) 8 ∧ e.len = s.mem.readNat (gangAt s k + 8) 4 ∧ e.gang = s.mem.readNat (gangAt s k + 12) 2 ∧
          e.pmask.toNat = s.mem.readNat (gangAt s k + 14) 2 ∧
          e.members = (List.range (s.mem.readNat (gangAt s k + 16) 1)).map fun i => s.mem.readNat (gangAt s k + 64 + 2 * i) 2) ∧
      ∀ p, p < 12 → (Closed t p ↔ ∃ e ∈ t.regs.gang.table, e.pmask.getLsbD p = true)) ∧
  (∀ s : State, ¬ TableOk s →
    exec .gsctlEnable s = .next { s with regs := { s.regs with gang := { s.regs.gang with err := true } } }) ∧
  (∀ s : State, s.regs.gang.en = true →
    (s.regs.gang.cur = none → ∃ t, exec .gsctlDisable s = .next t ∧ t.regs.gang.en = false ∧ t.regs.gang.closed = 0 ∧ t.teams = s.teams) ∧
    (s.regs.gang.cur ≠ none →
      exec .gsctlDisable s = .next { s with regs := { s.regs with gang := { s.regs.gang with off := true } } })) ∧
  (∀ (s : State) (e : GangEntry), s.regs.gang.en = true → s.regs.gang.cur = none → s.regs.gang.table[s.regs.gang.next.2]? = some e →
    sliceStart s s.regs.gang.next.1 e ≤ s.ftime →
    ∃ t, exec .gangSliceStart s = .next t ∧ t.regs.gang.cur = some s.regs.gang.next ∧ t.regs.gang.held = [] ∧ t.mem = s.mem ∧
      (∀ p, p < 12 → (Closed t p ↔ if e.pmask.getLsbD p = true then e.gang ≠ 0 else Closed s p)) ∧
      ∀ (i core : Nat) (T : Team) (G : Grid), s.team? i = some T → T.life = .resident core → T.stopped = false → s.grid? T.grid = some G →
        G.part < 12 → e.pmask.getLsbD G.part = true → G.launch.gang ≠ e.gang → DrainsIn t i core s.clock) ∧
  (∀ s : State, s.regs.gang.en = false ∨ s.regs.gang.cur ≠ none → exec .gangSliceStart s = .next s) ∧
  (∀ (s : State) (n k : Nat) (e : GangEntry), InSlice s n k e → sliceStart s n e + e.len ≤ s.ftime →
    ∃ t, exec .gangSliceEnd s = .next t ∧ t.regs.gang.cur = none ∧ t.teams = s.teams ∧
      t.regs.gang.past = (if e.gang ≠ 0 ∧ s.regs.gang.decided = false then
        s.regs.gang.past ++ [⟨n, k, e, s.regs.gang.held, s.regs.gang.sent⟩] else s.regs.gang.past) ∧
      (s.regs.gang.off = true → t.regs.gang.en = false ∧ t.regs.gang.closed = 0) ∧
      (s.regs.gang.off = false → t.regs.gang.en = s.regs.gang.en ∧ ∀ p, p < 12 → (Closed t p ↔ Closed s p ∨ e.pmask.getLsbD p = true))) ∧
  (∀ (s : State) (n k : Nat) (e : GangEntry), InSlice s n k e → s.ftime < sliceStart s n e + e.len → exec .gangSliceEnd s = .next s) ∧
  (∀ (s : State) (n k chip : Nat) (e : GangEntry), InSlice s n k e → e.gang ≠ 0 → e.gang < 65536 → chip < 65536 → chip ∈ e.members →
    (chip ≠ s.fab.dev.toNat → e.members.headD 0 = s.fab.dev.toNat → s.regs.gang.decided = false → chip ∉ s.regs.gang.held →
      s.ftime ≤ sliceStart s n e + 50000 →
      exec (.arrived (BitVec.ofNat 16 chip) (BitVec.ofNat 16 e.gang) n) s =
        .next { s with regs := { s.regs with gang := { s.regs.gang with held := s.regs.gang.held ++ [chip] } } }) ∧
    (chip = s.fab.dev.toNat → e.members.headD 0 ≠ chip → s.regs.gang.sent = false → OthersSaved s e →
      ∃ t b, exec (.arrived (BitVec.ofNat 16 chip) (BitVec.ofNat 16 e.gang) n) s = .next t ∧ t.regs.gang.sent = true ∧
        t.regs.gang.closed = s.regs.gang.closed ∧ t.net.sent = s.net.sent ++ [b] ∧
        t.net.gangSent = s.net.gangSent ++ [⟨.arrived, e.members.headD 0, e.gang, n, []⟩]) ∧
    (chip = s.fab.dev.toNat → ¬ OthersSaved s e → exec (.arrived (BitVec.ofNat 16 chip) (BitVec.ofNat 16 e.gang) n) s = .next s)) ∧
  (∀ (s : State) (n k : Nat) (e : GangEntry), InSlice s n k e → e.gang ≠ 0 → e.members.headD 0 = s.fab.dev.toNat → s.regs.gang.decided = false →
    ((∀ c ∈ e.members, c ∈ s.regs.gang.held) →
      ∃ t, exec .gangDecide s = .next t ∧ t.regs.gang.decided = true ∧
        t.net.gangSent = s.net.gangSent ++ ((e.members.filter fun c => decide (c ≠ s.fab.dev.toNat)).map fun c =>
          (⟨.opened, c, e.gang, n, []⟩ : GangMsg)) ∧
        ∀ p, p < 12 → (Closed t p ↔ Closed s p ∧ e.pmask.getLsbD p = false)) ∧
    ((∃ c ∈ e.members, c ∉ s.regs.gang.held) → sliceStart s n e + 50000 < s.ftime →
      ∃ t, exec .gangDecide s = .next t ∧ t.regs.gang.decided = true ∧ t.regs.gang.closed = s.regs.gang.closed ∧
        t.net.gangSent = s.net.gangSent ++ ((e.members.filter fun c => decide (c ≠ s.fab.dev.toNat)).map fun c =>
          (⟨.forfeit, c, e.gang, n, e.members.filter fun m => decide (m ∉ s.regs.gang.held)⟩ : GangMsg))) ∧
    ((∃ c ∈ e.members, c ∉ s.regs.gang.held) → s.ftime ≤ sliceStart s n e + 50000 → s.regs.gang.past = [] →
      exec .gangDecide s = .next s)) ∧
  (∀ (s : State) (x : Trial), s.regs.gang.cur = none → s.regs.gang.past = [x] → x.entry.gang ≠ 0 →
    x.entry.members.headD 0 = s.fab.dev.toNat → (∃ c ∈ x.entry.members, c ∉ x.held) →
    (s.ftime ≤ sliceStart s x.cyc x.entry + 50000 → exec .gangDecide s = .next s) ∧
    (sliceStart s x.cyc x.entry + 50000 < s.ftime →
      ∃ t, exec .gangDecide s = .next t ∧ t.regs.gang.past = [] ∧ t.regs.gang.closed = s.regs.gang.closed ∧
        t.net.gangSent = s.net.gangSent ++ ((x.entry.members.filter fun c => decide (c ≠ s.fab.dev.toNat)).map fun c =>
          (⟨.forfeit, c, x.entry.gang, x.cyc, x.entry.members.filter fun m => decide (m ∉ x.held)⟩ : GangMsg)))) ∧
  (∀ (s : State) (n k : Nat) (e : GangEntry), InSlice s n k e → e.gang ≠ 0 → s.fab.dev.toNat ∈ e.members → e.members.headD 0 ≠ s.fab.dev.toNat →
    s.regs.gang.decided = false →
    (s.regs.gang.sent = true → ∃ t, exec .openGate s = .next t ∧ t.regs.gang.decided = true ∧ t.teams = s.teams ∧
      ∀ p, p < 12 → (Closed t p ↔ Closed s p ∧ e.pmask.getLsbD p = false)) ∧
    (s.regs.gang.sent = false → s.regs.gang.past = [] → exec .openGate s = .next s) ∧
    (∀ late : List (BitVec 16), late ≠ [] → ∃ t, exec (.forfeit late) s = .next t ∧ t.regs.gang.decided = true ∧
      t.regs.gang.closed = s.regs.gang.closed ∧ t.teams = s.teams))

/-! ### Migration and read-duplicated pages (R374, R375) -/

namespace Sys2Proof.Claim

/-- The page at m may be moved to `new`, and no page of f is on its way. -/
def MayMove (s : State) (f : Nat) (k : PKind) (m : Mapped) (new : Nat) : Prop :=
  new % m.size = 0 ∧ s.frameFree f k new m.size = true ∧ ∀ x ∈ s.net.moves, x.func ≠ f

/-- The move of page m to `new` begins: nothing of memory changes, and no translation of the page is left, so that accesses fault. -/
def MoveBegins (i : Instr) (s : State) (f : Nat) (k : PKind) (m : Mapped) (new : Nat) : Prop :=
  ∃ t, exec i s = .next t ∧ t.mem = s.mem ∧ t.teams = s.teams ∧ t.net.moves = s.net.moves ++ [⟨f, m.va, m.size, m.pte, m.base, new, k⟩] ∧
    ∀ e ∈ t.net.tlb, e ∈ s.net.tlb ∧ ¬ TouchesRange e f m.va m.size

/-- A leaf entry of 64 bits with a kind and a frame; its other fields stay. -/
def entryWith (v kind frame : Nat) : Nat := v % 2 ^ 13 + kind * 2 ^ 13 + frame * 2 ^ 16 + v / 2 ^ 48 * 2 ^ 48

/-- The number of the kind of memory that a page has moved to. -/
def movedKind (m : Move) : Nat := if m.kind = .hbm then 0 else 1

/-- What a move leaves: the page's bytes at its new place, its entry with the new frame and kind, no translation of it; no other byte of
memory changes; the lanes that faulted on it are to be replayed. -/
def Moved (s t : State) (m : Move) : Prop :=
  (∀ i, i < m.size → t.mem.read (m.new + i) = s.mem.read (m.old + i)) ∧
    t.mem.readNat m.pte 8 = entryWith (s.mem.readNat m.pte 8) (movedKind m) (m.new / 65536) ∧
    (∀ a, a < m.new ∨ m.new + m.size ≤ a → a < m.pte ∨ m.pte + 8 ≤ a → t.mem.read a = s.mem.read a) ∧
    (∀ e ∈ t.net.tlb, e ∈ s.net.tlb ∧ ¬ TouchesRange e m.func m.va m.size) ∧ t.teams = s.teams ∧
    (∀ x, x ∈ t.net.moves ↔ x ∈ s.net.moves ∧ x ≠ m) ∧
    ∀ (k : Nat) (h : LogEntry), s.net.log[k]? = some h → h.func = m.func → m.va ≤ h.va → h.va < m.va + m.size → h.answer = none →
      h.upgrade = false → t.net.log[k]? = some { h with answer := some true }

/-- An address of function g lies in the page m of function f. -/
def OnPage (g f va : Nat) (m : Mapped) : Prop := g = f ∧ m.va ≤ va ∧ va < m.va + m.size

/-- No earlier grant of the page is in progress at the home holder. -/
def NoGrant (s : State) (f : Nat) (m : Mapped) : Prop :=
  (∀ g ∈ s.net.rdGrants, ¬ OnPage g.func f g.va m) ∧ ∀ u ∈ s.net.upgrades, OnPage u.func f u.va m → u.granted = none

end Sys2Proof.Claim

/-- R374: while a function's HBM pages exceed its quota, or no HBM frame is free, its victim moves to CXL; a page of a new grid moves to HBM
as the quota allows; frames and times are the service core's, which the agenda names (log 35). Accesses fault from the beginning of a move
(R373); the bytes and the entry move together, once no access that was translated before is on its way to the page, and another leaf that
names the page goes to its new place too. R375: the protocol of a read-duplicated page; a holder counts its 2 ms from the arrival of the
invalidate, and one event stands for the last acknowledgement (log 70). -/
def Obligations.PagesMove : Prop :=
  (∀ (s : State) (f frame : Nat) (m : Mapped), (s.func f).state = .run → m.va < 2 ^ 64 →
    (s.overQuota f 0 = true ∨ s.hbmFull f = true → s.victimPages f = [m] → MayMove s f .cxl m (65536 * frame) →
      MoveBegins (.pageMigrate f (BitVec.ofNat 64 m.va) frame) s f .cxl m (65536 * frame)) ∧
    (s.overQuota f 0 = false → s.hbmFull f = false → s.fetchPages f = [m] → MayMove s f .hbm m (65536 * frame) →
      MoveBegins (.pageMigrate f (BitVec.ofNat 64 m.va) frame) s f .hbm m (65536 * frame))) ∧
  (∀ (s : State) (f frame : Nat) (va : Dword) (m : Move), (s.func f).state = .run →
    s.net.moves.find? (fun x => decide (x.func = f) && decide (x.va = va.toNat)) = some m → m.new = 65536 * frame → m.new < 2 ^ 48 →
    (m.pte + 8 ≤ m.new ∨ m.new + m.size ≤ m.pte) →
    (s.rangeQuiet m.old m.size = true → (∀ e ∈ s.leavesOn m.old m.size, e.2.pte = m.pte) →
      ∃ t, exec (.pageMigrate f va frame) s = .next t ∧ Moved s t m) ∧
    (∀ (g : Nat) (x : Mapped), s.rangeQuiet m.old m.size = true →
      ((s.leavesOn m.old m.size).filter fun e => decide (e.2.pte ≠ m.pte)) = [(g, x)] → x.l.kind = .hbm ∨ x.l.kind = .cxl → m.old ≤ x.base →
      x.base + x.size ≤ m.old + m.size → (x.pte + 8 ≤ m.new ∨ m.new + m.size ≤ x.pte) → (x.pte + 8 ≤ m.pte ∨ m.pte + 8 ≤ x.pte) →
      ∃ t, exec (.pageMigrate f va frame) s = .next t ∧
        t.mem.readNat x.pte 8 = entryWith (s.mem.readNat x.pte 8) (movedKind m) ((x.base - m.old + m.new) / 65536) ∧
        (∀ i, i < m.size → t.mem.read (m.new + i) = s.mem.read (m.old + i)) ∧
        ∀ e ∈ t.net.tlb, ¬ TouchesRange e m.func m.va m.size ∧ ¬ TouchesRange e g x.va x.size) ∧
    (s.rangeQuiet m.old m.size = false → exec (.pageMigrate f va frame) s = .next s)) ∧
  (∀ (s : State) (f frame : Nat) (va : Dword), (s.func f).state ≠ .run → exec (.pageMigrate f va frame) s = .next s) ∧
  (∀ (s : State) (g : LogEntry) (m : Mapped) (ids : List Nat), s.net.log.find? (fun h => decide (h.id = g.id)) = some g → g.upgrade = true →
    s.rdPage g.func g.va = some (m, ids) → (∀ u ∈ s.net.upgrades, ¬ OnPage u.func g.func u.va m) →
    ∃ t, exec (.rdUpgrade g.id) s = .next t ∧ t.net.upgrades = s.net.upgrades ++ [⟨g.id, g.va, g.func, ids, none⟩] ∧ t.mem = s.mem ∧
      t.net.rdSent = if ids.headD 0 = s.fab.dev.toNat then s.net.rdSent
        else s.net.rdSent ++ [⟨.upgrade, ids.headD 0, s.fab.dev.toNat, BitVec.ofNat 64 g.va⟩]) ∧
  (∀ (s : State) (w f : Nat) (va : Dword) (m : Mapped) (ids : List Nat), s.rdPage f va.toNat = some (m, ids) → w ∈ ids →
    ids.headD 0 = s.fab.dev.toNat → w ≠ s.fab.dev.toNat →
    (¬ NoGrant s f m → exec (.rdGrant w va f) s = .next s) ∧
    (NoGrant s f m → ∃ t, exec (.rdGrant w va f) s = .next t ∧ t.mem = s.mem ∧ t.net.upgrades = s.net.upgrades ∧
      t.net.rdGrants = s.net.rdGrants ++ [⟨f, m.va, w⟩] ∧
      t.net.rdSent = s.net.rdSent ++ ((ids.filter fun i => decide (i ≠ w) && decide (i ≠ s.fab.dev.toNat)).map fun i =>
        (⟨.invalidate, i, w, BitVec.ofNat 64 m.va⟩ : RdMsg)) ++ [⟨.grant, w, w, BitVec.ofNat 64 m.va⟩])) ∧
  (∀ (s : State) (w f : Nat) (va : Dword) (m : Mapped) (ids : List Nat), s.rdPage f va.toNat = some (m, ids) → w ∈ ids →
    s.fab.dev.toNat ∈ ids → w ≠ s.fab.dev.toNat →
    (s.rangeQuiet m.base m.size = false → (∀ h ∈ s.net.rdHeld, ¬ (h.func = f ∧ h.va = m.va ∧ h.writer = w)) →
      ∃ t, exec (.rdInvalidate w va f) s = .next t ∧ t.mem = s.mem ∧ t.net.rdSent = s.net.rdSent ∧
        t.net.rdHeld = s.net.rdHeld ++ [⟨s.nextId, f, m.va, w, s.ftime, false⟩]) ∧
    (s.rangeQuiet m.base m.size = true → ∃ t, exec (.rdInvalidate w va f) s = .next t ∧ (t.mem.read m.pte).toNat = (s.mem.read m.pte).toNat / 2 * 2 ∧
      (∀ a, a ≠ m.pte → t.mem.read a = s.mem.read a) ∧ (∀ e ∈ t.net.tlb, ¬ TouchesRange e f m.va m.size) ∧
      t.net.rdSent = s.net.rdSent ++ [⟨.ack, w, w, BitVec.ofNat 64 m.va⟩] ∧
      ∀ h, h ∈ t.net.rdHeld ↔ h ∈ s.net.rdHeld ∧ ¬ (h.func = f ∧ h.va = m.va ∧ h.writer = w))) ∧
  (∀ (s : State) (u : Upgrade) (g : Nat) (m : Mapped) (ids : List Nat), s.net.upgrades.find? (fun v => decide (v.log = u.log)) = some u →
    u.granted = some g → s.rdPage u.func u.va = some (m, ids) →
    ∃ t, exec (.rdAckComplete u.log) s = .next t ∧ (t.mem.read (m.pte + 1)).getLsbD 2 = false ∧
      (∀ a, a ≠ m.pte + 1 → t.mem.read a = s.mem.read a) ∧ (∀ v ∈ t.net.upgrades, ¬ OnPage v.func u.func v.va m) ∧
      ∀ (k : Nat) (h : LogEntry), s.net.log[k]? = some h → h.upgrade = true → OnPage h.func u.func h.va m →
        t.net.log[k]? = some { h with upgrade := false, answer := some true }) ∧
  (∀ (s : State) (u : Upgrade) (g : LogEntry) (at_ : Nat) (T : Team) (G : Grid), s.net.upgrades.find? (fun v => decide (v.log = g.id)) = some u →
    s.net.log.find? (fun h => decide (h.id = g.id)) = some g → u.granted = some at_ → g.packet.job = none → s.team? g.packet.src.t = some T →
    s.grid? T.grid = some G →
    (s.ftime < at_ + 2000000 → exec (.rdTimeout g.id) s = .next s) ∧
    (at_ + 2000000 ≤ s.ftime → ∃ t H, exec (.rdTimeout g.id) s = .next t ∧ t.mem = s.mem ∧ t.grid? T.grid = some H ∧ H.fatal = true ∧
      ∀ h ∈ s.net.log, h ∈ t.net.log ↔ ¬ (h.upgrade = true ∧ inRange h.func u.func h.va (s.pageRange u.func u.va) = true ∧
        h.packet.job = none ∧ (s.team? h.packet.src.t).map (·.grid) = some T.grid))) ∧
  (∀ (s : State) (h : RdHeld), s.net.rdHeld = [h] → (∀ u ∈ s.net.upgrades, u.log ≠ h.id) → h.told = false →
    (s.ftime < h.since + 2000000 → exec (.rdTimeout h.id) s = .next s) ∧
    (h.since + 2000000 ≤ s.ftime →
      ∃ t, exec (.rdTimeout h.id) s = .next t ∧ t.mem = s.mem ∧ t.teams = s.teams ∧ t.net.rdHeld = [{ h with told := true }]))

/-! ### Links and ports (R409 to R424) -/

namespace Sys2Proof.Claim

/-- A link command: its event, the states in which it acts, the state that it leaves (R418). -/
structure LinkRow where
  event : Nat → Instr
  acts  : List LState
  next  : LState

noncomputable def linkRows : List LinkRow :=
  [⟨.train, [.down, .failed], .train⟩, ⟨.drain, [.up], .drain⟩, ⟨.hold, [.drained], .held⟩, ⟨.dark, [.held], .dark⟩,
   ⟨.relock, [.dark], .relock⟩, ⟨.release, [.held], .up⟩,
   ⟨.down, [.down, .train, .up, .drain, .drained, .held, .dark, .relock, .failed], .down⟩]

/-- Both directions of a link start again (R416). -/
def Restarted (L : Link) : Prop := L.buf = [] ∧ L.nextSeq = 0 ∧ L.exp = 0 ∧ L.nakked = false ∧ L.restripe = none

/-- The link carries flits (R417). -/
def Lit (L : Link) : Prop := L.state = .up ∨ L.state = .drain ∨ L.state = .drained ∨ L.state = .held

/-- The link trains or relocks. -/
def Trains (L : Link) : Prop := L.state = .train ∨ L.state = .relock

/-- The banks in use at the transmitter, or those of a restripe in progress. -/
def aimed (L : Link) : BitVec 3 := L.restripe.getD L.banks

/-- One bank of three. -/
def bankBit (k : Nat) : BitVec 3 := BitVec.ofNat 3 (2 ^ k)

/-- Training of link l finds a bank at each end: one of BANKEN whose module is there, and one whose light is seen. -/
def BanksFound (l : Nat) (L : Link) : Prop := 96 ≤ l ∨ (L.banken &&& ~~~L.absent ≠ 0 ∧ ~~~L.dark ≠ 0)

/-- The fields of a flit's header (R409): its type, sequence number, ACK, allowance and NAK. -/
def flitType (b : List Byte) : Nat := natAt b 0 8 / 2 ^ 48 % 16
def flitSeq (b : List Byte) : BitVec 16 := BitVec.ofNat 16 (natAt b 0 8)
def flitAck (b : List Byte) : BitVec 16 := BitVec.ofNat 16 (natAt b 0 8 / 2 ^ 16)
def flitAllow (b : List Byte) : BitVec 16 := BitVec.ofNat 16 (natAt b 0 8 / 2 ^ 32)
def flitNak (b : List Byte) : Bool := decide (natAt b 0 8 / 2 ^ 52 % 2 = 1)

/-- A flit of 192 bytes whose CRC-64 (R280) is right. -/
def GoodFlit (b : List Byte) : Prop := b.length = 192 ∧ natAt b 184 8 = (crc64 (b.take 184)).toNat

/-- A flit that leaves carries the link's own ACK, and a right CRC. -/
def LeavesFlit (L : Link) (b : List Byte) (type : Nat) (nak : Bool) : Prop :=
  GoodFlit b ∧ flitType b = type ∧ flitAck b = L.exp - 1 ∧ flitNak b = nak

/-- A sequence number that an acknowledgement covers (R411). -/
def covered (a q : BitVec 16) : Prop := 32768 ≤ (q - a).toNat ∨ q = a

/-- Stream slot q of a bank set goes on wavelength `wave` in beat `beat` (R410): the active wavelengths in ascending order, in turn. -/
def OnWave (banks : BitVec 3) (q wave beat : Nat) : Prop :=
  ∃ a : List Nat, a.Pairwise (· < ·) ∧ (∀ w, w ∈ a ↔ w < 24 ∧ banks.getLsbD (w / 8) = true) ∧ a[q % a.length]? = some wave ∧
    beat = q / a.length

/-- The first flit place of the stream that is not taken and has not gone by, and the last that has come by `now`: a flit has 24 slots,
and a beat of 1 ns a slot for each wavelength (R410). -/
def firstPlace (L : Link) : Nat := max L.next (((L.upTo - L.start) * (wavesOf (aimed L)).length + 23) / 24)
def lastPlace (L : Link) (now : Nat) : Nat := ((now - L.start) * (wavesOf (aimed L)).length + 23) / 24

/-- One flit may leave now, and no flit may. -/
def OnePlace (L : Link) (now : Nat) : Prop := firstPlace L = lastPlace L now
def NoPlace (L : Link) (now : Nat) : Prop := lastPlace L now < firstPlace L

/-- No unsequenced flit is due and no restripe is in progress. -/
def Free (L : Link) : Prop := L.restripe = none ∧ L.ctl = []

/-- Nothing is to be resent, and no flit has been resent too often (R411). -/
def Quiet (L : Link) : Prop := L.resends = [] ∧ ∀ f ∈ L.buf, f.resent < 16

/-- Nothing new waits to be sent. -/
def NoneWaits (L : Link) : Prop := L.waiting = [] ∧ L.marker = false

/-- An IDENT flit of this device for link l: code, level, fabric id, link index and capability word at the places of log 83 (R409, R421). -/
def IsIdent (s : State) (l : Nat) (b : List Byte) : Prop :=
  GoodFlit b ∧ flitType b = 4 ∧ natAt b 8 1 = 1 ∧ natAt b 9 1 = 2 ∧ natAt b 10 2 = s.fab.dev.toNat ∧ natAt b 12 2 = l % 128 ∧
    natAt b 16 4 = 0x03FF7FFF

/-- A RESTRIPE flit of a bank set (R409). -/
def IsRestripe (L : Link) (b : List Byte) (m : BitVec 3) : Prop := LeavesFlit L b 4 false ∧ natAt b 8 1 = 2 ∧ natAt b 9 1 = m.toNat

end Sys2Proof.Claim

/-- R410, R416, R417: every slot of a flit that leaves goes on its wavelength in its beat; the flits that leave by a time take the places
of the stream that have come by then, one after another (log 68); the stream of a link starts again when it trains or relocks, and when a
restripe begins. -/
def Sys2Proof.Claim.Streams : Prop :=
  (∀ (p : FlitPlace) (k : Nat), k < 24 → p.banks ≠ 0 → OnWave p.banks (24 * p.n + k) (p.wave k) (p.beat k)) ∧
  (∀ (p : FlitPlace), p.banks ≠ 0 →
    p.leaves = 48 * p.start + 48 * p.beat 0 + 48 * (24 * p.n % (wavesOf p.banks).length) / (wavesOf p.banks).length) ∧
  (∀ (L : Link) (now : Nat), Lit L →
    ∃ ps, (L.pump now).places = L.places ++ ps ∧ (L.pump now).out.length = L.out.length + ps.length ∧ (L.pump now).start = L.start ∧
      (L.pump now).upTo = now ∧ ps.length ≤ lastPlace L now + 1 - firstPlace L ∧
      ∀ (i : Nat) (p : FlitPlace), ps[i]? = some p → p.start = L.start ∧ p.banks = aimed L ∧ p.n = firstPlace L + i) ∧
  (∀ (L : Link) (now : Nat), NoPlace L now → Lit L → L.pump now = { L with upTo := now }) ∧
  (∀ (s : State) (l : Nat) (peer : BitVec 11) (k : BitVec 7) (v : BitVec 2), (s.link l).state = .relock → BanksFound l (s.link l) →
    ∃ t, exec (.trainingComplete l peer k v) s = .next t ∧ (t.link l).start = s.ftime ∧ (t.link l).next = 0) ∧
  (∀ (s : State) (l k : Nat), l < 96 → k < 3 → Lit (s.link l) → (s.link l).ctl = [] → (aimed (s.link l)).getLsbD k = true →
    aimed (s.link l) &&& ~~~bankBit k ≠ 0 →
    ∃ t, exec (.lossOfLight l k) s = .next t ∧ (t.link l).start = s.ftime ∧ (t.link l).next = 1 ∧
      (t.link l).places = (s.link l).places ++ [⟨s.ftime, aimed (s.link l) &&& ~~~bankBit k, 0⟩]) ∧
  (∀ (s : State) (l : Nat) (m : BitVec 3), (s.link l).restripe = some m →
    ∃ t, exec (.restripeDone l) s = .next t ∧ (t.link l).start = (s.link l).start)

/-- R411, R412, R417: what takes the next place of a link's stream: a RESTRIPE while one is not returned, the flits that are to be resent
in order, a new data flit where the replay buffer has room and the other end allows it. -/
def Sys2Proof.Claim.NextFlits : Prop :=
  (∀ (L : Link) (now : Nat) (m : BitVec 3), Lit L → OnePlace L now → L.restripe = some m → L.ctl = [] →
    ∃ b, (L.pump now).out = L.out ++ [b] ∧ IsRestripe L b m ∧ (L.pump now).buf = L.buf ∧ (L.pump now).waiting = L.waiting) ∧
  (∀ (L : Link) (now : Nat) (f : Flit) (r : List Flit), Lit L → OnePlace L now → Free L → L.resends = f :: r →
    ∃ b, (L.pump now).out = L.out ++ [b] ∧ LeavesFlit L b (if f.marker = true then 2 else 1) false ∧ flitSeq b = f.seq ∧
      (L.pump now).resends = r ∧ (L.pump now).rpl.toNat = min (L.rpl.toNat + 1) (2 ^ 32 - 1) ∧
      (L.pump now).buf = L.buf.map fun (g : Flit) => if g.seq = f.seq then { g with resent := g.resent + 1 } else g) ∧
  (∀ (L : Link) (now : Nat) (p : List Byte) (r : List (List Byte)), L.state = .up → OnePlace L now → Free L → L.resends = [] →
    L.marker = false → L.waiting = p :: r → p.length ≤ 176 → L.buf.length < 4096 → (L.allowIn - L.nextSeq).toNat < 32768 →
    ∃ b, (L.pump now).out = L.out ++ [b] ∧ LeavesFlit L b 1 false ∧ flitSeq b = L.nextSeq ∧ (b.drop 8).take p.length = p ∧
      (L.pump now).waiting = r ∧ (L.pump now).buf = L.buf ++ [⟨L.nextSeq, false, 0, p⟩] ∧ (L.pump now).nextSeq = L.nextSeq + 1) ∧
  (∀ (L : Link) (now : Nat), L.resends = [] → L.marker = false →
    L.state ≠ .up ∨ 4096 ≤ L.buf.length ∨ 32768 ≤ (L.allowIn - L.nextSeq).toNat →
    (L.pump now).waiting = L.waiting ∧ (L.pump now).buf = L.buf ∧ (L.pump now).nextSeq = L.nextSeq)

/-- R418, R419, R421, R424: a link command acts only in the states that R418 lists, and sets CERR in another; TRAIN and RELOCK start both
directions again and send IDENT, DRAIN sends the marker once the replay buffer has room, DOWN discards what waits, RELEASE sends what
waits by the present routes. -/
def Sys2Proof.Claim.LinkCommands : Prop :=
  (∀ row ∈ linkRows, ∀ (s : State) (l : Nat),
    ((s.link l).state ∉ row.acts → exec (row.event l) s = .next (s.setLink l { s.link l with cerr := true })) ∧
    ((s.link l).state ∈ row.acts →
      ∃ t, exec (row.event l) s = .next t ∧ (t.link l).state = row.next ∧ (t.link l).cerr = false ∧ t.mem = s.mem)) ∧
  (∀ (s : State) (l : Nat), (s.link l).state = .down ∨ (s.link l).state = .failed →
    ∃ t b, exec (.train l) s = .next t ∧ Restarted (t.link l) ∧ (t.link l).lost = 0 ∧ (t.link l).waiting = (s.link l).waiting ∧
      (t.link l).out = (s.link l).out ++ [b] ∧ IsIdent s l b) ∧
  (∀ (s : State) (l : Nat), (s.link l).state = .dark →
    ∃ t b, exec (.relock l) s = .next t ∧ Restarted (t.link l) ∧ (t.link l).out = (s.link l).out ++ [b] ∧ IsIdent s l b) ∧
  (∀ (s : State) (l : Nat), (s.link l).state = .up → Free (s.link l) → (s.link l).resends = [] →
    ((s.link l).buf.length < 4096 → OnePlace (s.link l) s.ftime →
      ∃ t b, exec (.drain l) s = .next t ∧ (t.link l).buf = (s.link l).buf ++ [⟨(s.link l).nextSeq, true, 0, []⟩] ∧
        (t.link l).nextSeq = (s.link l).nextSeq + 1 ∧ (t.link l).out = (s.link l).out ++ [b] ∧ LeavesFlit (s.link l) b 2 false ∧
        flitSeq b = (s.link l).nextSeq) ∧
    (4096 ≤ (s.link l).buf.length →
      ∃ t, exec (.drain l) s = .next t ∧ (t.link l).buf = (s.link l).buf ∧ (t.link l).marker = true)) ∧
  (∀ (s : State) (l : Nat), ∃ t, exec (.down l) s = .next t ∧ Restarted (t.link l) ∧ (t.link l).waiting = [] ∧ (t.link l).banks = 0) ∧
  (∀ (s : State) (l : Nat), (s.link l).state = .held → (s.link l).waiting = [] →
    ∃ t, exec (.release l) s = .next t ∧ (t.link l).state = .up ∧ (t.link l).mack = false ∧ t.teams = s.teams ∧
      (t.link l).granted = (s.link l).fwd + 2048)

/-- R408, R415 to R418, R421, R424, R432: training and relocking end with the partner's identity, or fail after 1 ms; a drained link has its
marker acknowledged; a lost bank is left by a restripe, and the last one fails the link; a bank that BANKEN drops is left in the same way,
and counts as lost (log 20); the banks of LSTAT are those of the transmit fibre, and what training finds of each fibre is log 45. -/
def Sys2Proof.Claim.LinkStates : Prop :=
  (∀ (s : State) (l : Nat) (peer : BitVec 11) (k : BitVec 7) (v : BitVec 2), Trains (s.link l) → BanksFound l (s.link l) →
    ∃ t, exec (.trainingComplete l peer k v) s = .next t ∧
      (t.link l).state = (if (s.link l).state = .train then .up else .held) ∧
      (t.link l).lpeer.toNat = peer.toNat + 2 ^ 11 * k.toNat + 2 ^ 18 * v.toNat ∧
      (t.link l).banks = (if 96 ≤ l then 7 else (s.link l).banken &&& ~~~(s.link l).absent) ∧
      (t.link l).rx = (if 96 ≤ l then 7 else ~~~(s.link l).dark) ∧
      (∀ p, sget 0 t.fab.caps p = if p = peer.toNat then
        (if v.toNat = 2 then 0x03FF7FFF else if v.toNat = 1 then 0x03E147FF else 0) else sget 0 s.fab.caps p)) ∧
  (∀ (s : State) (l : Nat) (b : List Byte), (s.link l).state = .train → BanksFound l (s.link l) → GoodFlit b → flitType b = 4 →
    natAt b 8 1 = 1 →
    ∃ t, exec (.flitReceive l b) s = .next t ∧ (t.link l).state = .up ∧
      (t.link l).lpeer.toNat = natAt b 10 2 % 2048 + 2 ^ 11 * (natAt b 12 2 % 128) + 2 ^ 18 * (natAt b 9 1 % 4) ∧
      ∀ p, sget 0 t.fab.caps p = if p = natAt b 10 2 % 2048 then w32 (natAt b 16 4) else sget 0 s.fab.caps p) ∧
  (∀ (s : State) (l : Nat), (s.link l).since + 1000000 ≤ s.ftime → Trains (s.link l) →
    ∃ t, exec (.trainTimeout l) s = .next t ∧ (t.link l).state = .failed ∧ t.mem = s.mem) ∧
  (∀ (s : State) (l : Nat), s.ftime < (s.link l).since + 1000000 ∨ (s.link l).state = .up → exec (.trainTimeout l) s = .next s) ∧
  (∀ (s : State) (l : Nat),
    ((s.link l).state = .drain → (s.link l).marker = false → exec (.markerAck l) s =
      .next (s.setLink l { s.link l with state := .drained, since := s.ftime, mack := true, buf := [], resends := [] })) ∧
    ((s.link l).state ≠ .drain ∨ (s.link l).marker = true → exec (.markerAck l) s = .next s)) ∧
  (∀ (s : State) (p : Nat), p < 8 → ((s.link (96 + p)).state ≠ .down ∧ (s.link (96 + p)).state ≠ .failed →
      ∃ t, exec (.portDown p) s = .next t ∧ (t.link (96 + p)).state = .failed ∧ t.mem = s.mem) ∧
    ((s.link (96 + p)).state = .down ∨ (s.link (96 + p)).state = .failed → exec (.portDown p) s = .next s)) ∧
  (∀ (s : State) (l k : Nat), l < 96 → k < 3 → Lit (s.link l) → (aimed (s.link l)).getLsbD k = true →
    (aimed (s.link l) &&& ~~~bankBit k ≠ 0 → (s.link l).ctl = [] →
      ∃ t b, exec (.lossOfLight l k) s = .next t ∧ (t.link l).restripe = some (aimed (s.link l) &&& ~~~bankBit k) ∧
        (t.link l).lost = (s.link l).lost ||| bankBit k ∧ (t.link l).banks = (s.link l).banks ∧ (t.link l).out = (s.link l).out ++ [b] ∧
        IsRestripe (s.link l) b (aimed (s.link l) &&& ~~~bankBit k)) ∧
    (aimed (s.link l) &&& ~~~bankBit k = 0 →
      ∃ t, exec (.lossOfLight l k) s = .next t ∧ (t.link l).state = .failed ∧ t.mem = s.mem)) ∧
  (∀ (s : State) (l k : Nat), l < 96 → k < 3 → Trains (s.link l) →
    exec (.lossOfLight l k) s = .next (s.setLink l { s.link l with absent := (s.link l).absent ||| bankBit k })) ∧
  (∀ (s : State) (l k : Nat), l < 96 → k < 3 → Lit (s.link l) ∨ Trains (s.link l) →
    exec (.lossOfSignal l k) s = .next (s.setLink l { s.link l with dark := (s.link l).dark ||| bankBit k })) ∧
  (∀ (s : State) (l : Nat) (m : BitVec 3), l < 96 → Lit (s.link l) → aimed (s.link l) &&& m ≠ 0 →
    ∃ t, exec (.bankenClear l m) s = .next t ∧ (t.link l).banken = m ∧ (t.link l).lost = (s.link l).lost ||| (aimed (s.link l) &&& ~~~m) ∧
      (t.link l).restripe = (if aimed (s.link l) &&& ~~~m = 0 then (s.link l).restripe else some (aimed (s.link l) &&& m))) ∧
  (∀ (s : State) (l : Nat) (m : BitVec 3), ¬ Lit (s.link l) →
    exec (.bankenClear l m) s = .next (s.setLink l { s.link l with banken := m })) ∧
  (∀ (s : State) (l : Nat) (m : BitVec 3), (s.link l).restripe = some m → NoPlace (s.link l) s.ftime → Lit (s.link l) → Quiet (s.link l) →
    ∃ t, exec (.restripeDone l) s = .next t ∧ (t.link l).banks = m ∧ (t.link l).restripe = none ∧ (t.link l).state = (s.link l).state ∧
      (t.link l).buf = (s.link l).buf ∧ (t.link l).resends = (s.link l).buf ∧
      (t.link l).restr.toNat = min ((s.link l).restr.toNat + 1) (2 ^ 16 - 1)) ∧
  (∀ (s : State) (l : Nat), (s.link l).restripe = none → exec (.restripeDone l) s = .next s) ∧
  (∀ (s : State) (l : Nat) (m : BitVec 3), Lit (s.link l) → m ≠ 0 → m &&& ~~~(s.link l).rx = 0 →
    (m = (s.link l).rx ∨ m &&& (s.link l).dark = 0 → Free (s.link l) → OnePlace (s.link l) s.ftime → Quiet (s.link l) →
      ∃ t b, exec (.restripeDecode l m) s = .next t ∧ (t.link l).rx = m ∧ (t.link l).banks = (s.link l).banks ∧
        (t.link l).out = (s.link l).out ++ [b] ∧ IsRestripe (s.link l) b m) ∧
    (m ≠ (s.link l).rx → m &&& (s.link l).dark ≠ 0 → exec (.restripeDecode l m) s = .next s))

/-- R409, R411, R412, R422, R425: a flit with a wrong CRC is counted and answered by one NAK until progress is made; the next sequenced flit
is accepted into the receive buffer, a later one is not, an earlier one is dropped; forwarding a flit raises the allowance, and a marker is
acknowledged once the flits before it are forwarded; an ACK frees the flits that it covers; a NAK is repeated every 1 µs; each measurement
sets FTSTAT.ERR (its sign: log 83), and fabric time locks once, stepping forward only before DSTATE is RUN. -/
def Sys2Proof.Claim.Flits : Prop :=
  (∀ (s : State) (l : Nat) (b : List Byte), Lit (s.link l) → b.length = 192 → ¬ GoodFlit b → Quiet (s.link l) → NoneWaits (s.link l) →
    ∃ t, exec (.flitReceive l b) s = .next t ∧ t.mem = s.mem ∧ t.teams = s.teams ∧
      (t.link l).crc.toNat = min ((s.link l).crc.toNat + 1) (2 ^ 32 - 1) ∧ (t.link l).exp = (s.link l).exp ∧ (t.link l).nakked = true ∧
      (t.link l).buf = (s.link l).buf ∧ ((s.link l).nakked = true → (t.link l).naks = (s.link l).naks) ∧
      ((s.link l).nakked = false → Free (s.link l) → OnePlace (s.link l) s.ftime →
        ∃ x, (t.link l).out = (s.link l).out ++ [x] ∧ LeavesFlit (s.link l) x 0 true)) ∧
  (∀ (s : State) (l : Nat) (b : List Byte), (¬ Lit (s.link l) ∧ ¬ Trains (s.link l)) ∨ b.length ≠ 192 →
    exec (.flitReceive l b) s = .next s) ∧
  (∀ (s : State) (l : Nat) (b : List Byte), Trains (s.link l) → ¬ (GoodFlit b ∧ flitType b = 4 ∧ natAt b 8 1 = 1) →
    exec (.flitReceive l b) s = .next s) ∧
  (∀ (s : State) (l : Nat) (b : List Byte), Lit (s.link l) → GoodFlit b → flitType b = 0 → flitNak b = false → Quiet (s.link l) →
    NoneWaits (s.link l) →
    ∃ t, exec (.flitReceive l b) s = .next t ∧ t.mem = s.mem ∧ t.teams = s.teams ∧ (t.link l).exp = (s.link l).exp ∧
      (t.link l).allowIn = flitAllow b ∧ (t.link l).lastAck = flitAck b ∧
      ∀ f, f ∈ (t.link l).buf ↔ f ∈ (s.link l).buf ∧ ¬ Claim.covered (flitAck b) f.seq) ∧
  (∀ (s : State) (l : Nat) (b : List Byte), Lit (s.link l) → GoodFlit b → flitType b = 0 → flitNak b = true → (s.link l).restripe = none →
    NoPlace (s.link l) s.ftime → (∀ f ∈ (s.link l).buf, f.resent < 16) →
    ∃ t, exec (.flitReceive l b) s = .next t ∧ (t.link l).resends = (t.link l).buf ∧ t.mem = s.mem ∧
      ∀ f, f ∈ (t.link l).buf ↔ f ∈ (s.link l).buf ∧ ¬ Claim.covered (flitAck b) f.seq) ∧
  (∀ (s : State) (l : Nat) (b : List Byte), Lit (s.link l) → GoodFlit b → flitType b = 1 ∨ flitType b = 2 →
    (flitSeq b = (s.link l).exp →
      ∃ t, exec (.flitReceive l b) s = .next t ∧ (t.link l).exp = (s.link l).exp + 1 ∧ (t.link l).nakked = false ∧ t.mem = s.mem ∧
        (t.link l).rxq = (s.link l).rxq ++ [(decide (flitType b = 2), flitSeq b, (b.drop 8).take 176)]) ∧
    (flitSeq b ≠ (s.link l).exp → (flitSeq b - (s.link l).exp).toNat < 32768 →
      ∃ t, exec (.flitReceive l b) s = .next t ∧ (t.link l).exp = (s.link l).exp ∧ (t.link l).nakked = true ∧
        (t.link l).rxq = (s.link l).rxq ∧ t.mem = s.mem) ∧
    (32768 ≤ (flitSeq b - (s.link l).exp).toNat →
      ∃ t, exec (.flitReceive l b) s = .next t ∧ (t.link l).exp = (s.link l).exp ∧ (t.link l).nakked = (s.link l).nakked ∧
        (t.link l).rxq = (s.link l).rxq ∧ t.mem = s.mem)) ∧
  (∀ (s : State) (l : Nat) (q : BitVec 16) (d : List Byte) (r : List (Bool × BitVec 16 × List Byte)), Lit (s.link l) → Free (s.link l) →
    Quiet (s.link l) → OnePlace (s.link l) s.ftime → (s.link l).rxq = (true, q, d) :: r →
    ∃ x, ((s.forward l).link l).out = (s.link l).out ++ [x] ∧ LeavesFlit (s.link l) x 3 false ∧ ((s.forward l).link l).rxq = r) ∧
  (∀ (s : State) (l : Nat) (q : BitVec 16) (r : List (Bool × BitVec 16 × List Byte)), (s.link l).state = .up → Quiet (s.link l) →
    (s.link l).rxq = (false, q, []) :: r →
    ((s.forward l).link l).rxq = r ∧ ((s.forward l).link l).fwd = q ∧ ((s.forward l).link l).granted = q + 2048) ∧
  (∀ (s : State) (l : Nat), (s.link l).nakked = true → (s.link l).nakAt + 1000 ≤ s.ftime → Lit (s.link l) →
    ∃ t, exec (.nakRepeat l) s = .next t ∧ (t.link l).nakAt = s.ftime ∧ (t.link l).nakked = true ∧ t.mem = s.mem ∧
      (Free (s.link l) → OnePlace (s.link l) s.ftime → Quiet (s.link l) →
        ∃ x, (t.link l).out = (s.link l).out ++ [x] ∧ LeavesFlit (s.link l) x 0 true)) ∧
  (∀ (s : State) (l : Nat), (s.link l).nakked = false ∨ s.ftime < (s.link l).nakAt + 1000 → exec (.nakRepeat l) s = .next s) ∧
  (∀ (s : State) (v : Dword),
    ∃ t, exec (.fabricTimeLock v) s = .next t ∧ t.fab.ftLock = true ∧ t.teams = s.teams ∧ t.mem = s.mem ∧
      t.fab.ftErr.toInt = max (-32768) (min 32767 ((s.ftime : Int) - (v.toNat : Int))) ∧
      (s.fab.ftLock = true ∨ s.sys.dstate ≠ .boot → t.ftime = s.ftime) ∧
      (s.fab.ftLock = false → s.sys.dstate = .boot → t.ftime = max s.ftime v.toNat))

/-! ### Packets from other devices (R157, R236, R243, R407, R413, R414, R420, R421) -/

namespace Sys2Proof.Claim

/-- The header of a packet for this device (R414), on an address of this device. -/
structure Header (s : State) (b : List Byte) (op src tag pa : Nat) : Prop where
  op  : natAt b 0 1 % 16 = op
  dst : natAt b 2 2 % 2048 = s.fab.dev.toNat
  src : natAt b 4 2 % 2048 = src
  tag : natAt b 6 2 = tag
  pa  : natAt b 8 6 = pa

/-- The tag of a packet is that of a running function, whose partition has the line. -/
def Allowed (s : State) (b : List Byte) (pa : Nat) : Prop :=
  ∃ f, s.runOwner (BitVec.ofNat 16 (natAt b 14 2)) = some f ∧ (s.part (s.func f).part.toNat).covers (pa / 128 * 128) 128 = true

/-- The device answers with a packet of an operation, a tag and, where there is data, a whole line. -/
def Replies (i : Instr) (s t : State) (op src tag pa : Nat) (line : List Byte) : Prop :=
  ∃ (u : State) (x : List Byte) (l : Nat), exec i s = .next t ∧ u.fab = s.fab ∧ s.routeOf src pa = some l ∧ t = u.enqueue l x ∧ natAt x 0 1 % 16 = op ∧
    natAt x 2 2 = src ∧ natAt x 4 2 = s.fab.dev.toNat ∧ natAt x 6 2 = tag ∧ (line ≠ [] → x.drop 32 = line)

/-- The request that an answer from src with a tag names is p, and leaves. -/
def Answers (s t : State) (src tag : Nat) (p : Packet) : Prop :=
  ∃ n, s.net.remotes.find? (fun q => decide (q.packet.id % 65536 = tag) && decide (q.packet.target = some src)) = some ⟨p, n⟩ ∧
    t.net.remotes = s.net.remotes.filter fun q => decide (q.packet.id ≠ p.id)

/-- The grid of the packet's team ends. -/
def GridEnds (i : Instr) (s : State) (p : Packet) : Prop :=
  ∀ T G, s.team? p.src.t = some T → T.stopped = false → s.grid? T.grid = some G →
    ∃ t H U, exec i s = .next t ∧ t.grid? T.grid = some H ∧ H.fatal = true ∧ t.team? p.src.t = some U ∧ U.stopped = true ∧ t.mem = s.mem

end Sys2Proof.Claim

/-- R236, R408, R413, R414, R419, R421, R435: requests of other devices are performed on this device's memory and answered, by the port that
they came by, or rejected; answers end the requests that they name; a reject, or no answer in 2 ms from the sending, ends the grid; one
that still waits at a link, here or as the free value of log 80 says at a member of another group, has not been sent. The layout of the
capability packet is log 17. -/
def Sys2Proof.Claim.PacketsOfTheFabric : Prop :=
  (∀ (s : State) (b : List Byte) (src tag pa : Nat), Header s b 1 src tag pa → Allowed s b pa → (∃ l, s.routeOf src pa = some l) → tag < 65536 →
    src < 2048 →
    ∃ t, Replies (.packetReceive b) s t 2 src tag pa (s.mem.readBytes (pa / 128 * 128) 128) ∧ t.mem = s.mem ∧ t.teams = s.teams) ∧
  (∀ (s : State) (b : List Byte) (src tag pa l : Nat), Header s b 1 src tag pa → Allowed s b pa → s.portOk l = true → tag < 65536 →
    ∃ x, s.receive (some l) b = s.enqueue l x ∧ natAt x 0 1 % 16 = 2 ∧ natAt x 2 2 = src ∧ natAt x 6 2 = tag ∧
      x.drop 32 = s.mem.readBytes (pa / 128 * 128) 128) ∧
  (∀ (s : State) (b : List Byte) (src tag pa : Nat), Header s b 3 src tag pa → Allowed s b pa → (∃ l, s.routeOf src pa = some l) →
    ∃ t, Replies (.packetReceive b) s t 7 src tag pa [] ∧ t.teams = s.teams ∧
      ∀ a, t.mem.read a = if a / 128 = pa / 128 ∧ (natAt b 16 16).testBit (a % 128) = true then b.getD (32 + a % 128) 0 else s.mem.read a) ∧
  (∀ (s : State) (b : List Byte) (op src tag pa k size aop : Nat), Header s b op src tag pa → op = 4 ∨ op = 5 → Allowed s b pa →
    (∃ l, s.routeOf src pa = some l) → aop = natAt b 1 1 % 16 → aop ≠ 9 → size = 2 ^ (natAt b 1 1 / 16 % 8) → size = 4 ∨ size = 8 →
    k < 128 / size → natAt b 16 16 = (2 ^ size - 1) * 2 ^ (size * k) →
    (0x03FF7FFF : Word).getLsbD (if size = 8 then 16 + aop else aop) = true →
    let at_ := pa / 128 * 128 + size * k
    ∃ t, Replies (.packetReceive b) s t (if op = 4 then 6 else 7) src tag pa (if op = 4 then s.mem.readBytes (pa / 128 * 128) 128 else []) ∧
      t.mem.readNat at_ size = atomic aop size (s.mem.readNat at_ size) (natAt b (32 + size * k) size) 0 ∧
      ∀ a, a < at_ ∨ at_ + size ≤ a → t.mem.read a = s.mem.read a) ∧
  (∀ (s : State) (b : List Byte) (op src tag pa : Nat), Header s b op src tag pa → op = 1 ∨ op = 3 ∨ op = 4 ∨ op = 5 →
    s.runOwner (BitVec.ofNat 16 (natAt b 14 2)) = none → ∃ t, exec (.packetReceive b) s = .next t ∧ t.mem = s.mem ∧ t.teams = s.teams) ∧
  (∀ (s : State) (b : List Byte) (op src tag pa n id : Nat) (p : Packet) (T : Team) (c : Beam), Header s b op src tag pa →
    s.net.remotes = [⟨p, n⟩] → p.target = some src → p.id % 65536 = tag → p.job = none → HasBeam s p.src T c →
    (op = 2 → p.op = .load → p.pend = some id → OnOneLine p → ∃ t U d, exec (.packetReceive b) s = .next t ∧ t.net.remotes = [] ∧
      HasBeam t p.src U d ∧ t.mem = s.mem ∧
      Answered c d id (p.elems.flatMap fun x => loaded x.reg x.lane x.size (natAt b (32 + x.pa % 128) x.size) x.sx)) ∧
    (op = 7 → p.op = .store → ∃ t, exec (.packetReceive b) s = .next t ∧ t.net.remotes = [] ∧ AckSent s t p ∧ t.mem = s.mem ∧
      t.teams = s.teams) ∧
    (op = 8 → GridEnds (.packetReceive b) s p)) ∧
  (∀ (s : State) (b : List Byte) (src pa : Nat), Header s b 11 src 1 pa →
    exec (.packetReceive b) s = .next { s with fab := { s.fab with caps := sset 0 s.fab.caps src (w32 pa) } }) ∧
  (∀ (s : State) (src : BitVec 11) (w : Word), ∃ t, exec (.capability src w) s = .next t ∧
    (∀ p, sget 0 t.fab.caps p = if p = src.toNat then w else sget 0 s.fab.caps p) ∧ t.mem = s.mem ∧ t.teams = s.teams) ∧
  (∀ (s : State) (k n : Nat) (p : Packet), s.net.remotes[k]? = some ⟨p, n⟩ → p.job = none →
    ((∃ e ∈ s.fab.links, Remote.isIn ⟨p, n⟩ s.fab.dev.toNat e.2.waiting = true) → exec (.remoteTimeout k) s = .next s) ∧
    ((∀ e ∈ s.fab.links, e.2.waiting = []) → (∀ d, p.target = some d → d / 32 = s.fab.dev.toNat / 32) →
    (n + 2000000 ≤ s.ftime → GridEnds (.remoteTimeout k) s p) ∧ (s.ftime < n + 2000000 → exec (.remoteTimeout k) s = .next s)))

namespace Sys2Proof.Claim

/-- An earlier packet q of the same beam that is stamped, or performed, before the collimated store p (R140, R158): a release at GP scope
or wider, a store to the same group, or to one that is not known yet (log 74), a load of a lane's line; and one of the same instruction
with a lower line. -/
def StampedFirst (q p : Packet) : Prop :=
  q.src = p.src ∧ q.job = none ∧
    ((q.sentAt < p.sentAt ∧
      ((q.after ≠ none ∧ 3 ≤ q.scope) ∨ q.op = p.op ∨ q.op = .mcst none ∨
        (q.op = .load ∧ ∃ x ∈ q.elems, ∃ y ∈ p.elems, x.lane = y.lane ∧ x.pa / 128 = y.pa / 128))) ∨
      (q.sentAt = p.sentAt ∧ q.op = p.op ∧ q.pa / 128 < p.pa / 128))

end Sys2Proof.Claim

/-- R140, R148, R157, R158, R160, R242, R243, R420: the Collimator stamps a group's stores one after another, each after what the beam did
before it (a store whose group is not known yet among that: log 74), and acknowledges each; a member applies them in stamp order, and
APPLIED follows; the control line of a group reads as R243 says. -/
def Sys2Proof.Claim.CollimatedStoresApply : Prop :=
  (∀ (s : State) (g : Nat) (p : Packet) (G : Group), s.net.packets[0]? = some p → aget s.work.groups g = some G → p.op = .mcst (some g) →
    p.job = none → s.beforeStamp p = false → s.linkState (96 + g % 8) = .up →
    ∃ t H x, exec (.collimatorStamp g 0) s = .next t ∧ t.net.packets = s.net.packets.drop 1 ∧ AckSent s t p ∧ t.mem = s.mem ∧
      aget t.work.groups g = some H ∧ H.stamp = G.stamp + 1 ∧ H.queue = G.queue ++ [x] ∧ x.stamp = G.stamp + 1 ∧
      x.line = p.pa / 128 ∧ x.bytes = lineBytes p.elems ∧ t.teams = s.teams) ∧
  (∀ (s : State) (g k : Nat) (p : Packet), s.net.packets[k]? = some p → p.op ≠ .mcst (some g) ∨ s.beforeStamp p = true →
    exec (.collimatorStamp g k) s = .next s) ∧
  (∀ (s : State) (g : Nat) (p q : Packet), q ∈ s.net.packets → p.op = .mcst (some g) → StampedFirst q p → s.beforeStamp p = true) ∧
  (∀ (s : State) (b : List Byte) (src tag pa : Nat) (G : Group), Header s b 10 src tag pa → aget s.work.groups (natAt b 8 2) = some G →
    (natAt b 16 8 = G.stamp + 1 → ∃ t H x, exec (.packetReceive b) s = .next t ∧ aget t.work.groups (natAt b 8 2) = some H ∧
      H.stamp = G.stamp + 1 ∧ H.queue = G.queue ++ [x] ∧ x.stamp = G.stamp + 1 ∧ x.line = (G.base + natAt b 10 4) / 128 ∧ t.mem = s.mem ∧
      ∀ i, i < 128 → aget x.bytes i = if (natAt b 32 16).testBit i = true then some (b.getD (48 + i) 0) else none) ∧
    (natAt b 16 8 ≠ G.stamp + 1 → exec (.packetReceive b) s = .next s)) ∧
  (∀ (s : State) (g pa : Nat) (G : Group), s.controlGroup pa = some (g, G) → pa % 128 = 0 →
    s.homeRead .multicast pa 128 = leBytes 8 G.applied ++ leBytes 2 g ++ leBytes 1 G.members ++ List.replicate 117 0) ∧
  (∀ (s : State) (g : Nat) (G : Group) (x : Stamped) (r : List Stamped), aget s.work.groups g = some G → G.queue = x :: r →
    (∀ e ∈ x.bytes, e.1 < 128) → (x.bytes.map (·.1)).Nodup → G.base + 8 ≤ 128 * x.line ∨ 128 * x.line + 128 ≤ G.base →
    ∃ t H, exec (.stampedApply g) s = .next t ∧ aget t.work.groups g = some H ∧ H.queue = r ∧ H.applied = x.stamp ∧
      t.mem.readNat G.base 8 = x.stamp % 2 ^ 64 ∧
      (∀ e ∈ x.bytes, t.mem.read (128 * x.line + e.1) = e.2) ∧
      ∀ a, a < G.base ∨ G.base + 8 ≤ a → (∀ e ∈ x.bytes, a ≠ 128 * x.line + e.1) → t.mem.read a = s.mem.read a) ∧
  (∀ (s : State) (g : Nat) (G : Group), aget s.work.groups g = some G → G.queue = [] → exec (.stampedApply g) s = .next s)

/-! ### Events that complete -/

/-- R83, R92, R147, R166, R173, R241, R346, R353, R356, R363, R370, R371, R377, R393, R395, R396, R401, R403, R404, R413, R418, R424,
R427: events as they stand, each in a state that is said in full, with the next state that the event answers or what that state holds:
results and effects that are due, a body word without an effect, answers to watches, the end of a shootdown, of a reset and of a wake, the
commands of a mailbox, the registers of the host and of a function, gating requests, a budget period, power states and link commands. -/
def Obligations.EventsComplete : Prop :=
  (∀ (s : State) (r : Ref) (T : Team) (b : Beam) (f : Fix) (l : List Fix), HasBeam s r T b → b.fix = f :: l → f.ready ≤ s.clock →
    f.sreg = none → b.status ≠ .region → exec (.fixedResultLand r.t r.b) s = .next (s.setBeam r { b.landOne f with fix := l })) ∧
  (∀ (s : State) (r : Ref) (T : Team) (b : Beam) (c : CallCtx) (e : Env) (s1 : State), HasBeam s r T b → b.mcall = some c →
    32 * c.entry + c.word ∉ (s.core T.coreId).bad → sget 0 (s.core T.coreId).store (32 * c.entry + c.word) = 0 →
    Issues (.nop ⟨0⟩) { s with cur := some r } e s1 →
    exec (.macroBodyWord r.t r.b) s = .next (Issue.finish e s1 none)) ∧
  (∀ (s : State) (r : Ref) (T : Team) (b : Beam), HasBeam s r T b → (∃ c, T.life = .resident c) → T.stopped = false → b.ptrap = none →
    (∀ c ∈ T.commits, c.beam ≠ r.b) → b.status = .bar → T.arrived.getLsbD r.b = false →
    exec (.beamWake r.t r.b) s = .next (s.setBeam r (wokenBeam b s.clock))) ∧
  (∀ (s : State) (k r n : Nat) (w : Watch) (R : Replay) (N : Node), s.net.watches[k]? = some w → w.hit = true → w.who = .node r n →
    w.kind = .hbm ∨ w.kind = .cxl → s.replay? r = some R → aget R.nodes n = some N →
    (WaitMet N (s.mem.readNat w.pa w.size) →
      ∃ t, exec (.watchReply k) s = .next t ∧ t.net.watches = s.net.watches.eraseIdx k ∧ t.mem = s.mem ∧
        NodeBecomes s t r n { N with state := .complete }) ∧
    (¬ WaitMet N (s.mem.readNat w.pa w.size) →
      ∃ t, exec (.watchReply k) s = .next t ∧ t.net.watches = s.net.watches.eraseIdx k ++ [{ w with hit := false }] ∧ t.mem = s.mem)) ∧
  (∀ s : State, s.regs.sdBusy = true → s.regs.sdMark.isSome = true → s.net.packets = [] → s.net.remotes = [] → s.net.watches = [] →
    s.teams = [] → exec .shootdownDone s = .next { s with regs := { s.regs with sdBusy := false, sdMark := none } }) ∧
  (∀ (s : State) (f : Nat), (s.func f).state = .reset → (s.func f).resetTag = [] → s.net.packets = [] → s.net.remotes = [] → s.jobs = [] →
    s.teams = [] → exec (.resetDrained f) s = .next (s.setFunc f { s.func f with state := .drained })) ∧
  (∀ (s : State) (f : Nat), (s.func f).state = .drained → (∀ e ∈ s.regs.funcs, e.2.ftag = (s.func f).ftag → e.1 = f) →
    exec (.fcfgRel f) s = .next (s.setFunc f { s.func f with state := .run })) ∧
  (∀ s : State, exec .wakeDone s = .next { s with regs := { s.regs with waking := [], pgBusy := false } }) ∧
  (∀ (s : State) (off : Nat) (wide : Bool) (v : Dword), ∃ t, exec (.registerWrite off wide v) s = .next t) ∧
  (∀ (s : State) (off : Nat), ∃ t, exec (.counterClear off) s = .next t ∧ t.mem = s.mem ∧ t.teams = s.teams) ∧
  (∀ (s : State) (u : Nat) (m : BitVec 16), ∃ t, exec (.gateWays u m) s = .next t ∧ t.mem = s.mem ∧ t.teams = s.teams) ∧
  (∀ (s : State) (c g : Nat) (m : BitVec 16), ∃ t, exec (.gateGranules c g m) s = .next t ∧ t.mem = s.mem ∧ t.teams = s.teams) ∧
  (∀ s : State, ∃ t, exec .budgetPeriod s = .next t ∧ t.mem = s.mem ∧ t.teams = s.teams) ∧
  (∀ s : State, exec .d3hotEnter s = .next { s with sys := { s.sys with d3hot := true } }) ∧
  (∀ s : State, exec .d0Return s = .next { s with sys := { s.sys with d3hot := false } }) ∧
  (∀ (s : State) (f : Nat) (v : Word), exec (.mbcheadWrite f v) s = .next (s.setFunc f { s.func f with mbchead := v })) ∧
  (∀ (s : State) (f : Nat) (v : Word), (v - (s.func f).mbhead).toNat ≤ 2 ^ (s.func f).log2n.toNat →
    exec (.mbtailWrite f v) s = .next (s.setFunc f { s.func f with mbtail := v })) ∧
  (∀ (s : State) (f : Nat) (v : Word), (s.func f).en = true →
    exec (.mbcfgWrite f v) s = .next (s.setFunc f { s.func f with en := v.getLsbD 4, irqen := v.getLsbD 27 })) ∧
  (∀ (s : State) (f : Nat) (v : Word),
    ∃ t, exec (.evcfgWrite f v) s = .next t ∧ (t.func f).even_ = v.getLsbD 4 ∧ (t.func f).evirqen = v.getLsbD 27 ∧ t.mem = s.mem) ∧
  (∀ (s : State) (f : Nat) (v : Word), exec (.refillWrite f v) s = .next (s.setFunc f { s.func f with
    refill := v, bal := (Nat.min v.toNat (s.func f).bcap.toNat : Nat), debt := 0 })) ∧
  (∀ (s : State) (f : Nat), f < 64 → (s.func f).en = true → (s.func f).cmd = none → (s.func f).mbhead ≠ (s.func f).mbtail →
    ((s.func f).mbctail - (s.func f).mbchead).toNat ≠ 2 ^ (s.func f).log2n.toNat → s.sys.d3hot = false → ¬ Owes s f →
    ∃ t, exec (.commandFetch f) s = .next t ∧ (t.func f).mbhead = (s.func f).mbhead + 1 ∧ t.mem = s.mem) ∧
  (∀ (s : State) (f : Nat) (c : Cmd) (pa : Nat), Fetched s f 1 c → OneLine s f c true pa →
    ∃ t, exec (.write f) s = .next t ∧ (t.func f).cmd = none ∧
      ∀ i, i < c.len → t.mem.read (pa + i) = s.hostMem.read (c.haddr.toNat + i)) ∧
  (∀ (s : State) (f : Nat) (c : Cmd) (pa : Nat), Fetched s f 2 c → OneLine s f c false pa → lineOf pa ∉ s.net.badLines →
    ∃ t, exec (.read f) s = .next t ∧ (t.func f).cmd = none ∧ t.mem = s.mem ∧
      ∀ i, i < c.len → NotCompletion (s.func f) (c.haddr.toNat + i) →
        t.hostMem.read (c.haddr.toNat + i) = s.mem.read (pa + i)) ∧
  (∀ (s : State) (f : Nat) (c : Cmd), Fetched s f 3 c →
    ∃ t, exec (.setparam f) s = .next t ∧ (t.func f).cmd = none ∧ sget 0 (t.func f).slots (c.daddr.toNat % 64) = c.value) ∧
  (∀ (s : State) (f : Nat) (c : Cmd) (pa : Nat), Fetched s f 4 c → c.daddr.toNat % 64 = 0 → OneLine s f { c with len := 1 } true pa →
    s.work.replays = [] →
    ∃ t R, exec (.replay f) s = .next t ∧ (t.func f).cmd = none ∧ t.work.replays = [(s.nextId, R)] ∧ R.func = f ∧ R.graph = c.daddr) ∧
  (∀ (s : State) (f : Nat) (c : Cmd), (s.func f).cmd = some c → c.opc = 5 → c.resv = false → c.daddr.toNat % 256 = 0 →
    ∃ t, exec (.query f) s = .next t ∧ (t.func f).cmd = none ∧ t.mem = s.mem) ∧
  (∀ (s : State) (f : Nat) (c : Cmd), Fetched s f 6 c → s.sys.idBlock = none → s.sys.idBurnt < 4096 →
    ∃ t, exec (.attest f) s = .next t ∧ (t.func f).cmd = none ∧ t.sys.idBurnt = s.sys.idBurnt + 1) ∧
  (∀ (s : State) (f : Nat) (c : Cmd), Fetched s f 7 c → c.daddr.toNat % 64 = f → f ≠ 0 →
    ∃ t, exec (.reset f) s = .next t ∧ (t.func f).state = .reset ∧ (t.func f).gen = (s.func f).gen + 1) ∧
  (∀ (s : State) (f : Nat) (c : Cmd) (g : LogEntry), s.net.log = [g] → g.id = c.value.toNat → g.func = f → g.answer = none →
    g.upgrade = false →
    (Fetched s f 8 c → ∃ t, exec (.resolve f) s = .next t ∧ (t.func f).cmd = none ∧ t.net.log = [{ g with answer := some true }]) ∧
    (Fetched s f 9 c → ∃ t, exec (.fail f) s = .next t ∧ (t.func f).cmd = none ∧ t.net.log = [{ g with answer := some false }])) ∧
  (∀ (s : State) (l : Nat), (s.link l).state = .drained →
    exec (.hold l) s = .next (s.setLink l { s.link l with state := .held, since := s.ftime, cerr := false })) ∧
  (∀ (s : State) (l : Nat), (s.link l).state = .held →
    exec (.dark l) s = .next (s.setLink l { s.link l with state := .dark, since := s.ftime, cerr := false })) ∧
  (∀ (s : State) (k n : Nat) (p : Packet) (T : Team) (G : Grid), s.net.remotes[k]? = some ⟨p, n⟩ → p.job = none →
    (∀ d, p.target = some d → d / 32 = s.fab.dev.toNat / 32) → s.fab.links = [] → n + 2000000 ≤ s.ftime → s.team? p.src.t = some T → T.stopped = false → s.grid? T.grid = some G →
    ∃ t H, exec (.remoteTimeout k) s = .next t ∧ t.grid? T.grid = some H ∧ H.fatal = true ∧ t.mem = s.mem)

/-! ### What instructions leave alone -/

namespace Sys2Proof.Claim

/-- Opcodes that may raise IEEE flags (R201): arithmetic on floating-point numbers. -/
def raisesFlags (n : Nat) : Prop := (0x1C ≤ n ∧ n ≤ 0x2A) ∨ (0x100 ≤ n ∧ n ≤ 0x11D)

/-- Two states of one beam agree in every special register that it holds (R179). -/
def SameSpecials (b c : Beam) : Prop :=
  c.exm = b.exm ∧ c.lvm = b.lvm ∧ c.eexm = b.eexm ∧ c.cause = b.cause ∧ c.epc = b.epc ∧ c.pix = b.pix ∧ c.skid = b.skid ∧
  c.tvec = b.tvec ∧ c.fflags = b.fflags ∧ c.rmode = b.rmode ∧ c.chk = b.chk ∧ c.tele = b.tele ∧ c.orc = b.orc ∧
  c.jstat = b.jstat ∧ c.tenant = b.tenant ∧ c.wb = b.wb

/-- A beam keeps its registers, its special registers and its pending results. -/
def SameBeam (b c : Beam) : Prop := (∀ v l, c.rd v l = b.rd v l) ∧ SameSpecials b c ∧ c.pends = b.pends

/-- A result that is on its way to D of the instruction, or to its flags, and to nothing else. -/
def ToDestination (e : Env) (f : Fix) : Prop :=
  f.sreg = none ∧ (∀ w ∈ f.regs, ∃ n ∈ writeNames e.g e.x, ∃ l < 32, w.1 = 32 * n + l) ∧ (raisesFlags e.n ∨ f.flags = 0)

/-- Everything of the machine but its teams, the beam that is selected, and the agenda. -/
def SameOutside (s t : State) : Prop :=
  t.clock = s.clock ∧ t.ftime = s.ftime ∧ t.free = s.free ∧ t.nextId = s.nextId ∧ t.spent = s.spent ∧ (∀ a, t.mem.read a = s.mem.read a) ∧ (∀ a, t.hostMem.read a = s.hostMem.read a) ∧ t.net = s.net ∧ t.cores = s.cores ∧
  t.grids = s.grids ∧ t.jobs = s.jobs ∧ t.work = s.work ∧ t.regs = s.regs ∧ t.halo = s.halo ∧ t.fab = s.fab ∧ t.sys = s.sys

end Sys2Proof.Claim

/-- R83, R184: an instruction with a fixed latency, whichever it is and in whichever form, issued with no earlier write of `%tenant` due
(a step lets what is due take effect before an issue), leaves every register, special register
and pending result of its beam, every other team, all memory and the rest of the machine as they are at its issue; what it adds
to the beam is at most one result on its way to its own D, with flags only where the instruction may raise them. -/
def Obligations.FixedLatencyFrame : Prop :=
  ∀ (i : Instr) (s : State) (e : Env) (s1 t : State), Issues i s e s1 → fixedLat (numberOf i) ≠ none → e.b.halt = .run →
    s.dueTenants e.r = [] → exec i s = .next t →
      SameOutside s t ∧ (∀ k, k ≠ e.r.t → t.team? k = s.team? k) ∧
      ∃ c, t.team? e.r.t = some (e.T.setBeam e.r.b c) ∧ SameBeam e.b c ∧ ∀ f ∈ c.fix, f ∈ e.b.fix ∨ ToDestination e f

/-- R117, R120: no instruction that a beam issues changes a byte of memory at its issue, whatever it answers, but those of the
shared contexts (XOP 0x220 to 0x22A): stores go to home slices as packets, and are performed there. -/
def Obligations.IssueLeavesMemory : Prop :=
  ∀ (i : Instr) (s t : State), isCoded i = true → (numberOf i < 0x220 ∨ 0x22A < numberOf i) → exec i s = .next t →
    ∀ a, t.mem.read a = s.mem.read a

/-! ### Decoding and encoding (R7, R8, R13, R14, R18 to R21, R39, R40) -/

namespace Sys2Proof.Claim

/-- An instruction of three words: XOP, D and A; every other field 0 (R19, R20). -/
def ext (d a : BitVec 10) : Ext := { Ext.zero with d := d, a := a }

/-- Words and what each stands for, each word written out from the layouts of R8, R14 and R18 to R21. -/
noncomputable def writtenWords : List (List Word × Instr) :=
  [([0x06A00000], .exit ⟨0⟩),
   ([0x2BDE3CF9], .fmul { st := 5, d := 120, a := 121, b := 121, lit := none }),
   ([0x039E3C79], .fadd { st := 0, d := 120, a := 120, b := 121, lit := none }),
   ([0x98204000, 0x40400000, 0], .mov { st := 3, d := 1, a := 0, b := 0, lit := some 0x40400000 }),
   ([0x41180540, 0x02D04000, 0], .bfxu { ext 10 11 with immb := true, b := 260 }),
   ([0x42000500, 0x02C0C034, 1], .ffma { ext 10 11 with b := 12, c := 13, x10 := 1 }),
   ([0x40840000, 0x05000000, 0], .ret (ext 0 20)),
   ([0x430C0440, 0x01000024, 0x242], .atom { ext 8 4 with immb := true, c := 9, x10 := 0x242 }),
   ([0x43CA0F01, 0x03000000, 0], .cpyj { ext 30 12 with flg := 1 }),
   ([0x431C1040, 0x07800080, 0xFB], .waitm { ext 32 30 with immb := true, c := 32, x10 := 0xFB }),
   ([0x440014C0, 0x00001008, 0], .hboard { ext 41 0 with immb := true, b := 1, c := 2 }),
   ([0x44420900, 0x0281E080, 0x02200002], .kvw { ext 18 10 with b := 30, c := 32, p := 8, pe := true, x10 := 2 })]

end Sys2Proof.Claim

/-- R8, R14, R18 to R21: words written out bit by bit from the layouts decode to the instructions that they stand for; a word of an
unassigned opcode, or with a reserved bit set, is no instruction. -/
def Obligations.WrittenWordsDecode : Prop :=
  (∀ r ∈ writtenWords, decode (r.1.flatMap bytesOfWord) = some (r.2, [])) ∧
  decode (bytesOfWord 0x07E00000) = none ∧ decode (bytesOfWord 0x06A00001) = none ∧
  decode ([0x41180540, 0x02D04001, 0].flatMap bytesOfWord) = none

/-- R7, R8, R13, R14, R18 to R21: every legal instruction, with every field at every value that its encoding admits, is what its
own bytes decode to, whatever bytes follow them. -/
def Sys2Proof.Claim.DecodeInvertsEncode : Prop :=
  ∀ (i : Instr) (r : List Byte), isCoded i = true → i.wf = true → decode (encodeBytes i ++ r) = some (i, r)

/-- R8, R39, R40: what the decoder gives is a legal instruction whose bytes are the bytes decoded, as long as LEN says: no bit is
dropped, and no two words stand for one instruction. -/
def Sys2Proof.Claim.DecodeGivesLegalInstructions : Prop :=
  ∀ (bs r : List Byte) (i : Instr), decode bs = some (i, r) →
    isCoded i = true ∧ i.wf = true ∧ bs = encodeBytes i ++ r ∧ (encodeBytes i).length = lengthOf i

/-! ### Steps -/

/-- R7, R11, R39, R40, R91, log 2: a step runs the event at the head of the agenda. With none, and with no event whose cycle has come, the
beam that issues next runs: the instruction that the bytes at its PC decode to, `ILLEGAL` where they are none, `MEMFAULT` where the fetch
fails, a wait where its page is invalid, or its next body word. The exec of an instruction moves the PC itself. A fetch from a valid
executable page of the grid's tenant gives the bytes in memory at the translated address, where no write since the grid's launch has touched
them. -/
def Sys2Proof.Claim.StepRunsTheDecoded : Prop :=
  (∀ (s : State) (i : Instr) (rest : List (Option Instr)), s.agenda = some i :: rest → step s = exec i { s with agenda := rest }) ∧
  (∀ (s : State) (r : Ref) (T : Team) (b : Beam), s.agenda = [] → s.due = none → s.nextIssue = some (r, T, b) →
    (b.mcall = none →
      (∀ (l rest : List Byte) (s1 : State) (i : Instr), s.fetch T b.pc = (.bytes l, s1) → decode l = some (i, rest) →
        step s = exec i { s1 with cur := some r }) ∧
      (∀ (l : List Byte) (s1 : State), s.fetch T b.pc = (.bytes l, s1) → decode l = none →
        step s = Issue.badWord cILLEGAL { s1 with cur := some r }) ∧
      (∀ s1 : State, s.fetch T b.pc = (.fail, s1) → step s = Issue.badWord cMEMFAULT { s1 with cur := some r }) ∧
      (∀ (va : Nat) (s1 : State), s.fetch T b.pc = (.fault va, s1) → step s = .next (s1.faultWait r T va false true false))) ∧
    (∀ c, b.mcall = some c →
      (32 * c.entry + c.word ∉ (s.core T.coreId).bad →
        step s = bodyExec (sget 0 (s.core T.coreId).store (32 * c.entry + c.word)) { s with cur := some r }) ∧
      (32 * c.entry + c.word ∈ (s.core T.coreId).bad → step s = Issue.badWord cPOISONOWN { s with cur := some r }))) ∧
  (∀ (s s1 : State) (T : Team) (va : Dword) (L : Leaf) (pa : Nat) (G : Grid), va.toNat < 2 ^ 56 → s.grid? T.grid = some G →
    s.translate (s.fetchReq T) va.toNat = (.ok L pa, s1) → L.x = true → L.tenant = G.launch.tenant → L.kind = .hbm ∨ L.kind = .cxl →
    s1.oldWords G.mark false pa = [] →
    s.fetchWord T va = (.bytes [s1.mem.read pa, s1.mem.read (pa + 1), s1.mem.read (pa + 2), s1.mem.read (pa + 3)], s1)) ∧
  ∀ (s : State) (T : Team) (va : Dword), 2 ^ 56 ≤ va.toNat → s.fetchWord T va = (.fail, s)

/-- R7, R11, log 1: the placing of an instruction's bytes where the next step fetches: after `withFetchWord` the next step after reset
is the exec of the instruction that those bytes decode to. -/
def Sys2Proof.Claim.PlacedInstructionsRun : Prop :=
  ∀ (n w : Nat) (i : Instr), decodeTableWord n w = some i →
    ∃ (s1 : State) (r : Ref), step (State.reset.withFetchWord n w) = exec i { s1 with cur := some r } ∧
      s1.mem = (State.reset.withFetchWord n w).mem ∧ s1.teams = (State.reset.withFetchWord n w).teams

/-! ### What runs keep -/

/-- R4: both memories are in canonical form, addresses strictly rising and no byte listed that reads as an unlisted one, after every
step from a state in which they are: the model's own invariant (log 3). -/
def Obligations.MemoryStaysCanonical : Prop := ∀ s t : State, s.canonical → step s = .next t → t.canonical

/-- The memories after reset are in canonical form (log 3). -/
def Sys2Proof.Claim.ResetIsCanonical : Prop := State.reset.canonical ∧ State.reset.agendaOfEvents

/-- R112, R182, log 2: a step of a machine whose agenda holds only events never refuses; it faults only where two teams of the state
carry one number, which the model's fault `noBeam` names; and after it the agenda still holds only events, and the numbers of the teams are
still distinct where they were. -/
def Obligations.StepGoesOn : Prop :=
  ∀ s : State, s.agendaOfEvents →
    (∀ f, step s = .fault f → f = .noBeam ∧ ¬ (s.teams.map (·.1)).Nodup) ∧ (∀ f, step s ≠ .refused f) ∧
    ∀ t, step s = .next t → t.agendaOfEvents ∧ ((s.teams.map (·.1)).Nodup → (t.teams.map (·.1)).Nodup)

/-- R353, R358, R363, R393, R397, R404, R423, R424, R427: what reset leaves, where the spec says it: the start-up sequence has not
ended, and nothing runs; the registers that a reset column gives another value than 0 (QUANTUM, JCOST, REFILL, MBCFG, EVCFG, LCTL,
HCTL) read as it says, and those whose column says 0 read as 0, the function's STATE, GSCTL, PRECTL, SDCTL and PGCTL among them. -/
def Sys2Proof.Claim.ResetValues : Prop :=
  let s := State.reset
  s.sys.dstate = .boot ∧ s.teams = [] ∧ s.grids = [] ∧ s.jobs = [] ∧ s.clock = 0 ∧
  s.readReg 0x10000 = 2000 ∧ s.readReg 0x10004 = 16 ∧
  (∀ o ∈ [0x10008, 0x1000C, 0x10080, 0x10084, 0x10088, 0x10090, 0x100A0, 0x100A8, 0x100AC, 0x100B0, 0x100B4, 0x100B8, 0x100BC,
    0x1800, 0x30000, 0x30004, 0x30008], s.readReg o = 0) ∧
  (∀ f < 64, s.readReg (0x10100 + 0x40 * f) = 0xFFFFFFFF ∧
    (∀ o ∈ [0x04, 0x08, 0x0C, 0x10, 0x14, 0x18], s.readReg (0x10100 + 0x40 * f + o) = 0) ∧
    s.readReg (0x400 + 0x40 * f) = 0 ∧ s.readReg (2 ^ 24 + 0x1000 * f + 0x10) = 4 ∧ s.readReg (2 ^ 24 + 0x1000 * f + 0x48) = 4 ∧
    ∀ o ∈ [0x00, 0x04, 0x08, 0x0C, 0x14, 0x18, 0x1C, 0x20, 0x24, 0x40, 0x44, 0x4C, 0x50, 0x54],
      s.readReg (2 ^ 24 + 0x1000 * f + o) = 0) ∧
  (∀ l < 96, s.readReg (0x40000 + 0x40 * l) = 7 ∧
    ∀ o ∈ [0x04, 0x08, 0x0C, 0x10, 0x14, 0x18, 0x20, 0x24], s.readReg (0x40000 + 0x40 * l + o) = 0) ∧
  ∀ c < 2, s.readReg (0x20000 + 0x100 * c) = 32

/-! ### Statements of several parts -/

/-! Each part has its own definition above, with the rules that it follows. -/

/-- R185, R186, R188, R190: the integer instructions, base and extended. -/
def Obligations.IntegerInstructions : Prop :=
  Sys2Proof.Claim.IntegerResults ∧ Sys2Proof.Claim.ExtendedIntegerResults

/-- R193 to R196, R199: shuffles, votes, matches, folds, scans and random numbers. -/
def Obligations.CrossLaneInstructions : Prop :=
  Sys2Proof.Claim.ShuffleResults ∧ Sys2Proof.Claim.CrossLaneResults

/-- R191, R192: the division instructions and the sub-steps of the divider. -/
def Obligations.Divisions : Prop :=
  Sys2Proof.Claim.DivisionsStart ∧ Sys2Proof.Claim.DivisionSubsteps

/-- R200 to R219: floating-point arithmetic, conversions and reductions. -/
def Obligations.FloatInstructions : Prop :=
  Sys2Proof.Claim.FloatResults ∧ Sys2Proof.Claim.ExtendedFloatResults ∧ Sys2Proof.Claim.ConversionResults ∧ Sys2Proof.Claim.ReductionResults

/-- R63, R67, R205: special operands. -/
def Obligations.FloatSpecials : Prop :=
  Sys2Proof.Claim.FloatSpecialCases ∧ Sys2Proof.Claim.FunctionSpecialCases

/-- R10, R166 to R168: `NOP`, branches, calls and jumps. -/
def Obligations.ControlTransfers : Prop :=
  Sys2Proof.Claim.NopHasNoEffect ∧ Sys2Proof.Claim.BranchesAreTaken ∧ Sys2Proof.Claim.CallsAndJumps

/-- R169 to R171: the mask instructions, `EXIT` and `YIELD`. -/
def Obligations.MasksAndYields : Prop :=
  Sys2Proof.Claim.MaskInstructions ∧ Sys2Proof.Claim.ExitClearsLanes ∧ Sys2Proof.Claim.YieldYields

/-- R173, R174: the team barrier and the named barriers. -/
def Obligations.Barriers : Prop :=
  Sys2Proof.Claim.TeamBarrier ∧ Sys2Proof.Claim.NamedBarriers

/-- R175, R176: team words, read and written. -/
def Obligations.TeamWords : Prop :=
  Sys2Proof.Claim.TeamWordInstructions ∧ Sys2Proof.Claim.TeamWordsApply

/-- R177 to R179, R363: special registers, read and written. -/
def Obligations.SpecialRegisters : Prop :=
  Sys2Proof.Claim.SpecialRegisterReads ∧ Sys2Proof.Claim.SpecialRegisterWrites

/-- R83, R84, R178, R201: when results and special registers take their values. -/
def Obligations.ResultsLand : Prop :=
  Sys2Proof.Claim.FixedLatencies ∧ Sys2Proof.Claim.PendingEffectsLand ∧ Sys2Proof.Claim.VariableResultsAreWritten

/-- R88, R90: the window, its moves and its agreement with the main file. -/
def Obligations.RegisterWindow : Prop :=
  Sys2Proof.Claim.RegionBegins ∧ Sys2Proof.Claim.RegionCompletes ∧ Sys2Proof.Claim.RegionRuns ∧ Sys2Proof.Claim.RegisterWrites

/-- R38, R92: `MCALL` and the words that it runs. -/
def Obligations.Microprograms : Prop :=
  Sys2Proof.Claim.MacroCalls ∧ Sys2Proof.Claim.MacroBodyWords

/-- R27, R39, R84, R86, R107: when a beam may issue, and what is checked at issue. -/
def Obligations.IssueChecks : Prop :=
  Sys2Proof.Claim.ChecksAtIssue ∧ Sys2Proof.Claim.WhenABeamMayIssue

/-- R14 to R16, R22, R28 to R32: operands of base and extended words. -/
def Obligations.Operands : Prop :=
  Sys2Proof.Claim.BaseWordsStandForTheirTwins ∧ Sys2Proof.Claim.OperandRules

/-- R87, R180, R182, R383: what a trap saves and where it goes, and when it stops the team. -/
def Obligations.TrapsAndFatalStops : Prop :=
  Sys2Proof.Claim.TrapEntry ∧ Sys2Proof.Claim.FatalStops

/-- R182, R381: the other beams of a team at a trap. -/
def Obligations.Siblings : Prop :=
  Sys2Proof.Claim.SkidsAreCounted ∧ Sys2Proof.Claim.SiblingsStop

/-- R93, R182, R183: where a trap is reported, and the return from it. -/
def Obligations.TrapReturns : Prop :=
  Sys2Proof.Claim.TrapReturn ∧ Sys2Proof.Claim.WhereATrapIsReported

/-- R224 to R229, R234: global loads, stores and atomics, and the groups they are sent in. -/
def Obligations.GlobalMemory : Prop :=
  Sys2Proof.Claim.GlobalAccesses ∧ Sys2Proof.Claim.CoalescerGroups

/-- R119, R120, R224, R238, R243: the checks of a global access. -/
def Obligations.AccessRules : Prop :=
  Sys2Proof.Claim.AccessChecks ∧ Sys2Proof.Claim.PagesForbid ∧ Sys2Proof.Claim.ScopeCap

/-- R123, R142, R145, R237, R239, R240: fences and cache instructions. -/
def Obligations.FencesAndCaches : Prop :=
  Sys2Proof.Claim.Fences ∧ Sys2Proof.Claim.CacheInstructions

/-- R241, R242: collimated stores and watches, from their issue to their end. -/
def Obligations.CollimatedAndWatched : Prop :=
  Sys2Proof.Claim.CollimatedStores ∧ Sys2Proof.Claim.CollimatedStoresApply ∧ Sys2Proof.Claim.WatchesBegin ∧ Sys2Proof.Claim.WatchesEnd

/-- R126, R129, R221, R230 to R233, R235: the scratchpad. -/
def Obligations.Scratchpad : Prop :=
  Sys2Proof.Claim.ScratchpadAccesses ∧ Sys2Proof.Claim.ScratchpadAtomics ∧ Sys2Proof.Claim.TilesAreDeclared

/-- R131, R154, R276, R277: queues and their slots. -/
def Obligations.Queues : Prop :=
  Sys2Proof.Claim.QueuesAreInstalled ∧ Sys2Proof.Claim.QueueSlotsMove

/-- R172, R267, R272, R273, R275, R314: jobs, from their issue to the observation of their end. -/
def Obligations.JobInstructions : Prop :=
  Sys2Proof.Claim.JobsIssue ∧ Sys2Proof.Claim.StagingIssues ∧ Sys2Proof.Claim.JobsAreObserved

/-- R244 to R262: what the matrix engine accepts. -/
def Obligations.MatrixInstructions : Prop :=
  Sys2Proof.Claim.MultiplicationsAreAccepted ∧ Sys2Proof.Claim.TileInstructionsAreAccepted

/-- R245, R249 to R261: the elements a multiplication reads, and what the engine does. -/
def Obligations.MatrixEngine : Prop :=
  Sys2Proof.Claim.ElementsLieAsStated ∧ Sys2Proof.Claim.EngineEvents

/-- R318 to R329: the Prism array. -/
def Obligations.PrismArray : Prop :=
  Sys2Proof.Claim.PrismInstructions ∧ Sys2Proof.Claim.PrismEvents

/-- R290 to R292: board requests. -/
def Obligations.HaloRequests : Prop :=
  Sys2Proof.Claim.WhatMayBeBoarded ∧ Sys2Proof.Claim.HaloInstructions

/-- R282 to R288: channels, passing tiles and their delivery. -/
def Obligations.HaloChannels : Prop :=
  Sys2Proof.Claim.ChannelEvents ∧ Sys2Proof.Claim.TilesPass ∧ Sys2Proof.Claim.TilesAreDelivered

/-- R296, R302, R306 to R311: operations on a context's descriptor, and its frontiers. -/
def Obligations.SharedContexts : Prop :=
  Sys2Proof.Claim.ContextChecks ∧ Sys2Proof.Claim.ContextOperations ∧ Sys2Proof.Claim.Frontiers

/-- R300, R302 to R305, R317: reading and writing a context's slots. -/
def Obligations.ContextSlots : Prop :=
  Sys2Proof.Claim.SlotChecks ∧ Sys2Proof.Claim.SlotInstructions ∧ Sys2Proof.Claim.SlotSubsteps

/-- R121, R136 to R147, R228 to R234, R371: packets at their home slices, and what comes back. -/
def Obligations.SlicesAndAcknowledgements : Prop :=
  Sys2Proof.Claim.PacketsAtSlices ∧ Sys2Proof.Claim.AcknowledgementAndArbitration

/-- R365 to R373: page tables, cached translations and faults. -/
def Obligations.Translation : Prop :=
  Sys2Proof.Claim.WalksReadTheTable ∧ Sys2Proof.Claim.EntriesAreRead ∧ Sys2Proof.Claim.TranslationEvents

/-- R75, R151, R153, R269, R273 to R275, R300, R312, R314, R315, R354: what a job moves, and its end. -/
def Obligations.JobsRun : Prop :=
  Sys2Proof.Claim.CopiesMove ∧ Sys2Proof.Claim.GathersMove ∧ Sys2Proof.Claim.CollectivesMove ∧ Sys2Proof.Claim.StagingMoves ∧
    Sys2Proof.Claim.JobsComplete

/-- R132, R133, R353 to R356, R392, R393, R404, R424, R427: the registers of the host, power requests and budgets. -/
def Obligations.RegisterBlocks : Prop :=
  Sys2Proof.Claim.HostRegisters ∧ Sys2Proof.Claim.PowerRequests ∧ Sys2Proof.Claim.Budgets

/-- R363, R371, R377, R378, R397, R400, R403: resets of functions and the start of the package. -/
def Obligations.FunctionLifetimes : Prop :=
  Sys2Proof.Claim.FunctionResets ∧ Sys2Proof.Claim.StartUp

/-- R345, R373, R378, R394 to R396, R401, R402: the mailbox. -/
def Obligations.MailboxCommands : Prop :=
  Sys2Proof.Claim.CommandsAreFetched ∧ Sys2Proof.Claim.CommandEffects

/-- R343 to R350: replays and their nodes. -/
def Obligations.Graphs : Prop :=
  Sys2Proof.Claim.ReplaysRun ∧ Sys2Proof.Claim.NodesRun

/-- R98, R101, R103, R112, R113, R275: teams placed and retired. -/
def Obligations.TeamLifetimes : Prop :=
  Sys2Proof.Claim.TeamsArePlaced ∧ Sys2Proof.Claim.TeamsRetire

/-- R408, R410, R415 to R421, R424: link commands and states, and the stream of an optical link. -/
def Obligations.Links : Prop :=
  Sys2Proof.Claim.LinkCommands ∧ Sys2Proof.Claim.LinkStates ∧ Sys2Proof.Claim.Streams

/-- R409 to R414, R422, R425: flits and packets. -/
def Obligations.FabricTraffic : Prop :=
  Sys2Proof.Claim.Flits ∧ Sys2Proof.Claim.NextFlits ∧ Sys2Proof.Claim.PacketsOfTheFabric

/-- R7, R8, R13, R14, R18 to R21, R39, R40: decoding and encoding agree, both ways. -/
def Obligations.Encoding : Prop :=
  Sys2Proof.Claim.DecodeInvertsEncode ∧ Sys2Proof.Claim.DecodeGivesLegalInstructions

/-- R7, R11, R39, R40, R91, log 1, log 2: what a step runs. -/
def Obligations.StepsRunTheDecoded : Prop :=
  Sys2Proof.Claim.StepRunsTheDecoded ∧ Sys2Proof.Claim.PlacedInstructionsRun

/-- R353, R358, R363, R393, R397, R404, R423, R424, R427, log 3: the state after reset. -/
def Obligations.ResetState : Prop :=
  Sys2Proof.Claim.ResetValues ∧ Sys2Proof.Claim.ResetIsCanonical
end

