-- ==== Sys2Proof/Laws/Sparse.lean ====
section
/-! SUPPORT. Laws of sparse storage and of memory: what is read after a write, and that every operation keeps the canonical
form. -/

namespace Sys2Proof.Machine

/-! ### Reading after writing -/

theorem sget_serase_same {α : Type} (d : α) (m : List (Nat × α)) (k : Nat) : sget d (serase m k) k = d := by
  induction m with
  | nil => rfl
  | cons e r ih =>
    by_cases h : e.1 = k
    · simpa [serase, h] using ih
    · simpa [serase, h, sget] using ih

theorem sget_serase_other {α : Type} (d : α) (m : List (Nat × α)) {k j : Nat} (h : j ≠ k) :
    sget d (serase m k) j = sget d m j := by
  induction m with
  | nil => rfl
  | cons e r ih =>
    by_cases hk : e.1 = k
    · have he : e.1 ≠ j := by omega
      rw [serase, if_pos hk, ih, sget, if_neg he]
    · by_cases hj : e.1 = j
      · simp [serase, sget, hj, h]
      · simpa [serase, hk, sget, hj] using ih

theorem sget_sput_same {α : Type} (d : α) (m : List (Nat × α)) (k : Nat) (v : α) : sget d (sput m k v) k = v := by
  induction m with
  | nil => simp [sput, sget]
  | cons e r ih =>
    by_cases hl : k < e.1
    · simp [sput, hl, sget]
    · by_cases he : e.1 = k
      · simp [sput, he, sget]
      · simpa [sput, hl, he, sget] using ih

theorem sget_sput_other {α : Type} (d : α) (m : List (Nat × α)) {k j : Nat} (v : α) (h : j ≠ k) :
    sget d (sput m k v) j = sget d m j := by
  have hk : k ≠ j := fun e => h e.symm
  induction m with
  | nil => simp [sput, sget, hk]
  | cons e r ih =>
    by_cases hl : k < e.1
    · simp [sput, hl, sget, hk]
    · by_cases he : e.1 = k
      · simp [sput, he, sget, hk]
      · rw [sput, if_neg hl, if_neg he, sget, sget, ih]

@[simp] theorem sget_sset_same {α : Type} [DecidableEq α] (d : α) (m : List (Nat × α)) (k : Nat) (v : α) :
    sget d (sset d m k v) k = v := by
  by_cases h : v = d
  · simp [sset, h, sget_serase_same]
  · simp [sset, h, sget_sput_same]

theorem sget_sset_other {α : Type} [DecidableEq α] (d : α) (m : List (Nat × α)) {k j : Nat} (v : α) (h : j ≠ k) :
    sget d (sset d m k v) j = sget d m j := by
  by_cases hv : v = d
  · simp [sset, hv, sget_serase_other d m h]
  · simp [sset, hv, sget_sput_other d m v h]

/-! ### Tables by identifier -/

@[simp] theorem aget_aset_same {α : Type} (m : List (Nat × α)) (k : Nat) (v : α) : aget (aset m k v) k = some v := by
  induction m with
  | nil => simp [aset, aget]
  | cons e r ih =>
    by_cases h : e.1 = k
    · simp [aset, aget, h]
    · simpa [aset, aget, h] using ih

theorem aget_aset_other {α : Type} (m : List (Nat × α)) {k j : Nat} (v : α) (h : j ≠ k) : aget (aset m k v) j = aget m j := by
  have hk : k ≠ j := fun e => h e.symm
  induction m with
  | nil => simp [aset, aget, hk]
  | cons e r ih =>
    by_cases he : e.1 = k
    · simp [aset, aget, he, hk]
    · rw [aset, if_neg he, aget, aget, ih]

/-- Replacing the object of an identifier that a table holds keeps the table's identifiers. -/
theorem aset_keys {α : Type} (m : List (Nat × α)) (k : Nat) (v w : α) (h : aget m k = some w) :
    (aset m k v).map (·.1) = m.map (·.1) := by
  induction m with
  | nil => simp [aget] at h
  | cons e r ih =>
    by_cases he : e.1 = k
    · simp [aset, he]
    · simp only [aget, he, if_false] at h
      simp [aset, he, ih h]

@[simp] theorem aget_adel_same {α : Type} (m : List (Nat × α)) (k : Nat) : aget (adel m k) k = none := by
  induction m with
  | nil => rfl
  | cons e r ih =>
    by_cases h : e.1 = k
    · simpa [adel, serase, h] using ih
    · simpa [adel, serase, h, aget] using ih

theorem aget_adel_other {α : Type} (m : List (Nat × α)) {k j : Nat} (h : j ≠ k) : aget (adel m k) j = aget m j := by
  induction m with
  | nil => rfl
  | cons e r ih =>
    by_cases hk : e.1 = k
    · have he : e.1 ≠ j := by omega
      rw [adel, serase, if_pos hk, aget, if_neg he]
      exact ih
    · rw [adel, serase, if_neg hk, aget, aget]
      split
      · rfl
      · exact ih

/-! ### The canonical form -/

/-- Every key of a list lies above `n`. -/
def above {α : Type} (n : Nat) (m : List (Nat × α)) : Prop := ∀ e ∈ m, n < e.1

theorem swf_cons {α : Type} [DecidableEq α] (d : α) (e : Nat × α) (r : List (Nat × α)) :
    swf d (e :: r) = true ↔ e.2 ≠ d ∧ above e.1 r ∧ swf d r = true := by
  induction r generalizing e with
  | nil => simp [swf, above]
  | cons f r ih =>
    have hf := ih f
    constructor
    · intro h
      rw [swf] at h
      simp only [Bool.and_eq_true, decide_eq_true_eq] at h
      obtain ⟨⟨h1, h2⟩, h3⟩ := h
      refine ⟨h1, ?_, h3⟩
      intro x hx
      rcases List.mem_cons.mp hx with rfl | hx
      · exact h2
      · exact Nat.lt_trans h2 ((hf.mp h3).2.1 x hx)
    · rintro ⟨h1, h2, h3⟩
      rw [swf]
      simp only [Bool.and_eq_true, decide_eq_true_eq]
      exact ⟨⟨h1, h2 f (List.mem_cons_self ..)⟩, h3⟩

theorem mem_serase {α : Type} {m : List (Nat × α)} {k : Nat} {e : Nat × α} (h : e ∈ serase m k) : e ∈ m := by
  induction m with
  | nil => exact h
  | cons f r ih =>
    by_cases hk : f.1 = k
    · simp only [serase, hk, if_true] at h
      exact List.mem_cons_of_mem _ (ih h)
    · simp only [serase, hk, if_false] at h
      rcases List.mem_cons.mp h with rfl | h
      · exact List.mem_cons_self ..
      · exact List.mem_cons_of_mem _ (ih h)

theorem mem_sput {α : Type} {m : List (Nat × α)} {k : Nat} {v : α} {e : Nat × α} (h : e ∈ sput m k v) : e = (k, v) ∨ e ∈ m := by
  induction m with
  | nil => simpa [sput] using h
  | cons f r ih =>
    by_cases hl : k < f.1
    · simpa [sput, hl] using h
    · by_cases he : f.1 = k
      · simp only [sput, he, lt_irrefl, if_false, if_true] at h
        rcases List.mem_cons.mp h with h | h
        · exact .inl h
        · exact .inr (List.mem_cons_of_mem _ h)
      · simp only [sput, hl, he, if_false] at h
        rcases List.mem_cons.mp h with rfl | h
        · exact .inr (List.mem_cons_self ..)
        · exact (ih h).imp_right (List.mem_cons_of_mem _)

theorem swf_serase {α : Type} [DecidableEq α] (d : α) {m : List (Nat × α)} (k : Nat) (h : swf d m = true) :
    swf d (serase m k) = true := by
  induction m with
  | nil => exact h
  | cons e r ih =>
    obtain ⟨h1, h2, h3⟩ := (swf_cons d e r).mp h
    by_cases hk : e.1 = k
    · simpa [serase, hk] using ih h3
    · simp only [serase, hk, if_false]
      exact (swf_cons d e _).mpr ⟨h1, fun x hx => h2 x (mem_serase hx), ih h3⟩

theorem swf_sput {α : Type} [DecidableEq α] (d : α) {m : List (Nat × α)} (k : Nat) {v : α} (hv : v ≠ d) (h : swf d m = true) :
    swf d (sput m k v) = true := by
  induction m with
  | nil => simp [sput, swf, hv]
  | cons e r ih =>
    obtain ⟨h1, h2, h3⟩ := (swf_cons d e r).mp h
    by_cases hl : k < e.1
    · simp only [sput, hl, if_true]
      refine (swf_cons d _ _).mpr ⟨hv, ?_, h⟩
      intro x hx
      rcases List.mem_cons.mp hx with rfl | hx
      · exact hl
      · exact Nat.lt_trans hl (h2 x hx)
    · by_cases he : e.1 = k
      · simp only [sput, he, lt_irrefl, if_false, if_true]
        exact (swf_cons d _ _).mpr ⟨hv, fun x hx => he ▸ h2 x hx, h3⟩
      · simp only [sput, hl, he, if_false]
        refine (swf_cons d _ _).mpr ⟨h1, ?_, ih h3⟩
        intro x hx
        rcases mem_sput hx with rfl | hx
        · show e.1 < k
          omega
        · exact h2 x hx

/-- A write keeps the canonical form. -/
theorem swf_sset {α : Type} [DecidableEq α] (d : α) {m : List (Nat × α)} (k : Nat) (v : α) (h : swf d m = true) :
    swf d (sset d m k v) = true := by
  by_cases hv : v = d
  · simpa [sset, hv] using swf_serase d k h
  · simpa [sset, hv] using swf_sput d k hv h

theorem swf_ssetAll {α : Type} [DecidableEq α] (d : α) (l : List (Nat × α)) {m : List (Nat × α)} (h : swf d m = true) :
    swf d (ssetAll d m l) = true := by
  induction l generalizing m with
  | nil => exact h
  | cons e r ih => exact ih (swf_sset d e.1 e.2 h)

/-! ### Memory -/

@[simp] theorem Memory.read_write_same (m : Memory) (a : Nat) (v : BitVec 8) : (m.write a v).read a = v :=
  sget_sset_same memDefault m a v

theorem Memory.read_write_other (m : Memory) {a b : Nat} (v : BitVec 8) (h : b ≠ a) : (m.write a v).read b = m.read b :=
  sget_sset_other memDefault m v h

theorem Memory.wf_write {m : Memory} (a : Nat) (v : BitVec 8) (h : m.wf = true) : (m.write a v).wf = true :=
  swf_sset memDefault a v h

theorem Memory.wf_nil : Memory.wf [] = true := rfl

theorem Memory.wf_writeNat {m : Memory} (a n v : Nat) (h : m.wf = true) : (m.writeNat a n v).wf = true := by
  induction n generalizing m a v with
  | zero => exact h
  | succ n ih => exact ih _ _ (Memory.wf_write a _ h)

theorem Memory.wf_writeBytes {m : Memory} (a : Nat) (bs : List (BitVec 8)) (h : m.wf = true) : (m.writeBytes a bs).wf = true := by
  induction bs generalizing m a with
  | nil => exact h
  | cons b r ih => exact ih _ (Memory.wf_write a b h)

/-- Bytes outside a written range read as before. -/
theorem Memory.read_writeBytes_other (m : Memory) (a : Nat) (bs : List (BitVec 8)) {b : Nat} (h : b < a ∨ a + bs.length ≤ b) :
    (m.writeBytes a bs).read b = m.read b := by
  induction bs generalizing m a with
  | nil => rfl
  | cons v r ih =>
    have hl : (v :: r).length = r.length + 1 := rfl
    rw [hl] at h
    rw [Memory.writeBytes, ih _ _ (by omega), Memory.read_write_other _ _ (by omega)]

/-- Bytes of a written range read as written. -/
theorem Memory.read_writeBytes_same (m : Memory) (a : Nat) (bs : List (BitVec 8)) {i : Nat} (h : i < bs.length) :
    (m.writeBytes a bs).read (a + i) = bs[i] := by
  induction bs generalizing m a i with
  | nil => simp at h
  | cons v r ih =>
    cases i with
    | zero =>
      rw [Memory.writeBytes, Nat.add_zero, Memory.read_writeBytes_other _ (a + 1) r (.inl (by omega))]
      exact Memory.read_write_same m a v
    | succ i =>
      have hi : i < r.length := by simpa using h
      have := ih (m.write a v) (a + 1) hi
      rw [Memory.writeBytes, show a + (i + 1) = a + 1 + i by omega, this]
      rfl

theorem Memory.wf_canon (r : List (Nat × BitVec 8)) : (Memory.canon r).wf = true := by
  induction r with
  | nil => rfl
  | cons e r ih => exact Memory.wf_write e.1 e.2 ih

/-- The bytes of a list in canonical form lie at the list's addresses. -/
theorem Memory.canon_mem {r : List (Nat × BitVec 8)} {e : Nat × BitVec 8} (h : e ∈ Memory.canon r) : ∃ f ∈ r, f.1 = e.1 := by
  induction r with
  | nil => simp [Memory.canon] at h
  | cons f r ih =>
    have h' : e ∈ sset memDefault (Memory.canon r) f.1 f.2 := h
    unfold sset at h'
    split at h'
    · obtain ⟨g, hg, he⟩ := ih (mem_serase h')
      exact ⟨g, List.mem_cons_of_mem _ hg, he⟩
    · rcases mem_sput h' with rfl | h'
      · exact ⟨f, List.mem_cons_self .., rfl⟩
      · obtain ⟨g, hg, he⟩ := ih h'
        exact ⟨g, List.mem_cons_of_mem _ hg, he⟩

theorem swf_filter {α : Type} [DecidableEq α] (d : α) {m : List (Nat × α)} (p : Nat × α → Bool) (h : swf d m = true) :
    swf d (m.filter p) = true := by
  induction m with
  | nil => exact h
  | cons e r ih =>
    obtain ⟨h1, h2, h3⟩ := (swf_cons d e r).mp h
    by_cases hp : p e
    · rw [List.filter_cons_of_pos hp]
      exact (swf_cons d e _).mpr ⟨h1, fun x hx => h2 x (List.mem_filter.mp hx).1, ih h3⟩
    · rw [List.filter_cons_of_neg hp]
      exact ih h3

theorem swf_append {α : Type} [DecidableEq α] (d : α) {m r : List (Nat × α)} (hm : swf d m = true) (hr : swf d r = true)
    (h : ∀ x ∈ m, ∀ y ∈ r, x.1 < y.1) : swf d (m ++ r) = true := by
  induction m with
  | nil => exact hr
  | cons e m ih =>
    obtain ⟨h1, h2, h3⟩ := (swf_cons d e m).mp hm
    refine (swf_cons d e _).mpr ⟨h1, ?_, ih h3 fun x hx => h x (List.mem_cons_of_mem _ hx)⟩
    intro x hx
    rcases List.mem_append.mp hx with hx | hx
    · exact h2 x hx
    · exact h e (List.mem_cons_self ..) x hx

/-- Replacing a range keeps the canonical form. -/
theorem Memory.wf_splice {m : Memory} {lo hi : Nat} (r : Memory) (hle : lo ≤ hi) (h : m.wf = true) : (m.splice lo hi r).wf = true := by
  have hc : ∀ e ∈ Memory.canon (r.filter fun e => decide (lo ≤ e.1) && decide (e.1 < hi)), lo ≤ e.1 ∧ e.1 < hi := by
    intro e he
    obtain ⟨f, hf, hfe⟩ := Memory.canon_mem he
    have := (List.mem_filter.mp hf).2
    simp only [Bool.and_eq_true, decide_eq_true_eq] at this
    omega
  refine swf_append memDefault (swf_append memDefault (swf_filter memDefault _ h) (Memory.wf_canon _) ?_) (swf_filter memDefault _ h) ?_
  · intro x hx y hy
    have h1 := (List.mem_filter.mp hx).2
    have h2 := hc y hy
    simp only [decide_eq_true_eq] at h1
    omega
  · intro x hx y hy
    have h3 := (List.mem_filter.mp hy).2
    simp only [decide_eq_true_eq] at h3
    rcases List.mem_append.mp hx with hx | hx
    · have h1 := (List.mem_filter.mp hx).2
      simp only [decide_eq_true_eq] at h1
      omega
    · have h2 := hc x hx
      omega

end Sys2Proof.Machine
end

