-- ==== Sys2Proof/Laws/State.lean ====
section
/-! SUPPORT. Every field of the state after every named update of it, and what the lookups find after an update. -/

namespace Sys2Proof.Machine

/-! ### `State.setTeam` -/

@[simp] theorem State.setTeam_clock (s : State) (t : Nat) (T : Team) : (s.setTeam t T).clock = s.clock := rfl
@[simp] theorem State.setTeam_ftime (s : State) (t : Nat) (T : Team) : (s.setTeam t T).ftime = s.ftime := rfl
@[simp] theorem State.setTeam_free (s : State) (t : Nat) (T : Team) : (s.setTeam t T).free = s.free := rfl
@[simp] theorem State.setTeam_nextId (s : State) (t : Nat) (T : Team) : (s.setTeam t T).nextId = s.nextId := rfl
@[simp] theorem State.setTeam_cur (s : State) (t : Nat) (T : Team) : (s.setTeam t T).cur = s.cur := rfl
@[simp] theorem State.setTeam_spent (s : State) (t : Nat) (T : Team) : (s.setTeam t T).spent = s.spent := rfl
@[simp] theorem State.setTeam_agenda (s : State) (t : Nat) (T : Team) : (s.setTeam t T).agenda = s.agenda := rfl
@[simp] theorem State.setTeam_mem (s : State) (t : Nat) (T : Team) : (s.setTeam t T).mem = s.mem := rfl
@[simp] theorem State.setTeam_hostMem (s : State) (t : Nat) (T : Team) : (s.setTeam t T).hostMem = s.hostMem := rfl
@[simp] theorem State.setTeam_net (s : State) (t : Nat) (T : Team) : (s.setTeam t T).net = s.net := rfl
@[simp] theorem State.setTeam_teams (s : State) (t : Nat) (T : Team) : (s.setTeam t T).teams = aset s.teams t T := rfl
@[simp] theorem State.setTeam_cores (s : State) (t : Nat) (T : Team) : (s.setTeam t T).cores = s.cores := rfl
@[simp] theorem State.setTeam_grids (s : State) (t : Nat) (T : Team) : (s.setTeam t T).grids = s.grids := rfl
@[simp] theorem State.setTeam_jobs (s : State) (t : Nat) (T : Team) : (s.setTeam t T).jobs = s.jobs := rfl
@[simp] theorem State.setTeam_work (s : State) (t : Nat) (T : Team) : (s.setTeam t T).work = s.work := rfl
@[simp] theorem State.setTeam_regs (s : State) (t : Nat) (T : Team) : (s.setTeam t T).regs = s.regs := rfl
@[simp] theorem State.setTeam_halo (s : State) (t : Nat) (T : Team) : (s.setTeam t T).halo = s.halo := rfl
@[simp] theorem State.setTeam_fab (s : State) (t : Nat) (T : Team) : (s.setTeam t T).fab = s.fab := rfl
@[simp] theorem State.setTeam_sys (s : State) (t : Nat) (T : Team) : (s.setTeam t T).sys = s.sys := rfl

/-! ### `State.setGrid` -/

@[simp] theorem State.setGrid_clock (s : State) (g : Nat) (G : Grid) : (s.setGrid g G).clock = s.clock := rfl
@[simp] theorem State.setGrid_ftime (s : State) (g : Nat) (G : Grid) : (s.setGrid g G).ftime = s.ftime := rfl
@[simp] theorem State.setGrid_free (s : State) (g : Nat) (G : Grid) : (s.setGrid g G).free = s.free := rfl
@[simp] theorem State.setGrid_nextId (s : State) (g : Nat) (G : Grid) : (s.setGrid g G).nextId = s.nextId := rfl
@[simp] theorem State.setGrid_cur (s : State) (g : Nat) (G : Grid) : (s.setGrid g G).cur = s.cur := rfl
@[simp] theorem State.setGrid_spent (s : State) (g : Nat) (G : Grid) : (s.setGrid g G).spent = s.spent := rfl
@[simp] theorem State.setGrid_agenda (s : State) (g : Nat) (G : Grid) : (s.setGrid g G).agenda = s.agenda := rfl
@[simp] theorem State.setGrid_mem (s : State) (g : Nat) (G : Grid) : (s.setGrid g G).mem = s.mem := rfl
@[simp] theorem State.setGrid_hostMem (s : State) (g : Nat) (G : Grid) : (s.setGrid g G).hostMem = s.hostMem := rfl
@[simp] theorem State.setGrid_net (s : State) (g : Nat) (G : Grid) : (s.setGrid g G).net = s.net := rfl
@[simp] theorem State.setGrid_teams (s : State) (g : Nat) (G : Grid) : (s.setGrid g G).teams = s.teams := rfl
@[simp] theorem State.setGrid_cores (s : State) (g : Nat) (G : Grid) : (s.setGrid g G).cores = s.cores := rfl
@[simp] theorem State.setGrid_grids (s : State) (g : Nat) (G : Grid) : (s.setGrid g G).grids = aset s.grids g G := rfl
@[simp] theorem State.setGrid_jobs (s : State) (g : Nat) (G : Grid) : (s.setGrid g G).jobs = s.jobs := rfl
@[simp] theorem State.setGrid_work (s : State) (g : Nat) (G : Grid) : (s.setGrid g G).work = s.work := rfl
@[simp] theorem State.setGrid_regs (s : State) (g : Nat) (G : Grid) : (s.setGrid g G).regs = s.regs := rfl
@[simp] theorem State.setGrid_halo (s : State) (g : Nat) (G : Grid) : (s.setGrid g G).halo = s.halo := rfl
@[simp] theorem State.setGrid_fab (s : State) (g : Nat) (G : Grid) : (s.setGrid g G).fab = s.fab := rfl
@[simp] theorem State.setGrid_sys (s : State) (g : Nat) (G : Grid) : (s.setGrid g G).sys = s.sys := rfl

/-! ### `State.setCore` -/

@[simp] theorem State.setCore_clock (s : State) (c : Nat) (C : Core) : (s.setCore c C).clock = s.clock := rfl
@[simp] theorem State.setCore_ftime (s : State) (c : Nat) (C : Core) : (s.setCore c C).ftime = s.ftime := rfl
@[simp] theorem State.setCore_free (s : State) (c : Nat) (C : Core) : (s.setCore c C).free = s.free := rfl
@[simp] theorem State.setCore_nextId (s : State) (c : Nat) (C : Core) : (s.setCore c C).nextId = s.nextId := rfl
@[simp] theorem State.setCore_cur (s : State) (c : Nat) (C : Core) : (s.setCore c C).cur = s.cur := rfl
@[simp] theorem State.setCore_spent (s : State) (c : Nat) (C : Core) : (s.setCore c C).spent = s.spent := rfl
@[simp] theorem State.setCore_agenda (s : State) (c : Nat) (C : Core) : (s.setCore c C).agenda = s.agenda := rfl
@[simp] theorem State.setCore_mem (s : State) (c : Nat) (C : Core) : (s.setCore c C).mem = s.mem := rfl
@[simp] theorem State.setCore_hostMem (s : State) (c : Nat) (C : Core) : (s.setCore c C).hostMem = s.hostMem := rfl
@[simp] theorem State.setCore_net (s : State) (c : Nat) (C : Core) : (s.setCore c C).net = s.net := rfl
@[simp] theorem State.setCore_teams (s : State) (c : Nat) (C : Core) : (s.setCore c C).teams = s.teams := rfl
@[simp] theorem State.setCore_cores (s : State) (c : Nat) (C : Core) : (s.setCore c C).cores = aset s.cores c C := rfl
@[simp] theorem State.setCore_grids (s : State) (c : Nat) (C : Core) : (s.setCore c C).grids = s.grids := rfl
@[simp] theorem State.setCore_jobs (s : State) (c : Nat) (C : Core) : (s.setCore c C).jobs = s.jobs := rfl
@[simp] theorem State.setCore_work (s : State) (c : Nat) (C : Core) : (s.setCore c C).work = s.work := rfl
@[simp] theorem State.setCore_regs (s : State) (c : Nat) (C : Core) : (s.setCore c C).regs = s.regs := rfl
@[simp] theorem State.setCore_halo (s : State) (c : Nat) (C : Core) : (s.setCore c C).halo = s.halo := rfl
@[simp] theorem State.setCore_fab (s : State) (c : Nat) (C : Core) : (s.setCore c C).fab = s.fab := rfl
@[simp] theorem State.setCore_sys (s : State) (c : Nat) (C : Core) : (s.setCore c C).sys = s.sys := rfl

/-! ### `State.setFunc` -/

@[simp] theorem State.setFunc_clock (s : State) (f : Nat) (F : Func) : (s.setFunc f F).clock = s.clock := rfl
@[simp] theorem State.setFunc_ftime (s : State) (f : Nat) (F : Func) : (s.setFunc f F).ftime = s.ftime := rfl
@[simp] theorem State.setFunc_free (s : State) (f : Nat) (F : Func) : (s.setFunc f F).free = s.free := rfl
@[simp] theorem State.setFunc_nextId (s : State) (f : Nat) (F : Func) : (s.setFunc f F).nextId = s.nextId := rfl
@[simp] theorem State.setFunc_cur (s : State) (f : Nat) (F : Func) : (s.setFunc f F).cur = s.cur := rfl
@[simp] theorem State.setFunc_spent (s : State) (f : Nat) (F : Func) : (s.setFunc f F).spent = s.spent := rfl
@[simp] theorem State.setFunc_agenda (s : State) (f : Nat) (F : Func) : (s.setFunc f F).agenda = s.agenda := rfl
@[simp] theorem State.setFunc_mem (s : State) (f : Nat) (F : Func) : (s.setFunc f F).mem = s.mem := rfl
@[simp] theorem State.setFunc_hostMem (s : State) (f : Nat) (F : Func) : (s.setFunc f F).hostMem = s.hostMem := rfl
@[simp] theorem State.setFunc_net (s : State) (f : Nat) (F : Func) : (s.setFunc f F).net = s.net := rfl
@[simp] theorem State.setFunc_teams (s : State) (f : Nat) (F : Func) : (s.setFunc f F).teams = s.teams := rfl
@[simp] theorem State.setFunc_cores (s : State) (f : Nat) (F : Func) : (s.setFunc f F).cores = s.cores := rfl
@[simp] theorem State.setFunc_grids (s : State) (f : Nat) (F : Func) : (s.setFunc f F).grids = s.grids := rfl
@[simp] theorem State.setFunc_jobs (s : State) (f : Nat) (F : Func) : (s.setFunc f F).jobs = s.jobs := rfl
@[simp] theorem State.setFunc_work (s : State) (f : Nat) (F : Func) : (s.setFunc f F).work = s.work := rfl
@[simp] theorem State.setFunc_regs (s : State) (f : Nat) (F : Func) : (s.setFunc f F).regs = { s.regs with funcs := aset s.regs.funcs f F } := rfl
@[simp] theorem State.setFunc_halo (s : State) (f : Nat) (F : Func) : (s.setFunc f F).halo = s.halo := rfl
@[simp] theorem State.setFunc_fab (s : State) (f : Nat) (F : Func) : (s.setFunc f F).fab = s.fab := rfl
@[simp] theorem State.setFunc_sys (s : State) (f : Nat) (F : Func) : (s.setFunc f F).sys = s.sys := rfl

/-! ### `State.setChan` -/

@[simp] theorem State.setChan_clock (s : State) (c : Nat) (C : Chan) : (s.setChan c C).clock = s.clock := rfl
@[simp] theorem State.setChan_ftime (s : State) (c : Nat) (C : Chan) : (s.setChan c C).ftime = s.ftime := rfl
@[simp] theorem State.setChan_free (s : State) (c : Nat) (C : Chan) : (s.setChan c C).free = s.free := rfl
@[simp] theorem State.setChan_nextId (s : State) (c : Nat) (C : Chan) : (s.setChan c C).nextId = s.nextId := rfl
@[simp] theorem State.setChan_cur (s : State) (c : Nat) (C : Chan) : (s.setChan c C).cur = s.cur := rfl
@[simp] theorem State.setChan_spent (s : State) (c : Nat) (C : Chan) : (s.setChan c C).spent = s.spent := rfl
@[simp] theorem State.setChan_agenda (s : State) (c : Nat) (C : Chan) : (s.setChan c C).agenda = s.agenda := rfl
@[simp] theorem State.setChan_mem (s : State) (c : Nat) (C : Chan) : (s.setChan c C).mem = s.mem := rfl
@[simp] theorem State.setChan_hostMem (s : State) (c : Nat) (C : Chan) : (s.setChan c C).hostMem = s.hostMem := rfl
@[simp] theorem State.setChan_net (s : State) (c : Nat) (C : Chan) : (s.setChan c C).net = s.net := rfl
@[simp] theorem State.setChan_teams (s : State) (c : Nat) (C : Chan) : (s.setChan c C).teams = s.teams := rfl
@[simp] theorem State.setChan_cores (s : State) (c : Nat) (C : Chan) : (s.setChan c C).cores = s.cores := rfl
@[simp] theorem State.setChan_grids (s : State) (c : Nat) (C : Chan) : (s.setChan c C).grids = s.grids := rfl
@[simp] theorem State.setChan_jobs (s : State) (c : Nat) (C : Chan) : (s.setChan c C).jobs = s.jobs := rfl
@[simp] theorem State.setChan_work (s : State) (c : Nat) (C : Chan) : (s.setChan c C).work = s.work := rfl
@[simp] theorem State.setChan_regs (s : State) (c : Nat) (C : Chan) : (s.setChan c C).regs = s.regs := rfl
@[simp] theorem State.setChan_halo (s : State) (c : Nat) (C : Chan) : (s.setChan c C).halo = { s.halo with chans := aset s.halo.chans c C } := rfl
@[simp] theorem State.setChan_fab (s : State) (c : Nat) (C : Chan) : (s.setChan c C).fab = s.fab := rfl
@[simp] theorem State.setChan_sys (s : State) (c : Nat) (C : Chan) : (s.setChan c C).sys = s.sys := rfl

/-! ### `State.setLink` -/

@[simp] theorem State.setLink_clock (s : State) (l : Nat) (L : Link) : (s.setLink l L).clock = s.clock := rfl
@[simp] theorem State.setLink_ftime (s : State) (l : Nat) (L : Link) : (s.setLink l L).ftime = s.ftime := rfl
@[simp] theorem State.setLink_free (s : State) (l : Nat) (L : Link) : (s.setLink l L).free = s.free := rfl
@[simp] theorem State.setLink_nextId (s : State) (l : Nat) (L : Link) : (s.setLink l L).nextId = s.nextId := rfl
@[simp] theorem State.setLink_cur (s : State) (l : Nat) (L : Link) : (s.setLink l L).cur = s.cur := rfl
@[simp] theorem State.setLink_spent (s : State) (l : Nat) (L : Link) : (s.setLink l L).spent = s.spent := rfl
@[simp] theorem State.setLink_agenda (s : State) (l : Nat) (L : Link) : (s.setLink l L).agenda = s.agenda := rfl
@[simp] theorem State.setLink_mem (s : State) (l : Nat) (L : Link) : (s.setLink l L).mem = s.mem := rfl
@[simp] theorem State.setLink_hostMem (s : State) (l : Nat) (L : Link) : (s.setLink l L).hostMem = s.hostMem := rfl
@[simp] theorem State.setLink_net (s : State) (l : Nat) (L : Link) : (s.setLink l L).net = s.net := rfl
@[simp] theorem State.setLink_teams (s : State) (l : Nat) (L : Link) : (s.setLink l L).teams = s.teams := rfl
@[simp] theorem State.setLink_cores (s : State) (l : Nat) (L : Link) : (s.setLink l L).cores = s.cores := rfl
@[simp] theorem State.setLink_grids (s : State) (l : Nat) (L : Link) : (s.setLink l L).grids = s.grids := rfl
@[simp] theorem State.setLink_jobs (s : State) (l : Nat) (L : Link) : (s.setLink l L).jobs = s.jobs := rfl
@[simp] theorem State.setLink_work (s : State) (l : Nat) (L : Link) : (s.setLink l L).work = s.work := rfl
@[simp] theorem State.setLink_regs (s : State) (l : Nat) (L : Link) : (s.setLink l L).regs = s.regs := rfl
@[simp] theorem State.setLink_halo (s : State) (l : Nat) (L : Link) : (s.setLink l L).halo = s.halo := rfl
@[simp] theorem State.setLink_fab (s : State) (l : Nat) (L : Link) : (s.setLink l L).fab = { s.fab with links := aset s.fab.links l L } := rfl
@[simp] theorem State.setLink_sys (s : State) (l : Nat) (L : Link) : (s.setLink l L).sys = s.sys := rfl

/-! ### `State.sendMsix` -/

@[simp] theorem State.sendMsix_clock (s : State) (f v : Nat) : (s.sendMsix f v).clock = s.clock := rfl
@[simp] theorem State.sendMsix_ftime (s : State) (f v : Nat) : (s.sendMsix f v).ftime = s.ftime := rfl
@[simp] theorem State.sendMsix_free (s : State) (f v : Nat) : (s.sendMsix f v).free = s.free := rfl
@[simp] theorem State.sendMsix_nextId (s : State) (f v : Nat) : (s.sendMsix f v).nextId = s.nextId := rfl
@[simp] theorem State.sendMsix_cur (s : State) (f v : Nat) : (s.sendMsix f v).cur = s.cur := rfl
@[simp] theorem State.sendMsix_spent (s : State) (f v : Nat) : (s.sendMsix f v).spent = s.spent := rfl
@[simp] theorem State.sendMsix_agenda (s : State) (f v : Nat) : (s.sendMsix f v).agenda = s.agenda := rfl
@[simp] theorem State.sendMsix_mem (s : State) (f v : Nat) : (s.sendMsix f v).mem = s.mem := rfl
@[simp] theorem State.sendMsix_hostMem (s : State) (f v : Nat) : (s.sendMsix f v).hostMem = s.hostMem := rfl
@[simp] theorem State.sendMsix_net (s : State) (f v : Nat) : (s.sendMsix f v).net = s.net := rfl
@[simp] theorem State.sendMsix_teams (s : State) (f v : Nat) : (s.sendMsix f v).teams = s.teams := rfl
@[simp] theorem State.sendMsix_cores (s : State) (f v : Nat) : (s.sendMsix f v).cores = s.cores := rfl
@[simp] theorem State.sendMsix_grids (s : State) (f v : Nat) : (s.sendMsix f v).grids = s.grids := rfl
@[simp] theorem State.sendMsix_jobs (s : State) (f v : Nat) : (s.sendMsix f v).jobs = s.jobs := rfl
@[simp] theorem State.sendMsix_work (s : State) (f v : Nat) : (s.sendMsix f v).work = s.work := rfl
@[simp] theorem State.sendMsix_regs (s : State) (f v : Nat) : (s.sendMsix f v).regs = s.regs := rfl
@[simp] theorem State.sendMsix_halo (s : State) (f v : Nat) : (s.sendMsix f v).halo = s.halo := rfl
@[simp] theorem State.sendMsix_fab (s : State) (f v : Nat) : (s.sendMsix f v).fab = s.fab := rfl
@[simp] theorem State.sendMsix_sys (s : State) (f v : Nat) : (s.sendMsix f v).sys = { s.sys with msix := (f, v) :: s.sys.msix } := rfl

/-! ### Updates of a team or a beam that the state holds: every other field stays -/

@[simp] theorem State.setBeam_clock (s : State) (r : Ref) (b : Beam) : (s.setBeam r b).clock = s.clock := by unfold State.setBeam; split <;> rfl
@[simp] theorem State.setBeam_ftime (s : State) (r : Ref) (b : Beam) : (s.setBeam r b).ftime = s.ftime := by unfold State.setBeam; split <;> rfl
@[simp] theorem State.setBeam_free (s : State) (r : Ref) (b : Beam) : (s.setBeam r b).free = s.free := by unfold State.setBeam; split <;> rfl
@[simp] theorem State.setBeam_nextId (s : State) (r : Ref) (b : Beam) : (s.setBeam r b).nextId = s.nextId := by unfold State.setBeam; split <;> rfl
@[simp] theorem State.setBeam_cur (s : State) (r : Ref) (b : Beam) : (s.setBeam r b).cur = s.cur := by unfold State.setBeam; split <;> rfl
@[simp] theorem State.setBeam_spent (s : State) (r : Ref) (b : Beam) : (s.setBeam r b).spent = s.spent := by unfold State.setBeam; split <;> rfl
@[simp] theorem State.setBeam_agenda (s : State) (r : Ref) (b : Beam) : (s.setBeam r b).agenda = s.agenda := by unfold State.setBeam; split <;> rfl
@[simp] theorem State.setBeam_mem (s : State) (r : Ref) (b : Beam) : (s.setBeam r b).mem = s.mem := by unfold State.setBeam; split <;> rfl
@[simp] theorem State.setBeam_hostMem (s : State) (r : Ref) (b : Beam) : (s.setBeam r b).hostMem = s.hostMem := by unfold State.setBeam; split <;> rfl
@[simp] theorem State.setBeam_net (s : State) (r : Ref) (b : Beam) : (s.setBeam r b).net = s.net := by unfold State.setBeam; split <;> rfl
@[simp] theorem State.setBeam_cores (s : State) (r : Ref) (b : Beam) : (s.setBeam r b).cores = s.cores := by unfold State.setBeam; split <;> rfl
@[simp] theorem State.setBeam_grids (s : State) (r : Ref) (b : Beam) : (s.setBeam r b).grids = s.grids := by unfold State.setBeam; split <;> rfl
@[simp] theorem State.setBeam_jobs (s : State) (r : Ref) (b : Beam) : (s.setBeam r b).jobs = s.jobs := by unfold State.setBeam; split <;> rfl
@[simp] theorem State.setBeam_work (s : State) (r : Ref) (b : Beam) : (s.setBeam r b).work = s.work := by unfold State.setBeam; split <;> rfl
@[simp] theorem State.setBeam_regs (s : State) (r : Ref) (b : Beam) : (s.setBeam r b).regs = s.regs := by unfold State.setBeam; split <;> rfl
@[simp] theorem State.setBeam_halo (s : State) (r : Ref) (b : Beam) : (s.setBeam r b).halo = s.halo := by unfold State.setBeam; split <;> rfl
@[simp] theorem State.setBeam_fab (s : State) (r : Ref) (b : Beam) : (s.setBeam r b).fab = s.fab := by unfold State.setBeam; split <;> rfl
@[simp] theorem State.setBeam_sys (s : State) (r : Ref) (b : Beam) : (s.setBeam r b).sys = s.sys := by unfold State.setBeam; split <;> rfl

@[simp] theorem State.modTeam_clock (s : State) (t : Nat) (h : Team → Team) : (s.modTeam t h).clock = s.clock := by unfold State.modTeam; split <;> rfl
@[simp] theorem State.modTeam_ftime (s : State) (t : Nat) (h : Team → Team) : (s.modTeam t h).ftime = s.ftime := by unfold State.modTeam; split <;> rfl
@[simp] theorem State.modTeam_free (s : State) (t : Nat) (h : Team → Team) : (s.modTeam t h).free = s.free := by unfold State.modTeam; split <;> rfl
@[simp] theorem State.modTeam_nextId (s : State) (t : Nat) (h : Team → Team) : (s.modTeam t h).nextId = s.nextId := by unfold State.modTeam; split <;> rfl
@[simp] theorem State.modTeam_cur (s : State) (t : Nat) (h : Team → Team) : (s.modTeam t h).cur = s.cur := by unfold State.modTeam; split <;> rfl
@[simp] theorem State.modTeam_spent (s : State) (t : Nat) (h : Team → Team) : (s.modTeam t h).spent = s.spent := by unfold State.modTeam; split <;> rfl
@[simp] theorem State.modTeam_agenda (s : State) (t : Nat) (h : Team → Team) : (s.modTeam t h).agenda = s.agenda := by unfold State.modTeam; split <;> rfl
@[simp] theorem State.modTeam_mem (s : State) (t : Nat) (h : Team → Team) : (s.modTeam t h).mem = s.mem := by unfold State.modTeam; split <;> rfl
@[simp] theorem State.modTeam_hostMem (s : State) (t : Nat) (h : Team → Team) : (s.modTeam t h).hostMem = s.hostMem := by unfold State.modTeam; split <;> rfl
@[simp] theorem State.modTeam_net (s : State) (t : Nat) (h : Team → Team) : (s.modTeam t h).net = s.net := by unfold State.modTeam; split <;> rfl
@[simp] theorem State.modTeam_cores (s : State) (t : Nat) (h : Team → Team) : (s.modTeam t h).cores = s.cores := by unfold State.modTeam; split <;> rfl
@[simp] theorem State.modTeam_grids (s : State) (t : Nat) (h : Team → Team) : (s.modTeam t h).grids = s.grids := by unfold State.modTeam; split <;> rfl
@[simp] theorem State.modTeam_jobs (s : State) (t : Nat) (h : Team → Team) : (s.modTeam t h).jobs = s.jobs := by unfold State.modTeam; split <;> rfl
@[simp] theorem State.modTeam_work (s : State) (t : Nat) (h : Team → Team) : (s.modTeam t h).work = s.work := by unfold State.modTeam; split <;> rfl
@[simp] theorem State.modTeam_regs (s : State) (t : Nat) (h : Team → Team) : (s.modTeam t h).regs = s.regs := by unfold State.modTeam; split <;> rfl
@[simp] theorem State.modTeam_halo (s : State) (t : Nat) (h : Team → Team) : (s.modTeam t h).halo = s.halo := by unfold State.modTeam; split <;> rfl
@[simp] theorem State.modTeam_fab (s : State) (t : Nat) (h : Team → Team) : (s.modTeam t h).fab = s.fab := by unfold State.modTeam; split <;> rfl
@[simp] theorem State.modTeam_sys (s : State) (t : Nat) (h : Team → Team) : (s.modTeam t h).sys = s.sys := by unfold State.modTeam; split <;> rfl

@[simp] theorem State.modBeam_clock (s : State) (r : Ref) (h : Beam → Beam) : (s.modBeam r h).clock = s.clock := by unfold State.modBeam; split <;> simp
@[simp] theorem State.modBeam_ftime (s : State) (r : Ref) (h : Beam → Beam) : (s.modBeam r h).ftime = s.ftime := by unfold State.modBeam; split <;> simp
@[simp] theorem State.modBeam_free (s : State) (r : Ref) (h : Beam → Beam) : (s.modBeam r h).free = s.free := by unfold State.modBeam; split <;> simp
@[simp] theorem State.modBeam_nextId (s : State) (r : Ref) (h : Beam → Beam) : (s.modBeam r h).nextId = s.nextId := by unfold State.modBeam; split <;> simp
@[simp] theorem State.modBeam_cur (s : State) (r : Ref) (h : Beam → Beam) : (s.modBeam r h).cur = s.cur := by unfold State.modBeam; split <;> simp
@[simp] theorem State.modBeam_spent (s : State) (r : Ref) (h : Beam → Beam) : (s.modBeam r h).spent = s.spent := by unfold State.modBeam; split <;> simp
@[simp] theorem State.modBeam_agenda (s : State) (r : Ref) (h : Beam → Beam) : (s.modBeam r h).agenda = s.agenda := by unfold State.modBeam; split <;> simp
@[simp] theorem State.modBeam_mem (s : State) (r : Ref) (h : Beam → Beam) : (s.modBeam r h).mem = s.mem := by unfold State.modBeam; split <;> simp
@[simp] theorem State.modBeam_hostMem (s : State) (r : Ref) (h : Beam → Beam) : (s.modBeam r h).hostMem = s.hostMem := by unfold State.modBeam; split <;> simp
@[simp] theorem State.modBeam_net (s : State) (r : Ref) (h : Beam → Beam) : (s.modBeam r h).net = s.net := by unfold State.modBeam; split <;> simp
@[simp] theorem State.modBeam_cores (s : State) (r : Ref) (h : Beam → Beam) : (s.modBeam r h).cores = s.cores := by unfold State.modBeam; split <;> simp
@[simp] theorem State.modBeam_grids (s : State) (r : Ref) (h : Beam → Beam) : (s.modBeam r h).grids = s.grids := by unfold State.modBeam; split <;> simp
@[simp] theorem State.modBeam_jobs (s : State) (r : Ref) (h : Beam → Beam) : (s.modBeam r h).jobs = s.jobs := by unfold State.modBeam; split <;> simp
@[simp] theorem State.modBeam_work (s : State) (r : Ref) (h : Beam → Beam) : (s.modBeam r h).work = s.work := by unfold State.modBeam; split <;> simp
@[simp] theorem State.modBeam_regs (s : State) (r : Ref) (h : Beam → Beam) : (s.modBeam r h).regs = s.regs := by unfold State.modBeam; split <;> simp
@[simp] theorem State.modBeam_halo (s : State) (r : Ref) (h : Beam → Beam) : (s.modBeam r h).halo = s.halo := by unfold State.modBeam; split <;> simp
@[simp] theorem State.modBeam_fab (s : State) (r : Ref) (h : Beam → Beam) : (s.modBeam r h).fab = s.fab := by unfold State.modBeam; split <;> simp
@[simp] theorem State.modBeam_sys (s : State) (r : Ref) (h : Beam → Beam) : (s.modBeam r h).sys = s.sys := by unfold State.modBeam; split <;> simp

/-! ### `State.keepOld` and `State.hostPut` -/

@[simp] theorem State.keepOld_clock (s : State) (h : Bool) (a n : Nat) : (s.keepOld h a n).clock = s.clock := by unfold State.keepOld; split <;> rfl
@[simp] theorem State.keepOld_ftime (s : State) (h : Bool) (a n : Nat) : (s.keepOld h a n).ftime = s.ftime := by unfold State.keepOld; split <;> rfl
@[simp] theorem State.keepOld_free (s : State) (h : Bool) (a n : Nat) : (s.keepOld h a n).free = s.free := by unfold State.keepOld; split <;> rfl
@[simp] theorem State.keepOld_nextId (s : State) (h : Bool) (a n : Nat) : (s.keepOld h a n).nextId = s.nextId := by unfold State.keepOld; split <;> rfl
@[simp] theorem State.keepOld_cur (s : State) (h : Bool) (a n : Nat) : (s.keepOld h a n).cur = s.cur := by unfold State.keepOld; split <;> rfl
@[simp] theorem State.keepOld_spent (s : State) (h : Bool) (a n : Nat) : (s.keepOld h a n).spent = s.spent := by unfold State.keepOld; split <;> rfl
@[simp] theorem State.keepOld_agenda (s : State) (h : Bool) (a n : Nat) : (s.keepOld h a n).agenda = s.agenda := by unfold State.keepOld; split <;> rfl
@[simp] theorem State.keepOld_mem (s : State) (h : Bool) (a n : Nat) : (s.keepOld h a n).mem = s.mem := by unfold State.keepOld; split <;> rfl
@[simp] theorem State.keepOld_hostMem (s : State) (h : Bool) (a n : Nat) : (s.keepOld h a n).hostMem = s.hostMem := by unfold State.keepOld; split <;> rfl
@[simp] theorem State.keepOld_teams (s : State) (h : Bool) (a n : Nat) : (s.keepOld h a n).teams = s.teams := by unfold State.keepOld; split <;> rfl
@[simp] theorem State.keepOld_cores (s : State) (h : Bool) (a n : Nat) : (s.keepOld h a n).cores = s.cores := by unfold State.keepOld; split <;> rfl
@[simp] theorem State.keepOld_grids (s : State) (h : Bool) (a n : Nat) : (s.keepOld h a n).grids = s.grids := by unfold State.keepOld; split <;> rfl
@[simp] theorem State.keepOld_jobs (s : State) (h : Bool) (a n : Nat) : (s.keepOld h a n).jobs = s.jobs := by unfold State.keepOld; split <;> rfl
@[simp] theorem State.keepOld_work (s : State) (h : Bool) (a n : Nat) : (s.keepOld h a n).work = s.work := by unfold State.keepOld; split <;> rfl
@[simp] theorem State.keepOld_regs (s : State) (h : Bool) (a n : Nat) : (s.keepOld h a n).regs = s.regs := by unfold State.keepOld; split <;> rfl
@[simp] theorem State.keepOld_halo (s : State) (h : Bool) (a n : Nat) : (s.keepOld h a n).halo = s.halo := by unfold State.keepOld; split <;> rfl
@[simp] theorem State.keepOld_fab (s : State) (h : Bool) (a n : Nat) : (s.keepOld h a n).fab = s.fab := by unfold State.keepOld; split <;> rfl
@[simp] theorem State.keepOld_sys (s : State) (h : Bool) (a n : Nat) : (s.keepOld h a n).sys = s.sys := by unfold State.keepOld; split <;> rfl

@[simp] theorem State.hostPut_clock (s : State) (a : Nat) (l : List Byte) : (s.hostPut a l).clock = s.clock := by simp [State.hostPut]
@[simp] theorem State.hostPut_ftime (s : State) (a : Nat) (l : List Byte) : (s.hostPut a l).ftime = s.ftime := by simp [State.hostPut]
@[simp] theorem State.hostPut_free (s : State) (a : Nat) (l : List Byte) : (s.hostPut a l).free = s.free := by simp [State.hostPut]
@[simp] theorem State.hostPut_nextId (s : State) (a : Nat) (l : List Byte) : (s.hostPut a l).nextId = s.nextId := by simp [State.hostPut]
@[simp] theorem State.hostPut_cur (s : State) (a : Nat) (l : List Byte) : (s.hostPut a l).cur = s.cur := by simp [State.hostPut]
@[simp] theorem State.hostPut_spent (s : State) (a : Nat) (l : List Byte) : (s.hostPut a l).spent = s.spent := by simp [State.hostPut]
@[simp] theorem State.hostPut_agenda (s : State) (a : Nat) (l : List Byte) : (s.hostPut a l).agenda = s.agenda := by simp [State.hostPut]
@[simp] theorem State.hostPut_mem (s : State) (a : Nat) (l : List Byte) : (s.hostPut a l).mem = s.mem := by simp [State.hostPut]
@[simp] theorem State.hostPut_teams (s : State) (a : Nat) (l : List Byte) : (s.hostPut a l).teams = s.teams := by simp [State.hostPut]
@[simp] theorem State.hostPut_cores (s : State) (a : Nat) (l : List Byte) : (s.hostPut a l).cores = s.cores := by simp [State.hostPut]
@[simp] theorem State.hostPut_grids (s : State) (a : Nat) (l : List Byte) : (s.hostPut a l).grids = s.grids := by simp [State.hostPut]
@[simp] theorem State.hostPut_jobs (s : State) (a : Nat) (l : List Byte) : (s.hostPut a l).jobs = s.jobs := by simp [State.hostPut]
@[simp] theorem State.hostPut_work (s : State) (a : Nat) (l : List Byte) : (s.hostPut a l).work = s.work := by simp [State.hostPut]
@[simp] theorem State.hostPut_regs (s : State) (a : Nat) (l : List Byte) : (s.hostPut a l).regs = s.regs := by simp [State.hostPut]
@[simp] theorem State.hostPut_halo (s : State) (a : Nat) (l : List Byte) : (s.hostPut a l).halo = s.halo := by simp [State.hostPut]
@[simp] theorem State.hostPut_fab (s : State) (a : Nat) (l : List Byte) : (s.hostPut a l).fab = s.fab := by simp [State.hostPut]
@[simp] theorem State.hostPut_sys (s : State) (a : Nat) (l : List Byte) : (s.hostPut a l).sys = s.sys := by simp [State.hostPut]
@[simp] theorem State.hostPut_hostMem (s : State) (a : Nat) (l : List Byte) : (s.hostPut a l).hostMem = s.hostMem.writeBytes a l := rfl

/-! ### `Team.setBeam` -/

@[simp] theorem Team.setBeam_grid (T : Team) (k : Nat) (b : Beam) : (T.setBeam k b).grid = T.grid := rfl
@[simp] theorem Team.setBeam_index (T : Team) (k : Nat) (b : Beam) : (T.setBeam k b).index = T.index := rfl
@[simp] theorem Team.setBeam_life (T : Team) (k : Nat) (b : Beam) : (T.setBeam k b).life = T.life := rfl
@[simp] theorem Team.setBeam_since (T : Team) (k : Nat) (b : Beam) : (T.setBeam k b).since = T.since := rfl
@[simp] theorem Team.setBeam_savedAt (T : Team) (k : Nat) (b : Beam) : (T.setBeam k b).savedAt = T.savedAt := rfl
@[simp] theorem Team.setBeam_area (T : Team) (k : Nat) (b : Beam) : (T.setBeam k b).area = T.area := rfl
@[simp] theorem Team.setBeam_beams (T : Team) (k : Nat) (b : Beam) : (T.setBeam k b).beams = T.beams.set k b := rfl
@[simp] theorem Team.setBeam_scratch (T : Team) (k : Nat) (b : Beam) : (T.setBeam k b).scratch = T.scratch := rfl
@[simp] theorem Team.setBeam_acc (T : Team) (k : Nat) (b : Beam) : (T.setBeam k b).acc = T.acc := rfl
@[simp] theorem Team.setBeam_metam (T : Team) (k : Nat) (b : Beam) : (T.setBeam k b).metam = T.metam := rfl
@[simp] theorem Team.setBeam_tw (T : Team) (k : Nat) (b : Beam) : (T.setBeam k b).tw = T.tw := rfl
@[simp] theorem Team.setBeam_twq (T : Team) (k : Nat) (b : Beam) : (T.setBeam k b).twq = T.twq := rfl
@[simp] theorem Team.setBeam_bars (T : Team) (k : Nat) (b : Beam) : (T.setBeam k b).bars = T.bars := rfl
@[simp] theorem Team.setBeam_arrived (T : Team) (k : Nat) (b : Beam) : (T.setBeam k b).arrived = T.arrived := rfl
@[simp] theorem Team.setBeam_tiles (T : Team) (k : Nat) (b : Beam) : (T.setBeam k b).tiles = T.tiles := rfl
@[simp] theorem Team.setBeam_tileq (T : Team) (k : Nat) (b : Beam) : (T.setBeam k b).tileq = T.tileq := rfl
@[simp] theorem Team.setBeam_queues (T : Team) (k : Nat) (b : Beam) : (T.setBeam k b).queues = T.queues := rfl
@[simp] theorem Team.setBeam_commits (T : Team) (k : Nat) (b : Beam) : (T.setBeam k b).commits = T.commits := rfl
@[simp] theorem Team.setBeam_cancels (T : Team) (k : Nat) (b : Beam) : (T.setBeam k b).cancels = T.cancels := rfl
@[simp] theorem Team.setBeam_bad (T : Team) (k : Nat) (b : Beam) : (T.setBeam k b).bad = T.bad := rfl
@[simp] theorem Team.setBeam_nextH (T : Team) (k : Nat) (b : Beam) : (T.setBeam k b).nextH = T.nextH := rfl
@[simp] theorem Team.setBeam_stats (T : Team) (k : Nat) (b : Beam) : (T.setBeam k b).stats = T.stats := rfl
@[simp] theorem Team.setBeam_unseen (T : Team) (k : Nat) (b : Beam) : (T.setBeam k b).unseen = T.unseen := rfl
@[simp] theorem Team.setBeam_boards (T : Team) (k : Nat) (b : Beam) : (T.setBeam k b).boards = T.boards := rfl
@[simp] theorem Team.setBeam_prism (T : Team) (k : Nat) (b : Beam) : (T.setBeam k b).prism = T.prism := rfl
@[simp] theorem Team.setBeam_handler (T : Team) (k : Nat) (b : Beam) : (T.setBeam k b).handler = T.handler := rfl
@[simp] theorem Team.setBeam_stopped (T : Team) (k : Nat) (b : Beam) : (T.setBeam k b).stopped = T.stopped := rfl
@[simp] theorem Team.setBeam_entries (T : Team) (k : Nat) (b : Beam) : (T.setBeam k b).entries = T.entries := rfl

/-! ### Lookups after updates -/

@[simp] theorem State.team?_setTeam (s : State) (t : Nat) (T : Team) : (s.setTeam t T).team? t = some T :=
  aget_aset_same s.teams t T

theorem State.team?_setTeam_other (s : State) {t k : Nat} (T : Team) (h : k ≠ t) : (s.setTeam t T).team? k = s.team? k :=
  aget_aset_other s.teams T h

@[simp] theorem State.grid?_setTeam (s : State) (t g : Nat) (T : Team) : (s.setTeam t T).grid? g = s.grid? g := rfl

@[simp] theorem State.grid?_setGrid (s : State) (g : Nat) (G : Grid) : (s.setGrid g G).grid? g = some G :=
  aget_aset_same s.grids g G

@[simp] theorem State.func_setFunc (s : State) (f : Nat) (F : Func) : (s.setFunc f F).func f = F := by
  simp [State.func]

theorem State.func_setFunc_other (s : State) {f k : Nat} (F : Func) (h : k ≠ f) : (s.setFunc f F).func k = s.func k := by
  simp [State.func, aget_aset_other _ _ h]

@[simp] theorem State.core_setCore (s : State) (c : Nat) (C : Core) : (s.setCore c C).core c = C := by
  simp [State.core]

@[simp] theorem State.chan_setChan (s : State) (c : Nat) (C : Chan) : (s.setChan c C).chan c = C := by
  simp [State.chan]

@[simp] theorem State.link_setLink (s : State) (l : Nat) (L : Link) : (s.setLink l L).link l = L := by
  simp [State.link]

theorem State.link_setLink_other (s : State) {l k : Nat} (L : Link) (h : k ≠ l) : (s.setLink l L).link k = s.link k := by
  simp [State.link, aget_aset_other _ _ h]

/-- The beam that was put is the beam that is found. -/
theorem State.beam?_setBeam (s : State) (r : Ref) {T : Team} {b c : Beam} (hT : s.team? r.t = some T) (hb : T.beams[r.b]? = some b) :
    (s.setBeam r c).beam? r = some c ∧ (s.setBeam r c).team? r.t = some (T.setBeam r.b c) := by
  have hlt : r.b < T.beams.length := by
    obtain ⟨h, -⟩ := List.getElem?_eq_some_iff.mp hb
    exact h
  have ht : (s.setBeam r c).team? r.t = some (T.setBeam r.b c) := by simp [State.setBeam, hT]
  refine ⟨?_, ht⟩
  simp [State.beam?, ht, hlt]

/-- A beam's update, where the state holds the beam: its team holds the new beam, and nothing else changes. -/
theorem State.modBeam_eq (s : State) (r : Ref) {T : Team} {b : Beam} (f : Beam → Beam) (hT : s.team? r.t = some T)
    (hb : T.beams[r.b]? = some b) : s.modBeam r f = s.setTeam r.t (T.setBeam r.b (f b)) := by
  simp [State.modBeam, State.beam?, State.setBeam, hT, hb]

/-- A beam's update leaves every other team. -/
theorem State.team?_modBeam_other (s : State) (r : Ref) (f : Beam → Beam) {k : Nat} (h : k ≠ r.t) :
    (s.modBeam r f).team? k = s.team? k := by
  unfold State.modBeam
  split
  · rfl
  · unfold State.setBeam
    split
    · rfl
    · exact State.team?_setTeam_other s _ h

end Sys2Proof.Machine
end

