-- ==== Sys2Proof/Laws/Issue.lean ====
section
/-! SUPPORT. What issuing can do, said once: the answers of `Issue.base` and `Issue.ext` when an instruction issues, when it is
held, and when a check at issue traps. -/

namespace Sys2Proof.Machine

/-! ### Last-page registers cleared (R124): every other field stays -/

@[simp] theorem State.dropPages_clock (s : State) (r : Ref) (ls : List Nat) : (s.dropPages r ls).clock = s.clock := by
  unfold State.dropPages; split <;> rfl
@[simp] theorem State.dropPages_ftime (s : State) (r : Ref) (ls : List Nat) : (s.dropPages r ls).ftime = s.ftime := by
  unfold State.dropPages; split <;> rfl
@[simp] theorem State.dropPages_free (s : State) (r : Ref) (ls : List Nat) : (s.dropPages r ls).free = s.free := by
  unfold State.dropPages; split <;> rfl
@[simp] theorem State.dropPages_nextId (s : State) (r : Ref) (ls : List Nat) : (s.dropPages r ls).nextId = s.nextId := by
  unfold State.dropPages; split <;> rfl
@[simp] theorem State.dropPages_cur (s : State) (r : Ref) (ls : List Nat) : (s.dropPages r ls).cur = s.cur := by
  unfold State.dropPages; split <;> rfl
@[simp] theorem State.dropPages_agenda (s : State) (r : Ref) (ls : List Nat) : (s.dropPages r ls).agenda = s.agenda := by
  unfold State.dropPages; split <;> rfl
@[simp] theorem State.dropPages_mem (s : State) (r : Ref) (ls : List Nat) : (s.dropPages r ls).mem = s.mem := by
  unfold State.dropPages; split <;> rfl
@[simp] theorem State.dropPages_hostMem (s : State) (r : Ref) (ls : List Nat) : (s.dropPages r ls).hostMem = s.hostMem := by
  unfold State.dropPages; split <;> rfl
@[simp] theorem State.dropPages_teams (s : State) (r : Ref) (ls : List Nat) : (s.dropPages r ls).teams = s.teams := by
  unfold State.dropPages; split <;> rfl
@[simp] theorem State.dropPages_cores (s : State) (r : Ref) (ls : List Nat) : (s.dropPages r ls).cores = s.cores := by
  unfold State.dropPages; split <;> rfl
@[simp] theorem State.dropPages_grids (s : State) (r : Ref) (ls : List Nat) : (s.dropPages r ls).grids = s.grids := by
  unfold State.dropPages; split <;> rfl
@[simp] theorem State.dropPages_jobs (s : State) (r : Ref) (ls : List Nat) : (s.dropPages r ls).jobs = s.jobs := by
  unfold State.dropPages; split <;> rfl
@[simp] theorem State.dropPages_work (s : State) (r : Ref) (ls : List Nat) : (s.dropPages r ls).work = s.work := by
  unfold State.dropPages; split <;> rfl
@[simp] theorem State.dropPages_regs (s : State) (r : Ref) (ls : List Nat) : (s.dropPages r ls).regs = s.regs := by
  unfold State.dropPages; split <;> rfl
@[simp] theorem State.dropPages_halo (s : State) (r : Ref) (ls : List Nat) : (s.dropPages r ls).halo = s.halo := by
  unfold State.dropPages; split <;> rfl
@[simp] theorem State.dropPages_fab (s : State) (r : Ref) (ls : List Nat) : (s.dropPages r ls).fab = s.fab := by
  unfold State.dropPages; split <;> rfl
@[simp] theorem State.dropPages_sys (s : State) (r : Ref) (ls : List Nat) : (s.dropPages r ls).sys = s.sys := by
  unfold State.dropPages; split <;> rfl

/-- No lane's `%tenant` is written: nothing is cleared. -/
@[simp] theorem State.dropPages_nil (s : State) (r : Ref) : s.dropPages r [] = s := rfl

/-- What an instruction's body answers, as an outcome of the step. -/
def Res.outcome (e : Env) (s1 : State) (x : Res) : Host.Outcome State Fault Refusal :=
  match x with
  | .done s' => .next (Issue.finish e s' none)
  | .jump s' pc => .next (Issue.finish e s' (some pc))
  | .trap c arg epc pix info => .next (Issue.trap (Issue.issued s1 e.r e.next) e.r c arg epc pix info)
  | .remote info peer => .next (Issue.trapRemote (Issue.issued s1 e.r e.next) e.r info peer)
  | .late s' c pix info => .next (Issue.trap (Issue.issued s' e.r e.next) e.r c 0 none pix info)
  | .hold => .next (Issue.heldUntil s1 e.r (s1.clock + 1))
  | .wait s' => .next s'

theorem Res.outcome_done (e : Env) (s1 s' : State) : Res.outcome e s1 (.done s') = .next (Issue.finish e s' none) := rfl
theorem Res.outcome_jump (e : Env) (s1 s' : State) (pc : Dword) :
    Res.outcome e s1 (.jump s' pc) = .next (Issue.finish e s' (some pc)) := rfl
theorem Res.outcome_trap (e : Env) (s1 : State) (c a : Nat) (p : Option Dword) (x : Option Nat) (n : Nat) :
    Res.outcome e s1 (.trap c a p x n) = .next (Issue.trap (Issue.issued s1 e.r e.next) e.r c a p x n) := rfl
theorem Res.outcome_remote (e : Env) (s1 : State) (n p : Nat) :
    Res.outcome e s1 (.remote n p) = .next (Issue.trapRemote (Issue.issued s1 e.r e.next) e.r n p) := rfl
theorem Res.outcome_late (e : Env) (s1 s' : State) (c : Nat) (x : Option Nat) (n : Nat) :
    Res.outcome e s1 (.late s' c x n) = .next (Issue.trap (Issue.issued s' e.r e.next) e.r c 0 none x n) := rfl
theorem Res.outcome_hold (e : Env) (s1 : State) :
    Res.outcome e s1 .hold = .next (Issue.heldUntil s1 e.r (s1.clock + 1)) := rfl
theorem Res.outcome_wait (e : Env) (s1 s' : State) : Res.outcome e s1 (.wait s') = .next s' := rfl

/-- Every attempt to issue answers a next state, unless no beam is selected. -/
theorem Issue.conclude_go (e : Env) (s1 : State) (body : Env → State → Res) :
    Issue.conclude (.go e s1) body = (body e s1).outcome e s1 := by
  cases h : body e s1 <;> simp only [Issue.conclude, Res.outcome, h]

/-- What `Issue.start` selects for an instruction that the selected beam tries. -/
theorem Attempts.select {i : Instr} {s s1 : State} {e : Env} (h : Attempts i s e s1) :
    Issue.select s = some (e.r, e.T, e.b, s1) := by
  obtain ⟨-, -, hc, hT, hb, -, rfl⟩ := h
  rw [Option.map_eq_some_iff] at hT
  obtain ⟨T0, h0, hT⟩ := hT
  have hd : s.dueTenants e.r = (T0.beams[e.r.b]?).elim [] fun b => tenantLanes b.fix s.clock := by
    simp only [State.dueTenants, State.beam?, h0]
  simp only [Issue.select, hc, h0, hT, hb, hd]

/-- What the attempt of an instruction begins with, whichever form it has. -/
def startOf (i : Instr) (s : State) : Start := Issue.start s (numberOf i) (xsig (numberOf i)) (lengthOf i) (fieldsOf i)

theorem startOf_base {i : Instr} {op : Nat} {o : BaseOps} (s : State) (h : i.form = .base op o) :
    startOf i s = Issue.start s op (xsig op) (baseBytes o) (fun b => b.baseExt op o) := by
  have : fieldsOf i = fun b => b.baseExt op o := by funext b; simp only [fieldsOf, h]
  simp only [startOf, numberOf, lengthOf, this, h]

theorem startOf_ext {i : Instr} {n : Nat} {x : Ext} (s : State) (h : i.form = .ext n x) :
    startOf i s = Issue.start s n (xsig n) x.bytes (fun _ => x) := by
  have : fieldsOf i = fun _ => x := by funext b; simp only [fieldsOf, h]
  simp only [startOf, numberOf, lengthOf, this, h]

/-- The five answers of `Issue.start` on an instruction that the selected beam tries. -/
theorem Attempts.start {i : Instr} {s s1 : State} {e : Env} (h : Attempts i s e s1) :
    startOf i s =
      if s1.mayIssue e.T e.b e.r.b = false ∨ e.b.blocked e.g e.x = true then .hold (Issue.heldUntil s1 e.r (s1.clock + 1))
      else if inBudget e.g e.x e.b.budget = false then .trap e s1 cREGBOUND
      else if e.b.chk = 1 ∧ e.b.hazard e.g e.x s1.clock ((fixedLat e.n).map (s1.clock + 4 * e.far + ·)) = true then
        .trap e s1 cSTALLSHORT
      else if e.T.badRegs e.r.b e.b (readNames e.g e.x) then .trap e s1 cPOISONOWN
      else .go e s1 := by
  have hs := h.select
  obtain ⟨-, -, -, -, -, hv, hs1⟩ := h
  have hck : s1.clock = s.clock := by rw [hs1]; simp
  simp only [startOf, Issue.start, hs]
  rw [hv, hck]
  rfl

/-- An instruction that issues starts. -/
theorem Issues.start {i : Instr} {s s1 : State} {e : Env} (h : Issues i s e s1) : startOf i s = .go e s1 := by
  obtain ⟨ha, ⟨hm, hb⟩, hg, hz, hr⟩ := h
  have hck : e.now = s1.clock := by
    obtain ⟨-, -, -, -, -, hv, hs1⟩ := ha
    rw [hv, hs1]; simp [viewOf]
  rw [ha.start]
  unfold Env.inBudget at hg
  unfold Env.sound at hr
  rw [if_neg (by simp [hm, hb]), if_neg (by simp [hg]), if_neg, if_neg (by simp [hr])]
  rintro ⟨hc, hh⟩
  have := hz hc
  rw [hck] at this
  rw [this] at hh
  exact Bool.noConfusion hh

/-- A base instruction that issues answers what its body answers. -/
theorem Issues.base {i : Instr} {s s1 : State} {e : Env} {op : Nat} {o : BaseOps} (h : Issues i s e s1)
    (hf : i.form = .base op o) (body : Env → State → Res) : Issue.base op o body s = (body e s1).outcome e s1 := by
  rw [Issue.base, ← startOf_base s hf, h.start, Issue.conclude_go]

/-- An extended instruction that issues answers what its body answers. -/
theorem Issues.ext {i : Instr} {s s1 : State} {e : Env} {n : Nat} {x : Ext} (h : Issues i s e s1)
    (hf : i.form = .ext n x) (body : Env → State → Res) : Issue.ext n x body s = (body e s1).outcome e s1 := by
  rw [Issue.ext, ← startOf_ext s hf, h.start, Issue.conclude_go]

end Sys2Proof.Machine
end

