-- ==== Sys2Proof/Laws/Coded.lean ====
section
/-! SUPPORT. Every instruction with an encoding is issued one way; the case split over their constructors is made here, once. -/

namespace Sys2Proof.Machine

/-- A base instruction is issued by `Issue.conclude`. -/
theorem Issue.base_eq {op o s} {body : Env → State → Res} {i : Instr} (h : i.form = .base op o) : Issue.base op o body s = Issue.conclude (startOf i s) body := by
  rw [startOf_base s h]; rfl
/-- An extended instruction is issued by `Issue.conclude`. -/
theorem Issue.ext_eq {n x s} {body : Env → State → Res} {i : Instr} (h : i.form = .ext n x) : Issue.ext n x body s = Issue.conclude (startOf i s) body := by
  rw [startOf_ext s h]; rfl
/-- Every coded instruction is issued one way: the checks of `Issue.start`, then its own body. -/
theorem exec_coded (i : Instr) (h : isCoded i = true) : ∃ body, ∀ s, exec i s = Issue.conclude (startOf i s) body := by
  cases i with
  | nop o => exact ⟨_, fun s => (show execNop o s = _ from Issue.base_eq rfl)⟩
  | nopX x => exact ⟨_, fun s => (show execNopX x s = _ from Issue.ext_eq rfl)⟩
  | mov o => exact ⟨_, fun s => (show execMov o s = _ from Issue.base_eq rfl)⟩
  | movX x => exact ⟨_, fun s => (show execMovX x s = _ from Issue.ext_eq rfl)⟩
  | add o => exact ⟨_, fun s => (show execAdd o s = _ from Issue.base_eq rfl)⟩
  | addX x => exact ⟨_, fun s => (show execAddX x s = _ from Issue.ext_eq rfl)⟩
  | sub o => exact ⟨_, fun s => (show execSub o s = _ from Issue.base_eq rfl)⟩
  | subX x => exact ⟨_, fun s => (show execSubX x s = _ from Issue.ext_eq rfl)⟩
  | mul o => exact ⟨_, fun s => (show execMul o s = _ from Issue.base_eq rfl)⟩
  | mulX x => exact ⟨_, fun s => (show execMulX x s = _ from Issue.ext_eq rfl)⟩
  | and o => exact ⟨_, fun s => (show execAnd o s = _ from Issue.base_eq rfl)⟩
  | andX x => exact ⟨_, fun s => (show execAndX x s = _ from Issue.ext_eq rfl)⟩
  | or o => exact ⟨_, fun s => (show execOr o s = _ from Issue.base_eq rfl)⟩
  | orX x => exact ⟨_, fun s => (show execOrX x s = _ from Issue.ext_eq rfl)⟩
  | xor o => exact ⟨_, fun s => (show execXor o s = _ from Issue.base_eq rfl)⟩
  | xorX x => exact ⟨_, fun s => (show execXorX x s = _ from Issue.ext_eq rfl)⟩
  | shl o => exact ⟨_, fun s => (show execShl o s = _ from Issue.base_eq rfl)⟩
  | shlX x => exact ⟨_, fun s => (show execShlX x s = _ from Issue.ext_eq rfl)⟩
  | shr o => exact ⟨_, fun s => (show execShr o s = _ from Issue.base_eq rfl)⟩
  | shrX x => exact ⟨_, fun s => (show execShrX x s = _ from Issue.ext_eq rfl)⟩
  | sar o => exact ⟨_, fun s => (show execSar o s = _ from Issue.base_eq rfl)⟩
  | sarX x => exact ⟨_, fun s => (show execSarX x s = _ from Issue.ext_eq rfl)⟩
  | min o => exact ⟨_, fun s => (show execMin o s = _ from Issue.base_eq rfl)⟩
  | minX x => exact ⟨_, fun s => (show execMinX x s = _ from Issue.ext_eq rfl)⟩
  | max o => exact ⟨_, fun s => (show execMax o s = _ from Issue.base_eq rfl)⟩
  | maxX x => exact ⟨_, fun s => (show execMaxX x s = _ from Issue.ext_eq rfl)⟩
  | minu o => exact ⟨_, fun s => (show execMinu o s = _ from Issue.base_eq rfl)⟩
  | minuX x => exact ⟨_, fun s => (show execMinuX x s = _ from Issue.ext_eq rfl)⟩
  | maxu o => exact ⟨_, fun s => (show execMaxu o s = _ from Issue.base_eq rfl)⟩
  | maxuX x => exact ⟨_, fun s => (show execMaxuX x s = _ from Issue.ext_eq rfl)⟩
  | andn o => exact ⟨_, fun s => (show execAndn o s = _ from Issue.base_eq rfl)⟩
  | andnX x => exact ⟨_, fun s => (show execAndnX x s = _ from Issue.ext_eq rfl)⟩
  | addi o => exact ⟨_, fun s => (show execAddi o s = _ from Issue.base_eq rfl)⟩
  | addiX x => exact ⟨_, fun s => (show execAddiX x s = _ from Issue.ext_eq rfl)⟩
  | shli o => exact ⟨_, fun s => (show execShli o s = _ from Issue.base_eq rfl)⟩
  | shliX x => exact ⟨_, fun s => (show execShliX x s = _ from Issue.ext_eq rfl)⟩
  | shri o => exact ⟨_, fun s => (show execShri o s = _ from Issue.base_eq rfl)⟩
  | shriX x => exact ⟨_, fun s => (show execShriX x s = _ from Issue.ext_eq rfl)⟩
  | sari o => exact ⟨_, fun s => (show execSari o s = _ from Issue.base_eq rfl)⟩
  | sariX x => exact ⟨_, fun s => (show execSariX x s = _ from Issue.ext_eq rfl)⟩
  | andi o => exact ⟨_, fun s => (show execAndi o s = _ from Issue.base_eq rfl)⟩
  | andiX x => exact ⟨_, fun s => (show execAndiX x s = _ from Issue.ext_eq rfl)⟩
  | ceq o => exact ⟨_, fun s => (show execCeq o s = _ from Issue.base_eq rfl)⟩
  | ceqX x => exact ⟨_, fun s => (show execCeqX x s = _ from Issue.ext_eq rfl)⟩
  | cne o => exact ⟨_, fun s => (show execCne o s = _ from Issue.base_eq rfl)⟩
  | cneX x => exact ⟨_, fun s => (show execCneX x s = _ from Issue.ext_eq rfl)⟩
  | clt o => exact ⟨_, fun s => (show execClt o s = _ from Issue.base_eq rfl)⟩
  | cltX x => exact ⟨_, fun s => (show execCltX x s = _ from Issue.ext_eq rfl)⟩
  | cle o => exact ⟨_, fun s => (show execCle o s = _ from Issue.base_eq rfl)⟩
  | cleX x => exact ⟨_, fun s => (show execCleX x s = _ from Issue.ext_eq rfl)⟩
  | cltu o => exact ⟨_, fun s => (show execCltu o s = _ from Issue.base_eq rfl)⟩
  | cltuX x => exact ⟨_, fun s => (show execCltuX x s = _ from Issue.ext_eq rfl)⟩
  | cleu o => exact ⟨_, fun s => (show execCleu o s = _ from Issue.base_eq rfl)⟩
  | cleuX x => exact ⟨_, fun s => (show execCleuX x s = _ from Issue.ext_eq rfl)⟩
  | sel o => exact ⟨_, fun s => (show execSel o s = _ from Issue.base_eq rfl)⟩
  | selX x => exact ⟨_, fun s => (show execSelX x s = _ from Issue.ext_eq rfl)⟩
  | fadd o => exact ⟨_, fun s => (show execFadd o s = _ from Issue.base_eq rfl)⟩
  | faddX x => exact ⟨_, fun s => (show execFaddX x s = _ from Issue.ext_eq rfl)⟩
  | fsub o => exact ⟨_, fun s => (show execFsub o s = _ from Issue.base_eq rfl)⟩
  | fsubX x => exact ⟨_, fun s => (show execFsubX x s = _ from Issue.ext_eq rfl)⟩
  | fmul o => exact ⟨_, fun s => (show execFmul o s = _ from Issue.base_eq rfl)⟩
  | fmulX x => exact ⟨_, fun s => (show execFmulX x s = _ from Issue.ext_eq rfl)⟩
  | fmac o => exact ⟨_, fun s => (show execFmac o s = _ from Issue.base_eq rfl)⟩
  | fmacX x => exact ⟨_, fun s => (show execFmacX x s = _ from Issue.ext_eq rfl)⟩
  | fmin o => exact ⟨_, fun s => (show execFmin o s = _ from Issue.base_eq rfl)⟩
  | fminX x => exact ⟨_, fun s => (show execFminX x s = _ from Issue.ext_eq rfl)⟩
  | fmax o => exact ⟨_, fun s => (show execFmax o s = _ from Issue.base_eq rfl)⟩
  | fmaxX x => exact ⟨_, fun s => (show execFmaxX x s = _ from Issue.ext_eq rfl)⟩
  | fceq o => exact ⟨_, fun s => (show execFceq o s = _ from Issue.base_eq rfl)⟩
  | fceqX x => exact ⟨_, fun s => (show execFceqX x s = _ from Issue.ext_eq rfl)⟩
  | fclt o => exact ⟨_, fun s => (show execFclt o s = _ from Issue.base_eq rfl)⟩
  | fcltX x => exact ⟨_, fun s => (show execFcltX x s = _ from Issue.ext_eq rfl)⟩
  | fcle o => exact ⟨_, fun s => (show execFcle o s = _ from Issue.base_eq rfl)⟩
  | fcleX x => exact ⟨_, fun s => (show execFcleX x s = _ from Issue.ext_eq rfl)⟩
  | hadd o => exact ⟨_, fun s => (show execHadd o s = _ from Issue.base_eq rfl)⟩
  | haddX x => exact ⟨_, fun s => (show execHaddX x s = _ from Issue.ext_eq rfl)⟩
  | hmul o => exact ⟨_, fun s => (show execHmul o s = _ from Issue.base_eq rfl)⟩
  | hmulX x => exact ⟨_, fun s => (show execHmulX x s = _ from Issue.ext_eq rfl)⟩
  | hmac o => exact ⟨_, fun s => (show execHmac o s = _ from Issue.base_eq rfl)⟩
  | hmacX x => exact ⟨_, fun s => (show execHmacX x s = _ from Issue.ext_eq rfl)⟩
  | badd o => exact ⟨_, fun s => (show execBadd o s = _ from Issue.base_eq rfl)⟩
  | baddX x => exact ⟨_, fun s => (show execBaddX x s = _ from Issue.ext_eq rfl)⟩
  | bmul o => exact ⟨_, fun s => (show execBmul o s = _ from Issue.base_eq rfl)⟩
  | bmulX x => exact ⟨_, fun s => (show execBmulX x s = _ from Issue.ext_eq rfl)⟩
  | bmac o => exact ⟨_, fun s => (show execBmac o s = _ from Issue.base_eq rfl)⟩
  | bmacX x => exact ⟨_, fun s => (show execBmacX x s = _ from Issue.ext_eq rfl)⟩
  | shfl o => exact ⟨_, fun s => (show execShfl o s = _ from Issue.base_eq rfl)⟩
  | shflX x => exact ⟨_, fun s => (show execShflX x s = _ from Issue.ext_eq rfl)⟩
  | shflx o => exact ⟨_, fun s => (show execShflx o s = _ from Issue.base_eq rfl)⟩
  | shflxX x => exact ⟨_, fun s => (show execShflxX x s = _ from Issue.ext_eq rfl)⟩
  | ldsw o => exact ⟨_, fun s => (show execLdsw o s = _ from Issue.base_eq rfl)⟩
  | ldswX x => exact ⟨_, fun s => (show execLdswX x s = _ from Issue.ext_eq rfl)⟩
  | stsw o => exact ⟨_, fun s => (show execStsw o s = _ from Issue.base_eq rfl)⟩
  | stswX x => exact ⟨_, fun s => (show execStswX x s = _ from Issue.ext_eq rfl)⟩
  | twrd o => exact ⟨_, fun s => (show execTwrd o s = _ from Issue.base_eq rfl)⟩
  | twrdX x => exact ⟨_, fun s => (show execTwrdX x s = _ from Issue.ext_eq rfl)⟩
  | twwr o => exact ⟨_, fun s => (show execTwwr o s = _ from Issue.base_eq rfl)⟩
  | twwrX x => exact ⟨_, fun s => (show execTwwrX x s = _ from Issue.ext_eq rfl)⟩
  | bra o => exact ⟨_, fun s => (show execBra o s = _ from Issue.base_eq rfl)⟩
  | braX x => exact ⟨_, fun s => (show execBraX x s = _ from Issue.ext_eq rfl)⟩
  | brany o => exact ⟨_, fun s => (show execBrany o s = _ from Issue.base_eq rfl)⟩
  | branyX x => exact ⟨_, fun s => (show execBranyX x s = _ from Issue.ext_eq rfl)⟩
  | brall o => exact ⟨_, fun s => (show execBrall o s = _ from Issue.base_eq rfl)⟩
  | brallX x => exact ⟨_, fun s => (show execBrallX x s = _ from Issue.ext_eq rfl)⟩
  | brnone o => exact ⟨_, fun s => (show execBrnone o s = _ from Issue.base_eq rfl)⟩
  | brnoneX x => exact ⟨_, fun s => (show execBrnoneX x s = _ from Issue.ext_eq rfl)⟩
  | exit o => exact ⟨_, fun s => (show execExit o s = _ from Issue.base_eq rfl)⟩
  | exitX x => exact ⟨_, fun s => (show execExitX x s = _ from Issue.ext_eq rfl)⟩
  | bar o => exact ⟨_, fun s => (show execBar o s = _ from Issue.base_eq rfl)⟩
  | barX x => exact ⟨_, fun s => (show execBarX x s = _ from Issue.ext_eq rfl)⟩
  | maskp o => exact ⟨_, fun s => (show execMaskp o s = _ from Issue.base_eq rfl)⟩
  | maskpX x => exact ⟨_, fun s => (show execMaskpX x s = _ from Issue.ext_eq rfl)⟩
  | getm o => exact ⟨_, fun s => (show execGetm o s = _ from Issue.base_eq rfl)⟩
  | getmX x => exact ⟨_, fun s => (show execGetmX x s = _ from Issue.ext_eq rfl)⟩
  | setm o => exact ⟨_, fun s => (show execSetm o s = _ from Issue.base_eq rfl)⟩
  | setmX x => exact ⟨_, fun s => (show execSetmX x s = _ from Issue.ext_eq rfl)⟩
  | radd o => exact ⟨_, fun s => (show execRadd o s = _ from Issue.base_eq rfl)⟩
  | raddX x => exact ⟨_, fun s => (show execRaddX x s = _ from Issue.ext_eq rfl)⟩
  | rmax o => exact ⟨_, fun s => (show execRmax o s = _ from Issue.base_eq rfl)⟩
  | rmaxX x => exact ⟨_, fun s => (show execRmaxX x s = _ from Issue.ext_eq rfl)⟩
  | mad o => exact ⟨_, fun s => (show execMad o s = _ from Issue.base_eq rfl)⟩
  | madX x => exact ⟨_, fun s => (show execMadX x s = _ from Issue.ext_eq rfl)⟩
  | popc o => exact ⟨_, fun s => (show execPopc o s = _ from Issue.base_eq rfl)⟩
  | popcX x => exact ⟨_, fun s => (show execPopcX x s = _ from Issue.ext_eq rfl)⟩
  | clz o => exact ⟨_, fun s => (show execClz o s = _ from Issue.base_eq rfl)⟩
  | clzX x => exact ⟨_, fun s => (show execClzX x s = _ from Issue.ext_eq rfl)⟩
  | call x => exact ⟨_, fun s => (show execCall x s = _ from Issue.ext_eq rfl)⟩
  | callr x => exact ⟨_, fun s => (show execCallr x s = _ from Issue.ext_eq rfl)⟩
  | ret x => exact ⟨_, fun s => (show execRet x s = _ from Issue.ext_eq rfl)⟩
  | jmpr x => exact ⟨_, fun s => (show execJmpr x s = _ from Issue.ext_eq rfl)⟩
  | yield x => exact ⟨_, fun s => (show execYield x s = _ from Issue.ext_eq rfl)⟩
  | yieldj x => exact ⟨_, fun s => (show execYieldj x s = _ from Issue.ext_eq rfl)⟩
  | region x => exact ⟨_, fun s => (show execRegion x s = _ from Issue.ext_eq rfl)⟩
  | mcall x => exact ⟨_, fun s => (show execMcall x s = _ from Issue.ext_eq rfl)⟩
  | barn x => exact ⟨_, fun s => (show execBarn x s = _ from Issue.ext_eq rfl)⟩
  | arrive x => exact ⟨_, fun s => (show execArrive x s = _ from Issue.ext_eq rfl)⟩
  | waitb x => exact ⟨_, fun s => (show execWaitb x s = _ from Issue.ext_eq rfl)⟩
  | twadd x => exact ⟨_, fun s => (show execTwadd x s = _ from Issue.ext_eq rfl)⟩
  | twcas x => exact ⟨_, fun s => (show execTwcas x s = _ from Issue.ext_eq rfl)⟩
  | srd x => exact ⟨_, fun s => (show execSrd x s = _ from Issue.ext_eq rfl)⟩
  | swr x => exact ⟨_, fun s => (show execSwr x s = _ from Issue.ext_eq rfl)⟩
  | trap x => exact ⟨_, fun s => (show execTrap x s = _ from Issue.ext_eq rfl)⟩
  | eret x => exact ⟨_, fun s => (show execEret x s = _ from Issue.ext_eq rfl)⟩
  | brk x => exact ⟨_, fun s => (show execBrk x s = _ from Issue.ext_eq rfl)⟩
  | mulhi x => exact ⟨_, fun s => (show execMulhi x s = _ from Issue.ext_eq rfl)⟩
  | mulhiu x => exact ⟨_, fun s => (show execMulhiu x s = _ from Issue.ext_eq rfl)⟩
  | addp x => exact ⟨_, fun s => (show execAddp x s = _ from Issue.ext_eq rfl)⟩
  | subp x => exact ⟨_, fun s => (show execSubp x s = _ from Issue.ext_eq rfl)⟩
  | mulp x => exact ⟨_, fun s => (show execMulp x s = _ from Issue.ext_eq rfl)⟩
  | lea x => exact ⟨_, fun s => (show execLea x s = _ from Issue.ext_eq rfl)⟩
  | abs x => exact ⟨_, fun s => (show execAbs x s = _ from Issue.ext_eq rfl)⟩
  | rol x => exact ⟨_, fun s => (show execRol x s = _ from Issue.ext_eq rfl)⟩
  | ror x => exact ⟨_, fun s => (show execRor x s = _ from Issue.ext_eq rfl)⟩
  | ctz x => exact ⟨_, fun s => (show execCtz x s = _ from Issue.ext_eq rfl)⟩
  | brev x => exact ⟨_, fun s => (show execBrev x s = _ from Issue.ext_eq rfl)⟩
  | bfx x => exact ⟨_, fun s => (show execBfx x s = _ from Issue.ext_eq rfl)⟩
  | bfxu x => exact ⟨_, fun s => (show execBfxu x s = _ from Issue.ext_eq rfl)⟩
  | bfi x => exact ⟨_, fun s => (show execBfi x s = _ from Issue.ext_eq rfl)⟩
  | divs x => exact ⟨_, fun s => (show execDivs x s = _ from Issue.ext_eq rfl)⟩
  | divu x => exact ⟨_, fun s => (show execDivu x s = _ from Issue.ext_eq rfl)⟩
  | rems x => exact ⟨_, fun s => (show execRems x s = _ from Issue.ext_eq rfl)⟩
  | remu x => exact ⟨_, fun s => (show execRemu x s = _ from Issue.ext_eq rfl)⟩
  | shflu x => exact ⟨_, fun s => (show execShflu x s = _ from Issue.ext_eq rfl)⟩
  | shfld x => exact ⟨_, fun s => (show execShfld x s = _ from Issue.ext_eq rfl)⟩
  | vote x => exact ⟨_, fun s => (show execVote x s = _ from Issue.ext_eq rfl)⟩
  | matchLanes x => exact ⟨_, fun s => (show execMatchLanes x s = _ from Issue.ext_eq rfl)⟩
  | rmin x => exact ⟨_, fun s => (show execRmin x s = _ from Issue.ext_eq rfl)⟩
  | rminu x => exact ⟨_, fun s => (show execRminu x s = _ from Issue.ext_eq rfl)⟩
  | rmaxu x => exact ⟨_, fun s => (show execRmaxu x s = _ from Issue.ext_eq rfl)⟩
  | scan x => exact ⟨_, fun s => (show execScan x s = _ from Issue.ext_eq rfl)⟩
  | xchg x => exact ⟨_, fun s => (show execXchg x s = _ from Issue.ext_eq rfl)⟩
  | rng x => exact ⟨_, fun s => (show execRng x s = _ from Issue.ext_eq rfl)⟩
  | shlp x => exact ⟨_, fun s => (show execShlp x s = _ from Issue.ext_eq rfl)⟩
  | shrp x => exact ⟨_, fun s => (show execShrp x s = _ from Issue.ext_eq rfl)⟩
  | sarp x => exact ⟨_, fun s => (show execSarp x s = _ from Issue.ext_eq rfl)⟩
  | ceqp x => exact ⟨_, fun s => (show execCeqp x s = _ from Issue.ext_eq rfl)⟩
  | cltp x => exact ⟨_, fun s => (show execCltp x s = _ from Issue.ext_eq rfl)⟩
  | cltup x => exact ⟨_, fun s => (show execCltup x s = _ from Issue.ext_eq rfl)⟩
  | ffma x => exact ⟨_, fun s => (show execFfma x s = _ from Issue.ext_eq rfl)⟩
  | fnms x => exact ⟨_, fun s => (show execFnms x s = _ from Issue.ext_eq rfl)⟩
  | fabs x => exact ⟨_, fun s => (show execFabs x s = _ from Issue.ext_eq rfl)⟩
  | fneg x => exact ⟨_, fun s => (show execFneg x s = _ from Issue.ext_eq rfl)⟩
  | fminn x => exact ⟨_, fun s => (show execFminn x s = _ from Issue.ext_eq rfl)⟩
  | fmaxn x => exact ⟨_, fun s => (show execFmaxn x s = _ from Issue.ext_eq rfl)⟩
  | fcun x => exact ⟨_, fun s => (show execFcun x s = _ from Issue.ext_eq rfl)⟩
  | fclass x => exact ⟨_, fun s => (show execFclass x s = _ from Issue.ext_eq rfl)⟩
  | frnd x => exact ⟨_, fun s => (show execFrnd x s = _ from Issue.ext_eq rfl)⟩
  | frcp x => exact ⟨_, fun s => (show execFrcp x s = _ from Issue.ext_eq rfl)⟩
  | frsq x => exact ⟨_, fun s => (show execFrsq x s = _ from Issue.ext_eq rfl)⟩
  | fsqrt x => exact ⟨_, fun s => (show execFsqrt x s = _ from Issue.ext_eq rfl)⟩
  | fexp2 x => exact ⟨_, fun s => (show execFexp2 x s = _ from Issue.ext_eq rfl)⟩
  | flog2 x => exact ⟨_, fun s => (show execFlog2 x s = _ from Issue.ext_eq rfl)⟩
  | ftanh x => exact ⟨_, fun s => (show execFtanh x s = _ from Issue.ext_eq rfl)⟩
  | fscl x => exact ⟨_, fun s => (show execFscl x s = _ from Issue.ext_eq rfl)⟩
  | hfma x => exact ⟨_, fun s => (show execHfma x s = _ from Issue.ext_eq rfl)⟩
  | bfma x => exact ⟨_, fun s => (show execBfma x s = _ from Issue.ext_eq rfl)⟩
  | hmin x => exact ⟨_, fun s => (show execHmin x s = _ from Issue.ext_eq rfl)⟩
  | hmax x => exact ⟨_, fun s => (show execHmax x s = _ from Issue.ext_eq rfl)⟩
  | cvtf x => exact ⟨_, fun s => (show execCvtf x s = _ from Issue.ext_eq rfl)⟩
  | cvtfi x => exact ⟨_, fun s => (show execCvtfi x s = _ from Issue.ext_eq rfl)⟩
  | cvtif x => exact ⟨_, fun s => (show execCvtif x s = _ from Issue.ext_eq rfl)⟩
  | cvtt x => exact ⟨_, fun s => (show execCvtt x s = _ from Issue.ext_eq rfl)⟩
  | cvttf x => exact ⟨_, fun s => (show execCvttf x s = _ from Issue.ext_eq rfl)⟩
  | fredadd x => exact ⟨_, fun s => (show execFredadd x s = _ from Issue.ext_eq rfl)⟩
  | fredmax x => exact ⟨_, fun s => (show execFredmax x s = _ from Issue.ext_eq rfl)⟩
  | fredmin x => exact ⟨_, fun s => (show execFredmin x s = _ from Issue.ext_eq rfl)⟩
  | fredmaxi x => exact ⟨_, fun s => (show execFredmaxi x s = _ from Issue.ext_eq rfl)⟩
  | fredmini x => exact ⟨_, fun s => (show execFredmini x s = _ from Issue.ext_eq rfl)⟩
  | ld x => exact ⟨_, fun s => (show execLd x s = _ from Issue.ext_eq rfl)⟩
  | st x => exact ⟨_, fun s => (show execSt x s = _ from Issue.ext_eq rfl)⟩
  | lda x => exact ⟨_, fun s => (show execLda x s = _ from Issue.ext_eq rfl)⟩
  | stl x => exact ⟨_, fun s => (show execStl x s = _ from Issue.ext_eq rfl)⟩
  | lds x => exact ⟨_, fun s => (show execLds x s = _ from Issue.ext_eq rfl)⟩
  | sts x => exact ⟨_, fun s => (show execSts x s = _ from Issue.ext_eq rfl)⟩
  | atom x => exact ⟨_, fun s => (show execAtom x s = _ from Issue.ext_eq rfl)⟩
  | atoms x => exact ⟨_, fun s => (show execAtoms x s = _ from Issue.ext_eq rfl)⟩
  | red x => exact ⟨_, fun s => (show execRed x s = _ from Issue.ext_eq rfl)⟩
  | fence x => exact ⟨_, fun s => (show execFence x s = _ from Issue.ext_eq rfl)⟩
  | mcst x => exact ⟨_, fun s => (show execMcst x s = _ from Issue.ext_eq rfl)⟩
  | prf x => exact ⟨_, fun s => (show execPrf x s = _ from Issue.ext_eq rfl)⟩
  | cinv x => exact ⟨_, fun s => (show execCinv x s = _ from Issue.ext_eq rfl)⟩
  | tile x => exact ⟨_, fun s => (show execTile x s = _ from Issue.ext_eq rfl)⟩
  | waitm x => exact ⟨_, fun s => (show execWaitm x s = _ from Issue.ext_eq rfl)⟩
  | mma x => exact ⟨_, fun s => (show execMma x s = _ from Issue.ext_eq rfl)⟩
  | mmasp x => exact ⟨_, fun s => (show execMmasp x s = _ from Issue.ext_eq rfl)⟩
  | accz x => exact ⟨_, fun s => (show execAccz x s = _ from Issue.ext_eq rfl)⟩
  | accld x => exact ⟨_, fun s => (show execAccld x s = _ from Issue.ext_eq rfl)⟩
  | accst x => exact ⟨_, fun s => (show execAccst x s = _ from Issue.ext_eq rfl)⟩
  | acccvt x => exact ⟨_, fun s => (show execAcccvt x s = _ from Issue.ext_eq rfl)⟩
  | ldmeta x => exact ⟨_, fun s => (show execLdmeta x s = _ from Issue.ext_eq rfl)⟩
  | mwait x => exact ⟨_, fun s => (show execMwait x s = _ from Issue.ext_eq rfl)⟩
  | qset x => exact ⟨_, fun s => (show execQset x s = _ from Issue.ext_eq rfl)⟩
  | qacq x => exact ⟨_, fun s => (show execQacq x s = _ from Issue.ext_eq rfl)⟩
  | qcommit x => exact ⟨_, fun s => (show execQcommit x s = _ from Issue.ext_eq rfl)⟩
  | qwait x => exact ⟨_, fun s => (show execQwait x s = _ from Issue.ext_eq rfl)⟩
  | qfree x => exact ⟨_, fun s => (show execQfree x s = _ from Issue.ext_eq rfl)⟩
  | cpyj x => exact ⟨_, fun s => (show execCpyj x s = _ from Issue.ext_eq rfl)⟩
  | gatj x => exact ⟨_, fun s => (show execGatj x s = _ from Issue.ext_eq rfl)⟩
  | colj x => exact ⟨_, fun s => (show execColj x s = _ from Issue.ext_eq rfl)⟩
  | jwait x => exact ⟨_, fun s => (show execJwait x s = _ from Issue.ext_eq rfl)⟩
  | jtest x => exact ⟨_, fun s => (show execJtest x s = _ from Issue.ext_eq rfl)⟩
  | hboard x => exact ⟨_, fun s => (show execHboard x s = _ from Issue.ext_eq rfl)⟩
  | hcancel x => exact ⟨_, fun s => (show execHcancel x s = _ from Issue.ext_eq rfl)⟩
  | hlap x => exact ⟨_, fun s => (show execHlap x s = _ from Issue.ext_eq rfl)⟩
  | kvrsv x => exact ⟨_, fun s => (show execKvrsv x s = _ from Issue.ext_eq rfl)⟩
  | kvw x => exact ⟨_, fun s => (show execKvw x s = _ from Issue.ext_eq rfl)⟩
  | kvr x => exact ⟨_, fun s => (show execKvr x s = _ from Issue.ext_eq rfl)⟩
  | kvrt x => exact ⟨_, fun s => (show execKvrt x s = _ from Issue.ext_eq rfl)⟩
  | kvpub x => exact ⟨_, fun s => (show execKvpub x s = _ from Issue.ext_eq rfl)⟩
  | kvacq x => exact ⟨_, fun s => (show execKvacq x s = _ from Issue.ext_eq rfl)⟩
  | kvwait x => exact ⟨_, fun s => (show execKvwait x s = _ from Issue.ext_eq rfl)⟩
  | kvcmt x => exact ⟨_, fun s => (show execKvcmt x s = _ from Issue.ext_eq rfl)⟩
  | kvroll x => exact ⟨_, fun s => (show execKvroll x s = _ from Issue.ext_eq rfl)⟩
  | kvgen x => exact ⟨_, fun s => (show execKvgen x s = _ from Issue.ext_eq rfl)⟩
  | kvstage x => exact ⟨_, fun s => (show execKvstage x s = _ from Issue.ext_eq rfl)⟩
  | pawin x => exact ⟨_, fun s => (show execPawin x s = _ from Issue.ext_eq rfl)⟩
  | pald x => exact ⟨_, fun s => (show execPald x s = _ from Issue.ext_eq rfl)⟩
  | pain x => exact ⟨_, fun s => (show execPain x s = _ from Issue.ext_eq rfl)⟩
  | pago x => exact ⟨_, fun s => (show execPago x s = _ from Issue.ext_eq rfl)⟩
  | pacap x => exact ⟨_, fun s => (show execPacap x s = _ from Issue.ext_eq rfl)⟩
  | paclr x => exact ⟨_, fun s => (show execPaclr x s = _ from Issue.ext_eq rfl)⟩
  | macroBodyWord _ _ => exact absurd h (by simp [isCoded, Instr.form])
  | fixedResultLand _ _ => exact absurd h (by simp [isCoded, Instr.form])
  | variableResultWrite _ _ _ => exact absurd h (by simp [isCoded, Instr.form])
  | regionComplete _ _ => exact absurd h (by simp [isCoded, Instr.form])
  | dividerSubstep _ _ => exact absurd h (by simp [isCoded, Instr.form])
  | coalescerGroup _ _ => exact absurd h (by simp [isCoded, Instr.form])
  | kvSubstep _ _ => exact absurd h (by simp [isCoded, Instr.form])
  | paldSubstep _ => exact absurd h (by simp [isCoded, Instr.form])
  | yieldEnd _ _ => exact absurd h (by simp [isCoded, Instr.form])
  | teamWordApply _ => exact absurd h (by simp [isCoded, Instr.form])
  | beamWake _ _ => exact absurd h (by simp [isCoded, Instr.form])
  | watchReply _ => exact absurd h (by simp [isCoded, Instr.form])
  | watchTimeout _ => exact absurd h (by simp [isCoded, Instr.form])
  | siblingStop _ _ => exact absurd h (by simp [isCoded, Instr.form])
  | engineEntryStart _ => exact absurd h (by simp [isCoded, Instr.form])
  | engineSubstep _ => exact absurd h (by simp [isCoded, Instr.form])
  | engineEntryComplete _ => exact absurd h (by simp [isCoded, Instr.form])
  | prismWindowEnd _ => exact absurd h (by simp [isCoded, Instr.form])
  | telemetryRecompute _ => exact absurd h (by simp [isCoded, Instr.form])
  | sliceAccess _ => exact absurd h (by simp [isCoded, Instr.form])
  | acknowledgement _ => exact absurd h (by simp [isCoded, Instr.form])
  | packetArbitration _ => exact absurd h (by simp [isCoded, Instr.form])
  | pageWalk _ _ _ => exact absurd h (by simp [isCoded, Instr.form])
  | faultTimeout _ => exact absurd h (by simp [isCoded, Instr.form])
  | operandLogReplay _ => exact absurd h (by simp [isCoded, Instr.form])
  | shootdownRange _ => exact absurd h (by simp [isCoded, Instr.form])
  | shootdownSpace _ => exact absurd h (by simp [isCoded, Instr.form])
  | shootdownTenant _ => exact absurd h (by simp [isCoded, Instr.form])
  | shootdownDone => exact absurd h (by simp [isCoded, Instr.form])
  | pageMigrate _ _ _ => exact absurd h (by simp [isCoded, Instr.form])
  | rdUpgrade _ => exact absurd h (by simp [isCoded, Instr.form])
  | rdGrant _ _ _ => exact absurd h (by simp [isCoded, Instr.form])
  | rdInvalidate _ _ _ => exact absurd h (by simp [isCoded, Instr.form])
  | rdAckComplete _ => exact absurd h (by simp [isCoded, Instr.form])
  | rdTimeout _ => exact absurd h (by simp [isCoded, Instr.form])
  | jobComplete _ => exact absurd h (by simp [isCoded, Instr.form])
  | teamPlace _ _ => exact absurd h (by simp [isCoded, Instr.form])
  | quantumExpiry _ => exact absurd h (by simp [isCoded, Instr.form])
  | preempt _ => exact absurd h (by simp [isCoded, Instr.form])
  | teamRestore _ _ => exact absurd h (by simp [isCoded, Instr.form])
  | beamRetire _ _ => exact absurd h (by simp [isCoded, Instr.form])
  | teamRetire _ => exact absurd h (by simp [isCoded, Instr.form])
  | gridComplete _ => exact absurd h (by simp [isCoded, Instr.form])
  | fcfgRst _ => exact absurd h (by simp [isCoded, Instr.form])
  | resetDrained _ => exact absurd h (by simp [isCoded, Instr.form])
  | fcfgRel _ => exact absurd h (by simp [isCoded, Instr.form])
  | registerWrite _ _ _ => exact absurd h (by simp [isCoded, Instr.form])
  | counterClear _ => exact absurd h (by simp [isCoded, Instr.form])
  | gateWays _ _ => exact absurd h (by simp [isCoded, Instr.form])
  | gateGranules _ _ _ => exact absurd h (by simp [isCoded, Instr.form])
  | wakeDone => exact absurd h (by simp [isCoded, Instr.form])
  | haloRunStart _ => exact absurd h (by simp [isCoded, Instr.form])
  | haloRunStop _ => exact absurd h (by simp [isCoded, Instr.form])
  | haloThrSet _ _ => exact absurd h (by simp [isCoded, Instr.form])
  | hnextWrite _ _ _ => exact absurd h (by simp [isCoded, Instr.form])
  | lapBoundary _ => exact absurd h (by simp [isCoded, Instr.form])
  | tilePassing _ _ _ => exact absurd h (by simp [isCoded, Instr.form])
  | tileChecked _ _ _ => exact absurd h (by simp [isCoded, Instr.form])
  | tileCommit _ _ => exact absurd h (by simp [isCoded, Instr.form])
  | boardRegister _ _ => exact absurd h (by simp [isCoded, Instr.form])
  | write _ => exact absurd h (by simp [isCoded, Instr.form])
  | read _ => exact absurd h (by simp [isCoded, Instr.form])
  | setparam _ => exact absurd h (by simp [isCoded, Instr.form])
  | replay _ => exact absurd h (by simp [isCoded, Instr.form])
  | query _ => exact absurd h (by simp [isCoded, Instr.form])
  | attest _ => exact absurd h (by simp [isCoded, Instr.form])
  | reset _ => exact absurd h (by simp [isCoded, Instr.form])
  | resolve _ => exact absurd h (by simp [isCoded, Instr.form])
  | fail _ => exact absurd h (by simp [isCoded, Instr.form])
  | mbtailWrite _ _ => exact absurd h (by simp [isCoded, Instr.form])
  | mbcfgWrite _ _ => exact absurd h (by simp [isCoded, Instr.form])
  | mbcheadWrite _ _ => exact absurd h (by simp [isCoded, Instr.form])
  | commandFetch _ => exact absurd h (by simp [isCoded, Instr.form])
  | replayStart _ => exact absurd h (by simp [isCoded, Instr.form])
  | nodeLaunch _ _ => exact absurd h (by simp [isCoded, Instr.form])
  | nodeJob _ _ => exact absurd h (by simp [isCoded, Instr.form])
  | nodeWait _ _ => exact absurd h (by simp [isCoded, Instr.form])
  | waitPoll _ _ => exact absurd h (by simp [isCoded, Instr.form])
  | nodeSignal _ _ => exact absurd h (by simp [isCoded, Instr.form])
  | replayEnd _ => exact absurd h (by simp [isCoded, Instr.form])
  | budgetPeriod => exact absurd h (by simp [isCoded, Instr.form])
  | refillWrite _ _ => exact absurd h (by simp [isCoded, Instr.form])
  | prectlGo _ => exact absurd h (by simp [isCoded, Instr.form])
  | gsctlEnable => exact absurd h (by simp [isCoded, Instr.form])
  | gsctlDisable => exact absurd h (by simp [isCoded, Instr.form])
  | gangSliceStart => exact absurd h (by simp [isCoded, Instr.form])
  | arrived _ _ _ => exact absurd h (by simp [isCoded, Instr.form])
  | gangDecide => exact absurd h (by simp [isCoded, Instr.form])
  | openGate => exact absurd h (by simp [isCoded, Instr.form])
  | forfeit _ => exact absurd h (by simp [isCoded, Instr.form])
  | powerOn _ => exact absurd h (by simp [isCoded, Instr.form])
  | perst _ => exact absurd h (by simp [isCoded, Instr.form])
  | d3hotEnter => exact absurd h (by simp [isCoded, Instr.form])
  | d0Return => exact absurd h (by simp [isCoded, Instr.form])
  | train _ => exact absurd h (by simp [isCoded, Instr.form])
  | drain _ => exact absurd h (by simp [isCoded, Instr.form])
  | hold _ => exact absurd h (by simp [isCoded, Instr.form])
  | dark _ => exact absurd h (by simp [isCoded, Instr.form])
  | relock _ => exact absurd h (by simp [isCoded, Instr.form])
  | release _ => exact absurd h (by simp [isCoded, Instr.form])
  | down _ => exact absurd h (by simp [isCoded, Instr.form])
  | trainTimeout _ => exact absurd h (by simp [isCoded, Instr.form])
  | bankenClear _ _ => exact absurd h (by simp [isCoded, Instr.form])
  | flitReceive _ _ => exact absurd h (by simp [isCoded, Instr.form])
  | nakRepeat _ => exact absurd h (by simp [isCoded, Instr.form])
  | markerAck _ => exact absurd h (by simp [isCoded, Instr.form])
  | lossOfLight _ _ => exact absurd h (by simp [isCoded, Instr.form])
  | restripeDone _ => exact absurd h (by simp [isCoded, Instr.form])
  | restripeDecode _ _ => exact absurd h (by simp [isCoded, Instr.form])
  | portDown _ => exact absurd h (by simp [isCoded, Instr.form])
  | packetReceive _ => exact absurd h (by simp [isCoded, Instr.form])
  | remoteTimeout _ => exact absurd h (by simp [isCoded, Instr.form])
  | capability _ _ => exact absurd h (by simp [isCoded, Instr.form])
  | collimatorStamp _ _ => exact absurd h (by simp [isCoded, Instr.form])
  | stampedApply _ => exact absurd h (by simp [isCoded, Instr.form])
  | fabricTimeLock _ => exact absurd h (by simp [isCoded, Instr.form])
  | evcfgWrite _ _ => exact absurd h (by simp [isCoded, Instr.form])
  | trainingComplete _ _ _ _ => exact absurd h (by simp [isCoded, Instr.form])
  | lossOfSignal _ _ => exact absurd h (by simp [isCoded, Instr.form])
  | preemptDrainTimeout _ _ => exact absurd h (by simp [isCoded, Instr.form])
  | gangSliceEnd => exact absurd h (by simp [isCoded, Instr.form])

/-- A coded instruction faults only where no beam is selected, and never refuses. -/
theorem exec_coded_next (i : Instr) (s : State) (h : isCoded i = true) :
    (∃ t, exec i s = .next t) ∨ (exec i s = .fault .noBeam ∧ Issue.select s = none) := by
  obtain ⟨body, hb⟩ := exec_coded i h
  rw [hb s]
  cases hs : startOf i s with
  | noBeam =>
    refine .inr ⟨rfl, ?_⟩
    unfold startOf Issue.start at hs
    cases hsel : Issue.select s with
    | none => rfl
    | some p =>
      rw [hsel] at hs
      simp only at hs
      split at hs
      · cases hs
      · split at hs
        · cases hs
        · split at hs
          · cases hs
          · split at hs <;> cases hs
  | hold t => exact .inl ⟨t, rfl⟩
  | trap e t c =>
    simp only [Issue.conclude]
    split <;> exact .inl ⟨_, rfl⟩
  | go e t =>
    rw [Issue.conclude_go]
    cases body e t <;> exact .inl ⟨_, rfl⟩

end Sys2Proof.Machine
end

