-- ==== Sys2Proof/Laws/Ops.lean ====
section
/-! SUPPORT. What the shared operations do, said once: what each leaves alone, and that each keeps both memories in canonical
form. -/

namespace Sys2Proof.Machine

/-! ### What an operation keeps -/

/-- `t` holds the device memory and the agenda of `s`, and its host memory is in canonical form if that of `s` is. -/
structure Keeps (s t : State) : Prop where
  mem : t.mem = s.mem
  host : s.hostMem.wf = true → t.hostMem.wf = true
  agenda : t.agenda = s.agenda

/-- `t` is in canonical form if `s` is, and holds its agenda. -/
structure KeepsForm (s t : State) : Prop where
  mem : s.mem.wf = true → t.mem.wf = true
  host : s.hostMem.wf = true → t.hostMem.wf = true
  agenda : t.agenda = s.agenda

theorem Keeps.refl (s : State) : Keeps s s := ⟨rfl, id, rfl⟩
theorem Keeps.trans {s t u : State} (h : Keeps s t) (k : Keeps t u) : Keeps s u :=
  ⟨k.mem.trans h.mem, k.host ∘ h.host, k.agenda.trans h.agenda⟩
theorem Keeps.form {s t : State} (h : Keeps s t) : KeepsForm s t := ⟨fun w => h.mem ▸ w, h.host, h.agenda⟩
theorem KeepsForm.refl (s : State) : KeepsForm s s := ⟨id, id, rfl⟩
theorem KeepsForm.trans {s t u : State} (h : KeepsForm s t) (k : KeepsForm t u) : KeepsForm s u :=
  ⟨k.mem ∘ h.mem, k.host ∘ h.host, k.agenda.trans h.agenda⟩

/-- The three fields decide. -/
theorem Keeps.of_eq {s t : State} (h1 : t.mem = s.mem) (h2 : t.hostMem = s.hostMem) (h3 : t.agenda = s.agenda) : Keeps s t :=
  ⟨h1, fun w => h2 ▸ w, h3⟩

theorem KeepsForm.canonical {s t : State} (h : KeepsForm s t) (c : s.canonical) : t.canonical := ⟨h.mem c.1, h.host c.2⟩

/-- A fold of operations that each keep, keeps. -/
theorem Keeps.foldl {α : Type} (f : State → α → State) (h : ∀ s a, Keeps s (f s a)) (l : List α) (s : State) :
    Keeps s (l.foldl f s) := by
  induction l generalizing s with
  | nil => exact Keeps.refl s
  | cons a r ih => exact (h s a).trans (ih (f s a))

theorem KeepsForm.foldl {α : Type} (f : State → α → State) (h : ∀ s a, KeepsForm s (f s a)) (l : List α) (s : State) :
    KeepsForm s (l.foldl f s) := by
  induction l generalizing s with
  | nil => exact KeepsForm.refl s
  | cons a r ih => exact (h s a).trans (ih (f s a))

/-! ### Teams, beams and records -/

theorem State.setTeam_keeps (s : State) (t : Nat) (T : Team) : Keeps s (s.setTeam t T) := Keeps.of_eq rfl rfl rfl
theorem State.setGrid_keeps (s : State) (g : Nat) (G : Grid) : Keeps s (s.setGrid g G) := Keeps.of_eq rfl rfl rfl
theorem State.setCore_keeps (s : State) (c : Nat) (C : Core) : Keeps s (s.setCore c C) := Keeps.of_eq rfl rfl rfl
theorem State.setFunc_keeps (s : State) (f : Nat) (F : Func) : Keeps s (s.setFunc f F) := Keeps.of_eq rfl rfl rfl
theorem State.setChan_keeps (s : State) (c : Nat) (C : Chan) : Keeps s (s.setChan c C) := Keeps.of_eq rfl rfl rfl
theorem State.setLink_keeps (s : State) (l : Nat) (L : Link) : Keeps s (s.setLink l L) := Keeps.of_eq rfl rfl rfl
theorem State.setBeam_keeps (s : State) (r : Ref) (b : Beam) : Keeps s (s.setBeam r b) := Keeps.of_eq (by simp) (by simp) (by simp)
theorem State.modTeam_keeps (s : State) (t : Nat) (f : Team → Team) : Keeps s (s.modTeam t f) :=
  Keeps.of_eq (by simp) (by simp) (by simp)
theorem State.modBeam_keeps (s : State) (r : Ref) (f : Beam → Beam) : Keeps s (s.modBeam r f) :=
  Keeps.of_eq (by simp) (by simp) (by simp)

/-- A record is written to the ring of its function in host memory, or counted as lost; device memory, teams and grids stay. -/
theorem State.record_keeps (s : State) (f kind : Nat) (body : List Byte) : Keeps s (s.record f kind body) := by
  unfold State.record
  simp only
  split
  · split <;> exact ⟨by simp, fun w => by simpa using Memory.wf_writeBytes _ _ w, by simp⟩
  · exact State.setFunc_keeps ..

theorem State.record_teams (s : State) (f kind : Nat) (body : List Byte) :
    (s.record f kind body).teams = s.teams ∧ (s.record f kind body).grids = s.grids := by
  unfold State.record
  simp only
  split
  · split <;> simp
  · exact ⟨rfl, rfl⟩

theorem State.report_keeps (s : State) (p : Report) : Keeps s (s.report p) := State.record_keeps ..

theorem State.teamReport_keeps (s : State) (T : Team) (k c a b p e i : Nat) : Keeps s (s.teamReport T k c a b p e i) := by
  unfold State.teamReport
  split
  · exact Keeps.refl s
  · exact State.report_keeps ..

theorem State.failReplay_keeps (s : State) (r c n : Nat) : Keeps s (s.failReplay r c n) := by
  unfold State.failReplay
  split
  · exact Keeps.refl s
  · split
    · exact Keeps.of_eq rfl rfl rfl
    · exact Keeps.refl s

theorem State.endGrid_keeps (s : State) (g : Nat) : Keeps s (s.endGrid g) := by
  unfold State.endGrid
  split
  · exact Keeps.refl s
  · refine Keeps.trans ?_ (State.failReplay_keeps ..)
    exact Keeps.of_eq rfl rfl rfl

/-! ### Taking an exception and returning from one -/

theorem State.fatalStop_keeps (s : State) (r : Ref) (c a : Nat) (p : Dword) (x i : Nat) : Keeps s (s.fatalStop r c a p x i) := by
  unfold State.fatalStop
  split
  · exact Keeps.refl s
  · exact (State.endGrid_keeps ..).trans (State.teamReport_keeps ..)

theorem State.dropWatches_keeps (s : State) (r : Ref) : Keeps s (s.dropWatches r) := Keeps.of_eq rfl rfl rfl

/-- Taking an exception changes no device memory; a fatal one may write a record to host memory. -/
theorem State.takeTrap_keeps (s : State) (r : Ref) (c a : Nat) (p : Dword) (x : Option Nat) (y i : Nat) :
    Keeps s (s.takeTrap r c a p x y i) := by
  unfold State.takeTrap
  split
  · exact Keeps.refl s
  · split
    · exact Keeps.refl s
    · split
      · exact State.setBeam_keeps ..
      · split
        · exact State.fatalStop_keeps ..
        · exact (State.setTeam_keeps ..).trans (Keeps.foldl _ State.dropWatches_keeps _ _)

theorem State.lateTrap_keeps (s : State) (r : Ref) (c a : Nat) (p : Dword) (x : Option Nat) (y i : Nat) :
    Keeps s (s.lateTrap r c a p x y i) := by
  unfold State.lateTrap
  split
  · exact Keeps.refl s
  · split
    · exact Keeps.refl s
    · simp only
      split_ifs
      · exact Keeps.refl s
      · exact State.fatalStop_keeps ..
      · exact Keeps.refl s
      · exact State.takeTrap_keeps ..
      · exact State.setBeam_keeps ..

theorem State.enterPending_keeps (s : State) (r : Ref) : Keeps s (s.enterPending r) := by
  unfold State.enterPending
  split
  · exact Keeps.refl s
  · split
    · exact Keeps.refl s
    · exact (State.setBeam_keeps ..).trans (State.takeTrap_keeps ..)

theorem State.eret_keeps (s : State) (r : Ref) : Keeps s (s.eret r) := State.modTeam_keeps ..

theorem State.handlerGone_keeps (s : State) (r : Ref) : Keeps s (s.handlerGone r) := State.modTeam_keeps ..

/-! ### Issue -/

theorem Issue.finish_keeps (e : Env) (s : State) (pc : Option Dword) : Keeps s (Issue.finish e s pc) := State.modBeam_keeps ..

theorem Issue.issued_keeps (s : State) (r : Ref) (n : Nat) : Keeps s (Issue.issued s r n) := State.modBeam_keeps ..

theorem Issue.heldUntil_keeps (s : State) (r : Ref) (c : Nat) : Keeps s (Issue.heldUntil s r c) := State.modBeam_keeps ..

theorem Issue.trap_keeps (s : State) (r : Ref) (c a : Nat) (p : Option Dword) (x : Option Nat) (i : Nat) :
    Keeps s (Issue.trap s r c a p x i) := by
  unfold Issue.trap
  split
  · exact Keeps.refl s
  · exact State.takeTrap_keeps ..

theorem Issue.trapRemote_keeps (s : State) (r : Ref) (i p : Nat) : Keeps s (Issue.trapRemote s r i p) := by
  unfold Issue.trapRemote
  split
  · exact Keeps.refl s
  · exact State.takeTrap_keeps ..

theorem Env.fixed_keeps (e : Env) (s : State) (v : List (Nat × Word)) (f : Flags) : Keeps s (e.fixed s v f) :=
  State.modBeam_keeps ..

theorem Env.pending_keeps (e : Env) (s : State) (n : List Nat) (v : List (Nat × Word)) (w r : Nat) :
    Keeps s (e.pending s n v w r) :=
  (Keeps.of_eq rfl rfl rfl : Keeps s { s with nextId := s.nextId + 1 }).trans (State.modBeam_keeps ..)

/-- A body that keeps, in a state that its effect leaves or in which it traps, makes an issue that keeps. -/
theorem Res.outcome_keeps {e : Env} {s1 : State} {x : Res} {t : State} (h : Res.outcome e s1 x = .next t)
    (hx : ∀ s', x = .done s' ∨ (∃ pc, x = .jump s' pc) ∨ (∃ c p i, x = .late s' c p i) ∨ x = .wait s' → Keeps s1 s') :
    Keeps s1 t := by
  cases x with
  | done s' => cases h; exact (hx s' (.inl rfl)).trans (Issue.finish_keeps ..)
  | jump s' pc => cases h; exact (hx s' (.inr (.inl ⟨pc, rfl⟩))).trans (Issue.finish_keeps ..)
  | trap c a p y i => cases h; exact (Issue.issued_keeps ..).trans (Issue.trap_keeps ..)
  | remote i p => cases h; exact (Issue.issued_keeps ..).trans (Issue.trapRemote_keeps ..)
  | late s' c y i =>
    cases h
    exact ((hx s' (.inr (.inr (.inl ⟨c, y, i, rfl⟩)))).trans (Issue.issued_keeps ..)).trans (Issue.trap_keeps ..)
  | hold => cases h; exact Issue.heldUntil_keeps ..
  | wait s' => cases h; exact hx t (.inr (.inr (.inr rfl)))

/-- `insertFix` adds one effect and drops none. -/
theorem mem_insertFix {f g : Fix} {l : List Fix} : g ∈ insertFix f l ↔ g = f ∨ g ∈ l := by
  induction l with
  | nil => simp [insertFix]
  | cons h r ih =>
    unfold insertFix
    split
    · simp
    · simp only [List.mem_cons, ih]
      tauto

/-- Registers that a write of v(n) in lane l does not name read as before. -/
theorem Beam.rd_wr_other (b : Beam) {n l m k : Nat} (v : Word) (h : regKey m k ≠ regKey n l) : (b.wr n l v).rd m k = b.rd m k := by
  unfold Beam.wr Beam.rd Beam.inWin
  simp only
  split
  · simp only [sget_sset_other 0 _ v h]
  · simp only [sget_sset_other 0 _ v h]

/-- A register reads as it was written. -/
theorem Beam.rd_wr_same (b : Beam) (n l : Nat) (v : Word) : (b.wr n l v).rd n l = v := by
  unfold Beam.wr Beam.rd Beam.inWin
  simp only
  split
  · simp only [sget_sset_same]
  · simp only [sget_sset_same]

/-! ### Writers of memory -/

/-- A write at a home slice or to host memory keeps the canonical form. -/
theorem State.homeWrite_form (s : State) (k : PKind) (pa : Nat) (bytes : List Byte) : KeepsForm s (s.homeWrite k pa bytes) := by
  unfold State.homeWrite
  split
  · exact KeepsForm.refl s
  · split
    · exact ⟨fun w => by simpa using w, fun w => by simpa using Memory.wf_writeBytes _ _ w, by simp⟩
    · exact ⟨fun w => Memory.wf_writeBytes _ _ w, fun w => by simpa using w, by simp⟩

/-- A write at a home slice stores its bytes there, and no other byte changes. -/
theorem State.homeWrite_read (s : State) {k : PKind} (pa : Nat) (bytes : List Byte) (hk : k ≠ .host) :
    (∀ i (h : i < bytes.length), (s.homeWrite k pa bytes).mem.read (pa + i) = bytes[i]) ∧
    ∀ a, a < pa ∨ pa + bytes.length ≤ a → (s.homeWrite k pa bytes).mem.read a = s.mem.read a := by
  unfold State.homeWrite
  split
  · next hb => subst hb; exact ⟨fun i h => absurd h (Nat.not_lt_zero i), fun a _ => rfl⟩
  · try rw [if_neg hk]
    exact ⟨fun i h => Memory.read_writeBytes_same _ _ _ h, fun a h => Memory.read_writeBytes_other _ _ _ h⟩

/-- Free bytes of a save area keep the canonical form. -/
theorem State.opaqueBlock_form (s : State) (a n : Nat) : KeepsForm s (s.opaqueBlock a n) :=
  ⟨fun w => Memory.wf_splice _ (Nat.le_add_right a n) w, id, rfl⟩

/-- The memories after reset. -/
theorem State.reset_memories : State.reset.mem.wf = true ∧ State.reset.hostMem.wf = true := ⟨rfl, rfl⟩

/-- The placing of an instruction where the next step fetches it keeps the canonical form. -/
theorem State.place_form (s : State) (bytes : List Byte) (h : s.canonical) : (s.place bytes).canonical :=
  ⟨Memory.wf_writeBytes _ _ h.1, h.2⟩

end Sys2Proof.Machine
end

