-- ==== Sys2Proof/Laws/PerInstr.lean ====
section
/-! SUPPORT. Per-instruction laws. `OfForm`: the tables that build an instruction from its number and operands are the
inverse of `Instr.form`. -/

namespace Sys2Proof.Laws.OfForm

/-- The instruction is the one that its number and operands name; an event has no words. -/
def Statement (i : Instr) : Prop :=
  match i.form with
  | .base op o => Instr.ofBase op o = some i
  | .ext n x => Instr.ofX n x = some i
  | .event => encode i = []

theorem nop (o : BZ) : Statement (.nop o) := rfl
theorem nopX (x : Ext) : Statement (.nopX x) := rfl
theorem mov (o : B3) : Statement (.mov o) := rfl
theorem movX (x : Ext) : Statement (.movX x) := rfl
theorem add (o : B3) : Statement (.add o) := rfl
theorem addX (x : Ext) : Statement (.addX x) := rfl
theorem sub (o : B3) : Statement (.sub o) := rfl
theorem subX (x : Ext) : Statement (.subX x) := rfl
theorem mul (o : B3) : Statement (.mul o) := rfl
theorem mulX (x : Ext) : Statement (.mulX x) := rfl
theorem and (o : B3) : Statement (.and o) := rfl
theorem andX (x : Ext) : Statement (.andX x) := rfl
theorem or (o : B3) : Statement (.or o) := rfl
theorem orX (x : Ext) : Statement (.orX x) := rfl
theorem xor (o : B3) : Statement (.xor o) := rfl
theorem xorX (x : Ext) : Statement (.xorX x) := rfl
theorem shl (o : B3) : Statement (.shl o) := rfl
theorem shlX (x : Ext) : Statement (.shlX x) := rfl
theorem shr (o : B3) : Statement (.shr o) := rfl
theorem shrX (x : Ext) : Statement (.shrX x) := rfl
theorem sar (o : B3) : Statement (.sar o) := rfl
theorem sarX (x : Ext) : Statement (.sarX x) := rfl
theorem min (o : B3) : Statement (.min o) := rfl
theorem minX (x : Ext) : Statement (.minX x) := rfl
theorem max (o : B3) : Statement (.max o) := rfl
theorem maxX (x : Ext) : Statement (.maxX x) := rfl
theorem minu (o : B3) : Statement (.minu o) := rfl
theorem minuX (x : Ext) : Statement (.minuX x) := rfl
theorem maxu (o : B3) : Statement (.maxu o) := rfl
theorem maxuX (x : Ext) : Statement (.maxuX x) := rfl
theorem andn (o : B3) : Statement (.andn o) := rfl
theorem andnX (x : Ext) : Statement (.andnX x) := rfl
theorem addi (o : BI) : Statement (.addi o) := rfl
theorem addiX (x : Ext) : Statement (.addiX x) := rfl
theorem shli (o : BI) : Statement (.shli o) := rfl
theorem shliX (x : Ext) : Statement (.shliX x) := rfl
theorem shri (o : BI) : Statement (.shri o) := rfl
theorem shriX (x : Ext) : Statement (.shriX x) := rfl
theorem sari (o : BI) : Statement (.sari o) := rfl
theorem sariX (x : Ext) : Statement (.sariX x) := rfl
theorem andi (o : BI) : Statement (.andi o) := rfl
theorem andiX (x : Ext) : Statement (.andiX x) := rfl
theorem ceq (o : B3) : Statement (.ceq o) := rfl
theorem ceqX (x : Ext) : Statement (.ceqX x) := rfl
theorem cne (o : B3) : Statement (.cne o) := rfl
theorem cneX (x : Ext) : Statement (.cneX x) := rfl
theorem clt (o : B3) : Statement (.clt o) := rfl
theorem cltX (x : Ext) : Statement (.cltX x) := rfl
theorem cle (o : B3) : Statement (.cle o) := rfl
theorem cleX (x : Ext) : Statement (.cleX x) := rfl
theorem cltu (o : B3) : Statement (.cltu o) := rfl
theorem cltuX (x : Ext) : Statement (.cltuX x) := rfl
theorem cleu (o : B3) : Statement (.cleu o) := rfl
theorem cleuX (x : Ext) : Statement (.cleuX x) := rfl
theorem sel (o : B3) : Statement (.sel o) := rfl
theorem selX (x : Ext) : Statement (.selX x) := rfl
theorem fadd (o : B3) : Statement (.fadd o) := rfl
theorem faddX (x : Ext) : Statement (.faddX x) := rfl
theorem fsub (o : B3) : Statement (.fsub o) := rfl
theorem fsubX (x : Ext) : Statement (.fsubX x) := rfl
theorem fmul (o : B3) : Statement (.fmul o) := rfl
theorem fmulX (x : Ext) : Statement (.fmulX x) := rfl
theorem fmac (o : B3) : Statement (.fmac o) := rfl
theorem fmacX (x : Ext) : Statement (.fmacX x) := rfl
theorem fmin (o : B3) : Statement (.fmin o) := rfl
theorem fminX (x : Ext) : Statement (.fminX x) := rfl
theorem fmax (o : B3) : Statement (.fmax o) := rfl
theorem fmaxX (x : Ext) : Statement (.fmaxX x) := rfl
theorem fceq (o : B3) : Statement (.fceq o) := rfl
theorem fceqX (x : Ext) : Statement (.fceqX x) := rfl
theorem fclt (o : B3) : Statement (.fclt o) := rfl
theorem fcltX (x : Ext) : Statement (.fcltX x) := rfl
theorem fcle (o : B3) : Statement (.fcle o) := rfl
theorem fcleX (x : Ext) : Statement (.fcleX x) := rfl
theorem hadd (o : B3) : Statement (.hadd o) := rfl
theorem haddX (x : Ext) : Statement (.haddX x) := rfl
theorem hmul (o : B3) : Statement (.hmul o) := rfl
theorem hmulX (x : Ext) : Statement (.hmulX x) := rfl
theorem hmac (o : B3) : Statement (.hmac o) := rfl
theorem hmacX (x : Ext) : Statement (.hmacX x) := rfl
theorem badd (o : B3) : Statement (.badd o) := rfl
theorem baddX (x : Ext) : Statement (.baddX x) := rfl
theorem bmul (o : B3) : Statement (.bmul o) := rfl
theorem bmulX (x : Ext) : Statement (.bmulX x) := rfl
theorem bmac (o : B3) : Statement (.bmac o) := rfl
theorem bmacX (x : Ext) : Statement (.bmacX x) := rfl
theorem shfl (o : B3) : Statement (.shfl o) := rfl
theorem shflX (x : Ext) : Statement (.shflX x) := rfl
theorem shflx (o : B3) : Statement (.shflx o) := rfl
theorem shflxX (x : Ext) : Statement (.shflxX x) := rfl
theorem ldsw (o : BI) : Statement (.ldsw o) := rfl
theorem ldswX (x : Ext) : Statement (.ldswX x) := rfl
theorem stsw (o : BI) : Statement (.stsw o) := rfl
theorem stswX (x : Ext) : Statement (.stswX x) := rfl
theorem twrd (o : BI) : Statement (.twrd o) := rfl
theorem twrdX (x : Ext) : Statement (.twrdX x) := rfl
theorem twwr (o : BI) : Statement (.twwr o) := rfl
theorem twwrX (x : Ext) : Statement (.twwrX x) := rfl
theorem bra (o : BJ) : Statement (.bra o) := rfl
theorem braX (x : Ext) : Statement (.braX x) := rfl
theorem brany (o : BB) : Statement (.brany o) := rfl
theorem branyX (x : Ext) : Statement (.branyX x) := rfl
theorem brall (o : BB) : Statement (.brall o) := rfl
theorem brallX (x : Ext) : Statement (.brallX x) := rfl
theorem brnone (o : BB) : Statement (.brnone o) := rfl
theorem brnoneX (x : Ext) : Statement (.brnoneX x) := rfl
theorem exit (o : BZ) : Statement (.exit o) := rfl
theorem exitX (x : Ext) : Statement (.exitX x) := rfl
theorem bar (o : BZ) : Statement (.bar o) := rfl
theorem barX (x : Ext) : Statement (.barX x) := rfl
theorem maskp (o : B3) : Statement (.maskp o) := rfl
theorem maskpX (x : Ext) : Statement (.maskpX x) := rfl
theorem getm (o : B3) : Statement (.getm o) := rfl
theorem getmX (x : Ext) : Statement (.getmX x) := rfl
theorem setm (o : B3) : Statement (.setm o) := rfl
theorem setmX (x : Ext) : Statement (.setmX x) := rfl
theorem radd (o : B3) : Statement (.radd o) := rfl
theorem raddX (x : Ext) : Statement (.raddX x) := rfl
theorem rmax (o : B3) : Statement (.rmax o) := rfl
theorem rmaxX (x : Ext) : Statement (.rmaxX x) := rfl
theorem mad (o : B3) : Statement (.mad o) := rfl
theorem madX (x : Ext) : Statement (.madX x) := rfl
theorem popc (o : B3) : Statement (.popc o) := rfl
theorem popcX (x : Ext) : Statement (.popcX x) := rfl
theorem clz (o : B3) : Statement (.clz o) := rfl
theorem clzX (x : Ext) : Statement (.clzX x) := rfl
theorem call (x : Ext) : Statement (.call x) := rfl
theorem callr (x : Ext) : Statement (.callr x) := rfl
theorem ret (x : Ext) : Statement (.ret x) := rfl
theorem jmpr (x : Ext) : Statement (.jmpr x) := rfl
theorem yield (x : Ext) : Statement (.yield x) := rfl
theorem yieldj (x : Ext) : Statement (.yieldj x) := rfl
theorem region (x : Ext) : Statement (.region x) := rfl
theorem mcall (x : Ext) : Statement (.mcall x) := rfl
theorem barn (x : Ext) : Statement (.barn x) := rfl
theorem arrive (x : Ext) : Statement (.arrive x) := rfl
theorem waitb (x : Ext) : Statement (.waitb x) := rfl
theorem twadd (x : Ext) : Statement (.twadd x) := rfl
theorem twcas (x : Ext) : Statement (.twcas x) := rfl
theorem srd (x : Ext) : Statement (.srd x) := rfl
theorem swr (x : Ext) : Statement (.swr x) := rfl
theorem trap (x : Ext) : Statement (.trap x) := rfl
theorem eret (x : Ext) : Statement (.eret x) := rfl
theorem brk (x : Ext) : Statement (.brk x) := rfl
theorem mulhi (x : Ext) : Statement (.mulhi x) := rfl
theorem mulhiu (x : Ext) : Statement (.mulhiu x) := rfl
theorem addp (x : Ext) : Statement (.addp x) := rfl
theorem subp (x : Ext) : Statement (.subp x) := rfl
theorem mulp (x : Ext) : Statement (.mulp x) := rfl
theorem lea (x : Ext) : Statement (.lea x) := rfl
theorem abs (x : Ext) : Statement (.abs x) := rfl
theorem rol (x : Ext) : Statement (.rol x) := rfl
theorem ror (x : Ext) : Statement (.ror x) := rfl
theorem ctz (x : Ext) : Statement (.ctz x) := rfl
theorem brev (x : Ext) : Statement (.brev x) := rfl
theorem bfx (x : Ext) : Statement (.bfx x) := rfl
theorem bfxu (x : Ext) : Statement (.bfxu x) := rfl
theorem bfi (x : Ext) : Statement (.bfi x) := rfl
theorem divs (x : Ext) : Statement (.divs x) := rfl
theorem divu (x : Ext) : Statement (.divu x) := rfl
theorem rems (x : Ext) : Statement (.rems x) := rfl
theorem remu (x : Ext) : Statement (.remu x) := rfl
theorem shflu (x : Ext) : Statement (.shflu x) := rfl
theorem shfld (x : Ext) : Statement (.shfld x) := rfl
theorem vote (x : Ext) : Statement (.vote x) := rfl
theorem matchLanes (x : Ext) : Statement (.matchLanes x) := rfl
theorem rmin (x : Ext) : Statement (.rmin x) := rfl
theorem rminu (x : Ext) : Statement (.rminu x) := rfl
theorem rmaxu (x : Ext) : Statement (.rmaxu x) := rfl
theorem scan (x : Ext) : Statement (.scan x) := rfl
theorem xchg (x : Ext) : Statement (.xchg x) := rfl
theorem rng (x : Ext) : Statement (.rng x) := rfl
theorem shlp (x : Ext) : Statement (.shlp x) := rfl
theorem shrp (x : Ext) : Statement (.shrp x) := rfl
theorem sarp (x : Ext) : Statement (.sarp x) := rfl
theorem ceqp (x : Ext) : Statement (.ceqp x) := rfl
theorem cltp (x : Ext) : Statement (.cltp x) := rfl
theorem cltup (x : Ext) : Statement (.cltup x) := rfl
theorem ffma (x : Ext) : Statement (.ffma x) := rfl
theorem fnms (x : Ext) : Statement (.fnms x) := rfl
theorem fabs (x : Ext) : Statement (.fabs x) := rfl
theorem fneg (x : Ext) : Statement (.fneg x) := rfl
theorem fminn (x : Ext) : Statement (.fminn x) := rfl
theorem fmaxn (x : Ext) : Statement (.fmaxn x) := rfl
theorem fcun (x : Ext) : Statement (.fcun x) := rfl
theorem fclass (x : Ext) : Statement (.fclass x) := rfl
theorem frnd (x : Ext) : Statement (.frnd x) := rfl
theorem frcp (x : Ext) : Statement (.frcp x) := rfl
theorem frsq (x : Ext) : Statement (.frsq x) := rfl
theorem fsqrt (x : Ext) : Statement (.fsqrt x) := rfl
theorem fexp2 (x : Ext) : Statement (.fexp2 x) := rfl
theorem flog2 (x : Ext) : Statement (.flog2 x) := rfl
theorem ftanh (x : Ext) : Statement (.ftanh x) := rfl
theorem fscl (x : Ext) : Statement (.fscl x) := rfl
theorem hfma (x : Ext) : Statement (.hfma x) := rfl
theorem bfma (x : Ext) : Statement (.bfma x) := rfl
theorem hmin (x : Ext) : Statement (.hmin x) := rfl
theorem hmax (x : Ext) : Statement (.hmax x) := rfl
theorem cvtf (x : Ext) : Statement (.cvtf x) := rfl
theorem cvtfi (x : Ext) : Statement (.cvtfi x) := rfl
theorem cvtif (x : Ext) : Statement (.cvtif x) := rfl
theorem cvtt (x : Ext) : Statement (.cvtt x) := rfl
theorem cvttf (x : Ext) : Statement (.cvttf x) := rfl
theorem fredadd (x : Ext) : Statement (.fredadd x) := rfl
theorem fredmax (x : Ext) : Statement (.fredmax x) := rfl
theorem fredmin (x : Ext) : Statement (.fredmin x) := rfl
theorem fredmaxi (x : Ext) : Statement (.fredmaxi x) := rfl
theorem fredmini (x : Ext) : Statement (.fredmini x) := rfl
theorem ld (x : Ext) : Statement (.ld x) := rfl
theorem st (x : Ext) : Statement (.st x) := rfl
theorem lda (x : Ext) : Statement (.lda x) := rfl
theorem stl (x : Ext) : Statement (.stl x) := rfl
theorem lds (x : Ext) : Statement (.lds x) := rfl
theorem sts (x : Ext) : Statement (.sts x) := rfl
theorem atom (x : Ext) : Statement (.atom x) := rfl
theorem atoms (x : Ext) : Statement (.atoms x) := rfl
theorem red (x : Ext) : Statement (.red x) := rfl
theorem fence (x : Ext) : Statement (.fence x) := rfl
theorem mcst (x : Ext) : Statement (.mcst x) := rfl
theorem prf (x : Ext) : Statement (.prf x) := rfl
theorem cinv (x : Ext) : Statement (.cinv x) := rfl
theorem tile (x : Ext) : Statement (.tile x) := rfl
theorem waitm (x : Ext) : Statement (.waitm x) := rfl
theorem mma (x : Ext) : Statement (.mma x) := rfl
theorem mmasp (x : Ext) : Statement (.mmasp x) := rfl
theorem accz (x : Ext) : Statement (.accz x) := rfl
theorem accld (x : Ext) : Statement (.accld x) := rfl
theorem accst (x : Ext) : Statement (.accst x) := rfl
theorem acccvt (x : Ext) : Statement (.acccvt x) := rfl
theorem ldmeta (x : Ext) : Statement (.ldmeta x) := rfl
theorem mwait (x : Ext) : Statement (.mwait x) := rfl
theorem qset (x : Ext) : Statement (.qset x) := rfl
theorem qacq (x : Ext) : Statement (.qacq x) := rfl
theorem qcommit (x : Ext) : Statement (.qcommit x) := rfl
theorem qwait (x : Ext) : Statement (.qwait x) := rfl
theorem qfree (x : Ext) : Statement (.qfree x) := rfl
theorem cpyj (x : Ext) : Statement (.cpyj x) := rfl
theorem gatj (x : Ext) : Statement (.gatj x) := rfl
theorem colj (x : Ext) : Statement (.colj x) := rfl
theorem jwait (x : Ext) : Statement (.jwait x) := rfl
theorem jtest (x : Ext) : Statement (.jtest x) := rfl
theorem hboard (x : Ext) : Statement (.hboard x) := rfl
theorem hcancel (x : Ext) : Statement (.hcancel x) := rfl
theorem hlap (x : Ext) : Statement (.hlap x) := rfl
theorem kvrsv (x : Ext) : Statement (.kvrsv x) := rfl
theorem kvw (x : Ext) : Statement (.kvw x) := rfl
theorem kvr (x : Ext) : Statement (.kvr x) := rfl
theorem kvrt (x : Ext) : Statement (.kvrt x) := rfl
theorem kvpub (x : Ext) : Statement (.kvpub x) := rfl
theorem kvacq (x : Ext) : Statement (.kvacq x) := rfl
theorem kvwait (x : Ext) : Statement (.kvwait x) := rfl
theorem kvcmt (x : Ext) : Statement (.kvcmt x) := rfl
theorem kvroll (x : Ext) : Statement (.kvroll x) := rfl
theorem kvgen (x : Ext) : Statement (.kvgen x) := rfl
theorem kvstage (x : Ext) : Statement (.kvstage x) := rfl
theorem pawin (x : Ext) : Statement (.pawin x) := rfl
theorem pald (x : Ext) : Statement (.pald x) := rfl
theorem pain (x : Ext) : Statement (.pain x) := rfl
theorem pago (x : Ext) : Statement (.pago x) := rfl
theorem pacap (x : Ext) : Statement (.pacap x) := rfl
theorem paclr (x : Ext) : Statement (.paclr x) := rfl
theorem macroBodyWord (t : Nat) (b : Nat) : Statement (.macroBodyWord t b) := rfl
theorem fixedResultLand (t : Nat) (b : Nat) : Statement (.fixedResultLand t b) := rfl
theorem variableResultWrite (t : Nat) (b : Nat) (k : Nat) : Statement (.variableResultWrite t b k) := rfl
theorem regionComplete (t : Nat) (b : Nat) : Statement (.regionComplete t b) := rfl
theorem dividerSubstep (t : Nat) (b : Nat) : Statement (.dividerSubstep t b) := rfl
theorem coalescerGroup (t : Nat) (b : Nat) : Statement (.coalescerGroup t b) := rfl
theorem kvSubstep (t : Nat) (b : Nat) : Statement (.kvSubstep t b) := rfl
theorem paldSubstep (t : Nat) : Statement (.paldSubstep t) := rfl
theorem yieldEnd (t : Nat) (b : Nat) : Statement (.yieldEnd t b) := rfl
theorem teamWordApply (t : Nat) : Statement (.teamWordApply t) := rfl
theorem beamWake (t : Nat) (b : Nat) : Statement (.beamWake t b) := rfl
theorem watchReply (k : Nat) : Statement (.watchReply k) := rfl
theorem watchTimeout (k : Nat) : Statement (.watchTimeout k) := rfl
theorem siblingStop (t : Nat) (b : Nat) : Statement (.siblingStop t b) := rfl
theorem engineEntryStart (core : Nat) : Statement (.engineEntryStart core) := rfl
theorem engineSubstep (core : Nat) : Statement (.engineSubstep core) := rfl
theorem engineEntryComplete (core : Nat) : Statement (.engineEntryComplete core) := rfl
theorem prismWindowEnd (t : Nat) : Statement (.prismWindowEnd t) := rfl
theorem telemetryRecompute (k : Nat) : Statement (.telemetryRecompute k) := rfl
theorem sliceAccess (k : Nat) : Statement (.sliceAccess k) := rfl
theorem acknowledgement (k : Nat) : Statement (.acknowledgement k) := rfl
theorem packetArbitration (ks : (List Nat)) : Statement (.packetArbitration ks) := rfl
theorem pageWalk (core : Nat) (f : Nat) (va : (BitVec 64)) : Statement (.pageWalk core f va) := rfl
theorem faultTimeout (id : Nat) : Statement (.faultTimeout id) := rfl
theorem operandLogReplay (id : Nat) : Statement (.operandLogReplay id) := rfl
theorem shootdownRange (f : (BitVec 6)) : Statement (.shootdownRange f) := rfl
theorem shootdownSpace (f : (BitVec 6)) : Statement (.shootdownSpace f) := rfl
theorem shootdownTenant (f : (BitVec 6)) : Statement (.shootdownTenant f) := rfl
theorem shootdownDone : Statement (.shootdownDone) := rfl
theorem pageMigrate (f : Nat) (va : (BitVec 64)) (frame : Nat) : Statement (.pageMigrate f va frame) := rfl
theorem rdUpgrade (id : Nat) : Statement (.rdUpgrade id) := rfl
theorem rdGrant (writer : Nat) (va : (BitVec 64)) (f : Nat) : Statement (.rdGrant writer va f) := rfl
theorem rdInvalidate (writer : Nat) (va : (BitVec 64)) (f : Nat) : Statement (.rdInvalidate writer va f) := rfl
theorem rdAckComplete (id : Nat) : Statement (.rdAckComplete id) := rfl
theorem rdTimeout (id : Nat) : Statement (.rdTimeout id) := rfl
theorem jobComplete (k : Nat) : Statement (.jobComplete k) := rfl
theorem teamPlace (g : Nat) (core : Nat) : Statement (.teamPlace g core) := rfl
theorem quantumExpiry (t : Nat) : Statement (.quantumExpiry t) := rfl
theorem preempt (t : Nat) : Statement (.preempt t) := rfl
theorem teamRestore (t : Nat) (core : Nat) : Statement (.teamRestore t core) := rfl
theorem beamRetire (t : Nat) (b : Nat) : Statement (.beamRetire t b) := rfl
theorem teamRetire (t : Nat) : Statement (.teamRetire t) := rfl
theorem gridComplete (g : Nat) : Statement (.gridComplete g) := rfl
theorem fcfgRst (f : Nat) : Statement (.fcfgRst f) := rfl
theorem resetDrained (f : Nat) : Statement (.resetDrained f) := rfl
theorem fcfgRel (f : Nat) : Statement (.fcfgRel f) := rfl
theorem registerWrite (off : Nat) (wide : Bool) (v : (BitVec 64)) : Statement (.registerWrite off wide v) := rfl
theorem counterClear (off : Nat) : Statement (.counterClear off) := rfl
theorem gateWays (unit : Nat) (mask : (BitVec 16)) : Statement (.gateWays unit mask) := rfl
theorem gateGranules (core : Nat) (grp : Nat) (mask : (BitVec 16)) : Statement (.gateGranules core grp mask) := rfl
theorem wakeDone : Statement (.wakeDone) := rfl
theorem haloRunStart (c : Nat) : Statement (.haloRunStart c) := rfl
theorem haloRunStop (c : Nat) : Statement (.haloRunStop c) := rfl
theorem haloThrSet (c : Nat) (thr : (BitVec 5)) : Statement (.haloThrSet c thr) := rfl
theorem hnextWrite (c : Nat) (part : Nat) (v : (BitVec 64)) : Statement (.hnextWrite c part v) := rfl
theorem lapBoundary (c : Nat) : Statement (.lapBoundary c) := rfl
theorem tilePassing (c : Nat) (stop : Nat) (poison : Bool) : Statement (.tilePassing c stop poison) := rfl
theorem tileChecked (c : Nat) (stop : Nat) (crcOk : Bool) : Statement (.tileChecked c stop crcOk) := rfl
theorem tileCommit (c : Nat) (stop : Nat) : Statement (.tileCommit c stop) := rfl
theorem boardRegister (t : Nat) (id : Nat) : Statement (.boardRegister t id) := rfl
theorem write (f : Nat) : Statement (.write f) := rfl
theorem read (f : Nat) : Statement (.read f) := rfl
theorem setparam (f : Nat) : Statement (.setparam f) := rfl
theorem replay (f : Nat) : Statement (.replay f) := rfl
theorem query (f : Nat) : Statement (.query f) := rfl
theorem attest (f : Nat) : Statement (.attest f) := rfl
theorem reset (f : Nat) : Statement (.reset f) := rfl
theorem resolve (f : Nat) : Statement (.resolve f) := rfl
theorem fail (f : Nat) : Statement (.fail f) := rfl
theorem mbtailWrite (f : Nat) (v : (BitVec 32)) : Statement (.mbtailWrite f v) := rfl
theorem mbcfgWrite (f : Nat) (v : (BitVec 32)) : Statement (.mbcfgWrite f v) := rfl
theorem mbcheadWrite (f : Nat) (v : (BitVec 32)) : Statement (.mbcheadWrite f v) := rfl
theorem commandFetch (f : Nat) : Statement (.commandFetch f) := rfl
theorem replayStart (f : Nat) : Statement (.replayStart f) := rfl
theorem nodeLaunch (r : Nat) (n : Nat) : Statement (.nodeLaunch r n) := rfl
theorem nodeJob (r : Nat) (n : Nat) : Statement (.nodeJob r n) := rfl
theorem nodeWait (r : Nat) (n : Nat) : Statement (.nodeWait r n) := rfl
theorem waitPoll (r : Nat) (n : Nat) : Statement (.waitPoll r n) := rfl
theorem nodeSignal (r : Nat) (n : Nat) : Statement (.nodeSignal r n) := rfl
theorem replayEnd (r : Nat) : Statement (.replayEnd r) := rfl
theorem budgetPeriod : Statement (.budgetPeriod) := rfl
theorem refillWrite (f : Nat) (v : (BitVec 32)) : Statement (.refillWrite f v) := rfl
theorem prectlGo (p : (BitVec 4)) : Statement (.prectlGo p) := rfl
theorem gsctlEnable : Statement (.gsctlEnable) := rfl
theorem gsctlDisable : Statement (.gsctlDisable) := rfl
theorem gangSliceStart : Statement (.gangSliceStart) := rfl
theorem arrived (chip : (BitVec 16)) (gang : (BitVec 16)) (n : Nat) : Statement (.arrived chip gang n) := rfl
theorem gangDecide : Statement (.gangDecide) := rfl
theorem openGate : Statement (.openGate) := rfl
theorem forfeit (late : (List (BitVec 16))) : Statement (.forfeit late) := rfl
theorem powerOn (codes : (List (BitVec 16))) : Statement (.powerOn codes) := rfl
theorem perst (codes : (List (BitVec 16))) : Statement (.perst codes) := rfl
theorem d3hotEnter : Statement (.d3hotEnter) := rfl
theorem d0Return : Statement (.d0Return) := rfl
theorem train (l : Nat) : Statement (.train l) := rfl
theorem drain (l : Nat) : Statement (.drain l) := rfl
theorem hold (l : Nat) : Statement (.hold l) := rfl
theorem dark (l : Nat) : Statement (.dark l) := rfl
theorem relock (l : Nat) : Statement (.relock l) := rfl
theorem release (l : Nat) : Statement (.release l) := rfl
theorem down (l : Nat) : Statement (.down l) := rfl
theorem trainTimeout (l : Nat) : Statement (.trainTimeout l) := rfl
theorem bankenClear (l : Nat) (mask : (BitVec 3)) : Statement (.bankenClear l mask) := rfl
theorem flitReceive (l : Nat) (bytes : (List (BitVec 8))) : Statement (.flitReceive l bytes) := rfl
theorem nakRepeat (l : Nat) : Statement (.nakRepeat l) := rfl
theorem markerAck (l : Nat) : Statement (.markerAck l) := rfl
theorem lossOfLight (l : Nat) (bank : Nat) : Statement (.lossOfLight l bank) := rfl
theorem restripeDone (l : Nat) : Statement (.restripeDone l) := rfl
theorem restripeDecode (l : Nat) (mask : (BitVec 3)) : Statement (.restripeDecode l mask) := rfl
theorem portDown (p : Nat) : Statement (.portDown p) := rfl
theorem packetReceive (bytes : (List (BitVec 8))) : Statement (.packetReceive bytes) := rfl
theorem remoteTimeout (k : Nat) : Statement (.remoteTimeout k) := rfl
theorem capability (src : (BitVec 11)) (word : (BitVec 32)) : Statement (.capability src word) := rfl
theorem collimatorStamp (g : Nat) (k : Nat) : Statement (.collimatorStamp g k) := rfl
theorem stampedApply (g : Nat) : Statement (.stampedApply g) := rfl
theorem fabricTimeLock (t : (BitVec 64)) : Statement (.fabricTimeLock t) := rfl
theorem evcfgWrite (f : Nat) (v : (BitVec 32)) : Statement (.evcfgWrite f v) := rfl
theorem trainingComplete (l : Nat) (peer : (BitVec 11)) (link : (BitVec 7)) (level : (BitVec 2)) : Statement (.trainingComplete l peer link level) := rfl
theorem lossOfSignal (l : Nat) (bank : Nat) : Statement (.lossOfSignal l bank) := rfl
theorem preemptDrainTimeout (t : Nat) (b : Nat) : Statement (.preemptDrainTimeout t b) := rfl
theorem gangSliceEnd : Statement (.gangSliceEnd) := rfl

/-- The law for every instruction. -/
theorem all (i : Instr) : Statement i := by cases i <;> rfl

end Sys2Proof.Laws.OfForm
end

