-- ==== Sys2Proof/Tests/Slice0.lean ====
section
/-! SUPPORT. Tests: ill-formed terms that well-formedness refuses, words written out from the spec's layouts with what they decode
to, single steps on small states with results worked out from the rules, and for every statement a state and operands that meet
its hypotheses. -/

set_option Elab.async false
set_option maxRecDepth 100000

open Sys2Proof Sys2Proof.Machine Sys2Proof.Claim

namespace Sys2Proof.Tests

/-! ### A small state -/

/-- The beam of the small state. -/
def here : Ref := ⟨0, 0⟩

/-- Extended fields, all 0. -/
def z : Ext := Ext.zero

/-- One resident team of one beam of 256 registers, selected, in a machine that runs. -/
def s0 : State := { State.reset.place [] with cur := some here }

/-- The small state with its beam changed. -/
def withBeam (f : Beam → Beam) : State := s0.modBeam here f

/-- The small state with its team changed. -/
def withTeam (f : Team → Team) : State := s0.modTeam 0 f

/-- The beam with values in all 32 lanes of registers. -/
def regs (l : List (Nat × Word)) (b : Beam) : Beam :=
  l.foldl (fun b e => (List.range 32).foldl (fun b k => b.wr e.1 k e.2) b) b

/-- What the selected beam sees of i. -/
def look (i : Instr) (s : State) : Option (Env × State) :=
  match s.cur with
  | none => none
  | some r =>
    match s.team? r.t with
    | none => none
    | some T0 =>
      let T := T0.settle s.clock r.b
      match T.beams[r.b]? with
      | none => none
      | some b => some (viewOf i r T b s.clock, (s.setTeam r.t T).dropPages r (s.dueTenants r))

/-- The selected beam may issue i, and P holds of what it sees. -/
def Meets (i : Instr) (s : State) (P : Env → State → Prop) : Prop := ∃ e s1, Issues i s e s1 ∧ P e s1

/-- `Meets`, as far as it is computed. -/
def meets (i : Instr) (s : State) (p : Env → State → Bool) : Bool :=
  match look i s with
  | none => false
  | some (e, s1) =>
    i.wf && isCoded i && (s1.mayIssue e.T e.b e.r.b && !e.b.blocked e.g e.x) && inBudget e.g e.x e.b.budget &&
      (decide (e.b.chk ≠ 1) || !e.b.hazard e.g e.x e.now ((fixedLat e.n).map fun l => e.now + 4 * e.far + l)) &&
      !e.T.badRegs e.r.b e.b (readNames e.g e.x) && p e s1

theorem meets_sound {i : Instr} {s : State} {p : Env → State → Bool} (h : meets i s p = true) :
    Meets i s fun e s1 => p e s1 = true := by
  unfold meets look at h
  split at h
  · cases h
  · next e s1 hl =>
    split at hl
    · cases hl
    · next r hr =>
      split at hl
      · cases hl
      · next T0 hT =>
        simp only at hl
        split at hl
        · cases hl
        · next b hb =>
          simp only [Option.some.injEq, Prod.mk.injEq] at hl
          obtain ⟨rfl, rfl⟩ := hl
          simp only [Bool.and_eq_true, Bool.or_eq_true, Bool.not_eq_true', decide_eq_true_eq] at h
          obtain ⟨⟨⟨⟨⟨⟨hw, hc⟩, hm, hbl⟩, hg⟩, hz⟩, hs⟩, hp⟩ := h
          refine ⟨viewOf i r (T0.settle s.clock r.b) b s.clock, _, ⟨⟨hw, hc, hr, ?_, hb, rfl, rfl⟩, ⟨hm, hbl⟩, hg, ?_, hs⟩, hp⟩
          · show Option.map _ (s.team? r.t) = _
            rw [hT]; rfl
          · intro h1
            rcases hz with hz | hz
            · exact absurd h1 hz
            · exact hz

/-- The selected beam may issue i. -/
def MayIssue (i : Instr) (s : State) : Prop := ∃ e s1, Issues i s e s1

theorem mayIssue_of {i : Instr} {s : State} (h : (meets i s fun _ _ => true) = true) : MayIssue i s := by
  obtain ⟨e, s1, h, -⟩ := meets_sound h
  exact ⟨e, s1, h⟩

/-! ### Every instruction can issue -/


noncomputable def baseSamples0 : List Instr :=
  [.nop ⟨0⟩, .mov ⟨0, 4, 0, 12, none⟩, .add ⟨0, 4, 8, 12, none⟩,
   .sub ⟨0, 4, 8, 12, none⟩, .mul ⟨0, 4, 8, 12, none⟩, .and ⟨0, 4, 8, 12, none⟩,
   .or ⟨0, 4, 8, 12, none⟩, .xor ⟨0, 4, 8, 12, none⟩, .shl ⟨0, 4, 8, 12, none⟩,
   .shr ⟨0, 4, 8, 12, none⟩, .sar ⟨0, 4, 8, 12, none⟩, .min ⟨0, 4, 8, 12, none⟩,
   .max ⟨0, 4, 8, 12, none⟩, .minu ⟨0, 4, 8, 12, none⟩, .maxu ⟨0, 4, 8, 12, none⟩,
   .andn ⟨0, 4, 8, 12, none⟩, .addi ⟨0, 4, 8, 3⟩, .shli ⟨0, 4, 8, 3⟩,
   .shri ⟨0, 4, 8, 3⟩, .sari ⟨0, 4, 8, 3⟩, .andi ⟨0, 4, 8, 3⟩,
   .ceq ⟨0, 4, 8, 12, none⟩, .cne ⟨0, 4, 8, 12, none⟩, .clt ⟨0, 4, 8, 12, none⟩,
   .cle ⟨0, 4, 8, 12, none⟩, .cltu ⟨0, 4, 8, 12, none⟩, .cleu ⟨0, 4, 8, 12, none⟩,
   .sel ⟨0, 4, 8, 12, none⟩, .fadd ⟨0, 4, 8, 12, none⟩, .fsub ⟨0, 4, 8, 12, none⟩,
   .fmul ⟨0, 4, 8, 12, none⟩, .fmac ⟨0, 4, 8, 12, none⟩, .fmin ⟨0, 4, 8, 12, none⟩,
   .fmax ⟨0, 4, 8, 12, none⟩]

noncomputable def baseSamples1 : List Instr :=
  [.fceq ⟨0, 4, 8, 12, none⟩, .fclt ⟨0, 4, 8, 12, none⟩, .fcle ⟨0, 4, 8, 12, none⟩,
   .hadd ⟨0, 4, 8, 12, none⟩, .hmul ⟨0, 4, 8, 12, none⟩, .hmac ⟨0, 4, 8, 12, none⟩,
   .badd ⟨0, 4, 8, 12, none⟩, .bmul ⟨0, 4, 8, 12, none⟩, .bmac ⟨0, 4, 8, 12, none⟩,
   .shfl ⟨0, 4, 8, 12, none⟩, .shflx ⟨0, 4, 8, 12, none⟩, .ldsw ⟨0, 4, 8, 3⟩,
   .stsw ⟨0, 4, 8, 3⟩, .twrd ⟨0, 4, 0, 3⟩, .twwr ⟨0, 0, 8, 3⟩,
   .bra ⟨0, 4⟩, .brany ⟨0, 8, 4⟩, .brall ⟨0, 8, 4⟩,
   .brnone ⟨0, 8, 4⟩, .exit ⟨0⟩, .bar ⟨0⟩,
   .maskp ⟨0, 0, 8, 0, none⟩, .getm ⟨0, 4, 0, 0, none⟩, .setm ⟨0, 0, 8, 0, none⟩,
   .radd ⟨0, 4, 8, 0, none⟩, .rmax ⟨0, 4, 8, 0, none⟩, .mad ⟨0, 4, 8, 12, none⟩,
   .popc ⟨0, 4, 8, 0, none⟩, .clz ⟨0, 4, 8, 0, none⟩]

noncomputable def twinSamples0 : List Instr :=
  [.nopX z, .movX { z with d := 4, b := 12 }, .addX { z with d := 4, a := 8, b := 12 },
   .subX { z with d := 4, a := 8, b := 12 }, .mulX { z with d := 4, a := 8, b := 12 }, .andX { z with d := 4, a := 8, b := 12 },
   .orX { z with d := 4, a := 8, b := 12 }, .xorX { z with d := 4, a := 8, b := 12 }, .shlX { z with d := 4, a := 8, b := 12 },
   .shrX { z with d := 4, a := 8, b := 12 }, .sarX { z with d := 4, a := 8, b := 12 }, .minX { z with d := 4, a := 8, b := 12 },
   .maxX { z with d := 4, a := 8, b := 12 }, .minuX { z with d := 4, a := 8, b := 12 }, .maxuX { z with d := 4, a := 8, b := 12 },
   .andnX { z with d := 4, a := 8, b := 12 }, .addiX { z with d := 4, a := 8, b := 12, immb := true }, .shliX { z with d := 4, a := 8, b := 12, immb := true },
   .shriX { z with d := 4, a := 8, b := 12, immb := true }, .sariX { z with d := 4, a := 8, b := 12, immb := true }, .andiX { z with d := 4, a := 8, b := 12, immb := true },
   .ceqX { z with d := 4, a := 8, b := 12 }, .cneX { z with d := 4, a := 8, b := 12 }, .cltX { z with d := 4, a := 8, b := 12 },
   .cleX { z with d := 4, a := 8, b := 12 }, .cltuX { z with d := 4, a := 8, b := 12 }, .cleuX { z with d := 4, a := 8, b := 12 },
   .selX { z with d := 4, a := 8, b := 12 }, .faddX { z with d := 4, a := 8, b := 12 }, .fsubX { z with d := 4, a := 8, b := 12 },
   .fmulX { z with d := 4, a := 8, b := 12 }, .fmacX { z with d := 4, a := 8, b := 12 }, .fminX { z with d := 4, a := 8, b := 12 },
   .fmaxX { z with d := 4, a := 8, b := 12 }]

noncomputable def twinSamples1 : List Instr :=
  [.fceqX { z with d := 4, a := 8, b := 12 }, .fcltX { z with d := 4, a := 8, b := 12 }, .fcleX { z with d := 4, a := 8, b := 12 },
   .haddX { z with d := 4, a := 8, b := 12 }, .hmulX { z with d := 4, a := 8, b := 12 }, .hmacX { z with d := 4, a := 8, b := 12 },
   .baddX { z with d := 4, a := 8, b := 12 }, .bmulX { z with d := 4, a := 8, b := 12 }, .bmacX { z with d := 4, a := 8, b := 12 },
   .shflX { z with d := 4, a := 8, b := 12 }, .shflxX { z with d := 4, a := 8, b := 12 }, .ldswX { z with d := 4, a := 8, b := 12, immb := true },
   .stswX { z with d := 4, a := 8, b := 12, immb := true }, .twrdX { z with d := 4, b := 12, immb := true }, .twwrX { z with a := 8, b := 12, immb := true },
   .braX { z with b := 12, immb := true }, .branyX { z with a := 8, b := 12, immb := true }, .brallX { z with a := 8, b := 12, immb := true },
   .brnoneX { z with a := 8, b := 12, immb := true }, .exitX z, .barX z,
   .maskpX { z with a := 8 }, .getmX { z with d := 4 }, .setmX { z with a := 8 },
   .raddX { z with d := 4, a := 8 }, .rmaxX { z with d := 4, a := 8 }, .madX { z with d := 4, a := 8, b := 12 },
   .popcX { z with d := 4, a := 8 }, .clzX { z with d := 4, a := 8 }]

noncomputable def moreSamples0 : List Instr :=
  [.call { z with d := 4, b := 12, immb := true }, .callr { z with d := 4, a := 8 }, .ret { z with a := 8 },
   .jmpr { z with a := 8 }, .yield z, .yieldj { z with a := 8, b := 12, immb := true },
   .region { z with immb := true }, .mcall { z with lit := some 0 }, .barn z,
   .arrive { z with d := 4 }, .waitb { z with a := 8 }, .twadd { z with d := 4, b := 12 },
   .twcas { z with d := 4, a := 8, b := 12 }, .srd { z with d := 4 }, .swr { z with a := 8, x10 := 16 },
   .trap z, .eret z, .brk z,
   .mulhi { z with d := 4, a := 8, b := 12 }, .mulhiu { z with d := 4, a := 8, b := 12 }, .addp { z with d := 4, a := 8, b := 12 },
   .subp { z with d := 4, a := 8, b := 12 }, .mulp { z with d := 4, a := 8, b := 12 }, .lea { z with d := 4, a := 8, b := 12 },
   .abs { z with d := 4, a := 8 }, .rol { z with d := 4, a := 8, b := 12 }, .ror { z with d := 4, a := 8, b := 12 },
   .ctz { z with d := 4, a := 8 }, .brev { z with d := 4, a := 8 }, .bfx { z with d := 4, a := 8, b := 12 },
   .bfxu { z with d := 4, a := 8, b := 12 }, .bfi { z with d := 4, a := 8, b := 12 }, .divs { z with d := 4, a := 8, b := 12 },
   .divu { z with d := 4, a := 8, b := 12 }]

noncomputable def moreSamples1 : List Instr :=
  [.rems { z with d := 4, a := 8, b := 12 }, .remu { z with d := 4, a := 8, b := 12 }, .shflu { z with d := 4, a := 8, b := 12 },
   .shfld { z with d := 4, a := 8, b := 12 }, .vote { z with d := 4, a := 8 }, .matchLanes { z with d := 4, a := 8 },
   .rmin { z with d := 4, a := 8 }, .rminu { z with d := 4, a := 8 }, .rmaxu { z with d := 4, a := 8 },
   .scan { z with d := 4, a := 8 }, .xchg { z with d := 4, a := 8 }, .rng { z with d := 4, a := 8, b := 12 },
   .shlp { z with d := 4, a := 8, b := 12 }, .shrp { z with d := 4, a := 8, b := 12 }, .sarp { z with d := 4, a := 8, b := 12 },
   .ceqp { z with d := 4, a := 8, b := 12 }, .cltp { z with d := 4, a := 8, b := 12 }, .cltup { z with d := 4, a := 8, b := 12 },
   .ffma { z with d := 4, a := 8, b := 12, c := 16 }, .fnms { z with d := 4, a := 8, b := 12, c := 16 }, .fabs { z with d := 4, a := 8 },
   .fneg { z with d := 4, a := 8 }, .fminn { z with d := 4, a := 8, b := 12 }, .fmaxn { z with d := 4, a := 8, b := 12 },
   .fcun { z with d := 4, a := 8, b := 12 }, .fclass { z with d := 4, a := 8 }, .frnd { z with d := 4, a := 8 },
   .frcp { z with d := 4, a := 8 }, .frsq { z with d := 4, a := 8 }, .fsqrt { z with d := 4, a := 8 },
   .fexp2 { z with d := 4, a := 8 }, .flog2 { z with d := 4, a := 8 }, .ftanh { z with d := 4, a := 8 },
   .fscl { z with d := 4, a := 8, b := 12 }]

noncomputable def moreSamples2 : List Instr :=
  [.hfma { z with d := 4, a := 8, b := 12, c := 16 }, .bfma { z with d := 4, a := 8, b := 12, c := 16 }, .hmin { z with d := 4, a := 8, b := 12 },
   .hmax { z with d := 4, a := 8, b := 12 }, .cvtf { z with d := 4, a := 8, x10 := 8 }, .cvtfi { z with d := 4, a := 8 },
   .cvtif { z with d := 4, a := 8 }, .cvtt { z with d := 4, a := 8, b := 12 }, .cvttf { z with d := 4, a := 8, b := 12 },
   .fredadd { z with d := 4, a := 8 }, .fredmax { z with d := 4, a := 8 }, .fredmin { z with d := 4, a := 8 },
   .fredmaxi { z with d := 4, a := 8, c := 16 }, .fredmini { z with d := 4, a := 8, c := 16 }, .ld { z with d := 4, a := 8, b := 12, immb := true },
   .st { z with a := 8, b := 12, c := 16, immb := true }, .lda { z with d := 4, a := 8, b := 12, immb := true }, .stl { z with a := 8, b := 12, c := 16, immb := true },
   .lds { z with d := 4, a := 8, b := 12, immb := true }, .sts { z with a := 8, b := 12, c := 16, immb := true }, .atom { z with d := 4, a := 8, b := 12, c := 16, immb := true, x10 := 2 },
   .atoms { z with d := 4, a := 8, b := 12, c := 16, immb := true, x10 := 2 }, .red { z with a := 8, b := 12, c := 16, immb := true, x10 := 2 }, .fence z,
   .mcst { z with a := 8, b := 12, c := 16, immb := true }, .prf { z with a := 8, b := 12, immb := true }, .cinv z,
   .tile { z with a := 8, b := 12, immb := true }, .waitm { z with d := 4, a := 8, b := 12, c := 16, immb := true, x10 := 2 }, .mma { z with a := 8, b := 12 },
   .mmasp { z with d := 4, a := 8, b := 12 }, .accz z, .accld { z with a := 8 },
   .accst { z with d := 4 }]

noncomputable def moreSamples3 : List Instr :=
  [.acccvt { z with d := 4, b := 12 }, .ldmeta { z with d := 4, a := 8, b := 12, immb := true }, .mwait z,
   .qset { z with a := 8 }, .qacq { z with d := 4 }, .qcommit { z with a := 8, b := 12, flg := 2 },
   .qwait { z with d := 4 }, .qfree { z with a := 8 }, .cpyj { z with d := 4, a := 8 },
   .gatj { z with d := 4, a := 8 }, .colj { z with d := 4, a := 8 }, .jwait { z with a := 8 },
   .jtest { z with d := 4, a := 8 }, .hboard { z with d := 4, a := 8, b := 12, c := 16 }, .hcancel { z with d := 4, a := 8 },
   .hlap { z with d := 4 }, .kvrsv { z with d := 4, a := 8, b := 12 }, .kvw { z with d := 4, a := 8, b := 12, c := 16 },
   .kvr { z with d := 4, a := 8, b := 12, c := 16 }, .kvrt { z with d := 4, a := 8, b := 12, c := 16 }, .kvpub { z with d := 4, a := 8, b := 12, c := 16 },
   .kvacq { z with d := 4, a := 8, b := 12 }, .kvwait { z with d := 4, a := 8, b := 12, c := 16 }, .kvcmt { z with a := 8, b := 12 },
   .kvroll { z with d := 4, a := 8 }, .kvgen { z with d := 4, a := 8 }, .kvstage { z with d := 4, a := 8 },
   .pawin { z with x10 := 2 }, .pald { z with a := 8 }, .pain { z with a := 8 },
   .pago z, .pacap { z with d := 4 }, .paclr z]


theorem witness_issue_baseSamples0 : ∀ i ∈ baseSamples0, MayIssue i s0 := by
  have h : ∀ i ∈ baseSamples0, (meets i s0 fun _ _ => true) = true := by unfold baseSamples0; decide
  exact fun i hi => mayIssue_of (h i hi)

theorem witness_issue_baseSamples1 : ∀ i ∈ baseSamples1, MayIssue i s0 := by
  have h : ∀ i ∈ baseSamples1, (meets i s0 fun _ _ => true) = true := by unfold baseSamples1; decide
  exact fun i hi => mayIssue_of (h i hi)

theorem witness_issue_twinSamples0 : ∀ i ∈ twinSamples0, MayIssue i s0 := by
  have h : ∀ i ∈ twinSamples0, (meets i s0 fun _ _ => true) = true := by unfold twinSamples0; decide
  exact fun i hi => mayIssue_of (h i hi)

theorem witness_issue_twinSamples1 : ∀ i ∈ twinSamples1, MayIssue i s0 := by
  have h : ∀ i ∈ twinSamples1, (meets i s0 fun _ _ => true) = true := by unfold twinSamples1; decide
  exact fun i hi => mayIssue_of (h i hi)

theorem witness_issue_moreSamples0 : ∀ i ∈ moreSamples0, MayIssue i s0 := by
  have h : ∀ i ∈ moreSamples0, (meets i s0 fun _ _ => true) = true := by unfold moreSamples0; decide
  exact fun i hi => mayIssue_of (h i hi)

theorem witness_issue_moreSamples1 : ∀ i ∈ moreSamples1, MayIssue i s0 := by
  have h : ∀ i ∈ moreSamples1, (meets i s0 fun _ _ => true) = true := by unfold moreSamples1; decide
  exact fun i hi => mayIssue_of (h i hi)

theorem witness_issue_moreSamples2 : ∀ i ∈ moreSamples2, MayIssue i s0 := by
  have h : ∀ i ∈ moreSamples2, (meets i s0 fun _ _ => true) = true := by unfold moreSamples2; decide
  exact fun i hi => mayIssue_of (h i hi)

theorem witness_issue_moreSamples3 : ∀ i ∈ moreSamples3, MayIssue i s0 := by
  have h : ∀ i ∈ moreSamples3, (meets i s0 fun _ _ => true) = true := by unfold moreSamples3; decide
  exact fun i hi => mayIssue_of (h i hi)


/-- The state has beam r, and P holds of it and its team. -/
def Finds (s : State) (r : Ref) (P : Team → Beam → Prop) : Prop := ∃ T b, HasBeam s r T b ∧ P T b

/-- `Finds`, computed. -/
def finds (s : State) (r : Ref) (p : Team → Beam → Bool) : Bool :=
  match s.team? r.t with
  | none => false
  | some T =>
    match T.beams[r.b]? with
    | none => false
    | some b => p T b

theorem finds_sound {s : State} {r : Ref} {p : Team → Beam → Bool} (h : finds s r p = true) :
    Finds s r fun T b => p T b = true := by
  unfold finds at h
  split at h
  · cases h
  · next T hT =>
    split at h
    · cases h
    · next b hb => exact ⟨T, b, ⟨hT, hb⟩, h⟩

/-- The selected beam tries i, and P holds of what it sees. -/
def tries (i : Instr) (s : State) (p : Env → State → Bool) : Bool :=
  match look i s with
  | none => false
  | some (e, s1) => i.wf && isCoded i && p e s1

theorem attempts_sound {i : Instr} {s : State} {p : Env → State → Bool} (h : tries i s p = true) :
    ∃ e s1, Attempts i s e s1 ∧ p e s1 = true := by
  unfold tries look at h
  split at h
  · cases h
  · next e s1 hl =>
    split at hl
    · cases hl
    · next r hr =>
      split at hl
      · cases hl
      · next T0 hT =>
        simp only at hl
        split at hl
        · cases hl
        · next b hb =>
          simp only [Option.some.injEq, Prod.mk.injEq] at hl
          obtain ⟨rfl, rfl⟩ := hl
          simp only [Bool.and_eq_true] at h
          refine ⟨viewOf i r (T0.settle s.clock r.b) b s.clock, _, ⟨h.1.1, h.1.2, hr, ?_, hb, rfl, rfl⟩, h.2⟩
          show Option.map _ (s.team? r.t) = _
          rw [hT]; rfl

/-- The small state with its grid changed. -/
def withGrid (f : Grid → Grid) : State :=
  match s0.grid? 0 with
  | none => s0
  | some G => s0.setGrid 0 (f G)

/-- A grid whose scope cap is DV, which traps or clamps. -/
def sCap (trap : Bool) : State := (withGrid fun G => { G with cap := 1, trap := trap })


/-! ### Witnesses: integer, cross-lane, division -/

/-- An extended instruction with registers 4, 8, 12 and 16. -/
def abc : Ext := { z with d := 4, a := 8, b := 12, c := 16 }

theorem witness_integer : MayIssue (.add ⟨0, 4, 8, 12, none⟩) s0 ∧ MayIssue (.addX { z with d := 4, a := 8, b := 12 }) s0 ∧
    MayIssue (.bfi { z with d := 4, a := 8, b := 12 }) s0 ∧ MayIssue (.lea { z with d := 4, a := 8, b := 12, x10 := 7 }) s0 ∧
    ∃ e : Env, e.x.immb = true ∧ e.x.lit = none ∧ e.bv 0 = 0xFFFFFFFF := by
  refine ⟨mayIssue_of (by decide), mayIssue_of (by decide), mayIssue_of (by decide), mayIssue_of (by decide), ?_⟩
  exact ⟨viewOf (.lea { z with d := 4, a := 8, immb := true, b := 1023 }) here ((s0.team? 0).getD (probeLaunch.team 0 0 0 0 0))
    ((s0.beam? here).getD ((probeLaunch.team 0 0 0 0 0).beams[0]'(by decide))) 0, by decide⟩

/-- A division of lane 0 that may take its first sub-step. -/
def sDiv (n : Nat) : State :=
  { withBeam fun b => { b with longs := [⟨0x10000, 0, 0, .div 0 4 (List.replicate 32 7) (List.replicate 32 2) 0xFFFFFFFF 0 n⟩] } with
    nextId := 1, clock := 8 }

theorem witness_divisions :
    (Meets (.divs { z with d := 4, a := 8, b := 12 }) s0 fun e _ => decide (e.b.resume = none) = true) ∧
    ∀ g ∈ [0, 3], Finds (sDiv g) here fun T b => (decide (b.longs =
      [⟨BitVec.ofNat 64 0x10000, 0, 0, .div 0 4 (List.replicate 32 7) (List.replicate 32 2) 0xFFFFFFFF 0 g⟩]) &&
      decide ((sDiv g).divFirst T.coreId (here.b % 4) = some (0, 0)) && decide (b.halt = .run) &&
      decide (Max.max 0 (sget 0 ((sDiv g).core T.coreId).divFree (here.b % 4)) + 8 ≤ (sDiv g).clock)) = true := by
  refine ⟨meets_sound (by decide), fun g hg => finds_sound ?_⟩
  revert g
  decide

/-- Two teams of a paired grid; the second waits at `XCHG` with tag 5, or has retired, or is ready. -/
def sPair (st : Status) : State :=
  match s0.grid? 0, s0.team? 0 with
  | some G, some T =>
    (s0.setGrid 0 { G with launch := { G.launch with paired := true, gx := 2 }, next := 2 }).setTeam 1
      { T with index := 1, life := .resident 1, beams := T.beams.map fun b => { b with status := st } }
  | _, _ => s0

def xchg5 : Instr := .xchg { z with d := 4, a := 8, x10 := 5 }

theorem witness_exchange :
    (Meets xchg5 s0 fun e s1 => (s1.gridOf e.T).elim true (fun g => !g.launch.paired) = true) ∧
    ∀ st ∈ [Status.xchg 5 1 [(0, 9)] 4 0, .retired, .ready], Meets xchg5 (sPair st) fun e s1 =>
      ((s1.gridOf e.T).any (fun g => g.launch.paired) && (match s1.pairOf e.T with
        | none => false
        | some (u, V) => decide (u ≠ e.r.t) && (match V.beams[e.r.b]? with | none => false | some q => decide (q.status = st)))) =
      true := by
  refine ⟨meets_sound (by decide), fun st hs => meets_sound ?_⟩
  revert st
  decide

/-! ### Witnesses: floating point -/

theorem witness_float : MayIssue (.fadd ⟨0, 4, 8, 12, none⟩) s0 ∧ MayIssue (.ffma { abc with x10 := 1 }) s0 ∧
    MayIssue (.cvtf { z with d := 4, a := 8, x10 := 8 }) s0 ∧ MayIssue (.fredadd { z with d := 4, a := 8 }) s0 := by
  refine ⟨mayIssue_of (by decide), mayIssue_of (by decide), mayIssue_of (by decide), mayIssue_of (by decide)⟩

/-- A signalling and a quiet NaN, two infinities, infinity and zero, two numbers that cancel. -/
theorem witness_special_operands :
    isNanBits .fp32 0x7F800001 = true ∧ signalling .fp32 0x7F800001 = true ∧ isNanBits .fp16 0x7E00 = true ∧
    (isInfBits .bf16 0x7F80 = true ∧ isInfBits .bf16 0xFF80 = true ∧ sgn .bf16 0x7F80 ≠ sgn .bf16 0xFF80) ∧
    (isInfBits .fp32 0x7F800000 = true ∧ mag .fp32 0x80000000 = 0) ∧
    (mag .fp32 0x3F800000 = mag .fp32 0xBF800000 ∧ mag .fp32 0x3F800000 < infMag .fp32 ∧
      sgn .fp32 0x3F800000 ≠ sgn .fp32 0xBF800000) := by decide

/-- Lane 3 holds 2, every other lane 1: `FREDMAX` selects lane 3; with NaNs in every lane, none. -/
theorem witness_reductions :
    (Meets (.fredmax { z with d := 4, a := 8 }) (withBeam fun b => (regs [(8, 0x3F800000)] b).wr 8 3 0x40000000) fun e _ =>
      (decide (3 ∈ e.activeLanes) && !isNanBits .fp32 (e.a 3).toNat && decide (∀ k ∈ e.activeLanes,
        isNanBits .fp32 (e.a k).toNat = false → orderKey .fp32 (e.a k).toNat ≤ orderKey .fp32 (e.a 3).toNat ∧
        (orderKey .fp32 (e.a k).toNat = orderKey .fp32 (e.a 3).toNat → 3 ≤ k))) = true) ∧
    (Meets (.fredmini { z with d := 4, a := 8, c := 16 }) (withBeam (regs [(8, 0x7FC00000)])) fun e _ =>
      (decide (e.act ≠ 0) && decide (∀ l ∈ e.activeLanes, isNanBits .fp32 (e.a l).toNat = true)) = true) ∧
    (Meets (.fredmaxi { z with d := 4, a := 8, c := 16 }) (withBeam fun b => { b with exm := 0 }) fun e _ => decide (e.act = 0) = true) :=
  ⟨meets_sound (by decide), meets_sound (by decide), meets_sound (by decide)⟩

/-- One third rounds to a finite number and raises NX; one half raises nothing. -/
theorem witness_rounding : mag .fp16 (pack .fp16 .rne (.fin false 0xAAAAAAAB (-33) false)).1 < infMag .fp16 ∧
    (pack .fp16 .rne (.fin false 0xAAAAAAAB (-33) false)).2.getLsbD 0 = true ∧
    mag .fp16 (pack .fp16 .rne (.fin false 1 (-1) false)).1 < infMag .fp16 ∧
    (pack .fp16 .rne (.fin false 1 (-1) false)).2.getLsbD 0 = false := by decide

/-! ### Witnesses: control -/

theorem witness_control :
    (Meets (.brall ⟨0, 8, 4⟩) (withBeam (regs [(8, 1)])) fun e _ =>
      decide (e.activeLanes ≠ [] ∧ (e.activeLanes.filter fun l => (e.a l).toNat % 2 = 1) = e.activeLanes) = true) ∧
    (Meets (.branyX { z with a := 8, b := 1023, immb := true }) s0 fun e _ =>
      decide ((e.activeLanes.filter fun l => (e.a l).toNat % 2 = 1) = []) = true) ∧
    (Meets (.callr { z with d := 4, a := 8 }) (withBeam (regs [(8, 0x10000)])) fun e _ => decide ((beamPair e).toNat % 4 = 0) = true) ∧
    (Meets (.callr { z with d := 4, a := 8 }) (withBeam (regs [(8, 0x10002)])) fun e _ => decide ((beamPair e).toNat % 4 ≠ 0) = true) ∧
    (Meets (.ret { z with a := 8 }) (withBeam (regs [(8, 0x10000)])) fun e _ => decide ((beamPair e).toNat % 4 = 0) = true) ∧
    (Meets (.jmpr { z with a := 8 }) (withBeam (regs [(8, 3)])) fun e _ => decide ((beamPair e).toNat % 4 ≠ 0) = true) :=
  ⟨meets_sound (by decide), meets_sound (by decide), meets_sound (by decide), meets_sound (by decide), meets_sound (by decide),
    meets_sound (by decide)⟩

/-- `EXIT` of half the lanes, of all of them, and of all of them in a handler. -/
theorem witness_masks : MayIssue (.maskp ⟨0, 0, 8, 0, none⟩) s0 ∧ MayIssue (.yield z) s0 ∧
    (Meets (.exit ⟨0⟩) (withBeam fun b => { b with exm := 0xFFFF }) fun e _ => decide (e.b.lvm &&& ~~~e.act ≠ 0) = true) ∧
    (Meets (.exitX z) s0 fun e _ => decide (e.b.lvm &&& ~~~e.act = 0) = true) ∧
    (Meets (.exit ⟨0⟩) (withBeam fun b => { b with cause := 0x20001, tvec := 0x40000 }) fun e _ =>
      (decide (e.b.lvm &&& ~~~e.act = 0) && causeInh e.b.cause) = true) :=
  ⟨mayIssue_of (by decide), mayIssue_of (by decide), meets_sound (by decide), meets_sound (by decide), meets_sound (by decide)⟩


/-- The small state with a second beam in its team. -/
def sTwo : State := withTeam fun T => { T with beams := T.beams ++ T.beams }

/-- A beam of the team is missing at `BAR` once `a` have arrived. -/
def missing (T : Team) (a : BitVec 16) : Bool :=
  (T.beams.mapIdx fun k b => decide (b.status ≠ .retired) && decide (b.lvm ≠ 0) && !a.getLsbD k).any id

theorem missing_iff (T : Team) (a : BitVec 16) : missing T a = true ↔ MissingAtBar T a := by
  simp only [missing, MissingAtBar, List.any_eq_true, List.mem_mapIdx, id_eq]
  constructor
  · rintro ⟨x, ⟨k, hk, hx⟩, rfl⟩
    simp only [Bool.and_eq_true, decide_eq_true_eq, Bool.not_eq_true'] at hx
    exact ⟨k, T.beams[k], by simp [hk], hx.1.1, hx.1.2, hx.2⟩
  · rintro ⟨k, b, hb, h1, h2, h3⟩
    obtain ⟨hk, rfl⟩ := List.getElem?_eq_some_iff.mp hb
    refine ⟨true, ⟨k, hk, ?_⟩, rfl⟩
    simp only [Bool.and_eq_true, decide_eq_true_eq, Bool.not_eq_true']
    exact ⟨⟨h1, h2⟩, h3⟩

theorem witness_barriers :
    (∃ e s1, Issues (.bar ⟨0⟩) sTwo e s1 ∧ e.r.b < 16 ∧ MissingAtBar e.T (e.T.arrived ||| BitVec.ofNat 16 (2 ^ e.r.b))) ∧
    (∃ e s1, Issues (.barX z) s0 e s1 ∧ e.r.b < 16 ∧ ¬ MissingAtBar e.T (e.T.arrived ||| BitVec.ofNat 16 (2 ^ e.r.b))) := by
  constructor
  · obtain ⟨e, s1, h, hp⟩ := (meets_sound (i := .bar ⟨0⟩) (s := sTwo)
      (p := fun e _ => decide (e.r.b < 16) && missing e.T (e.T.arrived ||| BitVec.ofNat 16 (2 ^ e.r.b))) (by decide))
    simp only [Bool.and_eq_true, decide_eq_true_eq] at hp
    exact ⟨e, s1, h, hp.1, (missing_iff ..).mp hp.2⟩
  · obtain ⟨e, s1, h, hp⟩ := (meets_sound (i := .barX z) (s := s0)
      (p := fun e _ => decide (e.r.b < 16) && !missing e.T (e.T.arrived ||| BitVec.ofNat 16 (2 ^ e.r.b))) (by decide))
    simp only [Bool.and_eq_true, decide_eq_true_eq, Bool.not_eq_true'] at hp
    refine ⟨e, s1, h, hp.1, fun hm => ?_⟩
    have := (missing_iff ..).mpr hm
    rw [hp.2] at this
    cases this

/-- A `BARN` of two beams waits, one of one beam ends its phase; `WAITB` of the token 0 waits at a new barrier, of another goes on. -/
theorem witness_named_barriers : MayIssue (.arrive { z with d := 4 }) s0 ∧
    (Meets (.barn { z with x10 := 0x1F }) s0 fun e _ =>
      decide ((arriveAt (barrierOf e.T 15) 2).2.ph = (arriveAt (barrierOf e.T 15) 2).1) = true) ∧
    (Meets (.barn z) s0 fun e _ => decide ((arriveAt (barrierOf e.T 0) 1).2.ph ≠ (arriveAt (barrierOf e.T 0) 1).1) = true) ∧
    (Meets (.waitb { z with a := 8 }) s0 fun e _ => decide ((barrierOf e.T 0).ph = beamA e) = true) ∧
    (Meets (.waitb { z with a := 8 }) (withBeam (regs [(8, 1)])) fun e _ => decide ((barrierOf e.T 0).ph ≠ beamA e) = true) :=
  ⟨mayIssue_of (by decide), meets_sound (by decide), meets_sound (by decide), meets_sound (by decide), meets_sound (by decide)⟩

/-- A team word whose write is due, with a `TWADD` that waits for its old value. -/
def sTw : State := withTeam fun T => { T with
  twq := [⟨0, 0, 3, .add 5, 0xFFFFFFFF, 4, some 7⟩]
  beams := T.beams.map fun b => { b with pends := [{ id := 7, ready := 4, names := [4], vals := [], wait := 1, exact := true, after := [] }] } }

theorem witness_team_words : MayIssue (.twrd ⟨0, 4, 0, 15⟩) s0 ∧ MayIssue (.twwr ⟨0, 0, 8, 0⟩) s0 ∧
    MayIssue (.twadd { z with d := 4, b := 12 }) s0 ∧ MayIssue (.twcas { z with d := 4, a := 8, b := 12 }) s0 ∧
    TwOrdered [⟨0, 0, 3, .add 5, 0, 4, none⟩, ⟨0, 1, 3, .add 5, 0, 4, none⟩] ∧
    Finds sTw here fun T b => (decide (T.twq = [⟨0, 0, 3, .add 5, 0xFFFFFFFF, 4, some 7⟩]) && decide (0 ≤ sTw.clock) &&
      b.pends.any fun p => decide (p.id = 7)) = true :=
  ⟨mayIssue_of (by decide), mayIssue_of (by decide), mayIssue_of (by decide), mayIssue_of (by decide), by unfold TwOrdered; decide,
    finds_sound (by decide)⟩

/-- R150: an arrival waits for the team-word write that its own beam has made, not for another beam's. -/
theorem test_arrival_held :
    ((sTw.team? 0).any fun T => T.beams.any fun b => sTw.unitHeld T b 0 0x36 z && !sTw.unitHeld T b 1 0x36 z &&
      !sTw.unitHeld T b 0 0x04A z) = true := by decide

/-- `SRD` of the first and the last register, and of a pair. -/
theorem witness_special_reads :
    (∀ n ∈ ([0, 0x23] : List Nat), MayIssue (.srd { z with d := 4, x10 := BitVec.ofNat 10 n }) s0) ∧
    (∀ n ∈ pairRegs, MayIssue (.srd { z with d := 4, flg := 1, x10 := BitVec.ofNat 10 n }) s0) := by
  have h1 : ∀ n ∈ ([0, 0x23] : List Nat), (meets (.srd { z with d := 4, x10 := BitVec.ofNat 10 n }) s0 fun _ _ => true) = true := by decide
  have h2 : ∀ n ∈ pairRegs, (meets (.srd { z with d := 4, flg := 1, x10 := BitVec.ofNat 10 n }) s0 fun _ _ => true) = true := by decide
  exact ⟨fun n hn => mayIssue_of (h1 n hn), fun n hn => mayIssue_of (h2 n hn)⟩

/-- The small state with the tenant-assign right. -/
def sTar : State :=
  match s0.grid? 0 with
  | none => s0
  | some G => s0.setGrid 0 { G with tar := true }

theorem witness_special_writes :
    (Meets (.swr { z with a := 8, x10 := 0x0F }) s0 fun e s1 => decide (((s1.gridOf e.T).any fun g => g.tar) = false) = true) ∧
    (Meets (.swr { z with a := 8, x10 := 0x0F }) sTar fun e s1 => (((s1.gridOf e.T).any fun g => g.tar) && decide (e.act ≠ 0)) = true) ∧
    (Meets (.swr { z with a := 8, x10 := 0x10 }) s0 fun e _ => decide (e.act ≠ 0) = true) ∧
    (Meets (.swr { z with a := 8, x10 := 0x13 }) s0 fun e _ => decide (e.act ≠ 0) = true) ∧
    (Meets (.swr { z with a := 8, x10 := 0x18 }) (withBeam fun b => { b with exm := 0 }) fun e _ => decide (e.act = 0) = true) :=
  ⟨meets_sound (by decide), meets_sound (by decide), meets_sound (by decide), meets_sound (by decide), meets_sound (by decide)⟩

/-- A result on its way to v4, due in this cycle. -/
def sFix : State := withBeam fun b => { b with fix := [⟨0, [(regKey 4 0, 7)], [4], 1, none⟩] }
/-- A variable-latency result that has arrived. -/
def sPend : State := withBeam fun b => { b with pends := [⟨0, 0, [4], [(regKey 4 0, 7)], 0, false, []⟩] }

theorem witness_results :
    (Finds sFix here fun _ b => decide (b.fix = [⟨0, [(regKey 4 0, 7)], [4], 1, none⟩] ∧ 0 ≤ sFix.clock) = true) ∧
    (Finds sPend here fun _ b => decide (b.pends[0]? = some ⟨0, 0, [4], [(regKey 4 0, 7)], 0, false, []⟩ ∧ 0 ≤ sPend.clock ∧
      (∀ a ∈ sPend.net.acks, a.id ∉ ([] : List Nat)) ∧ b.status ≠ .region) = true) := ⟨finds_sound (by decide), finds_sound (by decide)⟩

/-- The small state with a budget of 256 registers. -/
def sSmall : State := withBeam fun b => { b with budget := 256 }

/-- A `REGION` of base 896 that started in cycle 0, at the cycle in which it has made its four copies. -/
def sRegion : State :=
  { withBeam fun b => { b with status := .region, longs := [⟨0x10000, 0, 0, .region 896 0 0 (some 0)⟩] } with clock := 72 }

/-- `REGION #128` in a budget of 256, the highest that fits; `REGION #160`, which does not. -/
theorem witness_region :
    (Meets (.region { z with immb := true, b := 128 }) sSmall fun e _ =>
      decide (e.b.resume = none ∧ e.x.immWord.toNat + 127 < e.b.budget) = true) ∧
    (Meets (.region { z with immb := true, b := 160 }) sSmall fun e _ =>
      decide (e.b.resume = none ∧ e.x.immWord.toNat + 127 ≥ e.b.budget) = true) ∧
    (∃ T b, HasBeam sRegion here T b ∧ b.status = .region ∧ b.longs = [⟨0x10000, 0, 0, .region 896 0 0 (some 0)⟩] ∧
      0 + regionCycles b 0 ≤ sRegion.clock ∧ WindowCoherent b) := by
  refine ⟨meets_sound (by decide), meets_sound (by decide), ?_⟩
  obtain ⟨T, b, hb, hp⟩ := finds_sound (s := sRegion) (r := here) (p := fun _ b => decide (b.status = .region ∧
      b.longs = [⟨0x10000, 0, 0, .region 896 0 0 (some 0)⟩] ∧ 0 + regionCycles b 0 ≤ sRegion.clock ∧ b.win = [] ∧ b.main = [])) (by decide)
  simp only [decide_eq_true_eq] at hp
  obtain ⟨h1, h2, h3, h4, h5⟩ := hp
  exact ⟨T, b, hb, h1, h2, h3, fun n l _ _ _ => by rw [h4, h5]⟩

/-- A core whose control store has the body of R92's example at entry 0: one `FMUL`, one word that no body may hold. -/
def sStore : State :=
  { s0.setCore 0 { Core.init with store := [(0, 0x2BDE3CF9), (1, 0x06A00000)], lens := [(0, 2)] } with cur := some here }

/-- A beam in body word w. -/
def sBody (w : Nat) : State :=
  sStore.modBeam here fun b => { b with mcall := some ⟨0, w, 2, [0, 4, 8, 0, 0, 0, 0, 0], 0x10014⟩ }

theorem witness_microprograms :
    (Meets (.mcall { z with a := 8, lit := some 0 }) sStore fun e s1 => decide (e.b.resume = none ∧ e.x.a.toNat < e.b.budget ∧
      sget 0 (s1.core e.T.coreId).lens 0 ≠ 0) = true) ∧
    (Meets (.mcall { z with lit := some (2 ^ 30) }) sStore fun e s1 => decide (e.b.resume = none ∧
      sget 0 (s1.core e.T.coreId).lens 1 = 0) = true) ∧
    (Meets (.mcall { z with a := 256, lit := some 0 }) sSmall fun e _ => decide (e.b.resume = none ∧ e.b.budget ≤ e.x.a.toNat) = true) ∧
    (Meets (.fmul ⟨5, 120, 121, 121, none⟩) (sBody 0) fun e s1 => decide (e.b.mcall.isSome ∧
      decodeWords [sget 0 (s1.core e.T.coreId).store 0] = some (.fmul ⟨5, 120, 121, 121, none⟩)) = true) ∧
    decodeWords [0x06A00000] = some (.exit ⟨0⟩) ∧ bodyMayHold (.fmul ⟨5, 120, 121, 121, none⟩) ∧ ¬ bodyMayHold (.exit ⟨0⟩) ∧
    Finds (sBody 1) here fun T _ => decide (sget 0 ((sBody 1).core T.coreId).store 1 = 0x06A00000) = true := by
  refine ⟨meets_sound (by decide), meets_sound (by decide), meets_sound (by decide), meets_sound (by decide), by decide, ?_, ?_,
    finds_sound (by decide)⟩
  · exact ⟨by decide, by decide, .b3 ⟨5, 120, 121, 121, none⟩, rfl, by decide⟩
  · rintro ⟨-, -, -, -, h⟩
    exact absurd h (by decide)


/-! ### Witnesses: issue, traps -/

theorem witness_issue_checks :
    (∃ e s1, Attempts (.add ⟨0, 4, 8, 12, none⟩) (withBeam fun b => { b with issueAt := 1 }) e s1 ∧ ¬ e.ready s1) ∧
    (∃ e s1, Attempts (.add ⟨0, 4, 8, 12, none⟩) (withBeam fun b => { b with budget := 8 }) e s1 ∧ e.ready s1 ∧ ¬ e.inBudget) ∧
    (∃ e s1, Attempts (.add ⟨0, 4, 8, 12, none⟩) (withBeam fun b => { b with chk := 1, fix := [⟨4, [(regKey 8 0, 7)], [8], 0, none⟩] }) e s1 ∧
      e.ready s1 ∧ e.inBudget ∧ ¬ e.noHazard) := by
  refine ⟨?_, ?_, ?_⟩
  · obtain ⟨e, s1, h, hp⟩ := attempts_sound (i := .add ⟨0, 4, 8, 12, none⟩) (s := withBeam fun b => { b with issueAt := 1 })
      (p := fun e s1 => !s1.mayIssue e.T e.b e.r.b) (by decide)
    refine ⟨e, s1, h, fun hr => ?_⟩
    rw [hr.1] at hp
    cases hp
  · obtain ⟨e, s1, h, hp⟩ := attempts_sound (i := .add ⟨0, 4, 8, 12, none⟩) (s := withBeam fun b => { b with budget := 8 })
      (p := fun e s1 => s1.mayIssue e.T e.b e.r.b && !e.b.blocked e.g e.x && !Machine.inBudget e.g e.x e.b.budget) (by decide)
    simp only [Bool.and_eq_true, Bool.not_eq_true'] at hp
    refine ⟨e, s1, h, ⟨hp.1.1, hp.1.2⟩, fun hr => ?_⟩
    rw [Env.inBudget, hp.2] at hr
    cases hr
  · obtain ⟨e, s1, h, hp⟩ := attempts_sound (i := .add ⟨0, 4, 8, 12, none⟩)
      (s := withBeam fun b => { b with chk := 1, fix := [⟨4, [(regKey 8 0, 7)], [8], 0, none⟩] })
      (p := fun e s1 => s1.mayIssue e.T e.b e.r.b && !e.b.blocked e.g e.x && Machine.inBudget e.g e.x e.b.budget && decide (e.b.chk = 1) &&
        e.b.hazard e.g e.x e.now ((fixedLat e.n).map fun l => e.now + 4 * e.far + l)) (by decide)
    simp only [Bool.and_eq_true, Bool.not_eq_true', decide_eq_true_eq] at hp
    refine ⟨e, s1, h, ⟨hp.1.1.1.1, hp.1.1.1.2⟩, hp.1.1.2, fun hr => ?_⟩
    rw [hr hp.1.2] at hp
    exact absurd hp.2 (by decide)

/-- A beam outside a body, in its first word and in its last. -/
theorem witness_issue_moves :
    (Finds s0 here fun _ b => decide (b.halt = .run ∧ b.mcall = none) = true) ∧
    (Finds (sBody 0) here fun _ b => (decide (b.halt = .run) && b.mcall.any fun m => decide (m.word + 1 < m.last)) = true) ∧
    (Finds (sBody 1) here fun _ b => (decide (b.halt = .run) && b.mcall.any fun m => decide (m.last ≤ m.word + 1)) = true) :=
  ⟨finds_sound (by decide), finds_sound (by decide), finds_sound (by decide)⟩

/-- Broadcasts from a named lane and from the first active one. -/
theorem witness_operands :
    (Meets (.movX { z with d := 4, b := 12, bcm := 1, bcs := 1, bln := 31 }) s0 fun e _ => decide (e.x.bcm = 1) = true) ∧
    (Meets (.addX { z with d := 4, a := 8, b := 12, bcm := 2 }) s0 fun e _ => decide (e.x.bcm = 2 ∧ e.act ≠ 0 ∧ e.x.bcs = 0) = true) ∧
    (Finds (sBody 0) here fun _ b => b.mcall.isSome = true) := ⟨meets_sound (by decide), meets_sound (by decide), finds_sound (by decide)⟩

/-- The small state with a trap vector. -/
def sVec : State := withBeam fun b => { b with tvec := 0x40000 }

theorem witness_traps :
    (Meets (.trap { z with x10 := 0xFF }) s0 fun e _ => decide (e.b.mcall = none) = true) ∧
    (Meets (.brk z) s0 fun e _ => decide (e.b.mcall = none) = true) ∧
    (Finds sVec here fun _ b => decide (b.halt = .run ∧ causeInh (b.land sVec.clock).cause = false ∧ (b.land sVec.clock).tvec ≠ 0) = true) ∧
    (Finds s0 here fun T b => (decide (b.halt = .run) && (s0.grid? T.grid).isSome &&
      decide ((({ b with tvec := 0 } : Beam).land s0.clock).tvec = 0)) = true) ∧
    (Finds (withBeam fun b => { b with tvec := 0, cause := 0x20001 }) here fun _ b =>
      (decide ((b.land 0).tvec = 0) && causeInh (b.land 0).cause) = true) :=
  ⟨meets_sound (by decide), meets_sound (by decide), finds_sound (by decide), finds_sound (by decide), finds_sound (by decide)⟩

/-- A sibling in its skid, with three instructions left, with one left, and before its first; one that has stopped issuing. -/
theorem witness_siblings :
    (Finds s0 here fun _ b => decide (b.status = .ready ∧ b.halt = .run ∧ b.lastLong = none) = true) ∧
    (∀ h ∈ [Halt.skidding 3 0, .skidding 1 0], Finds (withBeam fun b => { b with halt := h }) here fun T b =>
      (decide (b.halt = h ∧ b.longs = [] ∧ b.mcall = none) && T.isResident) = true) := by
  refine ⟨finds_sound (by decide), fun h hh => finds_sound ?_⟩
  revert h
  decide

theorem witness_returns :
    (Meets (.eret z) s0 fun e _ => decide (causeInh e.b.cause = false) = true) ∧
    (Meets (.eret z) (withBeam fun b => { b with cause := 0x20001, epc := 0x10002 }) fun e _ =>
      (causeInh e.b.cause && decide (e.b.epc.toNat % 4 ≠ 0)) = true) ∧
    (Meets (.eret z) (withBeam fun b => { b with cause := 0x60001, epc := 0x10004 }) fun e _ =>
      (causeInh e.b.cause && decide (e.b.epc.toNat % 4 = 0 ∧ e.b.mcall = none ∧ e.b.halt = .run ∧ e.b.fix = [])) = true) :=
  ⟨meets_sound (by decide), meets_sound (by decide), meets_sound (by decide)⟩

/-! ### Witnesses: memory -/

/-- Eight lanes with the address 0x10000, whose page is cached, in the pair v8:v9. -/
def sMem : State := withBeam fun b => regs [(8, 0x10000)] { b with exm := 0xFF }

/-- What the checks answer is that every lane goes through. -/
def goes (e : Env) (s1 : State) (k : AKind) (op : Option Nat) (l : List Acc) : Bool :=
  match s1.memChecks e.r e.T e.b k op l with
  | .go ok [] s2 => decide (rdLanes k ok = []) && decide (ok.length ≤ 8) && decide (ok ≠ []) &&
      ok.all (fun o => !s1.mcstOut e.r e.now o.1.lane (o.2.2 / 128) && !s2.roHit e.T.coreId o && decide (o.2.2 / 128 ∉ s1.net.badLines)) &&
      decide (e.b.orc.toNat + ok.length ≤ 1024)
  | _ => false

/-- The global instructions on words, each with its kind and atomic operation. -/
noncomputable def globals : List (Instr × AKind × Option Nat) :=
  [(.ld { z with d := 4, a := 8, immb := true, x10 := 2 }, .load, none), (.st { z with a := 8, c := 16, immb := true, x10 := 2 }, .store, none),
   (.atom { z with d := 4, a := 8, c := 16, immb := true, x10 := 2 }, .atomic, some 0),
   (.red { z with a := 8, c := 16, immb := true, x10 := 2 }, .atomic, some 0),
   (.lda { z with d := 4, a := 8, immb := true, x10 := 2 }, .load, none), (.stl { z with a := 8, c := 16, immb := true, x10 := 2 }, .store, none)]

theorem witness_global_memory :
    (∀ g ∈ globals, Meets g.1 sMem fun e s1 => (decide (e.act ≠ 0) && !s1.memHeld e &&
      decide (s1.capScope e.T (e.x.x10.toNat / 8 % 8) = some (e.x.x10.toNat / 8 % 8, false)) &&
      goes e s1 g.2.1 g.2.2 (activeAccesses e)) = true) ∧
    (Meets (.ld { z with d := 4, a := 8, immb := true, b := 1, x10 := 2 }) sMem fun e s1 => (decide (e.act ≠ 0) && !s1.memHeld e &&
      (match s1.memChecks e.r e.T e.b .load none (activeAccesses e) with | .trap c _ => decide (c = cMISALIGN) | _ => false)) = true) ∧
    (Meets (.st { z with a := 8, c := 16, immb := true, x10 := 2 }) (withBeam fun b => { b with exm := 0 }) fun e _ => decide (e.act = 0) = true) := by
  have h : ∀ g ∈ globals, (meets g.1 sMem fun e s1 => (decide (e.act ≠ 0) && !s1.memHeld e &&
      decide (s1.capScope e.T (e.x.x10.toNat / 8 % 8) = some (e.x.x10.toNat / 8 % 8, false)) &&
      goes e s1 g.2.1 g.2.2 (activeAccesses e))) = true := by unfold globals; decide
  exact ⟨fun g hg => meets_sound (h g hg), meets_sound (by decide), meets_sound (by decide)⟩

/-- A coalesced group that may be sent. -/
theorem witness_access_rules :
    (∃ a : Acc, a.va % a.size ≠ 0) ∧ (∃ a : Acc, a.va % a.size = 0 ∧ a.va / 2 ^ 56 ≠ 0) ∧
    (∃ G, s0.gridOf ((s0.team? 0).getD (probeLaunch.team 0 0 0 0 0)) = some G) ∧
    (Meets (.lda { z with d := 4, a := 8, immb := true, x10 := 0x22 }) (sCap true) fun e s1 =>
      decide (e.act ≠ 0 ∧ s1.capScope e.T (e.x.x10.toNat / 8 % 8) = none) = true) ∧
    (Meets (.stl { z with a := 8, c := 16, immb := true, x10 := 0x22 }) (sCap true) fun e s1 =>
      decide (e.act ≠ 0 ∧ s1.capScope e.T (e.x.x10.toNat / 8 % 8) = none) = true) ∧
    (Meets (.fence { z with x10 := 0x20 }) (sCap true) fun e s1 => decide (s1.capScope e.T 4 = none) = true) ∧
    (Finds (sCap false) here fun T _ => decide ((sCap false).capScope T 4 = some (2, true)) = true) :=
  ⟨⟨⟨0, 0x10001, 4, 0, 0, 0⟩, by decide⟩, ⟨⟨0, 2 ^ 56, 4, 0, 0, 0⟩, by decide⟩, Option.isSome_iff_exists.mp (by decide), meets_sound (by decide), meets_sound (by decide),
    meets_sound (by decide), finds_sound (by decide)⟩

theorem witness_fences :
    (Meets (.fence z) s0 fun e s1 => decide (s1.capScope e.T 0 = some (0, false)) = true) ∧
    (Meets (.fence { z with x10 := 0x10 }) s0 fun e s1 =>
      (decide (s1.capScope e.T 2 = some (2, false)) && s1.quietBeam e.r e.b && !s1.acquiring e.r) = true) ∧
    (Meets (.fence { z with x10 := 0x08 }) (withBeam fun b => { b with orc := 1 }) fun e s1 =>
      (decide (s1.capScope e.T 1 = some (1, false)) && !s1.quietBeam e.r e.b) = true) ∧
    MayIssue (.cinv z) s0 ∧
    (Meets (.prf { z with a := 8, immb := true }) sMem fun e s1 => (decide (e.act ≠ 0 ∧ e.b.halt = .run ∧ e.b.mcall = none) && !s1.memHeld e) = true) :=
  ⟨meets_sound (by decide), meets_sound (by decide), meets_sound (by decide), mayIssue_of (by decide), meets_sound (by decide)⟩


/-! ### Witnesses: collimated stores, watches, scratchpad -/

/-- Pages 1 and 2 are multicast pages of groups 0 and 1, whose Collimators are reachable; `g` gives lanes 0 to 7 their page. -/
def sMcst (two : Bool) : State :=
  let leaf (aux : Nat) : Leaf := { probeLeaf with kind := .multicast, aux := aux }
  let s1 := ((s0.setLink 96 { Link.init with state := .up }).setLink 97 { Link.init with state := .up }).setFunc 0 { Func.init with peert := 0x20000 }
  let s2 := s1.modBeam here fun b =>
    (regs [(8, 0x10000)] { b with exm := 0xFF }).wr 8 1 (if two then 0x20000 else 0x10004)
  { s2 with
    mem := s2.mem.writeBytes 0x20000 ([12, 1] ++ List.replicate 126 0 ++ [12, 1, 1])
    net := { s2.net with tlb := [{ place := .core 0, func := 0, gen := 0, page := 1, leaf := leaf 0 },
      { place := .core 0, func := 0, gen := 0, page := 2, leaf := leaf 1 }] } }

/-- The groups that a collimated store's lanes lie in. -/
def mcstGroups (e : Env) (s1 : State) : Option (List (Option Nat)) :=
  match s1.memChecks e.r e.T e.b .mcst none (activeAccesses e) with
  | .go ok [] _ => if rdLanes .mcst ok = [] ∧ ok.length ≤ 8 ∧ ok ≠ [] ∧ e.b.orc.toNat + ok.length ≤ 1024 then
      some (ok.map fun o => s1.groupOf (s1.funcOf e.T) o.2.1) else none
  | _ => none

def mcst4 : Instr := .mcst { z with a := 8, c := 16, immb := true, x10 := 2 }

theorem witness_collimated :
    (Meets mcst4 (sMcst true) fun e s1 => (decide (e.act ≠ 0) && !s1.memHeld e &&
      decide (mcstGroups e s1 = some [some 0, some 1, some 0, some 0, some 0, some 0, some 0, some 0])) = true) ∧
    (Meets mcst4 (sMcst false) fun e s1 => (decide (e.act ≠ 0) && !s1.memHeld e && !s1.collDead 0 &&
      decide (mcstGroups e s1 = some (List.replicate 8 (some 0)))) = true) ∧
    (Meets mcst4 (withBeam fun b => { b with exm := 0 }) fun e _ => decide (e.act = 0) = true) :=
  ⟨meets_sound (by decide), meets_sound (by decide), meets_sound (by decide)⟩

/-- A watch of an aligned word without a limit, and of one that is not aligned. -/
theorem witness_watches :
    (Meets (.waitm { z with d := 4, a := 8, c := 16, immb := true, x10 := 0xFA }) sMem fun e s1 => (!s1.memHeld e &&
      goes e s1 .watch none [⟨0, address e 0, 4, 0, 0, 4⟩] && decide (address e 0 = 0x10000)) = true) ∧
    (Meets (.waitm { z with d := 4, a := 8, c := 16, immb := true, b := 2, x10 := 2 }) sMem fun e s1 => (!s1.memHeld e &&
      (match s1.memChecks e.r e.T e.b .watch none [⟨0, address e 0, 4, 0, 0, 4⟩] with
       | .trap c _ => decide (c = cMISALIGN) | _ => false)) = true) := ⟨meets_sound (by decide), meets_sound (by decide)⟩

/-- The scratchpad of the small state has 131,072 bytes: the last word, the word beyond, an odd address. -/
def sScr (a : Word) : State := withBeam (regs [(8, a)])

def inScr (s1 : State) (e : Env) (l : List Acc) : Bool :=
  l.all fun a => decide (a.va % a.size = 0) && decide (a.va + a.size ≤ scratchSize s1 e)

theorem witness_scratchpad :
    (∀ i ∈ ([.lds { z with d := 4, a := 8, immb := true, x10 := 2 }, .sts { z with a := 8, c := 16, immb := true, x10 := 2 },
        .atoms { z with d := 4, a := 8, c := 16, immb := true, x10 := 2 }] : List Instr),
      (Meets i (sScr 0x1FFFC) fun e s1 => (!s1.acquiring e.r && decide (e.act ≠ 0) && inScr s1 e (linear e)) = true) ∧
      (Meets i (sScr 0x20000) fun e s1 => (!s1.acquiring e.r && decide (e.act ≠ 0) && (linear e).all (fun a => decide (a.va % a.size = 0)) &&
        (linear e).any fun a => decide (scratchSize s1 e < a.va + a.size)) = true) ∧
      (Meets i (sScr 2) fun e s1 => (!s1.acquiring e.r && decide (e.act ≠ 0) && (linear e).any fun a => decide (a.va % a.size ≠ 0)) = true)) ∧
    (∀ i ∈ ([.ldsw ⟨0, 4, 8, 1⟩, .stswX { z with d := 4, a := 8, immb := true, b := 1 }] : List Instr),
      (Meets i (sScr 0x1FFF8) fun e s1 => (!s1.acquiring e.r && inScr s1 e (words e)) = true) ∧
      (Meets i (sScr 0x1FFFC) fun e s1 => (!s1.acquiring e.r && decide (e.act ≠ 0) && (words e).all (fun a => decide (a.va % a.size = 0)) &&
        (words e).any fun a => decide (scratchSize s1 e < a.va + a.size)) = true) ∧
      (Meets i (sScr 1) fun e s1 => (!s1.acquiring e.r && decide (e.act ≠ 0) && (words e).any fun a => decide (a.va % a.size ≠ 0)) = true)) := by
  have h1 : ∀ i ∈ ([.lds { z with d := 4, a := 8, immb := true, x10 := 2 }, .sts { z with a := 8, c := 16, immb := true, x10 := 2 },
        .atoms { z with d := 4, a := 8, c := 16, immb := true, x10 := 2 }] : List Instr),
      (meets i (sScr 0x1FFFC) fun e s1 => (!s1.acquiring e.r && decide (e.act ≠ 0) && inScr s1 e (linear e))) = true ∧
      (meets i (sScr 0x20000) fun e s1 => (!s1.acquiring e.r && decide (e.act ≠ 0) && (linear e).all (fun a => decide (a.va % a.size = 0)) &&
        (linear e).any fun a => decide (scratchSize s1 e < a.va + a.size))) = true ∧
      (meets i (sScr 2) fun e s1 => (!s1.acquiring e.r && decide (e.act ≠ 0) && (linear e).any fun a => decide (a.va % a.size ≠ 0))) = true := by decide
  have h2 : ∀ i ∈ ([.ldsw ⟨0, 4, 8, 1⟩, .stswX { z with d := 4, a := 8, immb := true, b := 1 }] : List Instr),
      (meets i (sScr 0x1FFF8) fun e s1 => (!s1.acquiring e.r && inScr s1 e (words e))) = true ∧
      (meets i (sScr 0x1FFFC) fun e s1 => (!s1.acquiring e.r && decide (e.act ≠ 0) && (words e).all (fun a => decide (a.va % a.size = 0)) &&
        (words e).any fun a => decide (scratchSize s1 e < a.va + a.size))) = true ∧
      (meets i (sScr 1) fun e s1 => (!s1.acquiring e.r && decide (e.act ≠ 0) && (words e).any fun a => decide (a.va % a.size ≠ 0))) = true := by decide
  exact ⟨fun i hi => ⟨meets_sound (h1 i hi).1, meets_sound (h1 i hi).2.1, meets_sound (h1 i hi).2.2⟩,
    fun i hi => ⟨meets_sound (h2 i hi).1, meets_sound (h2 i hi).2.1, meets_sound (h2 i hi).2.2⟩⟩

/-- A declared tile of `n` rows, read at the row that v8 names. -/
def sTile (n : Nat) (row : Word) : State := (sScr row).modTeam 0 fun T => { T with tiles := [(0, ⟨128, n⟩)] }
def inTile (e : Env) : Bool := e.activeLanes.all fun l => decide ((tileCell e l).1 < (tileSlot e).rows) && decide ((tileCell e l).2 < 32)

theorem witness_tiles :
    (Meets (.lds { z with d := 4, a := 8, immb := true, flg := 4, x10 := 2 }) (sTile 2 1) fun e s1 =>
      (inTile e && !s1.acquiring e.r && inScr s1 e (tileAccesses e) && e.x.flg.getLsbD 2) = true) ∧
    (Meets (.sts { z with a := 8, c := 16, immb := true, flg := 4, x10 := 2 }) (sTile 2 2) fun e s1 =>
      (!inTile e && !s1.acquiring e.r && decide (e.act ≠ 0)) = true) ∧
    (Meets (.tile { z with a := 8, immb := true, b := 511 }) (sScr 0) fun e s1 => decide ((firstA e).toNat % 128 = 0 ∧
      e.x.immWord.toNat ≤ 512 ∧ (firstA e).toNat + 128 * e.x.immWord.toNat ≤ scratchSize s1 e) = true) ∧
    (Meets (.tile { z with a := 8, immb := true, b := 1 }) (sScr 64) fun e _ => decide ((firstA e).toNat % 128 ≠ 0) = true) ∧
    (Meets (.tile { z with a := 8, immb := true, b := 1 }) (sScr 0x20000) fun e s1 => decide ((firstA e).toNat % 128 = 0 ∧
      scratchSize s1 e < (firstA e).toNat + 128 * e.x.immWord.toNat) = true) :=
  ⟨meets_sound (by decide), meets_sound (by decide), meets_sound (by decide), meets_sound (by decide), meets_sound (by decide)⟩

/-! ### Witnesses: queues and jobs -/

/-- Queue 0 of two slots of 128 bytes at offset 0, slot 0 in the given state; v8 holds `a`. -/
def sQ (x : Slot) (a : Word) : State :=
  (sScr a).modTeam 0 fun T => { T with queues := [(0, { inst := true, ctrl := 0x40000, p := 0, c := 0, slots := if x = Slot.init then [] else [(0, x)] })] }

/-- A `QCOMMIT` of slot 0 of that queue waits for its release; the beam's scratchpad accesses before it are done in cycle n. -/
def sCommit (n : Nat) : State :=
  (sQ ⟨.acquired, 0, false, false⟩ 0).modTeam 0 fun T => { T with commits := [⟨0, 0, n, 0, 0, 5⟩] }

def there (e : Env) (s1 : State) : Bool := decide (queueNo e < queuesOf s1 e) && (queueIn e.T (queueNo e)).inst

theorem witness_queues :
    (Meets (.qset { z with a := 8 }) (sScr 0x40000) fun e s1 => decide (queueNo e < queuesOf s1 e ∧ (beamA e).toNat / 2 ^ 24 = 0 ∧
      (beamA e).toNat / 2 ^ 14 % 16 ≠ 15 ∧ ctrlBase (beamA e) + ctrlDepth (beamA e) * ctrlSize (beamA e) ≤ scratchSize s1 e ∧
      (queueIn e.T (queueNo e)).inst = false) = true) ∧
    (Meets (.qset { z with a := 8 }) (sScr 0x1000000) fun e _ => decide ((beamA e).toNat / 2 ^ 24 ≠ 0) = true) ∧
    (Meets (.qset { z with a := 8 }) (sQ ⟨.full, 0, false, false⟩ 0) fun e _ => ((queueIn e.T (queueNo e)).inst &&
      (queueIn e.T (queueNo e)).slots.any fun p => decide (p.2.st ≠ .free)) = true) ∧
    (Meets (.qacq { z with d := 4 }) s0 fun e s1 => (!there e s1) = true) ∧
    (Meets (.qacq { z with d := 4 }) (sQ Slot.init 0) fun e s1 => (there e s1 && decide ((slotIn (queueIn e.T 0) 0).st = .free)) = true) ∧
    (Meets (.qacq { z with d := 4 }) (sQ ⟨.held, 0, false, false⟩ 0) fun e s1 => (there e s1 && decide ((slotIn (queueIn e.T 0) 0).st ≠ .free)) = true) ∧
    (Meets (.qwait { z with d := 4 }) (sQ ⟨.full, 0, false, false⟩ 0) fun e s1 => (there e s1 && decide ((slotIn (queueIn e.T 0) 0).st = .full)) = true) ∧
    (Meets (.qwait { z with d := 4 }) (sQ Slot.init 0) fun e s1 => (there e s1 && decide ((slotIn (queueIn e.T 0) 0).st ≠ .full)) = true) ∧
    (Meets (.qcommit { z with a := 8 }) (sQ ⟨.acquired, 0, false, false⟩ 0) fun e s1 => (there e s1 &&
      !(e.T.commits.any fun c => decide (c.q = 0 ∧ c.slot = 0)) && decide ((slotIn (queueIn e.T 0) 0).st = .acquired ∧ (beamA e).toNat = slotOffset (queueIn e.T 0) 0)) = true) ∧
    (Meets (.qcommit { z with a := 8 }) (sQ ⟨.acquired, 0, true, false⟩ 0) fun e s1 => (there e s1 && (slotIn (queueIn e.T 0) 0).engine) = true) ∧
    (Meets (.qcommit { z with a := 8 }) (sQ ⟨.acquired, 0, false, false⟩ 64) fun e s1 => (there e s1 &&
      decide (∀ j < ctrlDepth (queueIn e.T 0).ctrl, (beamA e).toNat ≠ slotOffset (queueIn e.T 0) j)) = true) ∧
    (Finds (sCommit 0) here fun T b => (decide (b.status = .ready ∧ b.ptrap = none ∧
      (∀ c ∈ T.commits, ∀ d ∈ T.commits, c.q = d.q → c.slot = d.slot → c = d)) &&
      !(sCommit 0).relHeld here 0 0 1) = true) ∧
    (Finds (sCommit 9) here fun _ b => (decide (b.status = .ready ∧ b.ptrap = none) && (sCommit 9).relHeld here 0 9 1) = true) ∧
    (Meets (.qfree { z with a := 8 }) (sQ ⟨.held, 0, false, false⟩ 0) fun e s1 => (there e s1 && !s1.acquiring e.r &&
      decide ((slotIn (queueIn e.T 0) 0).st = .held) && !s1.matrixReads e.r e.T 0 128 && !e.b.longReads 0 128) = true) ∧
    (Meets (.qfree { z with a := 8 }) ((sQ ⟨.held, 0, false, false⟩ 0).modBeam here fun b => { b with longs := [⟨0, 0, 0, .pald 0 0 (some 0)⟩] })
      fun e s1 => (there e s1 && decide ((slotIn (queueIn e.T 0) 0).st = .held) && e.b.longReads 0 128) = true) ∧
    (Meets (.qfree { z with a := 8 }) (sQ ⟨.full, 0, false, false⟩ 0) fun e s1 => (there e s1 && decide ((slotIn (queueIn e.T 0) 0).st ≠ .held)) = true) := by
  refine ⟨meets_sound (by decide), meets_sound (by decide), meets_sound (by decide), meets_sound (by decide), meets_sound (by decide),
    meets_sound (by decide), meets_sound (by decide), meets_sound (by decide), meets_sound (by decide), meets_sound (by decide),
    meets_sound (by decide), finds_sound (by decide), finds_sound (by decide), meets_sound (by decide), meets_sound (by decide),
    meets_sound (by decide)⟩

/-- A card at offset a of the scratchpad, with its first word, LEN and the words from byte 24. -/
def sCard (a : Word) (w len hi0 hi1 : Nat) : State :=
  (sScr a).modTeam 0 fun T => { T with scratch := (((T.scratch.writeNat 0 4 w).writeNat 4 4 len).writeNat 24 4 hi0).writeNat 28 4 hi1 }

/-- An open copy job of team 0 with handle h, and the status that the team keeps of another. -/
def job (h : Nat) : Job :=
  { id := 0, die := 0, core := 0, team := some 0, beam := 0, node := none, handle := h, func := 0, part := 0, tenant := 0, kind := .copy, len := 0,
    from_ := 0, dst := 0, fps := [], queue := none, slot := none, segs := [], buf := [], cache := [], put := 0, moved := 0, busy := none, out := [], addedAt := 0, after := none, got := false, status := 0 }

/-- A word of the card has an uncorrectable error. -/
def cardBad (e : Env) : Bool :=
  e.T.bad.any fun p => match p with | .scratch w => decide ((beamA e).toNat < 4 * w + 4 ∧ 4 * w < (beamA e).toNat + 64) | _ => false

/-- A gather of n rows of 4 bytes whose index list begins at offset 64, at its first sub-step. -/
def gatherLong (n : Nat) : Long := .gatj { job 0 with kind := .gather } 64 4 n 4 3 0
def sGather (n : Nat) : State := withBeam fun b => { b with longs := [⟨0, 0, 0, gatherLong n⟩], pends := [⟨3, 0, [4], [], 1, false, []⟩] }

theorem witness_jobs :
    (Meets (.cpyj { z with d := 4, a := 8 }) (sCard 0 1 128 0 0) fun e s1 => (!s1.acquiring e.r && !e.b.scrReading && !cardBad e &&
      decide (cardBits e 0 4 = 1 ∧ cardBits e 11 5 = 0 ∧ cardBits e 4 3 ≤ 4 ∧ cardBits e 8 3 = 0 ∧ cardBits e 7 1 = 0 ∧ cardBits e 16 16 = 0 ∧
        cardField e 24 8 = 0 ∧ 1 ≤ cardField e 4 4 ∧ (s1.jobs.filter fun j => decide (j.team = some e.r.t)).length < 64)) = true) ∧
    (Meets (.gatj { z with d := 4, a := 8, flg := 1 }) (sCard 0 2 0 64 0x400) fun e s1 => (!s1.acquiring e.r && !e.b.scrReading && !cardBad e && decide (e.b.halt = .run) &&
      decide (cardBits e 0 4 = 2 ∧ cardField e 24 4 % 8 = 0 ∧ cardField e 24 8 / 2 ^ 40 = 4 ∧ issueReach e 2 ≤ scratchSize s1 e)) = true) ∧
    (Meets (.colj { z with d := 4, a := 8 }) (sCard 0 0x40003 128 64 0) fun e s1 => (!s1.acquiring e.r && !e.b.scrReading && !cardBad e &&
      decide (cardBits e 0 4 = 3 ∧ cardField e 24 4 % 64 = 0 ∧ issueReach e 3 ≤ scratchSize s1 e)) = true) ∧
    (Meets (.colj { z with d := 4, a := 8 }) ((sCard 0 0x40003 128 64 0).modTeam 0 fun T => { T with bad := [.scratch 16] }) fun e s1 =>
      (!s1.acquiring e.r && !e.b.scrReading && !cardBad e && decide (cardBits e 0 4 = 3 ∧ cardField e 24 4 = 64)) = true) ∧
    (Meets (.cpyj { z with d := 4, a := 8 }) ((sCard 0 1 128 0 0).modTeam 0 fun T => { T with bad := [.scratch 15] }) fun e s1 =>
      (!s1.acquiring e.r && !e.b.scrReading && cardBad e) = true) ∧
    (Meets (.cpyj { z with d := 4, a := 8 }) ((sCard 0 1 128 0 0).modBeam here fun b => { b with longs := [⟨0, 0, 0, .pald 0 0 none⟩] })
      fun e _ => e.b.scrReading = true) ∧
    (Finds (sGather 40) here fun T b => (decide (b.longs = [⟨0, 0, 0, gatherLong 40⟩] ∧ T.bad = [] ∧ b.latched = none ∧ b.halt ≠ .stopped) && !b.held ⟨0, 0, 0, gatherLong 40⟩ 0) = true) ∧
    (Finds (sGather 8) here fun T b => (decide (b.longs = [⟨0, 0, 0, gatherLong 8⟩] ∧ T.bad = [] ∧ b.latched = none ∧ b.halt ≠ .stopped ∧
      (sGather 8).jobs = []) && !b.held ⟨0, 0, 0, gatherLong 8⟩ 0) = true) ∧
    (Meets (.cpyj { z with d := 4, a := 8 }) (sCard 32 1 128 0 0) fun e s1 => (!s1.acquiring e.r && decide ((beamA e).toNat % 64 ≠ 0)) = true) ∧
    (Meets (.cpyj { z with d := 4, a := 8 }) (sCard 0x20000 1 128 0 0) fun e s1 => (!s1.acquiring e.r && decide ((beamA e).toNat % 64 = 0 ∧
      scratchSize s1 e < (beamA e).toNat + 64)) = true) ∧
    (Meets (.cpyj { z with d := 4, a := 8 }) (sCard 0 2 128 0 0) fun e s1 => (!s1.acquiring e.r && decide (cardBits e 0 4 ≠ 1)) = true) ∧
    (Meets (.cpyj { z with d := 4, a := 8 }) (sCard 0 0x81 128 0 0) fun e s1 => (!s1.acquiring e.r && decide (cardBits e 7 1 = 1) &&
      !(queueIn e.T 0).inst) = true) := by
  refine ⟨meets_sound (by decide), meets_sound (by decide), meets_sound (by decide), meets_sound (by decide), meets_sound (by decide),
    meets_sound (by decide), finds_sound (by decide), finds_sound (by decide), meets_sound (by decide), meets_sound (by decide),
    meets_sound (by decide), meets_sound (by decide)⟩

/-- Job 1 is open, job 2 has completed, job 3 has failed with code 1; v8 names one of them. -/
def sJob (h : Word) : State :=
  { (sScr h).modTeam 0 fun T => { T with stats := [(2, 2), (3, 0x10000003)] } with jobs := [job 1] }

def closed (s1 : State) (h : Nat) : Bool := s1.jobs.all fun j => decide (j.team ≠ some 0 ∨ j.handle ≠ h)

theorem witness_job_observation :
    ∀ i ∈ ([.jwait { z with a := 8 }, .jtest { z with d := 4, a := 8 }, .yieldj { z with a := 8, immb := true, b := 12 }] : List Instr),
      (Meets i (sJob 1) fun e s1 => (!closed s1 (beamA e).toNat && decide (e.r.t = 0)) = true) ∧
      (Meets i (sJob 2) fun e s1 => (closed s1 (beamA e).toNat && decide ((statusKept e.T (beamA e).toNat).toNat / 2 ^ 28 = 0)) = true) := by
  have h : ∀ i ∈ ([.jwait { z with a := 8 }, .jtest { z with d := 4, a := 8 }, .yieldj { z with a := 8, immb := true, b := 12 }] : List Instr),
      (meets i (sJob 1) fun e s1 => (!closed s1 (beamA e).toNat && decide (e.r.t = 0))) = true ∧
      (meets i (sJob 2) fun e s1 => (closed s1 (beamA e).toNat && decide ((statusKept e.T (beamA e).toNat).toNat / 2 ^ 28 = 0))) = true := by decide
  exact fun i hi => ⟨meets_sound (h i hi).1, meets_sound (h i hi).2⟩

/-- A job that ended with code 1 traps where it is observed: at issue, or in the wake of a beam that waits or sleeps. -/
theorem witness_job_traps :
    (∀ i ∈ ([.jwait { z with a := 8 }, .yieldj { z with a := 8, immb := true, b := 12 }] : List Instr),
      Meets i (sJob 3) fun e s1 => (closed s1 (beamA e).toNat && decide ((statusKept e.T (beamA e).toNat).toNat / 2 ^ 28 = 1)) = true) ∧
    (∀ st ∈ [Status.jwait 3, .jsleep 3 0x10040], let s := (sJob 3).modBeam here fun b => { b with status := st }
      (Finds (s.runCommits here) here fun T b => (T.isResident && closed (s.runCommits here) 3 && decide (T.stopped = false ∧
        b.halt = .run ∧ b.ptrap = none ∧ b.status = st ∧ (statusKept T 3).toNat / 2 ^ 28 = 1)) = true)) := by
  have h : ∀ i ∈ ([.jwait { z with a := 8 }, .yieldj { z with a := 8, immb := true, b := 12 }] : List Instr),
      (meets i (sJob 3) fun e s1 => (closed s1 (beamA e).toNat && decide ((statusKept e.T (beamA e).toNat).toNat / 2 ^ 28 = 1))) = true := by decide
  have h2 : ∀ st ∈ [Status.jwait 3, .jsleep 3 0x10040], let s := (sJob 3).modBeam here fun b => { b with status := st }
      (finds (s.runCommits here) here fun T b => (T.isResident && closed (s.runCommits here) 3 && decide (T.stopped = false ∧
        b.halt = .run ∧ b.ptrap = none ∧ b.status = st ∧ (statusKept T 3).toNat / 2 ^ 28 = 1))) = true := by decide
  exact ⟨fun i hi => meets_sound (h i hi), fun st hs => finds_sound (h2 st hs)⟩

/-! ### Witnesses: matrix engine -/

/-- An entry of beam `here`, of the given kind and started or not. -/
def ent (k : EKind) (started : Bool) (pix : Nat) (pend : Option Nat) : Entry :=
  { id := 7, src := here, quad := 0, kind := k, tile := 1, slab := 2, mask := 0xFF, fmt := 0, scl := true, bs := 0, rnd := 0, b0 := 0, m0 := 0,
    units := 3, rega := [], regc := [], scales := [], d := 4, pend := pend, pix := pix, started := started, start := 1, served := false, at_ := 1,
    issued := 1, again := false, counted := false, seq := 0, tele := 0, tenant := 0, ref := [], got := [] }

/-- The engine of the small state's core holds entries, at cycle 100. -/
def sEng (l : List Entry) : State := { s0.setCore 0 { Core.init with entries := l } with clock := 100 }

/-- v8 and v12 (the B offset, or the source) hold `b`, v4 (metadata offset) holds `m`. -/
def sMat (b m : Word) : State := withBeam (regs [(4, m), (8, b), (12, b)])

/-- The engine can take an entry. -/
def takes (e : Env) (s1 : State) : Bool :=
  decide (((s1.core e.T.coreId).entries.filter fun n => decide (n.quad = e.r.b % 4)).length < 2) && !s1.acquiring e.r

theorem takes_sound {e : Env} {s1 : State} (h : takes e s1 = true) : ¬ EngineHolds e s1 := by
  simp only [takes, Bool.and_eq_true, decide_eq_true_eq, Bool.not_eq_true'] at h
  rintro (h' | h')
  · omega
  · simp [h.2] at h'

def mma8 : Instr := .mma { z with a := 128, b := 12, c := 200, flg := 4, x10 := 8 }
def mmasp8 : Instr := .mmasp { z with d := 4, a := 128, b := 12, x10 := 0x80 }

theorem witness_multiplications :
    (Meets (.mma { z with a := 8, b := 12 }) (withBeam fun b => { b with exm := 0 }) fun e _ => decide (e.act = 0) = true) ∧
    (Meets (.mma { z with a := 8, b := 12 }) (sEng [ent .mma false 0 none, ent .accz false 0 none]) fun e s1 =>
      (decide (e.act ≠ 0) && !takes e s1) = true) ∧
    (∀ i ∈ ([.mma { z with a := 8, b := 12 }, .mmasp { z with d := 4, a := 8, b := 12 }] : List Instr),
      (Meets i (sMat 64 0) fun e s1 => (decide (e.act ≠ 0) && takes e s1 && decide ((firstB e).toNat % 128 ≠ 0)) = true) ∧
      (Meets i (sMat 0x1C080 0) fun e s1 => (decide (e.act ≠ 0) && takes e s1 && decide ((firstB e).toNat % 128 = 0 ∧
        (i.form = (Instr.mma { z with a := 8, b := 12 }).form → scratchSize s1 e < (firstB e).toNat + denseBytes 0))) = true) ∧
      (Meets i (sMat 0x1C000 0x1800) fun e s1 => (decide (e.act ≠ 0) && takes e s1 && decide ((firstB e).toNat % 128 = 0 ∧
        0 < tilesHeld s1 e ∧ (firstB e).toNat + denseBytes 0 ≤ scratchSize s1 e ∧
        (e.b.rd 4 (e.activeLanes.headD 0)).toNat + 2048 ≤ 4096 * tilesHeld s1 e) && !e.T.poisoned 0x1C000 0x20000) = true)) := by
  have h : ∀ i ∈ ([.mma { z with a := 8, b := 12 }, .mmasp { z with d := 4, a := 8, b := 12 }] : List Instr),
      (meets i (sMat 64 0) fun e s1 => (decide (e.act ≠ 0) && takes e s1 && decide ((firstB e).toNat % 128 ≠ 0))) = true ∧
      (meets i (sMat 0x1C080 0) fun e s1 => (decide (e.act ≠ 0) && takes e s1 && decide ((firstB e).toNat % 128 = 0 ∧
        (i.form = (Instr.mma { z with a := 8, b := 12 }).form → scratchSize s1 e < (firstB e).toNat + denseBytes 0)))) = true ∧
      (meets i (sMat 0x1C000 0x1800) fun e s1 => (decide (e.act ≠ 0) && takes e s1 && decide ((firstB e).toNat % 128 = 0 ∧
        0 < tilesHeld s1 e ∧ (firstB e).toNat + denseBytes 0 ≤ scratchSize s1 e ∧
        (e.b.rd 4 (e.activeLanes.headD 0)).toNat + 2048 ≤ 4096 * tilesHeld s1 e) && !e.T.poisoned 0x1C000 0x20000)) = true := by decide
  exact ⟨meets_sound (by decide), meets_sound (by decide),
    fun i hi => ⟨meets_sound (h i hi).1, meets_sound (h i hi).2.1, meets_sound (h i hi).2.2⟩⟩

/-- B over a slot that was delivered with POISON. -/
theorem witness_poisoned_B :
    Meets (.mma { z with a := 8, b := 12 }) ((sMat 0 0).modTeam 0 fun T => { T with queues := [(0, { inst := true, ctrl := 0x40000, p := 0, c := 0, slots := [(0, ⟨.held, 2, false, true⟩)] })] })
      fun e s1 => (takes e s1 && e.T.poisoned 0 (denseBytes 0)) = true := meets_sound (by decide)

theorem witness_tile_instructions :
    (∀ i ∈ ([.accz z, .accld { z with a := 8 }, .accst { z with d := 4 }, .acccvt { z with d := 4, b := 12 }] : List Instr),
      Meets i s0 fun e s1 => (decide (e.act ≠ 0) && takes e s1 && decide (0 < tilesHeld s1 e)) = true) ∧
    (Meets (.accz { z with x10 := 0x10 }) s0 fun e s1 => (decide (e.act ≠ 0) && takes e s1 && decide (tilesHeld s1 e ≤ tileNo e.x)) = true) ∧
    (Meets (.ldmeta { z with d := 4, a := 8, b := 7, immb := true }) (sMat 0x1FC80 0x1C80) fun e s1 => (takes e s1 && decide (
      (beamA e).toNat % 128 = 0 ∧ (e.b.rd 4 0).toNat % 128 = 0 ∧ (beamA e).toNat + 128 * e.x.immWord.toNat ≤ scratchSize s1 e ∧
      (e.b.rd 4 0).toNat + 128 * e.x.immWord.toNat = 4096 * tilesHeld s1 e)) = true) ∧
    (Meets (.ldmeta { z with d := 4, a := 8, b := 8, immb := true }) (sMat 0 0x1C80) fun e s1 => (takes e s1 && decide (
      (beamA e).toNat % 128 = 0 ∧ (e.b.rd 4 0).toNat % 128 = 0 ∧ 4096 * tilesHeld s1 e < (e.b.rd 4 0).toNat + 128 * e.x.immWord.toNat)) = true) ∧
    (Meets (.ldmeta { z with d := 4, a := 8, b := 8, immb := true }) (sMat 4 0) fun e s1 => (takes e s1 && decide (
      (beamA e).toNat % 128 ≠ 0)) = true) ∧
    (Meets (.mwait z) s0 fun e s1 => decide ((s1.core e.T.coreId).entries.all fun n => decide (n.src.t ≠ e.r.t)) = true) ∧
    (Meets (.mwait { z with x10 := 1 }) (sEng [ent .mma false 0 none]) fun e s1 =>
      decide ((s1.core e.T.coreId).entries.any fun n => decide (n.src.t = e.r.t)) = true) := by
  have h : ∀ i ∈ ([.accz z, .accld { z with a := 8 }, .accst { z with d := 4 }, .acccvt { z with d := 4, b := 12 }] : List Instr),
      (meets i s0 fun e s1 => (decide (e.act ≠ 0) && takes e s1 && decide (0 < tilesHeld s1 e))) = true := by decide
  exact ⟨fun i hi => meets_sound (h i hi), meets_sound (by decide), meets_sound (by decide), meets_sound (by decide), meets_sound (by decide),
    meets_sound (by decide), meets_sound (by decide)⟩

/-- The A group that an `MMA` of the small state's beam latches, with every lane active. -/
theorem witness_elements : Finds (withBeam (regs [(8, 3), (23, 5)])) here fun _ b =>
    decide (∀ q, q < aGroupLen 0 → ∀ l ∈ lanes, sget 0 (b.group 8 16 lanes) (regKey q l) = b.rd (8 + q) l) = true := finds_sound (by decide)

theorem witness_engine_starts : let s := sEng [ent .mma false 0 none]
    ∃ n, nextStart (s.core 0).entries = some n ∧ n.pix = 0 ∧ Max.max (n.at_ + (if n.served then 1 else 4)) (s.core 0).engFree ≤ s.clock ∧
      s.entryHeld n (Max.max (n.at_ + (if n.served then 1 else 4)) (s.core 0).engFree) = false := ⟨ent .mma false 0 none, by decide, by decide, by decide, by decide⟩

theorem not_poisoned_of_sound {n : Entry} {T : Team} (h : T.bad = []) : n.poisoned T = false := by
  simp [Entry.poisoned, Team.badScratch, h]

/-- Every kind of entry has a sub-step whose cycle has come. -/
theorem witness_engine_substeps : ∀ k ∈ ([.mma, .mmasp 32, .accz, .accld, .accst, .acccvt, .ldmeta] : List EKind),
    let n := ent k true 0 (some 3)
    let s := sEng [n]
    nowRunning (s.core 0).entries = some n ∧ (s.team? n.src.t).any (fun T => decide (T.bad = [])) = true ∧ n.start + (n.pix + 1) * engineCycles n / n.total ≤ s.clock ∧
      s.entryHeld n (n.start + n.pix * engineCycles n / n.total) = false ∧ s.wakeEnd 0 = none := by decide

theorem witness_engine_completes : let n := ent .accst true 1 (some 3)
    let s := sEng [n]
    (s.core 0).entries = [n] ∧ n.started = true ∧ n.pix = n.total ∧ n.start + engineCycles n + 4 ≤ s.clock ∧
      finds s n.src (fun _ _ => true) = true := by decide


/-! ### Witnesses: the Prism array -/

/-- The array in a state, with v8 = `a`; `PALD` runs if asked. -/
def sPrism (p : Prism) (a : Word) : State := { (sScr a).modTeam 0 fun T => { T with prism := p } with clock := 100 }
def inState (p : PState) : Prism := { Prism.init with state := p, doneAt := 1000 }
def ownsPrism (e : Env) (s1 : State) : Bool := (s1.gridOf e.T).any fun g => g.launch.pool.getLsbD 13

/-- A `PALD` of the table at offset 128 has run g sub-steps. -/
def sPald (g : Nat) : State := (sPrism Prism.init 128).modBeam here fun b => { b with longs := [⟨w64 0, 1, 1, .pald 128 g (if g < 8 then some 90 else none)⟩] }

/-- A running window: input 3 rises at 5 and reaches outputs 0 and 1 after 4 and 250. -/
def racing (max : Bool) : Prism :=
  { Prism.init with state := .running, max := max, w := 20, ins := [(3, 5)], delays := [(3 * 64, 4), (3 * 64 + 1, 250)], doneAt := 90 }

noncomputable def prismAll : List Instr := [.pawin { z with x10 := 2 }, .pald { z with a := 8 }, .pain { z with a := 8 }, .pago z, .pacap { z with d := 4 }, .paclr z]

theorem witness_prism_checks : ∀ i ∈ prismAll,
    (Meets i (withGrid fun G => { G with launch := { G.launch with pool := 0x208 } }) fun e s1 => (!ownsPrism e s1) = true) ∧
    (Meets i (sPald 0) fun e s1 => (ownsPrism e s1 && e.T.paldRuns) = true) := by
  have h : ∀ i ∈ prismAll,
    (meets i (withGrid fun G => { G with launch := { G.launch with pool := 0x208 } }) fun e s1 => (!ownsPrism e s1)) = true ∧
    (meets i (sPald 0) fun e s1 => (ownsPrism e s1 && e.T.paldRuns)) = true := by decide
  exact fun i hi => ⟨meets_sound (h i hi).1, meets_sound (h i hi).2⟩

/-- The array is owned and idle of `PALD`. -/
def free1 (e : Env) (s1 : State) : Bool := ownsPrism e s1 && !e.T.paldRuns

theorem witness_prism_open : ∀ p ∈ [PState.idle, PState.loaded], ∀ i ∈ ([.pawin { z with x10 := 2 }, .pain { z with a := 8 }] : List Instr),
    Meets i (sPrism (inState p) 0) fun e s1 => (free1 e s1 && decide (e.T.prism.state = p)) = true := by
  have h : ∀ p ∈ [PState.idle, PState.loaded], ∀ i ∈ ([.pawin { z with x10 := 2 }, .pain { z with a := 8 }] : List Instr),
      (meets i (sPrism (inState p) 0) fun e s1 => (free1 e s1 && decide (e.T.prism.state = p))) = true := by decide
  exact fun p hp i hi => meets_sound (h p hp i hi)

theorem witness_prism_shut : ∀ p ∈ [PState.running, PState.done], ∀ i ∈ ([.pawin { z with x10 := 2 }, .pald { z with a := 8 }, .pain { z with a := 8 }, .pago z] : List Instr),
    Meets i (sPrism (inState p) 0) fun e s1 => (free1 e s1 && decide (e.T.prism.state = p)) = true := by
  have h : ∀ p ∈ [PState.running, PState.done], ∀ i ∈ ([.pawin { z with x10 := 2 }, .pald { z with a := 8 }, .pain { z with a := 8 }, .pago z] : List Instr),
      (meets i (sPrism (inState p) 0) fun e s1 => (free1 e s1 && decide (e.T.prism.state = p))) = true := by decide
  exact fun p hp i hi => meets_sound (h p hp i hi)

theorem witness_pald :
    (Meets (.pald { z with a := 8 }) (sPrism Prism.init 0x1F000) fun e s1 => (free1 e s1 &&
      decide (e.b.resume = none ∧ (beamA e).toNat % 128 = 0 ∧ (beamA e).toNat + 4096 ≤ scratchSize s1 e) && !s1.acquiring e.r) = true) ∧
    (Meets (.pald { z with a := 8 }) (sPrism Prism.init 0x1F080) fun e s1 => (free1 e s1 &&
      decide (e.b.resume = none ∧ (beamA e).toNat % 128 = 0 ∧ scratchSize s1 e < (beamA e).toNat + 4096)) = true) ∧
    (Meets (.pald { z with a := 8 }) (sPrism Prism.init 64) fun e s1 => (free1 e s1 && decide (e.b.resume = none ∧ (beamA e).toNat % 128 ≠ 0)) = true) :=
  ⟨meets_sound (by decide), meets_sound (by decide), meets_sound (by decide)⟩

theorem witness_prism_runs :
    (Meets (.pago z) (sPrism (inState .loaded) 0) fun e s1 => free1 e s1 = true) ∧
    (Meets (.pacap { z with d := 4 }) (sPrism (inState .done) 0) fun e s1 => free1 e s1 = true) ∧
    (Meets (.pacap { z with d := 4 }) (sPrism (inState .running) 0) fun e s1 => free1 e s1 = true) ∧
    (Meets (.pacap { z with d := 4 }) (sPrism (inState .idle) 0) fun e s1 => free1 e s1 = true) ∧
    (Meets (.paclr z) (sPrism (inState .done) 0) fun e s1 => free1 e s1 = true) ∧
    (Meets (.paclr z) (sPrism (inState .running) 0) fun e s1 => free1 e s1 = true) :=
  ⟨meets_sound (by decide), meets_sound (by decide), meets_sound (by decide), meets_sound (by decide), meets_sound (by decide), meets_sound (by decide)⟩

/-- A `PALD` at a sub-step that has run its 4 cycles, after its last, and waiting for its port. -/
theorem witness_pald_substeps : (∀ g ∈ [0, 7, 8], Finds (sPald g) here fun T b =>
    (match T.paldBeam with
     | some (k, l, a, n, st) => decide (k = 0 ∧ a = 128 ∧ n = g ∧ l.op = .pald a n st ∧ b.longs = [l] ∧ b.halt = .run ∧ b.latched = none ∧ T.bad = [] ∧
        (sPald g).wakeEnd T.coreId = none ∧ (∀ at_, st = some at_ → at_ + 4 ≤ (sPald g).clock) ∧ (g < 8 ↔ st ≠ none) ∧ l.since + 4 ≤ (sPald g).clock)
     | none => false) = true) ∧
    (let s := (sPald 3).modBeam here fun b => { b with longs := [⟨w64 0, 1, 1, .pald 128 3 none⟩] }
     Finds s here fun T b => decide (T.paldBeam = some (0, ⟨w64 0, 1, 1, .pald 128 3 none⟩, 128, 3, none) ∧
      b.longs = [⟨w64 0, 1, 1, .pald 128 3 none⟩] ∧ 1 ≤ s.clock ∧ sget 0 (s.core T.coreId).ports 0 ≤ s.clock) = true) := by
  refine ⟨fun g hg => finds_sound ?_, finds_sound (by decide)⟩
  revert g
  decide

/-- A window has ended in which output 0 rises at 9, output 1 after the window, and output 2 never. -/
theorem witness_prism_window : ∃ T, (sPrism (racing false) 0).team? 0 = some T ∧ T.prism.state = .running ∧
    T.prism.doneAt ≤ (sPrism (racing false) 0).clock ∧ ArrivesAt T.prism 0 9 ∧ ArrivesAt T.prism 1 255 ∧ ArrivesAt T.prism 2 1000 := by
  have h : ∃ T, (sPrism (racing false) 0).team? 0 = some T ∧ T.prism = racing false := ⟨_, rfl, rfl⟩
  obtain ⟨T, hT, hp⟩ := h
  refine ⟨T, hT, by rw [hp]; rfl, by rw [hp]; decide, ?_, ?_, ?_⟩ <;> rw [hp] <;> unfold ArrivesAt <;> decide

theorem witness_prism_latest : ArrivesAt (racing true) 0 9 ∧ ArrivesAt (racing true) 2 1000 ∧
    ArrivesAt { racing true with delays := [(3 * 64, 4), (4 * 64, 0)] } 0 1000 := by
  refine ⟨?_, ?_, ?_⟩ <;> unfold ArrivesAt <;> decide

/-! ### Witnesses: the Halo -/

/-- A schedule of tiles 16 to 19 of layer 1, which partition 0 may board. -/
def sched (free : Bool) : Sched := { addr := 0, sid := 5, free := free, segs := [{ from_ := 0x20000, layer := 1, pmask := 1, ntile := 4, tbase := 16 }] }
/-- A board request for tile 16, registered. -/
def wants : Board :=
  { ch := 0, q := 0, layer := 1, tiles := [16], captured := [], drop := [], crcFail := [], tenant := 0, due := 16, regAt := some 16, back := .toSet }
/-- A queue of one slot of 65,536 bytes. -/
def tileQueue : Queue := { inst := true, ctrl := 0x24000, p := 0, c := 0, slots := [] }

/-- Channel 0 runs the schedule; the team has the queue and the boards, and v8, v12, v16 hold first tile, count and layer. -/
def sHalo (free : Bool) (boards : List (Nat × Board)) (tile count layer : Word) : State :=
  let s := ((withBeam (regs [(8, tile), (12, count), (16, layer)])).setChan 0 { Chan.init with run := true, runs := true, sched := some (sched free), sid := 5, lap := 3 }).modTeam 0
    fun T => { T with queues := [(0, tileQueue)], boards := boards }
  { s with clock := 1000 }

def hb : Instr := .hboard { z with d := 4, a := 8, b := 12, c := 16 }
def tileQueueOk (e : Env) (s1 : State) : Bool :=
  decide (hQueue e < queuesOf s1 e) && (queueIn e.T (hQueue e)).inst && decide (65536 ≤ ctrlSize (queueIn e.T (hQueue e)).ctrl)
def tilesOk (e : Env) : Bool := decide (hTile e < 2 ^ 20 ∧ 1 ≤ hCount e ∧ hTile e + hCount e ≤ 2 ^ 20 ∧ hLayer e < 4096)
def mayBoard (e : Env) (s1 : State) : Bool := s1.boardable (hChan e) (s1.partOf e.T) (hLayer e) (hTile e) (hCount e)
def sixteen : List (Nat × Board) := (List.range 16).map fun i => (i, wants)

theorem witness_halo_instructions :
    (Meets hb s0 fun e s1 => (!tileQueueOk e s1) = true) ∧
    (Meets hb (sHalo false [] 0xFFFFF 2 1) fun e s1 => (tileQueueOk e s1 && !tilesOk e) = true) ∧
    (Meets hb (sHalo false [] 19 2 1) fun e s1 => (tileQueueOk e s1 && tilesOk e && !mayBoard e s1) = true) ∧
    (Meets hb (sHalo false [] 19 1 1) fun e s1 => (tileQueueOk e s1 && tilesOk e && mayBoard e s1 && decide (aget e.T.boards 0 = none)) = true) ∧
    (Meets hb (sHalo false sixteen 16 4 1) fun e s1 => (tileQueueOk e s1 && tilesOk e && mayBoard e s1 &&
      (List.range 16).all fun id => decide (aget e.T.boards id ≠ none)) = true) ∧
    (Meets (.hcancel { z with d := 4, a := 8 }) (sHalo false [(3, wants)] 2 0 0) fun e _ => decide (aget e.T.boards (beamA e).toNat = none) = true) ∧
    (Meets (.hcancel { z with d := 4, a := 8 }) (sHalo false [(3, wants)] 3 0 0) fun e _ => decide (aget e.T.boards (beamA e).toNat = some wants) = true) ∧
    (Meets (.hlap { z with d := 4 }) s0 fun e s1 => decide ((s1.chan (e.x.x10.toNat % 2)).runs = false) = true) ∧
    (Meets (.hlap { z with d := 4 }) (sHalo false [] 0 0 0) fun e s1 => decide ((s1.chan 0).runs = true ∧ (s1.chan 0).sched = some (sched false) ∧
      (segAt (sched false).segs 0 (s1.stop 0 (e.T.coreId / 32)).passed).map (·.1) = some 0) = true) :=
  ⟨meets_sound (by decide), meets_sound (by decide), meets_sound (by decide), meets_sound (by decide), meets_sound (by decide),
    meets_sound (by decide), meets_sound (by decide), meets_sound (by decide), meets_sound (by decide)⟩

theorem witness_may_be_boarded : ((sHalo false [] 0 0 0).chan 0).sched = some (sched false) ∧ SegsApart (sched false).segs ∧
    (sHalo false [] 0 0 0).boardable 0 0 1 19 1 = true ∧ (sHalo false [] 0 0 0).boardable 0 0 1 19 2 = false := by
  refine ⟨rfl, ⟨?_, ?_⟩, by decide, by decide⟩ <;> decide

/-- A stop with `n` buffered tiles. -/
def buffered (n : Nat) : Stop :=
  { passed := 0, last := 0, due := 0, entries := List.replicate n { lap := 0, sid := 5, layer := 0, tile := 0, poison := false, crc := 0, free := false, passAt := 0, reqs := [], checked := false, slots := [], todo := [], payload := [], busAt := none } }

def passes (s : State) (free : Bool) : Bool :=
  decide ((s.chan 0).sched = some (sched free)) && decide (segAt (sched free).segs 0 (s.stop 0 0).passed = some (0, ⟨0x20000, 1, 1, 4, 16⟩, 0)) &&
    (s.chan 0).runs && decide (s.sys.dstate = .run) && ((List.range 32).all fun j => decide ((s.stop 0 0).passed ≤ (s.stop 0 j).passed)) &&
    decide ((s.stop 0 0).due ≤ s.hring)

theorem witness_tiles_pass :
    (let s := (sHalo false [(0, wants)] 0 0 0).setStop 0 0 (buffered 4);
      passes s false = true ∧ 4 ≤ (s.stop 0 0).entries.length ∧ s.captures 0 0 1 16 s.hring ≠ []) ∧
    (let s := (sHalo true [(0, wants)] 0 0 0).setStop 0 0 (buffered 4);
      passes s true = true ∧ 4 ≤ (s.stop 0 0).entries.length ∧ s.captures 0 0 1 16 s.hring ≠ []) ∧
    (let s := sHalo false [] 0 0 0;
      passes s false = true ∧ s.captures 0 0 1 16 s.hring = []) ∧
    (let s := (sHalo false [(0, wants)] 0 0 0).setStop 0 0 (buffered 3);
      passes s false = true ∧ (s.stop 0 0).entries.length < 4 ∧ s.captures 0 0 1 16 s.hring = [(0, 0)] ∧ (s.chan 0).inj = []) := by decide

/-- The lap of four tiles has passed every stop. -/
def sLap : State := (List.range 32).foldl (fun s k => s.setStop 0 k { Stop.init with passed := 4 }) (sHalo false [] 0 0 0)

theorem witness_channel_events :
    ((sLap.chan 0).sched = some (sched false) ∧ (sLap.chan 0).runs = true ∧ (sched false).total ≤ 4 ∧ ∀ k, k < 32 → 4 ≤ (sLap.stop 0 k).passed) ∧
    (State.reset.sys.dstate ≠ .run) ∧
    (let s := s0.setChan 1 { Chan.init with pend := some (sched true) };
      (s.chan 1).runs = false ∧ s.sys.dstate = .run ∧ (s.chan 1).pend = some (sched true)) ∧
    (let m : Memory := Memory.writeBytes [] 0x1000 ([5, 0, 0, 0, 1, 0, 0, 0] ++ List.replicate 56 0 ++ [0, 0, 2, 0, 0, 0, 0, 0, 0, 0, 0, 0, 1, 0, 1, 0] ++ List.replicate 48 0);
      readSched m 0x1001 = .error 1 ∧ readSched [] 0x1000 = .error 2 ∧ (readSched m 0x1000).isOk = true) := by
  refine ⟨⟨rfl, rfl, by decide, by decide⟩, by decide, ⟨rfl, rfl, rfl⟩, by decide⟩


/-! ### Witnesses: tiles delivered -/

/-- Tile 16 captured for request 0 of team 0, whose payload is a tile of zeros. -/
def caught : StopEntry :=
  { lap := 3, sid := 5, layer := 1, tile := 16, poison := false, crc := crc64 (List.replicate 65536 0), free := false, passAt := 100, reqs := [(0, 0)], checked := false, slots := [], todo := [],
    payload := List.replicate 65536 0, busAt := none }
def catcher : Board := { wants with tiles := [], captured := [16] }
def sCaught (n : StopEntry) : State := (sHalo false [(0, catcher)] 0 0 0).setStop 0 0 { passed := 1, last := 100, due := 116, entries := [n] }

theorem witness_tile_checked : ((sCaught caught).stop 0 0).entries = [caught] ∧ caught.passAt + 16 ≤ (sCaught caught).hring ∧
    crc64 caught.payload = caught.crc ∧ catcher.back = .toSet ∧
    NothingWaits (sCaught caught) 0 caught.passAt ∧ ((sCaught caught).chan 0).crcf ≠ 0xFFFF ∧ caught.tile ∈ catcher.captured ∧
    caught.tile ∉ catcher.crcFail ∧ ∃ T, (sCaught caught).team? 0 = some T ∧ aget T.boards 0 = some catcher ∧ SlotForEngine T 0 0 := by
  have e0 : ((sCaught caught).stop 0 0).entries = [caught] := rfl
  have e1 : ((sCaught caught).stop 1 0).entries = [] := rfl
  refine ⟨e0, by decide, by simp only [caught], rfl, ?_, by decide, by decide, by decide, ⟨_, rfl, rfl, ?_⟩⟩
  · rintro c (rfl | rfl) m hm hl
    · rw [e0, List.mem_singleton] at hm
      subst hm; rfl
    · rw [e1] at hm; cases hm
  · unfold SlotForEngine; decide

def delivering (bus : Option Nat) : StopEntry := { caught with checked := true, slots := [(0, 0, 0, 0)], busAt := bus }

theorem witness_tile_commit : ∀ bus ∈ [none, some 200], let s := sCaught (delivering bus)
    (s.stop 0 0).entries = [delivering bus] ∧ (s.stop 1 0).entries = [] ∧ (delivering bus).payload.length = 65536 ∧
      (∀ at_, bus = some at_ → at_ + 64 ≤ s.hring) ∧ sget 0 s.halo.busFree 0 ≤ s.hring ∧ NothingToDrop s ∧
      s.wakeEnd 0 = none ∧ ∃ T, s.team? 0 = some T ∧ T.boards = [(0, catcher)] := by
  intro bus hb
  refine ⟨rfl, rfl, List.length_replicate, ?_, ?_, ?_, rfl, _, rfl, rfl⟩
  rotate_left
  · simp at hb; rcases hb with rfl | rfl <;> decide
  · unfold NothingToDrop; simp at hb; rcases hb with rfl | rfl <;> decide
  rintro at_ rfl
  simp at hb
  subst hb
  decide

theorem witness_board_registers :
    (let b : Board := { wants with regAt := none };
      b.regAt = none ∧ b.due ≤ (sHalo false [(0, b)] 0 0 0).hring ∧ b.tiles ≠ [] ∧ b.drop = [] ∧
        finds (sHalo false [(0, b)] 0 0 0) here (fun T _ => decide (T.boards = [(0, b)] ∧ T.cancels = []) && T.isResident) = true) ∧
    (let s := (sHalo false [(0, wants)] 0 0 0).modTeam 0 fun T => { T with cancels := [⟨40, 0, 0, 4, 9⟩] };
      wants.regAt = some 16 ∧ wants.due ≤ 40 ∧ 40 ≤ s.hring ∧
        finds s here (fun T _ => decide (T.boards = [(0, wants)] ∧ T.cancels = [⟨40, 0, 0, 4, 9⟩])) = true) := by
  refine ⟨by decide, by decide⟩

/-! ### Packets and translation faults -/

/-- An element of four bytes at `pa`, holding 5. -/
def el (pa : Nat) : Elem := ⟨0, pa, pa, 4, 5, 0, 4, false⟩
/-- A packet of the small state's beam. -/
def pkt (op : POp) (kind : PKind) (pend : Option Nat) : Packet :=
  { id := 5, src := here, core := 0, func := 0, tenant := 0, gen := 0, part := 0, kind := kind, target := none, op := op, elems := [el 0x10000, el 0x1007C],
    pend := pend, after := none, acq := false, scope := 0, ro := false, mgmt := false, age := 3, behind := [], slack := 2, pri := 1, sentAt := 1, pc := 0, job := none }
def sPkt (l : List Packet) : State := { s0 with clock := 100, net := { s0.net with packets := l } }

/-- A translation fault of the small state's beam at 0x10000, whose instruction it issues again. -/
def fault (answer : Option Bool) : LogEntry :=
  { id := 3, inst := 3, core := 0, packet := { pkt .load .hbm none with elems := [] }, va := 0x10000, func := 0, write := false, retry := true, fetch := false, raised := 0,
    answer := answer, upgrade := false, stalls := false, long := none, kv := none }

/-! ### Witnesses: shared contexts -/

/-- A context at 0x10000 of one layer, 16 positions a block and rows of two 16-bit elements: its descriptor, its frontier entry at 0x10080,
its block table at 0x10100, its block at 0x11000 with the given tags. -/
def ctxMem (nblk pos cmt hwm flags front : Nat) (tags : List Byte) : Memory :=
  let m := Memory.writeBytes [] 0x10000 (leBytes 8 0x10100 ++ leBytes 8 0x10080 ++ [4, 0, 0, 0, 0, 0, 1, 0] ++ leBytes 4 nblk ++ leBytes 4 pos ++
    leBytes 4 cmt ++ leBytes 4 hwm ++ leBytes 2 flags)
  ((m.writeNat 0x10080 4 front).writeNat 0x10100 8 (2 ^ 44 + 0x11)).writeBytes 0x11000 tags

/-- The small state with this context; v4, v12, v13, v16 and the context's address in v8 are given. Lanes 0 and 8 are active. -/
def sCtx (m : Memory) (d va b el c : Word) : State :=
  { (withBeam fun x => regs [(4, d), (8, va), (12, b), (13, el), (16, c)] { x with exm := 0x101 }) with mem := m }

/-- Nothing holds a context operation. -/
def openCtx (e : Env) (s1 : State) : Bool := !s1.memHeld e && !e.kvLogged s1

theorem openCtx_sound {e : Env} {s1 : State} (h : openCtx e s1 = true) : ContextOpen e s1 := by
  simpa [openCtx, ContextOpen] using h

/-- Earlier accesses of the core come first. -/
def behind (e : Env) (s1 : State) (pas : List Nat) : Bool := s1.ahead e.r e.T.coreId (s1.clock + 1) pas

def context? (w : Bool) (e : Env) (s1 : State) : Option KDesc :=
  if openCtx e s1 = true ∧ ctxVa e % 128 = 0 ∧ ctxVa e / 2 ^ 56 = 0 then
    match s1.kvDesc (s1.laneReq e.r e.T (lowestLane e.b.lvm)) (sget 0 e.b.tenant (lowestLane e.b.lvm)) w (ctxVa e) with
    | .ok p => if behind e s1 [p.1] = false then some p.2 else none
    | .error _ => none
  else none

/-- The context's descriptor passes its checks, and P holds of it. -/
def isContext (e : Env) (s1 : State) (p : KDesc → Bool) : Bool := (context? true e s1).any p && (context? false e s1).isSome

theorem context_sound {w : Bool} {e : Env} {s1 : State} {d : KDesc} (h : context? w e s1 = some d) : ∃ pa, Context w e s1 pa d := by
  unfold context? at h
  split at h
  · next hc =>
    split at h
    · next q hq =>
      split at h
      · next ho =>
        cases h
        exact ⟨q.1, openCtx_sound hc.1, hc.2.1, hc.2.2, hq, by simpa [behind, Behind] using ho⟩
      · cases h
    · cases h
  · cases h

theorem isContext_sound {e : Env} {s1 : State} {p : KDesc → Bool} (h : isContext e s1 p = true) :
    (∃ pa d, Context true e s1 pa d ∧ p d = true) ∧ ∃ pa d, Context false e s1 pa d := by
  simp only [isContext, Bool.and_eq_true, Option.any_eq_true, Option.isSome_iff_exists] at h
  obtain ⟨⟨d, hd, hp⟩, d', hd'⟩ := h
  obtain ⟨pa, hc⟩ := context_sound hd
  obtain ⟨pb, hc'⟩ := context_sound hd'
  exact ⟨⟨pa, d, hc, hp⟩, pb, d', hc'⟩

/-- The context's descriptor is refused with a trap of cause c. -/
def refused (e : Env) (s1 : State) (c : Nat) : Bool :=
  openCtx e s1 && !behind e s1 (s1.kvPas (kvReqOf e s1) (kvTenantOf e) [ctxVa e]) && decide (ctxVa e % 128 = 0 ∧ ctxVa e / 2 ^ 56 = 0) &&
    (match s1.kvDesc (kvReqOf e s1) (sget 0 e.b.tenant (lowestLane e.b.lvm)) true (ctxVa e) with
     | .error (.trap k _) => decide (k = c)
     | _ => false)

noncomputable def contextAll : List Instr := [.kvrsv { z with d := 4, a := 8, b := 12 }, .kvpub { z with d := 4, a := 8, b := 12, c := 16 },
  .kvacq { z with d := 4, a := 8, b := 12 }, .kvwait { z with d := 4, a := 8, b := 12, c := 16 }, .kvcmt { z with a := 8, b := 12 },
  .kvroll { z with d := 4, a := 8 }, .kvgen { z with d := 4, a := 8 }]

/-- A context with 8 of 16 positions reserved, 4 committed. -/
def mid : Memory := ctxMem 1 8 4 9 0 2 []

theorem witness_context_checks : ∀ i ∈ contextAll,
    (Meets i (sCtx mid 1 0x10000 1 0 0) fun e s1 => isContext e s1 (fun _ => true) = true) ∧
    (Meets i (sCtx mid 1 0x10040 1 0 0) fun e s1 => (openCtx e s1 && decide ((e.x.b ≠ 12 ∨ kvNumber e = 1) ∧ ctxVa e % 128 ≠ 0)) = true) := by
  have h : ∀ i ∈ contextAll, (meets i (sCtx mid 1 0x10000 1 0 0) fun e s1 => isContext e s1 (fun _ => true)) = true ∧
    (meets i (sCtx mid 1 0x10040 1 0 0) fun e s1 => (openCtx e s1 && decide ((e.x.b ≠ 12 ∨ kvNumber e = 1) ∧ ctxVa e % 128 ≠ 0))) = true := by decide
  exact fun i hi => ⟨meets_sound (h i hi).1, meets_sound (h i hi).2⟩

/-- The core's operand log holds n instructions. -/
def sLog (n : Nat) : State :=
  let s := sCtx mid 1 0x10000 1 0 0
  { s with net := { s.net with log := (List.range n).map fun i => { fault none with id := i, inst := i } } }

/-- The errors of a descriptor that the lanes of a context operation read. -/
def descErr (w : Bool) (e : Env) (s1 : State) (p : KErr → Bool) : Bool :=
  openCtx e s1 && !behind e s1 (s1.kvPas (kvReqOf e s1) (kvTenantOf e) [ctxVa e]) && decide (ctxVa e % 128 = 0 ∧ ctxVa e / 2 ^ 56 = 0) &&
    (match s1.kvDesc (kvReqOf e s1) (sget 0 e.b.tenant (lowestLane e.b.lvm)) w (ctxVa e) with | .error k => p k | .ok _ => false)

/-- The beam's core holds a translation of page 1, which other devices hold too. -/
def sShared (m : Memory) : State :=
  let s := sCtx m 1 0x10000 1 0 0
  { s with net := { s.net with tlb := [{ place := .core 0, func := 0, gen := 0, page := 1, leaf := { probeLeaf with rd := true } }] } }

/-- The descriptor's page is not mapped, is to be upgraded; a read of the beam on the descriptor's line is on its way; the log is full. -/
theorem witness_context_waits :
    (Meets (.kvacq { z with d := 4, a := 8, b := 12 }) (sCtx mid 1 0x50000 0 0 0) fun e s1 => descErr false e s1 (fun k => decide (k = .fault 0x50000 false)) = true) ∧
    (Meets (.kvrsv { z with d := 4, a := 8, b := 12 }) (sShared mid) fun e s1 => descErr true e s1 (fun k => decide (k = .upgrade 0x10000)) = true) ∧
    (Meets (.kvrsv { z with d := 4, a := 8, b := 12 }) (let s := sCtx mid 1 0x10000 1 0 0; { s with net := { s.net with packets :=
        [{ pkt .load .hbm none with sentAt := 0, elems := [⟨0, 0x10000, 0x10000, 4, 0, 0, 0, false⟩] }] } }) fun e s1 =>
      (openCtx e s1 && behind e s1 (s1.kvPas (kvReqOf e s1) (kvTenantOf e) [ctxVa e])) = true) ∧
    (Meets (.kvrsv { z with d := 4, a := 8, b := 12 }) (sLog 64) fun e s1 => s1.memHeld e = true) :=
  ⟨meets_sound (by decide), meets_sound (by decide), meets_sound (by decide), meets_sound (by decide)⟩

/-- A dead context is refused; an address beyond 2^56 is not canonical. -/
theorem witness_context_refused :
    (Meets (.kvrsv { z with d := 4, a := 8, b := 12 }) (sCtx (ctxMem 1 8 4 9 0x2000 2 []) 1 0x10000 1 0 0) fun e s1 => refused e s1 cPROT = true) ∧
    (Meets (.kvrsv { z with d := 4, a := 8, b := 12 }) ((sCtx mid 1 0x10000 1 0 0).modBeam here (regs [(9, 0x1000000)])) fun e s1 =>
      (openCtx e s1 && decide (ctxVa e % 128 = 0 ∧ ctxVa e / 2 ^ 56 ≠ 0)) = true) := ⟨meets_sound (by decide), meets_sound (by decide)⟩

/-- Positions 4 to 7 of the context are written in generation 0. -/
def written : Memory := ctxMem 1 8 4 9 0 2 (List.replicate 16 0 ++ (List.replicate 4 [0, 0, 0, 1]).flatten)

def slotsWritten (e : Env) (s1 : State) (d : KDesc) (lo hi : Nat) : Bool :=
  let s2 := contextRead e s1
  (List.range d.layers).all fun L => (List.range hi).all fun p => decide (p < lo) ||
    (match s2.kvTag (kvReqOf e s1) d false L p with
     | .ok (some (pa, _)) => decide (s2.mem.readNat pa 4 / 2 ^ 24 % 4 = 1) && decide (s2.mem.readNat pa 4 % 2 ^ 12 = d.vgen.toNat) &&
         !s2.badRange pa 4
     | _ => false)

/-- Their block tables can be read, and nothing of the core on its way to them comes first. -/
def slotsReached (e : Env) (s1 : State) (d : KDesc) (lo hi : Nat) : Bool :=
  let s2 := contextRead e s1
  ((List.range d.layers).all fun L => (List.range hi).all fun p => decide (p < lo) ||
    (s2.kvTag (kvReqOf e s1) d false L p).isOk) && !behind e s2 (slotPlaces e s1 s2 d lo hi)

theorem witness_context_operations :
    (Meets (.kvrsv { z with d := 4, a := 8, b := 12 }) (sCtx mid 0 0x10000 8 0 0) fun e s1 =>
      isContext e s1 (fun d => decide (d.pos + kvNumber e = d.nblk * 2 ^ d.log2b ∧ 1 ≤ kvNumber e)) = true) ∧
    (Meets (.kvrsv { z with d := 4, a := 8, b := 12 }) (sCtx mid 0 0x10000 9 0 0) fun e s1 =>
      isContext e s1 (fun d => decide (d.nblk * 2 ^ d.log2b < d.pos + kvNumber e)) = true) ∧
    (Meets (.kvrsv { z with d := 4, a := 8, b := 12 }) (sCtx mid 0 0x10000 65537 0 0) fun e _ => decide (65536 < kvNumber e) = true) ∧
    (Meets (.kvcmt { z with a := 8, b := 12 }) (sCtx mid 0 0x10000 4 0 0) fun e s1 => isContext e s1 (fun d => decide (kvNumber e ≤ d.cmt)) = true) ∧
    (Meets (.kvcmt { z with a := 8, b := 12 }) (sCtx mid 0 0x10000 9 0 0) fun e s1 => isContext e s1 (fun d => decide (d.cmt < kvNumber e ∧ d.pos < kvNumber e)) = true) ∧
    (Meets (.kvcmt { z with a := 8, b := 12 }) (sCtx mid 0 0x10000 5 0 0) fun e s1 =>
      isContext e s1 (fun d => decide (d.cmt < kvNumber e ∧ kvNumber e ≤ d.pos) && slotsReached e s1 d d.cmt (kvNumber e) && !slotsWritten e s1 d d.cmt (kvNumber e)) = true) ∧
    (Meets (.kvcmt { z with a := 8, b := 12 }) (sCtx written 0 0x10000 8 0 0) fun e s1 =>
      isContext e s1 (fun d => decide (d.cmt < kvNumber e ∧ kvNumber e ≤ d.pos) && slotsReached e s1 d d.cmt (kvNumber e) && slotsWritten e s1 d d.cmt (kvNumber e)) = true) ∧
    (Meets (.kvroll { z with d := 4, a := 8 }) (sCtx (ctxMem 1 8 4 9 4094 2 []) 0 0x10000 0 0 0) fun e s1 => isContext e s1 (fun d => decide (d.vgen ≠ 4095)) = true) ∧
    (Meets (.kvroll { z with d := 4, a := 8 }) (sCtx (ctxMem 17 8 4 261 4095 2 []) 0 0x10000 0 0 0) fun e s1 =>
      isContext e s1 (fun d => decide (d.vgen = 4095 ∧ 256 < d.hwm - d.cmt)) = true) ∧
    (Meets (.kvgen { z with d := 4, a := 8, flg := 1 }) (sCtx (ctxMem 1 8 4 9 0x1005 2 []) 0 0x10000 0 0 0) fun e s1 =>
      isContext e s1 (fun d => d.spois && e.x.flg.getLsbD 0) = true) :=
  ⟨meets_sound (by decide), meets_sound (by decide), meets_sound (by decide), meets_sound (by decide), meets_sound (by decide),
    meets_sound (by decide), meets_sound (by decide), meets_sound (by decide), meets_sound (by decide), meets_sound (by decide)⟩

def frontAt (e : Env) (s1 : State) (write : Bool) (d : KDesc) (layer : Nat) : Option Nat :=
  match (contextRead e s1).kvPa (kvReqOf e s1) d.tenant write (d.fra + 64 * layer) with | .ok p => some p.1 | .error _ => none

/-- A context of 512 positions of which 400 are reserved, with its frontier at 100. -/
def wide : Memory := ctxMem 32 400 4 400 0 100 []

noncomputable def kvpub4 : Instr := .kvpub { z with d := 4, a := 8, b := 12, c := 16 }

theorem witness_frontiers :
    (Meets kvpub4 (sCtx wide 257 0x10000 0 0 0) fun e s1 => (isContext e s1 (fun _ => true) && decide (256 < (lowReg e 4).toNat)) = true) ∧
    (Meets kvpub4 (sCtx wide 1 0x10000 400 0 0) fun e s1 => (isContext e s1 (fun d => decide (d.pos < (lowReg e 12).toNat + (lowReg e 4).toNat))) = true) ∧
    (Meets kvpub4 (sCtx wide 1 0x10000 356 0 0) fun e s1 => (s1.quietBeam e.r e.b && isContext e s1 (fun d => decide ((lowReg e 12).toNat + (lowReg e 4).toNat ≤ d.pos ∧
      (lowReg e 16).toNat < d.layers) && (frontAt e s1 true d 0).any fun fra => decide (s1.mem.readNat fra 4 + 256 < (lowReg e 12).toNat + (lowReg e 4).toNat))) = true) ∧
    (Meets kvpub4 (sCtx wide 2 0x10000 354 0 0) fun e s1 => (s1.quietBeam e.r e.b && isContext e s1 (fun d => decide ((lowReg e 12).toNat + (lowReg e 4).toNat ≤ d.pos ∧
      (lowReg e 16).toNat < d.layers) && (frontAt e s1 true d 0).any fun fra => decide ((lowReg e 12).toNat + (lowReg e 4).toNat = s1.mem.readNat fra 4 + 256))) = true) ∧
    (Meets (.kvacq { z with d := 4, a := 8, b := 12 }) (sCtx wide 0 0x10000 0 0 0) fun e s1 =>
      isContext e s1 (fun d => decide (kvNumber e < d.layers) && (frontAt e s1 false d 0).isSome) = true) ∧
    (Meets (.kvwait { z with d := 4, a := 8, b := 12, c := 16 }) (sCtx wide 0 0x10000 0 0 101) fun e s1 =>
      isContext e s1 (fun d => decide (kvNumber e < d.layers) && (frontAt e s1 false d 0).any fun fra => decide (s1.mem.readNat fra 4 < (lowReg e 16).toNat)) = true) ∧
    (Meets (.kvacq { z with d := 4, a := 8, b := 12 }) (sCtx wide 0 0x10000 1 0 0) fun e s1 => isContext e s1 (fun d => decide (d.layers ≤ kvNumber e)) = true) :=
  ⟨meets_sound (by decide), meets_sound (by decide), meets_sound (by decide), meets_sound (by decide), meets_sound (by decide),
    meets_sound (by decide), meets_sound (by decide)⟩

/-- Nothing holds an instruction on slots; an entry of the log may still access what its lanes do. -/
def openKv (e : Env) (s1 : State) (k : KvKind) : Bool := !s1.memHeld e && !behind e s1 ((e.kvArgs k).flatMap (s1.kvSeen e.r e.T))
def barred (e : Env) (s1 : State) (ok : List KvLane) : Bool := ok.any fun k => k.vas.any fun va => s1.kvBars e.r k.arg.lane va

/-- What the checks of the lanes' slots answer. -/
def kvGo (e : Env) (s1 : State) (k : KvKind) (p : List KvLane → List (KvArg × KErr) → Bool) : Bool :=
  (e.kvPrior.isSome || decide (e.act ≠ 0)) && openKv e s1 k &&
    (match s1.kvChecks e.r e.T k (e.kvArgs k) with | .go ok aside => !barred e s1 ok && p ok aside | .trap _ _ => false)
def kvTraps (e : Env) (s1 : State) (k : KvKind) : Bool :=
  (e.kvPrior.isSome || decide (e.act ≠ 0)) && openKv e s1 k &&
    (match s1.kvChecks e.r e.T k (e.kvArgs k) with | .trap _ _ => true | .go _ _ => false)
def poisonedLane (s1 : State) (k : KvLane) : Bool := k.committed && k.bad s1
def crowded (e : Env) (s1 : State) (ok : List KvLane) (aside : List (KvArg × KErr)) : Bool :=
  decide (1024 < e.b.orc.toNat + (lanesRead e s1 ok).reserved e.r + Machine.kvCount ok e.kvFirst + 5 * aside.length)
def tagsBehind (e : Env) (s1 : State) (ok : List KvLane) : Bool := behind e (lanesRead e s1 ok) (ok.flatMap KvLane.pas)

/-- A load of the small state's beam on the line of the context's tags is on its way. -/
def sTagRead : State :=
  let s := sCtx (written.writeNat 0x10100 8 (2 ^ 44 + 0x12)) 0 0x10000 7 0 0
  { s with net := { s.net with packets := [{ pkt .load .hbm none with sentAt := 0, elems := [⟨0, 0x12000, 0x12000, 4, 0, 0, 0, false⟩] }] } }

/-- The log holds a read of slot 7 by the small state's beam, whose page is not mapped. -/
def sBarred : State :=
  let s := sCtx mid 0 0x10000 7 0 5
  { s with net := { s.net with log := [{ fault none with retry := false, kv := some { kind := .read, d := 4, args := [], named := [], pages := [(0, none)] } }] } }

theorem kvGo_sound {e : Env} {s1 : State} {k : KvKind} {p : List KvLane → List (KvArg × KErr) → Bool} (h : kvGo e s1 k p = true) :
    ∃ ok aside, KvPasses e s1 k ok aside ∧ p ok aside = true := by
  simp only [kvGo, Bool.and_eq_true, Bool.or_eq_true, decide_eq_true_eq] at h
  obtain ⟨⟨hl, hm⟩, hp⟩ := h
  split at hp
  · next ok aside hc =>
    simp only [Bool.and_eq_true, Bool.not_eq_true'] at hp
    refine ⟨ok, aside, ⟨hl, ?_, hc, ?_⟩, hp.2⟩
    · simpa [openKv, behind, KvOpen, Behind] using hm
    · rintro ⟨k, hk, va, hv, hb⟩
      have h1 : barred e s1 ok = true := List.any_eq_true.mpr ⟨k, hk, List.any_eq_true.mpr ⟨va, hv, hb⟩⟩
      rw [hp.1] at h1
      cases h1
  · cases hp

/-- The arguments of the lanes with their contexts' descriptors. -/
def lanesAre (e : Env) (s1 : State) (k : KvKind) (p : KvArg → KDesc → Bool) : Bool :=
  (e.kvArgs k).all fun a => a.desc.isNone && decide (a.ctx % 128 = 0 ∧ a.ctx / 2 ^ 56 = 0) &&
    (match s1.kvDesc (s1.laneReq e.r e.T a.lane) a.tenant false a.ctx with | .ok x => p a x.2 | .error _ => false)
def misplaced (a : KvArg) (d : KDesc) : Bool := decide (a.width / d.es ≠ 0) && decide (a.el % (a.width / d.es) ≠ 0)
def outside (a : KvArg) (d : KDesc) : Bool :=
  decide (d.layers ≤ a.layer ∨ a.high ≠ 0 ∨ a.pos < d.cmt ∨ d.pos ≤ a.pos ∨ a.width / d.es = 0 ∨ d.heads * d.dim < a.el + a.width / d.es)

noncomputable def kvw4 : Instr := .kvw { z with d := 4, a := 8, b := 12, c := 16, x10 := 2 }
noncomputable def kvr4 : Instr := .kvr { z with d := 4, a := 8, b := 12, c := 16, x10 := 2 }
noncomputable def kvrt4 : Instr := .kvrt { z with d := 4, a := 8, b := 12, c := 16 }

/-- The context's block lies in a page that is not mapped. -/
def away : Memory := mid.writeNat 0x10100 8 (2 ^ 44 + 0x51)

/-- Its lanes wait for that read. -/
theorem witness_slots_barred : Meets kvw4 sBarred fun e s1 => (openKv e s1 .write &&
    (match s1.kvChecks e.r e.T .write (e.kvArgs .write) with | .go ok _ => barred e s1 ok | .trap _ _ => false)) = true :=
  meets_sound (by decide)

theorem witness_slots_written :
    (Meets kvw4 (sCtx mid 0 0x10000 7 0 5) fun e s1 => kvGo e s1 .write (fun ok aside => decide (ok.length = 2 ∧ aside = []) && !crowded e s1 ok aside) = true) ∧
    (Meets kvw4 ((sCtx mid 0 0x10000 7 0 5).modBeam here fun b => { b with orc := 1023 }) fun e s1 =>
      kvGo e s1 .write (fun ok aside => decide (aside = []) && crowded e s1 ok aside) = true) ∧
    (Meets kvw4 (sCtx away 0 0x10000 7 0 5) fun e s1 => (kvGo e s1 .write (fun ok aside => decide (aside.length = 2) && !crowded e s1 ok aside) && decide (e.b.halt = .run)) = true) ∧
    (Meets kvw4 (sCtx mid 0 0x10000 8 0 5) fun e s1 => kvTraps e s1 .write = true) ∧
    (Meets kvw4 (sCtx mid 0 0x10000 7 1 5) fun e s1 => (lanesAre e s1 .write (fun _ _ => true) && (e.kvArgs .write).any fun a => lanesAre e s1 .write fun b d => decide (a ≠ b) || misplaced b d) = true) ∧
    (Meets kvw4 (sCtx mid 0 0x10000 8 0 5) fun e s1 => lanesAre e s1 .write (fun a d => !misplaced a d && outside a d) = true) ∧
    (Meets kvw4 (sCtx mid 0 0x10001 7 0 5) fun e _ => ((e.kvArgs .write).any fun a => decide (a.ctx % 128 ≠ 0)) = true) :=
  ⟨meets_sound (by decide), meets_sound (by decide), meets_sound (by decide), meets_sound (by decide), meets_sound (by decide), meets_sound (by decide),
    meets_sound (by decide)⟩

theorem witness_slots_read :
    (Meets kvr4 (sCtx written 0 0x10000 7 0 0) fun e s1 => kvGo e s1 .read (fun ok aside => decide (aside = []) && ok.all fun k => !poisonedLane (lanesRead e s1 ok) k) = true) ∧
    (Meets kvrt4 (sCtx written 0 0x10000 7 0 0) fun e s1 => kvGo e s1 .tag (fun ok aside => decide (aside = []) &&
      !tagsBehind e s1 ok && ok.all fun k => !k.bad (lanesRead e s1 ok)) = true) ∧
    (Meets kvrt4 sTagRead fun e s1 => kvGo e s1 .tag (fun ok _ => tagsBehind e s1 ok) = true) ∧
    (∀ p ∈ ([(kvr4, KvKind.read), (kvrt4, .tag)] : List (Instr × KvKind)),
      Meets p.1 (let s := sCtx written 0 0x10000 3 0 0; { s with net := { s.net with badLines := [0x11000 / 128] } }) fun e s1 =>
        (decide (e.b.tvec ≠ 0) && kvGo e s1 p.2 fun ok _ => !tagsBehind e s1 ok && ok.any (poisonedLane (lanesRead e s1 ok))) = true) := by
  refine ⟨meets_sound (by decide), meets_sound (by decide), meets_sound (by decide), fun p hp => meets_sound ?_⟩
  revert p
  unfold kvr4 kvrt4
  decide

/-- One lane's slot, of position 7, with its unit at 0x11080. -/
def slot0 : KvLane :=
  { arg := { lane := 0, ctx := 0x10000, tenant := 0, pos := 7, el := 0, layer := 0, high := 0, node := 0, unit := 5, v := false, width := 4, desc := none }
    d := { btb := 0x10100, fra := 0x10080, log2b := 4, fmt := 0, layers := 1, heads := 1, dim := 2, nblk := 1, pos := 8, cmt := 4, hwm := 9, vgen := 0,
           spois := false, dead := false, tenant := 0 }
    desc := 0x10000, there := true, tag := 0x1101C, tagk := .hbm, vas := [], els := [(0x11080, .hbm), (0x11082, .hbm)], gen := 0 }

/-- A beam with one long instruction in progress, and nothing else. -/
def sLong (op : Long) : State := { (withBeam fun b => { b with longs := [⟨w64 0, 1, 1, op⟩] }) with clock := 100 }

theorem witness_slot_substeps :
    (∀ g ∈ [0, 3], Finds (sLong (.kvw 9 [slot0] [] g)) here fun _ b => decide (b.halt = .run ∧ b.latched = none ∧ b.longs = [⟨w64 0, 1, 1, .kvw 9 [slot0] [] g⟩] ∧
      b.orc.toNat + 136 ≤ 1024 ∧ ([slot0].filter fun k => decide (k.lane / 8 ≤ g)).length ≤ 8 ∧ ∀ k ∈ [slot0], k.els.length ≤ 16) = true) ∧
    (∀ g ∈ [0, 3], Finds (sLong (.kvr [slot0] [] [] 4 9 g)) here fun T b => (decide (b.halt = .run ∧ b.latched = none ∧ b.longs = [⟨w64 0, 1, 1, .kvr [slot0] [] [] 4 9 g⟩]) &&
      !(sLong (.kvr [slot0] [] [] 4 9 g)).ahead here T.coreId 1 (([slot0].filter fun k => decide (k.lane / 8 ≤ g)).flatMap KvLane.pas) &&
      [slot0].all fun k => !k.bad (sLong (.kvr [slot0] [] [] 4 9 g)) && decide (k.gen = ((sLong (.kvr [slot0] [] [] 4 9 g)).func
        (((sLong (.kvr [slot0] [] [] 4 9 g)).ownerOf k.tenant).getD ((sLong (.kvr [slot0] [] [] 4 9 g)).funcOf T))).gen)) = true) := by
  refine ⟨fun g hg => finds_sound ?_, fun g hg => finds_sound ?_⟩ <;> revert g <;> decide

/-- Staging cards: of one position into queue 0, with its queue and without, and one of LEN 0. -/
def sStage (len : Nat) (inst : Bool) : State :=
  (sCard 0 0x10084 len 0 0).modTeam 0 fun T => { T with queues := if inst then [(0, { inst := true, ctrl := 0x40000, p := 0, c := 0, slots := [] })] else [] }

def stageOk (e : Env) : Bool := decide (cardBits e 0 4 = 4 ∧ cardBits e 11 5 = 0 ∧ cardBits e 4 3 = 0 ∧ cardBits e 7 1 = 1 ∧ cardBits e 18 14 = 0 ∧
  1 ≤ cardField e 4 4 ∧ cardField e 4 4 ≤ 1024 ∧ cardField e 16 8 = 0 ∧ cardField e 24 8 / 2 ^ 44 = 0)

theorem witness_staging :
    (Meets (.kvstage { z with d := 4, a := 8 }) (sStage 1024 true) fun e s1 => (!s1.acquiring e.r && s1.quietBeam e.r e.b && stageOk e && there e s1 &&
      decide ((s1.jobs.filter fun j => decide (j.team = some e.r.t)).length < 64)) = true) ∧
    (Meets (.kvstage { z with d := 4, a := 8 }) (sStage 1 false) fun e s1 => (!s1.acquiring e.r && stageOk e && !there e s1) = true) ∧
    (Meets (.kvstage { z with d := 4, a := 8 }) (sStage 1025 true) fun e s1 => (!s1.acquiring e.r && !stageOk e) = true) :=
  ⟨meets_sound (by decide), meets_sound (by decide), meets_sound (by decide)⟩


/-! ### Witnesses: waits that end -/

/-- The beam waits; queue 0 has a slot in state x, the array is in state DONE, entry 7 is in the engine, job 1 is open. -/
def sWait (st : Status) (x : SlotSt) : State :=
  let s := ((sEng [ent .mma false 0 none]).modTeam 0 fun T => { T with
    queues := [(0, { inst := true, ctrl := 0x40000, p := 2, c := 2, slots := if x = .free then [] else [(0, ⟨x, 0, false, false⟩)] })]
    prism := inState .done, bars := [(3, { exp := 2, cnt := 0, ph := 1 })], stats := [(2, 2), (3, 0x10000003)] }).modBeam here fun b => { b with status := st }
  { s with jobs := [job 1] }

def waits (s : State) (st : Status) (p : Team → Beam → Bool) : Bool :=
  finds s here fun T b => decide (b.status = st ∧ T.life = .resident 0 ∧ T.commits = []) && !T.stopped && b.ptrap.isNone && p T b

theorem witness_waits_end :
    waits (sWait (.yielded 100 []) .free) (.yielded 100 []) (fun _ _ => decide (100 ≤ (sWait (.yielded 100 []) .free).clock)) = true ∧
    waits (sWait .bar .free) .bar (fun T _ => !T.arrived.getLsbD 0) = true ∧
    waits ((sWait .bar .free).modTeam 0 fun T => { T with arrived := 1 }) .bar (fun T _ => T.arrived.getLsbD 0) = true ∧
    waits (sWait (.named 3 0) .free) (.named 3 0) (fun T _ => decide ((barrierOf T 3).ph ≠ 0)) = true ∧
    waits (sWait (.mwait [6]) .free) (.mwait [6]) (fun T _ => ((sWait (.mwait [6]) .free).core T.coreId).entries.all fun n => decide (n.id ∉ [6])) = true ∧
    waits (sWait (.qacq 0 4 9) .free) (.qacq 0 4 9) (fun T _ => decide ((slotIn (queueIn T 0) ((queueIn T 0).p % ctrlDepth (queueIn T 0).ctrl)).st = .free)) = true ∧
    waits (sWait (.qwait 0 4 9) .full) (.qwait 0 4 9) (fun T _ => decide ((slotIn (queueIn T 0) ((queueIn T 0).c % ctrlDepth (queueIn T 0).ctrl)).st = .full)) = true ∧
    waits (sWait (.pacap 4 9) .free) (.pacap 4 9) (fun T _ => decide (T.prism.state = .done)) = true ∧
    waits (sWait (.jwait 2) .free) (.jwait 2) (fun T _ => ((sWait (.jwait 2) .free).jobs.all fun j => decide (j.team ≠ some 0 ∨ j.handle ≠ 2)) &&
      decide ((statusKept T 2).toNat / 2 ^ 28 = 0)) = true ∧
    (∀ st ∈ [Status.qacq 0 4 9, .qwait 0 4 9], finds ((sWait st .free).modTeam 0 fun T => { T with beams := T.beams ++ T.beams }) ⟨0, 1⟩ (fun T b =>
      decide (b.status = st ∧ T.commits = [] ∧ T.life = .resident 0) && T.beams.head?.any fun c => decide (c.status = st ∧ c.lastIssue = b.lastIssue)) =
        true) ∧
    waits (sWait (.jsleep 2 0x10040) .free) (.jsleep 2 0x10040) (fun T _ => ((sWait (.jsleep 2 0x10040) .free).jobs.all fun j =>
      decide (j.team ≠ some 0 ∨ j.handle ≠ 2)) && decide ((statusKept T 2).toNat / 2 ^ 28 = 0)) = true ∧
    waits (sWait (.board 0 0 1 16 4 4 9) .free) (.board 0 0 1 16 4 4 9) (fun T _ => decide (aget T.boards 0 = none)) = true ∧
    waits ((sWait (.yielded 900 [⟨0, 1⟩]) .free).modTeam 0 fun T => { T with beams := T.beams ++ T.beams.map fun b => { b with lastIssue := some 7 } })
      (.yielded 900 [⟨0, 1⟩]) (fun T b => decide (b.lastIssue = none) && (T.beams[1]?).any fun c => decide (c.lastIssue = some 7)) = true := by decide

/-! ### Witnesses: packets -/

theorem witness_packets : ∀ op ∈ [POp.load, .store, .red 0, .atom 2, .prefetch], ∀ kind ∈ [PKind.hbm, .cxl],
    let p := pkt op kind (some 9)
    (sPkt [p]).net.packets[0]? = some p ∧ (sPkt [p]).servable 0 p = true ∧ p.gen = ((sPkt [p]).func p.func).gen ∧ p.target = none ∧
      (∀ x ∈ p.elems, x.pa / 128 = p.pa / 128 ∧ 0 < x.size ∧ x.pa % x.size = 0 ∧ 128 % x.size = 0 ∧ x.val < 2 ^ (8 * x.size) ∧ x.size = p.size) ∧
      finds (sPkt [p]) p.src (fun _ _ => true) = true := by decide

/-- A packet of an old generation, and one behind a packet to the same line. -/
theorem witness_old_packet : let p := { pkt .store .hbm none with gen := 1 }
    (sPkt [p]).servable 0 p = true ∧ p.gen ≠ ((sPkt [p]).func p.func).gen ∧ ((sPkt [p]).func p.func).stale.toNat < 2 ^ 32 - 1 ∧
      (let q := pkt .store .hbm none;
        (sPkt [q, q]).net.packets[1]? = some q ∧ (sPkt [q, q]).servable 1 q = false) := by decide

theorem witness_acknowledgement : let s := { (withBeam fun b => { b with orc := 1 }) with net := { s0.net with acks := [⟨5, here, 1, (none, 3), 0, 2⟩, ⟨6, here, 2, (none, 3), 0, 0⟩] } }
    s.net.acks[0]? = some ⟨5, here, 1, (none, 3), 0, 2⟩ ∧ s.net.acks[1]? = some ⟨6, here, 2, (none, 3), 0, 0⟩ ∧ finds s here (fun _ b => decide (1 ≤ b.orc.toNat)) = true := by decide

theorem witness_arbitration : (∃ k p, Competes (sPkt [pkt .load .hbm none, pkt .store .hbm none]) [1, 0] k p) ∧
    (let q := { pkt .load .hbm none with id := 6, behind := [5] };
      (pkt .store .hbm none) ∈ (sPkt [pkt .store .hbm none, q]).net.packets ∧ (pkt .store .hbm none).id ∈ q.behind) :=
  ⟨⟨0, _, by decide, rfl, by decide⟩, by decide⟩

/-- A beam that waits in a watch of the word at 0x10000, which holds `v`, until a limit. -/
def sWatch (v : Nat) (lim : Option Nat) (w : List Watch) : State :=
  let s := sPkt [{ pkt .watch .hbm (some 9) with elems := [el 0x10000] }]
  { (s.modBeam here fun b => { b with status := .watch 9 0xFF lim 4 4 }) with
    mem := Memory.writeNat [] 0x10000 4 v, net := { s.net with watches := w } }

theorem witness_watches_end : ∀ v ∈ [4, 5], let s := sWatch v (some 200) []
    let p := { pkt .watch .hbm (some 9) with elems := [el 0x10000] }
    s.net.packets[0]? = some p ∧ s.servable 0 p = true ∧ p.gen = (s.func 0).gen ∧ (watched p).size = 4 ∧ s.mem.readNat (watched p).pa 4 = v ∧
      s.watchesAt (homeSlice p.kind (watched p).pa) < 64 ∧ s.clock < 200 ∧
      finds s here (fun _ b => decide (b.status = .watch 9 0xFF (some 200) 4 4)) = true := by decide

/-- The watch held at the slice; its line has an uncorrectable error or not. -/
def held9 : Watch := { who := .beam here 9, kind := .hbm, pa := 0x10000, size := 4, hit := true, va := 0x10000, func := 0, gen := 0, cut := false }

theorem witness_watch_replies : ∀ bad ∈ [[], [0x200]],
    let s := (sWatch 5 (some 100) [held9])
    let s := { s with net := { s.net with badLines := bad } }
    s.net.watches[0]? = some held9 ∧ 100 ≤ s.clock ∧ s.badRange 0x10000 4 = decide (bad ≠ []) ∧
      finds s here (fun _ b => decide (b.status = .watch 9 0xFF (some 100) 4 4)) = true := by decide

theorem witness_coalescer : let ps := [pkt .store .hbm none]
    ∀ n ∈ [0, 1], finds (sLong (.coal 9 [ps, ps] [] n)) here (fun _ b => decide (b.halt = .run ∧ b.longs = [⟨w64 0, 1, 1, .coal 9 [ps, ps] [] n⟩] ∧ [ps, ps][n]? = some ps ∧
      b.orc.toNat + ps.length ≤ 1024) && ps.all fun p => !(sLong (.coal 9 [ps, ps] [] n)).poisoned p) = true := by decide

/-- Group 0 with one stamped store, its control line at 0x20000; a stamped packet waits. -/
def sGroup (q : List Stamped) : State :=
  let s := sPkt [{ pkt (.mcst (some 0)) .multicast none with elems := [el 0x10000] }]
  { s.setLink 96 { Link.init with state := .up } with
    work := { s.work with groups := [(0, { members := 2, base := 0x20000, stamp := 4, queue := q, applied := 3 })] } }

theorem witness_collimated_stores_apply :
    (let s := sGroup [];
      let p := { pkt (.mcst (some 0)) .multicast none with elems := [el 0x10000] };
      s.net.packets[0]? = some p ∧ (aget s.work.groups 0).isSome = true ∧ p.job = none ∧ s.beforeStamp p = false ∧ s.linkState (96 + 0 % 8) = .up) ∧
    (let p := { pkt (.mcst (some 0)) .multicast none with elems := [el 0x10000], sentAt := 2 };
      (∀ q ∈ [{ pkt .store .hbm none with after := some 1, scope := 3 }, pkt (.mcst (some 0)) .multicast none, pkt (.mcst none) .multicast none,
          { pkt .load .multicast (some 9) with elems := [el 0x10000] }],
        q ∈ (sPkt [q, p]).net.packets ∧ q.src = p.src ∧ q.job = none ∧ q.sentAt < p.sentAt ∧
          ((q.after ≠ none ∧ 3 ≤ q.scope) ∨ q.op = p.op ∨ q.op = .mcst none ∨
            (q.op = .load ∧ ∃ x ∈ q.elems, ∃ y ∈ p.elems, x.lane = y.lane ∧ x.pa / 128 = y.pa / 128)))) ∧
    (((sGroup []).controlGroup 0x20000).map (fun e => e.1) = some 0 ∧ 0x20000 % 128 = 0) ∧
    (let x : Stamped := { stamp := 4, line := 0x20000 / 128 + 1, bytes := [(0, 1), (127, 2)], src := none, lanes := [] };
      (aget (sGroup [x]).work.groups 0).map (fun G => (G.queue, G.base)) = some ([x], 0x20000) ∧ (∀ e ∈ x.bytes, e.1 < 128) ∧
        (x.bytes.map (·.1)).Nodup ∧ 0x20000 + 8 ≤ 128 * x.line) := by decide

/-! ### Witnesses: translation -/

theorem witness_entries :
    (w64 1).toNat % 4 = 1 ∧ (w64 0).toNat % 2 = 0 ∧ (w64 3).toNat % 4 = 3 ∧ (w64 (3 + 2 ^ 8)).toNat / 2 ^ 8 % 2 = 1 ∧
      5 ≤ (w64 (3 + 5 * 2 ^ 13)).toNat / 2 ^ 13 % 8 ∧ (w64 (3 + 2 ^ 16)).toNat / 2 ^ 16 % 2 ^ 32 % 2 ^ (10 * 1) ≠ 0 ∧
      (w64 (3 + 2 ^ 26)).toNat / 2 ^ 16 % 2 ^ 32 % 2 ^ (10 * 1) = 0 ∧ (w64 (3 + 2 ^ 26)).toNat / 2 ^ 13 % 8 < 4 := by decide

/-- A table of function 0 at 0x100000 whose chain of entries 0 ends at a leaf of page 1, of partition 0's first region. -/
def sTable (leaf : Nat) : State :=
  let s := s0.setFunc 0 { Func.init with asroot := 0x100000 }
  { s with
    regs := { s.regs with parts := [(0, { Part.init with base := [(0, 0)], lim := [(0, 0x3FFFFF)] })] }
    mem := (((Memory.writeNat [] 0x100000 8 0x110001).writeNat 0x110000 8 0x120001).writeNat 0x120000 8 0x130001).writeNat 0x130008 8 leaf }

theorem witness_walks :
    (∃ l pa, (sTable 0x10003).walk 0 ((sTable 0x10003).func 0).part.toNat (w64 0x10000).toNat = .ok l pa) ∧
    (∀ l pa, (sTable 0).walk 0 ((sTable 0).func 0).part.toNat (w64 0x10000).toNat ≠ .ok l pa) := by
  have h1 : ((sTable 0x10003).walk 0 ((sTable 0x10003).func 0).part.toNat (w64 0x10000).toNat) =
    .ok { tenant := 0, frame := 1, kind := .hbm, w := false, x := false, rd := false, pin := false, aux := 0, level := 0 } 0x10000 := by decide
  have h2 : ((sTable 0).walk 0 ((sTable 0).func 0).part.toNat (w64 0x10000).toNat) = .invalid := by decide
  exact ⟨⟨_, _, h1⟩, fun l pa => by rw [h2]; simp⟩

/-- A shootdown in progress. -/
def sShoot (mode : BitVec 2) (mark : Option Nat) : State :=
  { s0 with regs := { s0.regs with sdBusy := true, sdMode := mode, sdFunc := 0, sdVa := 0x10000, sdLen := 1, sdMark := mark } }

theorem witness_shootdowns : (∀ m ∈ [0, 1, 2], ShootdownDue (sShoot (BitVec.ofNat 2 m) none) m 0) ∧ (∃ e ∈ s0.net.tlb, TouchesRange e 0 0x10000 65536) ∧
    (let s := sShoot 1 (some 0);
      s.regs.sdBusy = true ∧ s.regs.sdMark = some 0 ∧ (∀ p ∈ s.net.packets, 0 ≤ p.id) ∧ ∀ r ∈ s.net.remotes, 0 ≤ r.packet.id) := by
  refine ⟨?_, ⟨{ place := .core 0, func := 0, gen := 0, page := 1, leaf := probeLeaf }, by decide, ?_⟩, rfl, rfl, ?_, ?_⟩
  · unfold ShootdownDue; decide
  · unfold TouchesRange; decide
  · intro p _; exact Nat.zero_le _
  · intro r _; exact Nat.zero_le _

def sFault (answer : Option Bool) : State :=
  { (sTable 0x10003).modBeam here (fun b => { b with status := .fault 3 }) with net := { s0.net with log := [fault answer] } }

theorem witness_faults :
    ((sFault none).net.log.find? (fun h => decide (h.id = (fault none).id)) = some (fault none) ∧ (fault none).raised + 1000 * ((sFault none).func 0).ftmo.toNat ≤ (sFault none).ftime) ∧
    (∀ a ∈ [true, false], (sFault (some a)).net.log = [fault (some a)] ∧ (sFault (some a)).walk 0 0 0x10000 ≠ .invalid ∧
      finds (sFault (some a)) here (fun T b => decide (T.life = .resident 0 ∧ b.halt = .run ∧ b.lvm ≠ 0) && !T.stopped &&
        !causeInh (b.land (sFault (some a)).clock).cause && decide ((b.land (sFault (some a)).clock).tvec ≠ 0)) = true ∧
        (sFault (some a)).moving 0 0x10000 = false) := by decide

/-! ### Witnesses: job engines -/

/-- A copy of 200 bytes from 0x10040 to 0x11000, with its footprints; `buf` has been read, `put` of it written. -/
def copying (buf : List Byte) (put : Nat) : Job :=
  { job 1 with len := 200, from_ := 0x10040, dst := 0x11000, fps := [w64 (0x10040 / 128 + 2 * 2 ^ 51), w64 (0x11000 / 128 + 2 ^ 49 + 2 ^ 51)], segs := [⟨0x10040, 0x11000, 200⟩], buf := buf, put := put }
def sCopy (j : Job) : State := { s0 with jobs := [j] }

/-- Whether a job of the page may be read or written there. -/
def onPage (s : State) (j : Job) (va : Nat) (w : Bool) : Bool :=
  match s.jobReach j va w with | .page l _ s1 => decide (l.kind = .hbm) && decide (s1.net.badLines = []) | _ => false

/-- A store of the beam that precedes the job's issue is on its way. -/
def sQueued (j : Job) : State := { sPkt [pkt .store .hbm none] with jobs := [j] }

theorem witness_copies :
    (let j := { copying [] 0 with after := some (3, 0) };
      (sQueued j).jobs[0]? = some j ∧ (sQueued j).relHeld ⟨j.team.getD 0, j.beam⟩ 3 0 2 = true) ∧
    (let j := copying [] 0;
      (sCopy j).jobs = [j] ∧ (sCopy j).jobAfter j = false ∧ j.inside false 0x10040 200 = true ∧ j.inside true 0x11000 200 = true ∧ (sCopy j).edgeHeld j (0x10040 / 128) = false ∧
        onPage (sCopy j) j 0x10040 false = true) ∧
    (∀ put ∈ [0, 128], let j := copying (List.replicate 200 7) put;
      j.buf.length = 200 ∧ j.inside true 0x11000 200 = true ∧ (sCopy j).edgeHeld j ((0x11000 + put) / 128) = false ∧
        onPage (sCopy j) j (0x11000 + put) true = true) ∧
    (let j := { copying [] 0 with fps := [w64 (0x10040 / 128 + 2 ^ 50)] };
      j.inside false 0x10040 200 = false) := by decide

/-- The k-th job may go on. -/
def runs (s : State) (j : Job) : Bool := decide (s.jobs = [j] ∧ j.status = 0 ∧ j.busy = none) && !s.jobAfter j

theorem runs_sound {s : State} {j : Job} (h : runs s j = true) : JobRuns s 0 j := by
  simp only [runs, Bool.and_eq_true, decide_eq_true_eq, Bool.not_eq_true'] at h
  obtain ⟨⟨h1, h2, h3⟩, h4⟩ := h
  refine ⟨by rw [h1]; rfl, fun i q hq _ => ?_, h4, h2, h3⟩
  rw [h1] at hq
  rcases i with _ | i
  · rfl
  · simp at hq

/-- A gather of one row: its line is not held yet, is held, all its rows are read; its footprint does not cover it. -/
theorem witness_gathers :
    (let j := { copying [] 0 with kind := .gather };
      JobRuns (sCopy j) 0 j ∧ j.inside false 0x10040 200 = true ∧ j.inside true 0x11000 200 = true ∧ aget j.cache (0x10040 / 128) = none ∧
        (sCopy j).edgeHeld j (0x10040 / 128) = false ∧ onPage (sCopy j) j (128 * (0x10040 / 128)) false = true) ∧
    (let j := { copying [] 0 with kind := .gather, cache := [(0x200, List.replicate 128 7)] };
      JobRuns (sCopy j) 0 j ∧ j.put = 0 ∧ aget j.cache ((0x10040 + j.put) / 128) = some (List.replicate 128 7)) ∧
    (let j := { copying (List.replicate 200 7) 0 with kind := .gather, segs := [] };
      JobRuns (sCopy j) 0 j ∧ j.buf ≠ [] ∧ (sCopy j).edgeHeld j ((j.dst + j.moved) / 128) = false ∧ onPage (sCopy j) j (j.dst + j.moved) true = true) ∧
    (let j := { copying [] 0 with kind := .gather, fps := [] };
      JobRuns (sCopy j) 0 j ∧ j.inside false 0x10040 200 = false) := by
  refine ⟨⟨runs_sound (by decide), by decide⟩, ⟨runs_sound (by decide), by decide⟩, ⟨runs_sound (by decide), by decide⟩, ⟨runs_sound (by decide), by decide⟩⟩

/-- An ALLREDUCE of one member. -/
def reducing (ring : List Nat) (buf : List Byte) (got : Bool) : Job :=
  { copying buf 0 with kind := .coll 0 1 0 ring 9, len := 128, got := got, segs := if got then [⟨0, 0x11000, 128⟩] else [] }

theorem witness_collectives :
    (∀ n ∈ [0, 128], let j := reducing [0] (List.replicate n 7) false;
      JobRuns (sCopy j) 0 j ∧ Collective (sCopy j) j 0 1 0 ∧ j.buf.length = n ∧ collSrc 0 0 j.len = 128 ∧
        (sCopy j).edgeHeld j (0x10040 / 128) = false ∧ onPage (sCopy j) j 0x10040 false = true) ∧
    (let j := reducing [3] [] false;
      JobRuns (sCopy j) 0 j ∧ [3].getD 0 0 ≠ (sCopy j).fab.dev.toNat) ∧
    (let j := reducing [0] (List.replicate 128 7) true;
      JobRuns (sCopy j) 0 j ∧ j.segs = [⟨0, 0x11000, 128⟩] ∧ j.buf.length = 128 ∧ (sCopy j).edgeHeld j (0x11000 / 128) = false ∧
        onPage (sCopy j) j 0x11000 true = true) := by
  have h : ∀ n ∈ [0, 128], let j := reducing [0] (List.replicate n 7) false
      runs (sCopy j) j = true ∧ (sCopy j).fab.dev.toNat = 0 ∧ j.inside false j.from_ (collSrc 0 0 j.len) = true ∧
        j.inside true j.dst (collDst 0 1 j.len) = true ∧ j.buf.length = n ∧ (sCopy j).edgeHeld j (0x10040 / 128) = false ∧
        onPage (sCopy j) j 0x10040 false = true := by decide
  refine ⟨fun n hn => ?_, ⟨runs_sound (by decide), by decide⟩, ⟨runs_sound (by decide), by decide⟩⟩
  obtain ⟨h1, h2, h3, h4, h5, h6, h7⟩ := h n hn
  refine ⟨runs_sound h1, ⟨[0], 9, rfl, rfl, by decide, h2.symm, ?_, h3, h4, fun _ => by simp [reducing]⟩, h5, rfl, h6, h7⟩
  intro i hi hne
  rw [List.mem_singleton.mp hi, h2] at hne
  exact absurd rfl hne

/-- A staging of one position into slot 0 of queue 0. -/
def staging (p0 layer put : Nat) (waitf got : Bool) (buf : List Byte) : Job :=
  { job 1 with kind := .stage false waitf 1 p0 layer, len := 0, from_ := 0x10000, queue := some 0, slot := some 0, buf := buf, put := put, got := got,
               cache := if buf = [] then [] else [(0x200, buf.take 128)] }
def descBytes : List Byte := Memory.readBytes written 0x10000 128
def sStaging (j : Job) (bad : List Nat) : State :=
  let s := (sCtx written 0 0x10000 7 0 0).modTeam 0 fun T => { T with queues := [(0, tileQueue)] }
  { s with jobs := [j], net := { s.net with badLines := bad } }
def stager (j : Job) : Requester := { lane := none, core := j.core, func := j.func, part := j.part }

/-- What the staging's descriptor says, when it is read. -/
def opens (s : State) (j : Job) (p : KDesc → Bool) : Bool :=
  runs s j && (match s.kvDesc (stager j) j.tenant false j.from_ with | .ok x => p x.2 | .error _ => false)
def fitsSlot (s : State) (layer : Nat) (d : KDesc) : Bool := decide (layer < d.layers) &&
  (s.team? 0).any fun T => decide (roundUp (1 * (d.heads * d.dim * d.es)) 128 + 4 * ((1 + 31) / 32) ≤ ctrlSize (queueIn T 0).ctrl)
def frontier (s : State) (j : Job) (d : KDesc) : Option Nat :=
  match s.kvPa (stager j) d.tenant false (d.fra + 64 * 0) with | .ok x => some (s.mem.readNat x.1 4) | .error _ => none

theorem witness_stagings :
    (∀ p0 ∈ [1, 2], let j := staging p0 0 0 true false [];
      opens (sStaging j []) j (fun d => fitsSlot (sStaging j []) 0 d && (frontier (sStaging j []) j d).any fun f => decide (f = 2)) = true) ∧
    (let j := staging 7 0 0 false false [];
      opens (sStaging j []) j (fun d => fitsSlot (sStaging j []) 0 d) = true) ∧
    (let j := staging 7 5 0 false false [];
      opens (sStaging j []) j (fun d => !fitsSlot (sStaging j []) 5 d) = true) ∧
    (∀ p ∈ ([(7, []), (3, [0x220])] : List (Nat × List Nat)), let j := staging p.1 0 0 false false descBytes
      let s := sStaging j p.2
      (runs s j && (match (s.seen j.cache).stageRow j (stager j) j.desc (128 * (j.cache.head?.elim 0 (·.1))) false 0 (p.1 + 0) with
        | .ok x => if p.2 = [] then !x.1.bad s else x.1.committed && x.1.bad s
        | .error _ => false)) = true) ∧
    (let j := staging 7 0 1 false false (descBytes ++ [1, 2, 3, 4, 1]);
      runs (sStaging j []) j = true ∧ j.buf.length = 128 + 1 * (j.desc.heads * j.desc.dim * j.desc.es + 1) ∧
        finds (sStaging j []) here (fun T _ => decide ((sStaging j []).wakeEnd T.coreId = none)) = true) := by decide

theorem witness_jobs_complete :
    (let j := { copying [] 0 with segs := [] };
      (sCopy j).jobs[0]? = some j ∧ j.team = some 0 ∧ j.node = none ∧ j.status = 0 ∧ j.kind = .copy ∧ j.busy = none ∧ j.out = [] ∧
        finds ((sCopy j).modTeam 0 fun T => { T with nextH := 1 }) here (fun T _ => decide (handleAge j.handle T.nextH < 64)) = true) ∧
    (let j := { copying [] 0 with status := 3, queue := some 0, slot := some 0 };
      (sCopy j).jobs[0]? = some j ∧ j.status ≠ 0 ∧ j.busy = none ∧ j.out = []) ∧
    (let j := copying [] 0;
      (sCopy j).jobs[0]? = some j ∧ j.done = false ∧ j.status = 0) ∧
    (∀ n ∈ [0, 4], let q : TeleJob := { func := 0, tenant := 0, coll := false, unit := 0, seq := 0, tele := 1, fmt := 0, got := [(0, 0, 1)], ref := [(0, 0, 2)] };
      let s := (s0.setFunc 0 { Func.init with teln := n, telbase := 0x20000 });
      let s := { s with work := { s.work with teleq := [q] } };
      s.work.teleq[0]? = some q ∧ (s.func q.func).teln = n ∧ q.pairs ≠ []) := by decide


/-! ### Witnesses: register blocks, functions, mailboxes -/

theorem witness_host_registers :
    ((0 : Word) - (s0.func 0).mbhead).toNat ≤ 2 ^ (s0.func 0).log2n.toNat ∧ ((16 : Word) - (s0.func 0).mbhead).toNat = 2 ^ (s0.func 0).log2n.toNat ∧
    2 ^ (s0.func 0).log2n.toNat < ((17 : Word) - (s0.func 0).mbhead).toNat ∧ (s0.func 0).en = false ∧
    ((s0.setFunc 0 { Func.init with en := true }).func 0).en = true ∧ s0.regs.sdBusy = false ∧
    (1 ≤ (w64 1000000).toNat % 2 ^ 32 ∧ (w64 1000000).toNat % 2 ^ 32 ≤ 1000000) ∧ 1000000 < (w64 1000001).toNat % 2 ^ 32 ∧
    (4 ≤ (12 : Word).toNat % 16 ∧ (12 : Word).toNat % 16 ≤ 12) ∧ 12 < (13 : Word).toNat % 16 := by decide

theorem witness_power :
    s0.regs.pgBusy = false ∧ { s0 with regs := { s0.regs with pgBusy := true } }.regs.pgBusy = true ∧
    WaysShort { s0 with regs := { s0.regs with parts := [(0, { Part.init with pway := 1 })] } } 1 ∧ ¬ WaysShort s0 0xFFFF ∧
    (∀ e ∈ s0.teams, e.2.core? ≠ some 1) := by
  refine ⟨rfl, rfl, ⟨_, List.mem_singleton.mpr rfl, by decide⟩, ?_, by decide⟩
  rintro ⟨e, h, -⟩
  cases h

/-- Core 0, whose team holds granules, has the granules of every group but the first gated. -/
def sGates (v : BitVec 128) : State := { s0 with regs := { s0.regs with granules := [(0, v)] } }

theorem witness_granules :
    (let s := sGates (BitVec.ofNat 128 (2 ^ 128 - 2 ^ 16));
      s.regs.pgBusy = false ∧ gatedThen s 0 0 0xFFFF 0 = true ∧ gatedNow s 0 0 = false ∧
        128 < ((List.range 128).filter (gatedThen s 0 0 0xFFFF)).length + s.heldGranules 0) ∧
    (let s := sGates 1;
      gatedNow s 0 0 = true ∧ gatedThen s 0 0 0 0 = false ∧ ∀ k, k < 128 → gatedThen s 0 0 0 k = true → gatedNow s 0 k = true) := by decide

theorem witness_budgets : OnlyMetered (s0.setFunc 3 { Func.init with refill := 100, bcap := 50, loan := 10, dmax := 5, bal := -200, debt := 7 }) 3 ∧
    ∀ f, f < 64 → (State.reset.func f).refill = 0xFFFFFFFF := by
  refine ⟨?_, by decide⟩
  unfold OnlyMetered; decide

/-- Function 2 is in state x. -/
def sFunc (x : FState) : State := s0.setFunc 2 { Func.init with state := x, ftag := 9 }

theorem witness_resets : ((sFunc .run).func 2).state = .run ∧ ((sFunc .off).func 2).state ≠ .run ∧ ((sFunc .drained).func 2).state = .drained := by decide

/-- Function 5 runs with the tag of function 2, or nothing does. -/
def sClash (x : FState) : State := (sFunc x).setFunc 5 { Func.init with state := .run, ftag := 9 }

theorem witness_tags : TagClashes (sClash .drained) 2 ∧ ¬ TagClashes (sFunc .drained) 2 ∧ ¬ TagClashes (sFunc .off) 2 ∧ ((sClash .off).func 2).state = .off ∧
    ∀ e ∈ (sFunc .drained).regs.funcs, e.2.ftag = ((sFunc .drained).func 2).ftag → e.1 = 2 := by
  unfold TagClashes; decide

theorem witness_reset_drained : (((sFunc .reset).func 2).state = .reset ∧ ((sFunc .reset).func 2).resetTag = [] ∧ (∀ p ∈ (sFunc .reset).net.packets, p.func ≠ 2) ∧
      (∀ r ∈ (sFunc .reset).net.remotes, r.packet.func ≠ 2) ∧ ∀ j ∈ (sFunc .reset).jobs, j.tenant ≠ ((sFunc .reset).func 2).ftag) ∧
    ∀ e ∈ (sFunc .reset).teams, ∀ b ∈ e.2.beams, NoOldLane b ((sFunc .reset).func 2) := by
  refine ⟨by decide, fun e he b hb l hl => ?_⟩
  have h : ∀ e ∈ (sFunc .reset).teams, ∀ b ∈ e.2.beams, b.longs = [] := by decide
  rw [h e he b hb] at hl
  cases hl

/-- A start-up sequence in progress. -/
def sBoot (l : List (BitVec 16)) : State := { State.reset with sys := { State.reset.sys with boot := some l } }

theorem witness_start_up : (sBoot []).sys.boot = some [] ∧ (sBoot [0x201]).sys.boot = some [0x201] ∧ ∀ c ∈ ([0x201] : List (BitVec 16)), c.toNat / 256 ≠ 1 :=
  ⟨rfl, rfl, fun c hc => by rw [List.mem_singleton.mp hc]; show ¬ (513 / 256 = 1); omega⟩

/-- A mailbox with a command ring at 0x1000 that holds one command, with opcode `opc` and tag 7. -/
def sMail (opc : Byte) : State :=
  { (s0.setFunc 1 { Func.init with state := .run, en := true, mbcqb := 0x1000, mbcpb := 0x2000, mbtail := 1 }) with
    hostMem := Memory.writeBytes [] 0x1000 [opc, 0, 7, 0] }

theorem witness_fetches : ∀ opc ∈ [0, 1, 9, 10], let s := sMail opc
    (s.func 1).en = true ∧ (s.func 1).cmd = none ∧ (s.func 1).mbhead ≠ (s.func 1).mbtail ∧
      ((s.func 1).mbctail - (s.func 1).mbchead).toNat ≠ 2 ^ (s.func 1).log2n.toNat ∧ s.sys.d3hot = false ∧ s.sys.dstate = .run ∧ (s.func 1).state = .run ∧
      s.hostMem.readNat 0x1000 1 = opc.toNat ∧ ¬ Owes s 1 := by unfold Owes; decide

/-- The reset that function 1 has commanded drains: its completion is owed. -/
theorem witness_owed : Owes ((sMail 3).setFunc 1 { (sMail 3).func 1 with resetTag := [(1, 7)] }) 1 := by unfold Owes; decide

/-- A command with opcode `opc`, LEN and VALUE. -/
def cmd (opc len : Nat) (daddr value : Dword) : Cmd :=
  { opc := opc, tag := 7, len := len, daddr := daddr, haddr := 0x9000, value := value, nonce := List.replicate 32 5, resv := false }

/-- Function f holds the command, with a table of one writable page at 0x10000. -/
def sCmd (f : Nat) (c : Cmd) : State :=
  let s := sTable 0x11003
  (s.setFunc f { (s.func 0) with state := .run, en := true, mbcpb := 0x2000, cmd := some c })

theorem witness_command_states : ∀ d ∈ [DState.boot, .safe, .run], ∀ r ∈ ([1, 2, 3, 4, 6, 7, 8, 9] : List Nat), let s := { sCmd 1 (cmd r 0 0 0) with sys := { s0.sys with dstate := d } }
    s.sys.dstate = d ∧ (s.func 1).state = .run ∧ (s.func 1).cmd = some (cmd r 0 0 0) ∧ (cmd r 0 0 0).opc = r := by decide

theorem witness_copies_of_commands : ∀ o ∈ [1, 2], ∀ n ∈ [1, 64], let c := cmd o n 0x10040 0
    Fetched (sCmd 1 c) 1 o c ∧ OneLine (sCmd 1 c) 1 c true 0x10040 := by
  have h : ∀ o ∈ [1, 2], ∀ n ∈ [1, 64], let c := cmd o n 0x10040 0;
    ((sCmd 1 c).sys.dstate = .run ∧ ((sCmd 1 c).func 1).state = .run ∧ ((sCmd 1 c).func 1).cmd = some c ∧ c.opc = o ∧ c.resv = false) ∧
    (1 ≤ c.len ∧ c.daddr.toNat % 128 + c.len ≤ 128 ∧ c.daddr.toNat < 2 ^ 56) ∧
      (sCmd 1 c).walk 1 ((sCmd 1 c).func 1).part.toNat c.daddr.toNat =
        .ok { tenant := 0, frame := 1, kind := .hbm, w := true, x := false, rd := false, pin := false, aux := 0, level := 0 } 0x10040 ∧
      ((sCmd 1 c).func 1).ftag = 0 := by decide
  intro o ho n hn c
  obtain ⟨h1, h2, h3, h4⟩ := h o ho n hn
  exact ⟨h1, h2.1, h2.2.1, h2.2.2, _, h3, h4.symm, Or.inl rfl, fun _ => rfl⟩

/-- Those lines have no uncorrectable error, or the one at 0x10000 has. -/
theorem witness_read_errors : lineOf 0x10040 ∉ (sCmd 1 (cmd 2 64 0x10040 0)).net.badLines ∧
    (let s := sCmd 1 (cmd 2 64 0x10040 0);
      lineOf 0x10040 ∈ ({ s with net := { s.net with badLines := [0x200] } } : State).net.badLines ∧
        ({ s with net := { s.net with badLines := [0x200] } } : State).func 1 = s.func 1) := by decide

theorem witness_commands : (∀ c ∈ [cmd 1 0 0 0, cmd 2 4097 0 0, cmd 1 4096 0x20000 0, cmd 3 0 63 5, cmd 4 0 0x10040 0, cmd 4 0 0x10001 0, cmd 5 0 0 0, cmd 5 0 2 0,
      cmd 5 0 4 0, cmd 6 0 0 0, cmd 7 0 1 0, cmd 7 0 2 0, cmd 8 0 0 3, cmd 9 0 0 3],
      (sCmd 1 c).sys.dstate = .run ∧ ((sCmd 1 c).func 1).state = .run ∧ ((sCmd 1 c).func 1).cmd = some c ∧ c.resv = false) ∧
    (sCmd 1 (cmd 1 4096 0x20000 0)).walk 1 ((sCmd 1 (cmd 1 4096 0x20000 0)).func 1).part.toNat 0x20000 = .invalid ∧
    ((sCmd 0 (cmd 7 0 0 0)).func 0).cmd = some (cmd 7 0 0 0) ∧ ((sCmd 0 (cmd 7 0 2 0)).func 2).state = .off ∧
    (cmd 6 0 0 0).nonce.length = 32 ∧ s0.sys.idBlock = none ∧ s0.sys.idBurnt < 4096 ∧
    (sFault none).net.log.find? (fun h => decide (h.id = (cmd 8 0 0 3).value.toNat)) = some (fault none) ∧ (fault none).func = 0 ∧
    (∀ h ∈ (sCmd 1 (cmd 8 0 0 3)).net.log, h.id ≠ (cmd 8 0 0 3).value.toNat) := by decide

/-! ### Witnesses: graphs -/

/-- A node's bytes: the header of the kind without dependencies, then the body. -/
def node (kind : Nat) (body : List Byte) : Node :=
  { bytes := [BitVec.ofNat 8 kind, 0, 0xFF] ++ List.replicate 61 0 ++ body ++ List.replicate (128 - body.length) 0, state := .waiting, failed := false, polled := 0 }
/-- A replay of function 0 whose graph lies at 0x10000. -/
def replay (started : Bool) (nodes : List (Nat × Node)) (code : Nat) : Replay :=
  { func := 0, graph := 0x10000, started := started, slots := [], prio := 0, nodes := nodes, code := code, node := 0xFFFF, order := 0 }
/-- The replay is there; the graph has NNODE n. -/
def sGraph (R : Replay) (n : Nat) : State :=
  let s := sTable 0x11003
  { (s.setFunc 0 { (s.func 0) with state := .run }) with mem := s.mem.writeNat 0x10000 2 n, regs := { s.regs with saveLen := 8 }, work := { s.work with replays := [(4, R)] } }

theorem graph_at (R : Replay) (n : Nat) (hR : R.graph = 0x10000 ∧ R.func = 0)
    (h : walkFrom (sGraph R n).mem 4 ((sGraph R n).func 0).asroot.toNat 0x10000 =
      .leaf { tenant := 0, frame := 1, kind := .hbm, w := true, x := false, rd := false, pin := false, aux := 0, level := 0 }) : GraphAt (sGraph R n) R 0x10000 := by
  refine ⟨by rw [hR.1]; decide, ?_⟩
  rw [hR.1, hR.2]
  exact ⟨_, h, Or.inl rfl, by decide⟩

theorem witness_replays : (∀ n ∈ [0, 1, 256, 257], let R := replay false [] 1;
      (sGraph R n).sys.dstate = .run ∧ (sGraph R n).work.replays = [(4, R)] ∧ R.started = false ∧ R.code = 1 ∧ GraphAt (sGraph R n) R 0x10000 ∧
        (sGraph R n).mem.readNat 0x10000 2 = n) ∧
    (let R := replay true [(0, { node 3 [] with state := .complete })] 1;
      R.code ≤ 1 ∧ (∀ e ∈ R.nodes, e.2.state = .complete) ∧ GraphAt (sGraph R 1) R 0x10000) ∧
    (let R := replay true [(0, node 3 [])] 4;
      1 < R.code ∧ R.code < 256 ∧ R.node < 65536 ∧ (∀ e ∈ R.nodes, e.2.state ≠ .started)) ∧
    (let R := replay true [(0, node 3 [])] 1;
      R.code ≤ 1 ∧ ∃ e ∈ R.nodes, e.2.state ≠ .complete) ∧
    (List.replicate 192 (0 : Byte)).length = 192 := by
  have h : ∀ n ∈ [0, 1, 256, 257], let R := replay false [] 1;
      ((sGraph R n).sys.dstate = .run ∧ (sGraph R n).work.replays = [(4, R)] ∧ R.started = false ∧ R.code = 1) ∧
      (walkFrom (sGraph R n).mem 4 ((sGraph R n).func 0).asroot.toNat 0x10000 =
        .leaf { tenant := 0, frame := 1, kind := .hbm, w := true, x := false, rd := false, pin := false, aux := 0, level := 0 }) ∧
      (sGraph R n).mem.readNat 0x10000 2 = n := by decide
  refine ⟨fun n hn => ?_, ⟨by decide, by decide, graph_at _ _ ⟨rfl, rfl⟩ (by decide)⟩, by decide, ⟨by decide, _, List.mem_singleton.mpr rfl, by decide⟩, by decide⟩
  obtain ⟨h1, h2, h3⟩ := h n hn
  exact ⟨h1.1, h1.2.1, h1.2.2.1, h1.2.2.2, graph_at _ _ ⟨rfl, rfl⟩ h2, h3⟩

/-- The body of a launch of one team of one beam whose entry is at 0x10000. -/
def launchBody : List Byte :=
  leBytes 4 1 ++ leBytes 4 1 ++ leBytes 4 1 ++ [1, 0, 7, 0] ++ leBytes 4 0x22208 ++ leBytes 4 0x40000 ++ leBytes 8 0x10000
/-- The body of a WAIT or SIGNAL of the word at 0x10080 with value 5. -/
def wordBody (flags : Byte) : List Byte := leBytes 8 0x10080 ++ leBytes 8 5 ++ [flags]

theorem may_start (N : Node) (n : Nat) (hw : N.state = .waiting) (hd : N.ndep = 0) :
    MayStart (sGraph (replay true [(0, N)] 1) n) 4 0 (replay true [(0, N)] 1) N := by
  refine ⟨rfl, rfl, rfl, rfl, Nat.le_refl 1, hw, fun i hi => ?_⟩
  rw [hd] at hi
  cases hi

/-- A header without reserved bits, computed. -/
def plain (N : Node) (kind : Nat) : Bool :=
  decide (natAt N.bytes 0 1 = kind ∧ natAt N.bytes 1 1 = 0 ∧ natAt N.bytes 2 1 = 0xFF ∧ natAt N.bytes 3 1 = 0 ∧ natAt N.bytes 4 4 = 0 ∧ natAt N.bytes 56 8 = 0)

theorem plain_sound {N : Node} {kind : Nat} (h : plain N kind = true) : PlainHeader 0 N kind := by
  simp only [plain, decide_eq_true_eq] at h
  obtain ⟨h1, h2, h3, h4, h5, h6⟩ := h
  refine ⟨h1, by omega, h3, h4, h5, h6, fun i hi => ?_⟩
  omega

/-- What the word's page is. -/
def wordPage (N : Node) : Prop := (sGraph (replay true [(0, N)] 1) 1).walk 0 ((sGraph (replay true [(0, N)] 1) 1).func 0).part.toNat 0x10080 =
  .ok { tenant := 0, frame := 1, kind := .hbm, w := true, x := false, rd := false, pin := false, aux := 0, level := 0 } 0x10080

theorem locationAt (N : Node) (w : Bool) (hw : wordPage N) (ha : bodyAt N 0 8 = 0x10080) (hs : nodeSize N = 4) :
    Location (sGraph (replay true [(0, N)] 1) 1) 0 N (nodeSize N) 0x10080 w := by
  refine ⟨by rw [ha, hs], by rw [ha]; decide, ?_⟩
  rw [ha]
  exact ⟨_, hw, rfl, Or.inl rfl, fun _ => rfl⟩

theorem witness_launches :
    (∀ b ∈ [launchBody, []], let N := node 1 b
      MayStart (sGraph (replay true [(0, N)] 1) 1) 4 0 (replay true [(0, N)] 1) N ∧ PlainHeader 0 N 1) ∧
    (sGraph (replay true [(0, node 1 launchBody)] 1) 1).launchCode 0 (node 1 launchBody).body = 0 ∧
    (sGraph (replay true [(0, node 1 [])] 1) 1).launchCode 0 (node 1 []).body ≠ 0 := by
  have h : ∀ b ∈ [launchBody, []], (plain (node 1 b) 1) = true ∧ (node 1 b).ndep = 0 := by decide
  exact ⟨fun b hb => ⟨may_start _ _ rfl (h b hb).2, plain_sound (h b hb).1⟩, by decide, by decide⟩

/-- A JOB node: a copy card of 200 bytes. -/
theorem witness_node_jobs : let N := node 2 ([1, 0, 0, 0] ++ leBytes 4 200 ++ leBytes 8 0x10100 ++ leBytes 8 0x10200)
    MayStart (sGraph (replay true [(0, N)] 1) 1) 4 0 (replay true [(0, N)] 1) N ∧ PlainHeader 0 N 2 ∧
      nodeCardOk N.body (cardAt (Memory.writeBytes [] 0 (N.body.take 64)) 0) = true ∧ (sGraph (replay true [(0, N)] 1) 1).mayDispatch 0 = true :=
  ⟨may_start _ _ rfl (by decide), plain_sound (by decide), by decide, by decide⟩

/-- A JOB node of a function whose balance is used up. -/
theorem witness_node_job_waits : let N := node 2 []
    let s := (sGraph (replay true [(0, N)] 1) 1).setFunc 0 { Func.init with state := .run, refill := 0, bal := 0 }
    MayStart s 4 0 (replay true [(0, N)] 1) N ∧ natAt N.bytes 0 1 = 2 ∧ s.mayDispatch 0 = false := by
  refine ⟨⟨rfl, rfl, rfl, rfl, Nat.le_refl 1, rfl, fun i hi => ?_⟩, by decide, by decide⟩
  cases hi

/-- WAIT for at least 5 in memory that holds 0 (not met), or 5 (met). -/
theorem witness_node_waits : MayStart (sGraph (replay true [(0, node 3 (wordBody 0))] 1) 1) 4 0 (replay true [(0, node 3 (wordBody 0))] 1) (node 3 (wordBody 0)) ∧
    WaitNode 0 (node 3 (wordBody 0)) ∧ Location (sGraph (replay true [(0, node 3 (wordBody 0))] 1) 1) 0 (node 3 (wordBody 0)) (nodeSize (node 3 (wordBody 0))) 0x10080 false ∧
    ¬ WaitMet (node 3 (wordBody 0)) 0 ∧ WaitMet (node 3 (wordBody 0)) 5 :=
  ⟨may_start _ _ rfl (by decide), ⟨plain_sound (by decide), by decide, by decide⟩,
    locationAt _ _ (by unfold wordPage; decide) (by decide) (by decide), by unfold WaitMet; decide, by unfold WaitMet; decide⟩

/-- The word's page is another tenant's. -/
def sOther (N : Node) : State :=
  let s := sGraph (replay true [(0, N)] 1) 1
  { s with mem := s.mem.writeNat 0x130008 8 (0x11003 + 9 * 2 ^ 48) }

theorem witness_other_tenant : MayStart (sOther (node 3 (wordBody 0))) 4 0 (replay true [(0, node 3 (wordBody 0))] 1) (node 3 (wordBody 0)) ∧
    walkFrom (sOther (node 3 (wordBody 0))).mem 4 ((sOther (node 3 (wordBody 0))).func 0).asroot.toNat 0x10080 =
      .leaf { tenant := 9, frame := 1, kind := .hbm, w := true, x := false, rd := false, pin := false, aux := 0, level := 0 } ∧
    (9 : BitVec 16) ≠ ((sOther (node 3 (wordBody 0))).func 0).ftag ∧ bodyAt (node 3 (wordBody 0)) 0 8 = 0x10080 := by
  refine ⟨⟨rfl, rfl, rfl, rfl, Nat.le_refl 1, rfl, fun i hi => ?_⟩, by decide, by decide, by decide⟩
  have hd : (node 3 (wordBody 0)).ndep = 0 := by decide
  rw [hd] at hi
  cases hi

/-- SIGNAL stores 5, adds 5, or stores 5 and interrupts. -/
theorem witness_node_signals : ∀ flags ∈ [0, 1, 8],
    MayStart (sGraph (replay true [(0, node 4 (wordBody flags))] 1) 1) 4 0 (replay true [(0, node 4 (wordBody flags))] 1) (node 4 (wordBody flags)) ∧
      PlainHeader 0 (node 4 (wordBody flags)) 4 ∧ bodyAt (node 4 (wordBody flags)) 16 1 < 16 ∧ bodyAt (node 4 (wordBody flags)) 17 1 = 0 ∧
      bodyAt (node 4 (wordBody flags)) 20 108 = 0 ∧
      Location (sGraph (replay true [(0, node 4 (wordBody flags))] 1) 1) 0 (node 4 (wordBody flags)) (nodeSize (node 4 (wordBody flags))) 0x10080 true := by
  have h : ∀ flags ∈ [0, 1, 8], plain (node 4 (wordBody flags)) 4 = true ∧ (node 4 (wordBody flags)).ndep = 0 ∧ bodyAt (node 4 (wordBody flags)) 16 1 < 16 ∧
      bodyAt (node 4 (wordBody flags)) 17 1 = 0 ∧ bodyAt (node 4 (wordBody flags)) 20 108 = 0 ∧ bodyAt (node 4 (wordBody flags)) 0 8 = 0x10080 ∧
      nodeSize (node 4 (wordBody flags)) = 4 := by decide
  have hp : ∀ flags ∈ [0, 1, 8], wordPage (node 4 (wordBody flags)) := by unfold wordPage; decide
  intro flags hf
  obtain ⟨h1, h2, h3, h4, h5, h6, h7⟩ := h flags hf
  exact ⟨may_start _ _ rfl h2, plain_sound h1, h3, h4, h5, locationAt _ _ (hp flags hf) h6 h7⟩

/-- A WAIT that has started and holds no watch, met by the value 0. -/
def polled : Node := { node 3 (leBytes 8 0x10080) with state := .started }

theorem witness_wait_polls : aget (replay true [(0, polled)] 1).nodes 0 = some polled ∧ natAt polled.bytes 0 1 = 3 ∧
    (∀ w ∈ (sGraph (replay true [(0, polled)] 1) 1).net.watches, w.who ≠ .node 4 0) ∧
    Location (sGraph (replay true [(0, polled)] 1) 1) 0 polled (nodeSize polled) 0x10080 false ∧
    WaitMet polled ((sGraph (replay true [(0, polled)] 1) 1).mem.readNat 0x10080 (nodeSize polled)) :=
  ⟨rfl, by decide, by decide, locationAt _ _ (by unfold wordPage; decide) (by decide) (by decide), by unfold WaitMet; decide⟩

/-- That WAIT on a host page, at some fabric time; host memory holds v. -/
def sHost (v time : Nat) : State :=
  let s := sGraph (replay true [(0, polled)] 1) 1
  { s with mem := s.mem.writeNat 0x130008 8 0x15003, hostMem := Memory.writeNat [] 0x10080 4 v, ftime := time }
def awaiting : Node := { node 3 (wordBody 0) with state := .started }

theorem witness_host_waits : (∀ t ∈ [999, 1000], ∃ l, HostLocation (sHost 5 t) 0 polled l 0x10080 ∧ (sHost 5 t).ftime = t ∧ polled.polled = 0) ∧
    (∀ w ∈ (sHost 0 1000).net.watches, w.who ≠ .node 4 0) ∧ ¬ WaitMet awaiting ((sHost 0 1000).hostMem.readNat 0x10080 4) ∧
    WaitMet awaiting ((sHost 5 1000).hostMem.readNat 0x10080 4) := by
  have h : ∀ t ∈ [999, 1000], bodyAt polled 0 8 % nodeSize polled = 0 ∧ bodyAt polled 0 8 < 2 ^ 56 ∧
      (sHost 5 t).walk 0 ((sHost 5 t).func 0).part.toNat (bodyAt polled 0 8) =
        .ok { tenant := 0, frame := 1, kind := .host, w := true, x := false, rd := false, pin := false, aux := 0, level := 0 } 0x10080 ∧
      (0 : BitVec 16) = ((sHost 5 t).func 0).ftag ∧ (sHost 5 t).inBar 0x10080 = false := by decide
  refine ⟨fun t ht => ⟨_, ⟨(h t ht).1, (h t ht).2.1, (h t ht).2.2.1, (h t ht).2.2.2.1, rfl, (h t ht).2.2.2.2⟩, rfl, rfl⟩, by decide, ?_, ?_⟩ <;> unfold WaitMet <;> decide

/-! ### Witnesses: teams and grids -/

/-- A grid of four teams of one beam, of which none has been placed; partition 0 has block 0 and save areas. -/
def newGrid : Grid :=
  { func := 0, part := 0, replay := 4, node := 0, launch := { probeLaunch with gx := 4 }, producer := none, next := 0, retired := 0, fatal := false, prio := 1,
    cap := 0, trap := false, tar := false, tpri := 0, mark := 0, order := 0, ranges := [] }
def sGrids (teams : List (Nat × Team)) (grids : List (Nat × Grid)) (blocks : Word) : State :=
  let s := s0.setFunc 0 { Func.init with state := .run }
  { s with
    clock := 2000000, nextId := 50, teams := teams, grids := grids
    regs := { s.regs with saveLen := 64, parts := [(0, { Part.init with pblk := blocks })] }
    work := { s.work with replays := [(4, replay true [(0, { node 1 launchBody with state := .started })] 1)] } }
/-- The team of the small state in another life, of grid 1. -/
def teamIn (l : Life) (f : Beam → Beam) : Team := { probeLaunch.team 1 0 0 0 0 with life := l, beams := [f (probeLaunch.beam 0 0)] }

theorem witness_teams_are_placed : MayPlace (sGrids [] [(1, newGrid)] 1) 1 newGrid 0 ∧
    MayRestore (sGrids [(3, teamIn .saved id)] [(1, { newGrid with next := 1 })] 1) 3 0 (teamIn .saved id) { newGrid with next := 1 } ∧
    (∀ h ∈ (sGrids [(3, teamIn .saved id)] [(1, { newGrid with next := 1 })] 1).net.log, h.packet.src.t ≠ 3) ∧ (∀ b ∈ (teamIn .saved id).beams, b.ptrap = none) ∧
    (sGrids [(3, teamIn .saved id)] [(1, { newGrid with next := 1 })] 1).mem.wf = true ∧
    (let s := sGrids [(3, teamIn .saved id)] [(1, { newGrid with next := 1 })] 1;
      AreaBad { s with net := { s.net with badLines := [lineOf (teamIn .saved id).area] } } (teamIn .saved id) newGrid) ∧
    ((sGrids [] [(1, { newGrid with next := 4 })] 1).placeable 1 { newGrid with next := 4 } = false) ∧ (teamIn (.resident 0) id).life ≠ .saved := by
  refine ⟨?_, ?_, by decide, by decide, by decide, ?_, by decide, by decide⟩
  · unfold MayPlace; decide
  · unfold MayRestore; decide
  · exact ⟨_, List.mem_singleton.mpr rfl, Nat.le_refl _, by decide⟩

/-- A candidate that fits on no core, and the team that it displaces. -/
theorem witness_preemption : let s := sGrids [(3, teamIn (.resident 0) id)] [(1, { newGrid with next := 4 }), (2, newGrid)] 0
    s.team? 3 = some (teamIn (.resident 0) id) ∧ s.sys.dstate = .run ∧ s.cands 0 = [⟨2, newGrid, none⟩] ∧ s.victim ⟨2, newGrid, none⟩ (teamIn (.resident 0) id) = true ∧
      s.regs.preBusy = false := by decide

theorem witness_needy : (sGrids [(3, teamIn (.resident 0) id)] [(1, { newGrid with next := 4 }), (2, newGrid)] 0).needy 0 = some ⟨2, newGrid, none⟩ := by
  have h : ∀ (s : State) (c : Cand), (s.part c.G.part).pblk = 0 → s.takesSome c = false := by
    intro s c h
    simp only [State.takesSome, List.any_eq_false, State.mayTake, State.fitsAt, State.fitsOn, h]
    intro d _
    simp
  unfold State.needy
  rw [show (sGrids [(3, teamIn (.resident 0) id)] [(1, { newGrid with next := 4 }), (2, newGrid)] 0).cands 0 = [⟨2, newGrid, none⟩] from by decide]
  rw [List.filter_cons_of_pos (by rw [h _ _ (by decide)]; decide)]
  rfl

/-- A team at rest that drains since cycle 0, and one that lacks an acknowledgement. -/
theorem witness_drains :
    (let T := teamIn (.draining 0 0) id;
      let s := sGrids [(3, T)] [(1, newGrid)] 1;
      s.team? 3 = some T ∧ s.grid? T.grid = some newGrid ∧ newGrid.launch.paired = false ∧ s.drained 3 T = true ∧
        ((s.core 0).entries.filter fun n => decide (n.src.t = 3)).length ≤ 8 ∧ s.logOf 3 ≤ 64 ∧ T.beams.length ≤ 16) ∧
    (let T := teamIn (.draining 0 0) fun b => { b with orc := 1 };
      let s := sGrids [(3, T)] [(1, newGrid)] 1;
      s.team? 3 = some T ∧ s.drained 3 T = false ∧ T.stopped = false ∧ 0 + 1400000 ≤ s.clock ∧ s.grid? T.grid = some newGrid ∧
        finds s ⟨3, 0⟩ (fun _ B => decide (B.orc ≠ 0)) = true) := by decide

theorem witness_teams_retire :
    (let T := teamIn (.resident 0) fun b => { b with lvm := 0 };
      finds (sGrids [(3, T)] [(1, newGrid)] 1) ⟨3, 0⟩ (fun _ b => decide (b.lvm = 0 ∧ b.orc = 0 ∧ b.longs = [] ∧ b.status ≠ .retired)) = true ∧
        ∀ g ∈ (sGrids [(3, T)] [(1, newGrid)] 1).net.log, g.packet.src ≠ ⟨3, 0⟩) ∧
    (let T := teamIn (.resident 0) fun b => { b with status := .retired };
      let s := sGrids [(3, T)] [(1, newGrid)] 1;
      s.team? 3 = some T ∧ (∀ b ∈ T.beams, b.status = .retired) ∧ (∀ b ∈ T.beams, b.orc = 0 ∧ b.longs = [] ∧ b.latched = none) ∧
        (∀ p ∈ s.net.packets, p.src.t = 3 → p.job ≠ none) ∧ (∀ a ∈ s.net.acks, a.src.t ≠ 3) ∧ (∀ r ∈ s.net.remotes, r.packet.src.t = 3 → r.packet.job ≠ none) ∧
        (∀ g ∈ s.net.log, g.packet.src.t = 3 → g.packet.job ≠ none) ∧ (∀ j ∈ s.jobs, j.team ≠ some 3) ∧ T.boards = [] ∧ T.prism.state ≠ .running ∧
        (∀ c ∈ s.cores, ∀ n ∈ c.2.entries, n.src.t ≠ 3) ∧ s.grid? T.grid = some newGrid) ∧
    (∃ b ∈ (teamIn (.resident 0) id).beams, b.status ≠ .retired) ∧
    (∃ b ∈ (teamIn (.resident 0) fun b => { b with status := .retired, orc := 1 }).beams, b.orc ≠ 0) ∧
    (∀ G ∈ [{ newGrid with next := 4 }, { newGrid with fatal := true }, newGrid],
      let s := sGrids [] [(1, G)] 1;
      s.grid? 1 = some G ∧ (∀ e ∈ s.teams, e.2.grid ≠ 1) ∧ G.producer = none ∧ nodeIn s G.replay G.node = some { node 1 launchBody with state := .started } ∧
        (s.func G.func).state = .run) := by decide

/-! ### Witnesses: gang slices -/

/-- A slice of gang 7 in partitions 0 and 1, of the given members. -/
def slice (members : List Nat) : GangEntry := { start := 100, len := 5000, gang := 7, pmask := 3, members := members }
def sGang (f : Gang → Gang) (time : Nat) : State :=
  { s0 with ftime := time, fab := { s0.fab with dev := 2 }, regs := { s0.regs with gang := f Gang.init } }
def inSlice (members : List Nat) (g : Gang) : Gang := { g with en := true, period := 10000, table := [slice members], cur := some (0, 0), closed := 3 }

theorem witness_slices :
    (let s := sGang (fun g => { g with en := true, period := 10000, table := [slice [2, 5]] }) 100;
      s.regs.gang.en = true ∧ s.regs.gang.cur = none ∧ s.regs.gang.table[s.regs.gang.next.2]? = some (slice [2, 5]) ∧ sliceStart s s.regs.gang.next.1 (slice [2, 5]) ≤ s.ftime) ∧
    (∀ t ∈ [5100, 5099], let s := sGang (inSlice [2, 5]) t;
      s.regs.gang.cur = some (0, 0) ∧ s.regs.gang.table[0]? = some (slice [2, 5]) ∧ sliceStart s 0 (slice [2, 5]) + 5000 = 5100) ∧
    (let s := sGang (inSlice [2, 5]) 200;
      (slice [2, 5]).gang ≠ 0 ∧ 5 ∈ (slice [2, 5]).members ∧ 5 ≠ s.fab.dev.toNat ∧ (slice [2, 5]).members.headD 0 = s.fab.dev.toNat ∧ s.regs.gang.decided = false ∧
        5 ∉ s.regs.gang.held ∧ s.ftime ≤ sliceStart s 0 (slice [2, 5]) + 50000) ∧
    (let s := sGang (inSlice [5, 2]) 200;
      2 = s.fab.dev.toNat ∧ (slice [5, 2]).members.headD 0 ≠ 2 ∧ s.regs.gang.sent = false) ∧
    (∀ held ∈ [[2, 5], [2]], ∀ t ∈ [50100, 50101], let s := sGang (fun g => { inSlice [2, 5] g with held := held }) t;
      (slice [2, 5]).members.headD 0 = s.fab.dev.toNat ∧ s.regs.gang.decided = false ∧ s.regs.gang.held = held ∧ sliceStart s 0 (slice [2, 5]) + 50000 = 50100) ∧
    (∀ sent ∈ [true, false], let s := sGang (fun g => { inSlice [5, 2] g with sent := sent }) 200;
      s.fab.dev.toNat ∈ (slice [5, 2]).members ∧ (slice [5, 2]).members.headD 0 ≠ s.fab.dev.toNat ∧ s.regs.gang.decided = false ∧ s.regs.gang.sent = sent) := by decide

/-- A slice that has ended before its leader decided. -/
def ended : Trial := { cyc := 0, idx := 0, entry := slice [2, 5], held := [2], sent := false }

theorem witness_past_slices : (∀ t ∈ [50100, 50101], let s := sGang (fun g => { g with en := true, period := 10000, past := [ended] }) t;
      s.regs.gang.cur = none ∧ s.regs.gang.past = [ended] ∧ ended.entry.gang ≠ 0 ∧ ended.entry.members.headD 0 = s.fab.dev.toNat ∧
        sliceStart s 0 ended.entry + 50000 = 50100) ∧ 5 ∈ ended.entry.members ∧ 5 ∉ ended.held ∧ (sGang (inSlice [2, 5]) 200).regs.gang.past = [] := by decide

/-- Every team of the small state is of gang 0, in partition 0: it is saved for the slice only in a life without a core. -/
theorem witness_others_saved :
    OthersSaved (sGrids [(3, teamIn .saved id)] [(1, newGrid)] 1) (slice [5, 2]) ∧ ¬ OthersSaved (sGrids [(3, teamIn (.resident 0) id)] [(1, newGrid)] 1) (slice [5, 2]) := by
  constructor
  · intro x hx G _ _ _
    rw [List.mem_singleton.mp hx]
    rfl
  · intro h
    have := h _ (List.mem_singleton.mpr rfl) newGrid rfl (by decide) (by decide)
    cases this

/-- A table of one slice that EN accepts, at 0x10000; one whose PERIOD is too short. -/
def sTab (period : Word) : State :=
  { (sGang (fun g => { g with base := 0x10000, period := period, count := 1 }) 0) with
    mem := Memory.writeBytes [] 0x10000 (leBytes 8 100 ++ leBytes 4 5000 ++ [7, 0, 3, 0, 2] ++ List.replicate 47 0 ++ [2, 0, 5, 0]) }

theorem witness_gang_table : TableOk (sTab 10000) ∧ ¬ TableOk (sTab 9999) := by
  have h : let s := sTab 10000
      let m := s.mem
      s.regs.gang.base.toNat % 128 = 0 ∧ s.regs.gang.count.toNat = 1 ∧ 10000 ≤ s.regs.gang.period.toNat ∧ s.regs.gang.period.toNat ≤ 4000000000 ∧
        m.readNat (gangAt s 0 + 14) 2 < 4096 ∧ 1 ≤ m.readNat (gangAt s 0 + 16) 1 ∧ m.readNat (gangAt s 0 + 16) 1 ≤ 32 ∧ m.readNat (gangAt s 0 + 17) 47 = 0 ∧
        (∀ i < 32, m.readNat (gangAt s 0 + 64 + 2 * i) 2 < 2048) ∧
        m.readNat (gangAt s 0) 8 + m.readNat (gangAt s 0 + 8) 4 ≤ s.regs.gang.period.toNat := by decide
  obtain ⟨h1, h2, h3, h4, h5, h6, h7, h8, h9, h10⟩ := h
  constructor
  · unfold TableOk
    refine ⟨h1, by omega, by omega, h3, h4, fun k hk => ?_, fun k hk => ?_, ?_⟩
    · have : k = 0 := by omega
      subst this
      exact ⟨h5, h6, h7, h8, h9⟩
    · omega
    · rw [h2]; exact h10
  · intro h
    have := h.2.2.2.1
    revert this
    decide

/-! ### Witnesses: links -/

/-- Link 3 in a state. -/
def sLink (f : Link → Link) : State := { (s0.setLink 3 (f Link.init)) with ftime := 5000000 }
def up (L : Link) : Link := { L with state := .up, banks := 7, rx := 7 }

/-- A place of its stream is due at time 5,000,000, and the first that is not taken is place n. -/
def placed (n : Nat) (L : Link) : Link := { L with upTo := 5000000, next := n }

theorem witness_places : OnePlace (placed 5000000 (up Link.init)) 5000000 ∧ NoPlace (placed 5000001 (up Link.init)) 5000000 ∧
    (sLink up).ftime = 5000000 ∧ Lit (up Link.init) ∧ Free (up Link.init) ∧ Quiet (up Link.init) ∧ NoneWaits (up Link.init) := by
  refine ⟨by unfold OnePlace; decide, by unfold NoPlace; decide, rfl, Or.inl rfl, ⟨rfl, rfl⟩, ⟨rfl, fun f hf => by cases hf⟩, rfl, rfl⟩

/-- What may take a place: a RESTRIPE, a flit to be resent, new data; none of these where the replay buffer is full. -/
theorem witness_next_flits :
    (let L := placed 0 { up Link.init with restripe := some 5 };
      Lit L ∧ OnePlace L 5000000 ∧ L.restripe = some 5 ∧ L.ctl = []) ∧
    (let L := placed 5000000 { up Link.init with buf := [⟨4, false, 14, []⟩], resends := [⟨4, false, 14, []⟩] };
      Lit L ∧ OnePlace L 5000000 ∧ Free L ∧ L.resends = [⟨4, false, 14, []⟩]) ∧
    (let L := placed 5000000 { up Link.init with waiting := [[1, 2, 3]] };
      L.state = .up ∧ OnePlace L 5000000 ∧ Free L ∧ L.resends = [] ∧ L.marker = false ∧ L.buf.length < 4096 ∧
        (L.allowIn - L.nextSeq).toNat < 32768) ∧
    (let L := placed 5000000 { up Link.init with waiting := [[1, 2, 3]], allowIn := 0, nextSeq := 1 };
      L.resends = [] ∧ L.marker = false ∧ 32768 ≤ (L.allowIn - L.nextSeq).toNat) ∧
    (let L := { up Link.init with buf := List.replicate 4096 ⟨4, false, 0, []⟩ };
      L.state = .up ∧ L.resends = [] ∧ L.marker = false ∧ Free L ∧ 4096 ≤ L.buf.length) := by
  refine ⟨⟨Or.inl rfl, by unfold OnePlace; decide, rfl, rfl⟩, ⟨Or.inl rfl, by unfold OnePlace; decide, ⟨rfl, rfl⟩, rfl⟩,
    ⟨rfl, by unfold OnePlace; decide, ⟨rfl, rfl⟩, rfl, rfl, by decide, by decide⟩, ⟨rfl, rfl, by decide⟩, rfl, rfl, rfl, ⟨rfl, rfl⟩, ?_⟩
  rw [List.length_replicate]

theorem witness_link_commands : (∀ st ∈ ([.down, .train, .up, .drain, .drained, .held, .dark, .relock, .failed] : List LState),
    ((sLink fun L => { L with state := st }).link 3).state = st) ∧ ((sLink fun L => { L with state := .held }).link 3).waiting = [] := by decide

theorem witness_link_states :
    (∀ st ∈ [LState.train, .relock], let s := sLink fun L => { L with state := st, dark := 3, absent := 6 };
      (s.link 3).state = st ∧ BanksFound 3 (s.link 3) ∧ (s.link 3).since + 1000000 ≤ s.ftime) ∧
    ((s0.setLink 99 { Link.init with state := .train }).link 99).state = .train ∧
    (∀ m ∈ [false, true], ((sLink fun L => { L with state := .drain, marker := m }).link 3).state = .drain ∧
      ((sLink fun L => { L with state := .drain, marker := m }).link 3).marker = m) ∧
    ((s0.setLink 97 { Link.init with state := .up }).link (96 + 1)).state = .up ∧
    (let L := (sLink up).link 3;
      L.state = .up ∧ (aimed L).getLsbD 1 = true ∧ aimed L &&& ~~~bankBit 1 ≠ 0 ∧ aimed L &&& 5 ≠ 0 ∧ L.ctl = [] ∧ (7 : BitVec 3) &&& ~~~L.rx = 0 ∧ (7 : BitVec 3) &&& L.dark = 0) ∧
    (let L := (sLink fun L => { up L with banks := 2 }).link 3;
      L.state = .up ∧ (aimed L).getLsbD 1 = true ∧ aimed L &&& ~~~bankBit 1 = 0) ∧
    (let L := (sLink fun L => { up L with restripe := some 5, buf := [⟨4, false, 14, []⟩] }).link 3;
      L.restripe = some 5 ∧ L.resends = [] ∧ NoPlace (placed 5000001 L) 5000000 ∧ ∀ f ∈ L.buf, f.resent < 16) ∧
    (let L := (sLink fun L => { up L with dark := 1 }).link 3;
      (3 : BitVec 3) ≠ L.rx ∧ (3 : BitVec 3) &&& ~~~L.rx = 0 ∧ (3 : BitVec 3) &&& L.dark ≠ 0) := by
  unfold BanksFound NoPlace; decide

/-- A flit of a type with a sequence number. -/
def flit (type seq : Nat) : List Byte :=
  let b := leBytes 8 (seq + type * 2 ^ 48) ++ List.replicate 176 0
  b ++ leBytes 8 (crc64 b).toNat


theorem flit_good (type seq : Nat) : GoodFlit (flit type seq) := by
  have hl : (leBytes 8 (seq + type * 2 ^ 48) ++ List.replicate 176 (0 : Byte)).length = 184 := by simp [leBytes]
  have hn : ∀ c : BitVec 64, leNat (leBytes 8 c.toNat) = c.toNat := by
    intro c
    have := c.isLt
    simp only [leBytes, leNat, List.foldr, BitVec.toNat_ofNat]
    omega
  have ht : (flit type seq).take 184 = leBytes 8 (seq + type * 2 ^ 48) ++ List.replicate 176 0 := by
    simp only [flit]; rw [List.take_append_of_le_length (by rw [hl]), List.take_of_length_le (by rw [hl])]
  refine ⟨by simp [flit, leBytes], ?_⟩
  rw [ht]
  show leNat (((flit type seq).drop 184).take 8) = _
  have hd : (flit type seq).drop 184 = leBytes 8 (crc64 (leBytes 8 (seq + type * 2 ^ 48) ++ List.replicate 176 0)).toNat := by
    simp only [flit]; rw [List.drop_append_of_le_length (by rw [hl]), List.drop_of_length_le (by rw [hl]), List.nil_append]
  rw [hd, List.take_of_length_le (by simp [leBytes])]
  exact hn _

/-- A flit of zeros but for its first byte has a wrong CRC. -/
theorem witness_bad_flit : ¬ GoodFlit (1 :: List.replicate 191 0) := by
  rintro ⟨-, h⟩
  revert h
  decide +kernel

theorem witness_flits :
    (∀ t ∈ [0, 1, 2], GoodFlit (flit t 0) ∧ flitNak (flit t 0) = false ∧ flitType (flit t 0) = t ∧ flitSeq (flit t 0) = ((sLink up).link 3).exp) ∧
    (GoodFlit (flit 1 5) ∧ flitSeq (flit 1 5) ≠ ((sLink up).link 3).exp ∧ (flitSeq (flit 1 5) - ((sLink up).link 3).exp).toNat < 32768) ∧
    Lit ((sLink up).link 3) ∧ ((sLink up).link 3).waiting = [] ∧ ¬ Lit ((sLink id).link 3) ∧
    (let s := sLink fun L => { up L with nakked := true };
      (s.link 3).nakked = true ∧ (s.link 3).nakAt + 1000 ≤ s.ftime) ∧ ((sLink up).link 3).nakked = false ∧ s0.fab.ftLock = false ∧
    ({ s0 with fab := { s0.fab with ftLock := true } }.fab.ftLock = true) := by
  have h : ∀ t ∈ [0, 1, 2], flitNak (flit t 0) = false ∧ flitType (flit t 0) = t ∧ flitSeq (flit t 0) = ((sLink up).link 3).exp := by
    have e : ∀ t, natAt (flit t 0) 0 8 = leNat (leBytes 8 (0 + t * 2 ^ 48)) := fun t => by
      simp [natAt, flit, leBytes]
    simp only [flitNak, flitType, flitSeq, e]
    decide
  have h5 : flitSeq (flit 1 5) = 5 := by
    have e : natAt (flit 1 5) 0 8 = leNat (leBytes 8 (5 + 1 * 2 ^ 48)) := by simp [natAt, flit, leBytes]
    simp only [flitSeq, e]; decide
  refine ⟨fun t ht => ⟨flit_good t 0, h t ht⟩, ⟨flit_good 1 5, by rw [h5]; decide, by rw [h5]; decide⟩, Or.inl rfl, rfl, ?_, by decide, rfl, rfl, rfl⟩
  unfold Lit; decide

/-- A marker, or a data flit, has been accepted and is not forwarded yet; an IDENT flit that is good, and a flit that is none, while
the link trains; the service core measures fabric time before RUN, in it, and once locked. -/
theorem witness_forwarded :
    (∀ mk ∈ [true, false], let L := placed 5000000 { up Link.init with rxq := [(mk, 0, [])] };
      (L.state = .up ∧ L.resends = [] ∧ L.buf = [] ∧ L.restripe = none ∧ L.ctl = []) ∧ OnePlace L 5000000 ∧ L.rxq = [(mk, 0, [])]) ∧
    Trains { Link.init with state := .train } ∧ GoodFlit (flit 4 0) ∧ flitType (flit 1 0) ≠ 4 ∧
    (s0.fab.ftLock = false ∧ s0.sys.dstate ≠ .boot) ∧ (State.reset.fab.ftLock = false ∧ State.reset.sys.dstate = .boot) := by
  refine ⟨?_, Or.inl rfl, flit_good 4 0, ?_, by decide, by decide⟩
  · unfold OnePlace; decide
  · have e : natAt (flit 1 0) 0 8 = leNat (leBytes 8 (0 + 1 * 2 ^ 48)) := by simp [natAt, flit, leBytes]
    simp only [flitType, e]; decide

/-! ### Witnesses: packets of the fabric -/

/-- A request or answer of device 5 with a tag, for the word at 0x10000 of tag 9's function. -/
def packet (op tag : Nat) : List Byte :=
  [BitVec.ofNat 8 op, 0x20] ++ leBytes 2 0 ++ leBytes 2 5 ++ leBytes 2 tag ++ leBytes 6 0x10000 ++ leBytes 2 9 ++ leBytes 16 0xF ++ List.replicate 128 1
/-- This device's ports are up; function 1 has tag 9, and partition 0 its memory; one remote request is open. -/
def sFabric (op : POp) : State :=
  let s := (List.range 8).foldl (fun s k => s.setLink (96 + k) { Link.init with state := .up, banks := 7, rx := 7, allowIn := 100 }) s0
  { (s.setFunc 1 { Func.init with state := .run, ftag := 9 }) with
    ftime := 2000000, fab := { s.fab with routes := [(0, 0xFFFFFFFF)] }
    regs := { (s.setFunc 1 { Func.init with state := .run, ftag := 9 }).regs with parts := [(0, { Part.init with lim := [(0, 0x3FFFFF)] })] }
    net := { s0.net with remotes := [⟨{ pkt op .peer (some 9) with target := some 5, elems := [el 0x10000] }, 0⟩] } }

theorem witness_fabric_requests : ∀ op ∈ [1, 3, 4, 5, 2, 7, 8], ∀ tag ∈ [0, 5, 65535], let s := sFabric .load
    let b := packet op tag
    natAt b 0 1 % 16 = op ∧ natAt b 2 2 % 2048 = s.fab.dev.toNat ∧ natAt b 4 2 % 2048 = 5 ∧ natAt b 6 2 = tag ∧ natAt b 8 6 = 0x10000 := by decide

theorem witness_fabric_allowed : let s := sFabric .load
    let b := packet 1 0
    s.runOwner (BitVec.ofNat 16 (natAt b 14 2)) = some 1 ∧ (s.part (s.func 1).part.toNat).covers (0x10000 / 128 * 128) 128 = true ∧ (s.routeOf 5 0x10000).isSome = true ∧
      natAt b 1 1 % 16 = 0 ∧ 2 ^ (natAt b 1 1 / 16 % 8) = 4 ∧ natAt b 16 16 = (2 ^ 4 - 1) * 2 ^ (4 * 0) ∧ (0x03FF7FFF : Word).getLsbD 0 = true ∧
      s0.runOwner (BitVec.ofNat 16 (natAt b 14 2)) = none := by decide

theorem witness_fabric_answers : ∀ op ∈ [POp.load, .store], let s := sFabric op
    let p := { pkt op .peer (some 9) with target := some 5, elems := [el 0x10000] }
    s.net.remotes = [⟨p, 0⟩] ∧ p.id % 65536 = 5 ∧ p.job = none ∧ 0 + 2000000 ≤ s.ftime ∧ (∀ e ∈ s.fab.links, e.2.waiting = []) ∧
      finds s p.src (fun T _ => !T.stopped) = true ∧ (s.grid? 0).isSome = true := by decide

/-- A port that works; the peer is of this device's own group; the request still waits at a link. -/
theorem witness_fabric_ports : (sFabric .load).portOk 96 = true ∧ 5 / 32 = (sFabric .load).fab.dev.toNat / 32 ∧
    (let s := sFabric .load;
      let w := [[1, 0x20] ++ leBytes 2 5 ++ leBytes 2 0 ++ leBytes 2 5 ++ leBytes 6 0x10000 ++ leBytes 2 0];
      ∀ r ∈ s.net.remotes, r.isIn s.fab.dev.toNat w = true) := by decide

/-- A stamped store of the plane, next in order or not, with the stamp at byte 16, a mask and data. -/
def stampedPacket (stamp : Nat) : List Byte :=
  [10, 0] ++ leBytes 2 0 ++ leBytes 2 5 ++ leBytes 2 0 ++ leBytes 2 0 ++ leBytes 4 128 ++ leBytes 2 0 ++ leBytes 8 stamp ++ leBytes 8 0 ++
    leBytes 16 0xF ++ List.replicate 128 1

theorem witness_stamped_packets : ∀ n ∈ [5, 7], let b := stampedPacket n
    (natAt b 0 1 % 16 = 10 ∧ natAt b 2 2 % 2048 = (sGroup []).fab.dev.toNat ∧ natAt b 4 2 % 2048 = 5) ∧
      (aget (sGroup []).work.groups (natAt b 8 2)).map (fun G => decide (natAt b 16 8 = G.stamp + 1)) = some (decide (n = 5)) := by decide

/-! ### Witnesses: pages that move -/

/-- Function 0's table with one HBM page, at 0x10000 or read-duplicated on devices 0 and 5, and a partition that covers HBM and CXL. -/
def sPage (leaf : Nat) : State :=
  let s := sTable leaf
  { (s.setFunc 0 { (s.func 0) with state := .run, peert := 0x20000 }) with mem := s.mem.writeBytes 0x20000 ([12, 2] ++ List.replicate 62 0 ++ [0, 0, 5, 0]) }

theorem witness_read_duplicated : ∃ m, (sPage 0x10403).rdPage 0 0x10000 = some (m, [0, 5]) ∧ (sPage 0x10403).rangeQuiet m.base m.size = true :=
  ⟨⟨0x10000, { tenant := 0, frame := 1, kind := .hbm, w := false, x := false, rd := true, pin := false, aux := 0, level := 0 }, 0x130008⟩, by decide, by decide⟩

/-- The upgrade of that page for entry 3, ungranted, granted at time 0, and its log entry. -/
def upgrade (granted : Option Nat) : Upgrade := { log := 3, va := 0x10000, func := 0, holders := [0, 5], granted := granted }
def sUpgrade (l : List Upgrade) (time : Nat) : State :=
  { sPage 0x10403 with ftime := time, net := { s0.net with upgrades := l, log := [{ fault none with upgrade := true }] } }

theorem witness_upgrades :
    ((sUpgrade [] 0).net.log.find? (fun h => decide (h.id = 3)) = some { fault none with upgrade := true } ∧ (sUpgrade [] 0).net.upgrades = []) ∧
    (∀ t ∈ [1999999, 2000000], let s := sUpgrade [upgrade (some 0)] t;
      s.net.upgrades.find? (fun v => decide (v.log = 3)) = some (upgrade (some 0)) ∧ (fault none).packet.job = none ∧ s.ftime = t ∧
        finds s here (fun T _ => decide (T.grid = 0)) = true ∧ (s.grid? 0).isSome = true) := by decide


theorem read_unlisted {m : Memory} {a : Nat} (h : ∀ e ∈ m, e.1 ≠ a) : m.read a = 0 := by
  show sget memDefault m a = 0
  induction m with
  | nil => rfl
  | cons e r ih =>
    have h2 := ih fun x hx => h x (List.mem_cons_of_mem _ hx)
    rw [sget, if_neg (h e List.mem_cons_self)]
    exact h2

theorem readNat_unlisted {m : Memory} {a n : Nat} (h : ∀ e ∈ m, e.1 < a ∨ a + n ≤ e.1) : m.readNat a n = 0 := by
  induction n generalizing a with
  | zero => rfl
  | succ n ih =>
    have h1 : m.read a = 0 := read_unlisted fun e he => by rcases h e he with h | h <;> omega
    have h2 : m.readNat (a + 1) n = 0 := ih fun e he => by rcases h e he with h | h <;> omega
    simp [Memory.readNat, h1, h2]

theorem foldl_one {β : Type} (f : β → Nat → β) (j : Nat) (l : List Nat) (hl : l.Nodup) (hj : j ∈ l) (h : ∀ i ∈ l, i ≠ j → ∀ r, f r i = r) (r : β) :
    l.foldl f r = f r j := by
  have skip : ∀ l : List Nat, (∀ i ∈ l, i ≠ j) → (∀ i ∈ l, i ≠ j → ∀ r, f r i = r) → ∀ r, l.foldl f r = r := by
    intro l
    induction l with
    | nil => intros; rfl
    | cons i l ih =>
      intro h1 h2 r
      rw [List.foldl_cons, h2 i List.mem_cons_self (h1 i List.mem_cons_self)]
      exact ih (fun x hx => h1 x (List.mem_cons_of_mem _ hx)) (fun x hx => h2 x (List.mem_cons_of_mem _ hx)) r
  induction l generalizing r with
  | nil => cases hj
  | cons i l ih =>
    rw [List.foldl_cons]
    rw [List.nodup_cons] at hl
    by_cases hi : i = j
    · subst hi
      exact skip l (fun x hx he => hl.1 (he ▸ hx)) (fun x hx => h x (List.mem_cons_of_mem _ hx)) _
    · rw [h i List.mem_cons_self hi]
      exact ih hl.2 ((List.mem_cons.mp hj).resolve_left fun e => hi e.symm) (fun x hx => h x (List.mem_cons_of_mem _ hx)) r

/-- A table of which only entry j is listed. -/
theorem scan_one (m : Memory) (n table va j : Nat) (hj : j < 1024)
    (h : ∀ e ∈ m, e.1 < table ∨ (table + 8 * j ≤ e.1 ∧ e.1 < table + 8 * j + 8) ∨ table + 8192 ≤ e.1) :
    tableScan m (n + 1) table va = match pteOf (BitVec.ofNat 64 (m.readNat (table + 8 * j) 8)) n with
      | .leaf l => ([⟨va + j * 2 ^ pageBits n, l, table + 8 * j⟩], [table])
      | .table t => let q := tableScan m n t (va + j * 2 ^ pageBits n); (q.1, [table] ++ q.2)
      | _ => ([], [table]) := by
  rw [tableScan]
  simp only
  rw [foldl_one _ j _ (List.nodup_range) (List.mem_range.mpr hj)]
  · generalize pteOf (BitVec.ofNat 64 (m.readNat (table + 8 * j) 8)) n = x
    cases x <;> simp
  · intro i hi hij r
    have hr : m.readNat (table + 8 * i) 8 = 0 := readNat_unlisted fun e he => by
      rcases h e he with h | h | h
      · left; omega
      · by_cases hlt : i < j
        · right; omega
        · left; omega
      · have := List.mem_range.mp hi
        right; omega
    simp only [hr]
    rfl

/-- A table of four levels of which one leaf is listed, of page 1. -/
theorem scan_chain (m : Memory) (t3 t2 t1 t0 : Nat) (L : Leaf)
    (h : ∀ p ∈ [(t3, 0), (t2, 0), (t1, 0), (t0, 1)], ∀ e ∈ m,
      e.1 < p.1 ∨ (p.1 + 8 * p.2 ≤ e.1 ∧ e.1 < p.1 + 8 * p.2 + 8) ∨ p.1 + 8192 ≤ e.1)
    (p3 : pteOf (BitVec.ofNat 64 (m.readNat (t3 + 8 * 0) 8)) 3 = .table t2) (p2 : pteOf (BitVec.ofNat 64 (m.readNat (t2 + 8 * 0) 8)) 2 = .table t1)
    (p1 : pteOf (BitVec.ofNat 64 (m.readNat (t1 + 8 * 0) 8)) 1 = .table t0) (p0 : pteOf (BitVec.ofNat 64 (m.readNat (t0 + 8 * 1) 8)) 0 = .leaf L) :
    tableScan m 4 t3 0 = ([⟨0x10000, L, t0 + 8 * 1⟩], [t3, t2, t1, t0]) := by
  rw [scan_one _ 3 _ _ 0 (by decide) (h (t3, 0) (by simp)), p3]
  simp only
  rw [scan_one _ 2 _ _ 0 (by decide) (h (t2, 0) (by simp)), p2]
  simp only
  rw [scan_one _ 1 _ _ 0 (by decide) (h (t1, 0) (by simp)), p1]
  simp only
  rw [scan_one _ 0 _ _ 1 (by decide) (h (t0, 1) (by simp)), p0]
  rfl

/-- The page of the table, when it is an HBM or a CXL page. -/
def page1 (kind : PKind) : Mapped := ⟨0x10000, { tenant := 0, frame := 1, kind := kind, w := false, x := false, rd := false, pin := false, aux := 0, level := 0 }, 0x130008⟩

def kindOf (leaf : Nat) : PKind := if leaf = 0x10003 then .hbm else .cxl

theorem scan_page : ∀ leaf ∈ [0x10003, 0x12003], (sPage leaf).scan 0 = ([page1 (kindOf leaf)], [0x100000, 0x110000, 0x120000, 0x130000]) := by
  intro leaf hl
  have h : ∀ leaf ∈ [0x10003, 0x12003], ∀ p ∈ [(0x100000, 0), (0x110000, 0), (0x120000, 0), (0x130000, 1)], ∀ e ∈ (sPage leaf).mem,
      e.1 < p.1 ∨ (p.1 + 8 * p.2 ≤ e.1 ∧ e.1 < p.1 + 8 * p.2 + 8) ∨ p.1 + 8192 ≤ e.1 := by decide
  have hp : ∀ leaf ∈ [0x10003, 0x12003], pteOf (BitVec.ofNat 64 ((sPage leaf).mem.readNat (0x100000 + 8 * 0) 8)) 3 = .table 0x110000 ∧
      pteOf (BitVec.ofNat 64 ((sPage leaf).mem.readNat (0x110000 + 8 * 0) 8)) 2 = .table 0x120000 ∧
      pteOf (BitVec.ofNat 64 ((sPage leaf).mem.readNat (0x120000 + 8 * 0) 8)) 1 = .table 0x130000 ∧
      pteOf (BitVec.ofNat 64 ((sPage leaf).mem.readNat (0x130000 + 8 * 1) 8)) 0 = .leaf (page1 (kindOf leaf)).l := by decide
  obtain ⟨p3, p2, p1, p0⟩ := hp leaf hl
  have ha : ((sPage leaf).func 0).asroot.toNat = 0x100000 := rfl
  unfold State.scan
  rw [ha]
  exact scan_chain _ _ _ _ _ _ (h leaf hl) p3 p2 p1 p0

/-- The page may move out, for the quota is 0, or in, for a grid of which no team has been placed will use it and the quota allows it. -/
def moveFrom (s : State) (quota : Word) (G : Grid) : State := ({ (s.setFunc 0 { s.func 0 with hbmq := quota }) with teams := [] }).setGrid 0 G
def newUse (s : State) : Grid := { (s.grid? 0).getD newGrid with next := 0, ranges := [(0x10000, 65536)] }
def sMove (leaf : Nat) (quota : Word) : State := moveFrom (sPage leaf) quota (newUse (sPage leaf))

theorem moveFrom_mem (s : State) (q : Word) (G : Grid) : (moveFrom s q G).mem = s.mem := rfl
theorem moveFrom_func (s : State) (q : Word) (G : Grid) : (moveFrom s q G).func 0 = { s.func 0 with hbmq := q } :=
  State.func_setFunc s 0 { s.func 0 with hbmq := q }
theorem moveFrom_asroot (s : State) (q : Word) (G : Grid) : ((moveFrom s q G).func 0).asroot = (s.func 0).asroot := by rw [moveFrom_func]

theorem scan_move {leaf : Nat} (h : leaf ∈ [0x10003, 0x12003]) (q : Word) :
    (sMove leaf q).scan 0 = ([page1 (kindOf leaf)], [0x100000, 0x110000, 0x120000, 0x130000]) := by
  have hs := scan_page leaf h
  unfold State.scan sMove at *
  rw [moveFrom_mem, moveFrom_asroot]
  exact hs

theorem tables_move {leaf : Nat} (h : leaf ∈ [0x10003, 0x12003]) (q : Word) : (sMove leaf q).tables = [0x100000, 0x110000, 0x120000, 0x130000] := by
  have hf : ∃ F : Func, (sMove leaf q).regs.funcs = [(0, F)] ∧ F.state = .run := ⟨_, rfl, rfl⟩
  obtain ⟨F, h1, h2⟩ := hf
  simp only [State.tables, h1, List.flatMap_cons, List.flatMap_nil, h2, List.append_nil, scan_move h q]
  rw [if_neg (by decide)]

theorem frame_free {leaf : Nat} (hl : leaf ∈ [0x10003, 0x12003]) (q : Word) (k : PKind) (frame : Nat)
    (hk : (k = .hbm ∧ (frame = 0x20 ∨ frame = 0)) ∨ (k = .cxl ∧ frame = 0x10000001)) : (sMove leaf q).frameFree 0 k (65536 * frame) 65536 = true := by
  have hb : (page1 (kindOf leaf)).base = 0x10000 := by simp [Mapped.base, page1]
  have hs : (page1 (kindOf leaf)).size = 65536 := by simp [Mapped.size, page1, pageBits]
  have hfun : ∃ F : Func, (sMove leaf q).regs.funcs = [(0, F)] ∧ F.state = .run := ⟨_, rfl, rfl⟩
  obtain ⟨F, hF, hR⟩ := hfun
  have hm : (sMove leaf q).net.moves = [] := rfl
  have hc : ((sMove leaf q).part ((sMove leaf q).func 0).part.toNat).covers (65536 * frame) 65536 = true := by
    have : (sMove leaf q).part ((sMove leaf q).func 0).part.toNat = { Part.init with base := [(0, 0)], lim := [(0, 0x3FFFFF)] } := rfl
    rw [this]
    rcases hk with ⟨-, rfl | rfl⟩ | ⟨-, rfl⟩ <;> decide
  have hh : ∀ x ∈ (sMove leaf q).usedRanges, x ∈ [(0x100000, 8192), (0x110000, 8192), (0x120000, 8192), (0x130000, 8192), (0x10000, 65536)] := by
    intro x hx
    simp only [State.usedRanges, tables_move hl q, hm, hF, hR, List.flatMap_cons, List.flatMap_nil, scan_move hl q, List.map_cons, List.map_nil,
      List.append_nil, if_neg (show FState.run ≠ .off by decide)] at hx
    rcases List.mem_append.mp hx with h | h
    · fin_cases h <;> simp
    · obtain ⟨m, hm, rfl⟩ := List.mem_map.mp h
      rw [List.mem_singleton.mp (List.mem_filter.mp hm).1, hb, hs]
      decide
  have ha : (sMove leaf q).usedRanges.all (fun u => decide (65536 * frame + 65536 ≤ u.1) || decide (u.1 + u.2 ≤ 65536 * frame)) = true := by
    rw [List.all_eq_true]
    intro x hx
    have := hh x hx
    rcases hk with ⟨-, rfl | rfl⟩ | ⟨-, rfl⟩ <;> fin_cases this <;> decide
  simp only [State.frameFree, hc, ha, Bool.and_true]
  rcases hk with ⟨rfl, rfl | rfl⟩ | ⟨rfl, rfl⟩ <;> simp [hbmTop, cxlBase, cxlTop]

theorem may_move {leaf : Nat} (hl : leaf ∈ [0x10003, 0x12003]) (q : Word) (k : PKind) (frame : Nat)
    (hk : (k = .hbm ∧ frame = 0x20) ∨ (k = .cxl ∧ frame = 0x10000001)) : MayMove (sMove leaf q) 0 k (page1 (kindOf leaf)) (65536 * frame) := by
  have hs : (page1 (kindOf leaf)).size = 65536 := by simp [Mapped.size, page1, pageBits]
  refine ⟨by rw [hs]; omega, ?_, ?_⟩
  · rw [hs]
    exact frame_free hl q k frame (hk.imp (fun h => ⟨h.1, Or.inl h.2⟩) id)
  · intro x hx; cases hx

theorem hbm_not_full {leaf : Nat} (hl : leaf ∈ [0x10003, 0x12003]) (q : Word) : (sMove leaf q).hbmFull 0 = false := by
  have h0 := frame_free hl q .hbm 0 (Or.inl ⟨rfl, Or.inr rfl⟩)
  have hb : (sget 0 ((sMove leaf q).part ((sMove leaf q).func 0).part.toNat).base 0).toNat * 2 ^ 26 = 0 := by
    have : (sMove leaf q).part ((sMove leaf q).func 0).part.toNat = { Part.init with base := [(0, 0)], lim := [(0, 0x3FFFFF)] } := rfl
    rw [this]; rfl
  unfold State.hbmFull
  rw [Bool.eq_false_iff]
  intro h
  have h1 := List.all_eq_true.mp h 0 (List.mem_append_left _ (List.mem_map.mpr ⟨0, by decide, hb⟩))
  rw [show (0 : Nat) = 65536 * 0 from rfl, h0] at h1
  cases h1

theorem over_quota {leaf : Nat} (h : leaf ∈ [0x10003, 0x12003]) (q : Word) (n : Nat) :
    (sMove leaf q).overQuota 0 n = decide (2 ^ 26 * q.toNat < hbmBytes [page1 (kindOf leaf)] + n) := by
  have hq : ((sMove leaf q).func 0).hbmq = q := by unfold sMove; rw [moveFrom_func]
  unfold State.overQuota
  rw [scan_move h, hq]

/-- The page may be moved: no other leaf names its bytes. -/
theorem movable_move {leaf : Nat} (h : leaf ∈ [0x10003, 0x12003]) (q : Word) :
    (sMove leaf q).movable (page1 (kindOf leaf)) [0x100000, 0x110000, 0x120000, 0x130000] (kindOf leaf) = true := by
  have hfun : ∃ F : Func, (sMove leaf q).regs.funcs = [(0, F)] ∧ F.state = .run := ⟨_, rfl, rfl⟩
  obtain ⟨F, hF, hR⟩ := hfun
  have hl : ∀ e ∈ (sMove leaf q).leavesOn (page1 (kindOf leaf)).base (page1 (kindOf leaf)).size, e.2 = page1 (kindOf leaf) := by
    intro e he
    simp only [State.leavesOn, hF, hR, List.flatMap_cons, List.flatMap_nil, List.append_nil, if_neg (show FState.run ≠ .off by decide),
      scan_move h q] at he
    obtain ⟨m, hm, rfl⟩ := List.mem_map.mp he
    exact List.mem_singleton.mp (List.mem_filter.mp hm).1
  have h1 : ∀ leaf ∈ [0x10003, 0x12003], let p := page1 (kindOf leaf)
      (decide (p.l.kind = kindOf leaf) && ([0x100000, 0x110000, 0x120000, 0x130000].all fun t => decide (t + 8192 ≤ p.base) || decide (p.base + p.size ≤ t)) &&
        !p.l.rd && !p.l.pin) = true := by decide
  unfold State.movable
  rw [show (decide ((page1 (kindOf leaf)).l.kind = kindOf leaf) && _ && _ && _) = true from h1 leaf h, Bool.true_and, List.all_eq_true]
  intro e he
  rw [hl e he]
  simp [page1]

/-- A page that must move out: the quota is 0 and it is the function's only HBM page. -/
theorem witness_page_out : ((sMove 0x10003 0).func 0).state = .run ∧ (page1 .hbm).va < 2 ^ 64 ∧ (sMove 0x10003 0).overQuota 0 0 = true ∧
    (sMove 0x10003 0).victimPages 0 = [page1 .hbm] ∧ MayMove (sMove 0x10003 0) 0 .cxl (page1 .hbm) (65536 * 0x10000001) := by
  refine ⟨by unfold sMove; rw [moveFrom_func]; rfl, by decide, by rw [over_quota (by decide)]; decide, ?_, may_move (by decide) 0 .cxl _ (Or.inr ⟨rfl, rfl⟩)⟩
  have hm : (sMove 0x10003 0).movable (page1 .hbm) [0x100000, 0x110000, 0x120000, 0x130000] .hbm = true :=
    movable_move (show 0x10003 ∈ [0x10003, 0x12003] by decide) 0
  simp only [State.victimPages, scan_move (show 0x10003 ∈ [0x10003, 0x12003] by decide), tables_move (show 0x10003 ∈ [0x10003, 0x12003] by decide),
    show kindOf 0x10003 = .hbm from rfl, List.filter_cons, hm, List.filter_nil, List.foldl_cons, List.foldl_nil, if_true]
  simp

/-- A page that a new grid will use, and the quota admits. -/
theorem witness_page_in : ((sMove 0x12003 1).func 0).state = .run ∧ (sMove 0x12003 1).overQuota 0 0 = false ∧ (sMove 0x12003 1).hbmFull 0 = false ∧
    (sMove 0x12003 1).fetchPages 0 = [page1 .cxl] ∧ MayMove (sMove 0x12003 1) 0 .hbm (page1 .cxl) (65536 * 0x20) := by
  have hg : ∃ G : Grid, (sMove 0x12003 1).grids = [(0, G)] ∧ G.func = 0 ∧ G.next = 0 ∧ G.ranges = [(0x10000, 65536)] := ⟨_, rfl, rfl, rfl, rfl⟩
  obtain ⟨G, h1, h2, h3, h4⟩ := hg
  refine ⟨by unfold sMove; rw [moveFrom_func]; rfl, by rw [over_quota (by decide)]; decide, hbm_not_full (by decide) 1, ?_,
    may_move (by decide) 1 .hbm _ (Or.inl ⟨rfl, rfl⟩)⟩
  have hm : (sMove 0x12003 1).movable (page1 .cxl) [0x100000, 0x110000, 0x120000, 0x130000] .cxl = true :=
    movable_move (show 0x12003 ∈ [0x10003, 0x12003] by decide) 1
  have hva : (page1 .cxl).va = 0x10000 := rfl
  have hsz : (page1 .cxl).size = 65536 := by simp [Mapped.size, page1, pageBits]
  have ho : (sMove 0x12003 1).overQuota 0 65536 = false := by rw [over_quota (by decide)]; decide
  simp only [State.fetchPages, scan_move (show 0x12003 ∈ [0x10003, 0x12003] by decide), tables_move (show 0x12003 ∈ [0x10003, 0x12003] by decide),
    show kindOf 0x12003 = .cxl from rfl, List.filter_cons, hm, List.filter_nil, if_true, h1, List.findSome?_cons, h2, h3, h4]
  simp [hva, hsz, State.fitQuota]
  exact ho

/-- A move of that page is in progress, with an access to its old place on its way or none. -/
def sMoving (q : List Packet) : State :=
  let s := sPage 0x10003
  { s with net := { s.net with packets := q, moves := [⟨0, 0x10000, 65536, 0x130008, 0x10000, 0x200000, .cxl⟩] } }

theorem witness_moves : (∀ q ∈ [[], [pkt .load .hbm none]], ((sMoving q).func 0).state = .run ∧
      (sMoving q).net.moves.find? (fun x => decide (x.func = 0) && decide (x.va = (w64 0x10000).toNat)) = some ⟨0, 0x10000, 65536, 0x130008, 0x10000, 0x200000, .cxl⟩) ∧
    0x200000 = 65536 * 0x20 ∧ 0x130008 + 8 ≤ 0x200000 ∧ (sMoving []).rangeQuiet 0x10000 65536 = true ∧
    (sMoving [pkt .load .hbm none]).rangeQuiet 0x10000 65536 = false ∧ (((sPage 0x10003).setFunc 0 Func.init).func 0).state ≠ .run := by decide

/-- Function 1 maps the page too, by a table at 0x140000. -/
def sAlias : State :=
  let s := (sMoving []).setFunc 1 { Func.init with state := .run, asroot := 0x140000 }
  { s with mem := (((s.mem.writeNat 0x140000 8 0x150001).writeNat 0x150000 8 0x160001).writeNat 0x160000 8 0x170001).writeNat 0x170008 8 0x10003 }
def other1 : Mapped := { page1 .hbm with pte := 0x170008 }

/-- The page that moves has one leaf, or another that is not the one moved. -/
theorem witness_leaves : (∀ e ∈ (sMoving []).leavesOn 0x10000 65536, e.2.pte = 0x130008) ∧
    ((sAlias.leavesOn 0x10000 65536).filter fun e => decide (e.2.pte ≠ 0x130008)) = [(1, other1)] ∧ sAlias.rangeQuiet 0x10000 65536 = true ∧
    (sAlias.func 0).state = .run ∧ other1.l.kind = .hbm ∧ 0x10000 ≤ other1.base ∧ other1.base + other1.size ≤ 0x10000 + 65536 ∧
    other1.pte + 8 ≤ 0x200000 ∧ 0x130008 + 8 ≤ other1.pte := by
  have hm : ∃ F : Func, (sMoving []).regs.funcs = [(0, F)] ∧ F.state = .run := ⟨_, rfl, rfl⟩
  obtain ⟨F, hF, hR⟩ := hm
  have h0 : (sMoving []).scan 0 = ([page1 .hbm], [0x100000, 0x110000, 0x120000, 0x130000]) := scan_page 0x10003 (by decide)
  have ha : ∃ F G : Func, sAlias.regs.funcs = [(0, F), (1, G)] ∧ F.state = .run ∧ G.state = .run := ⟨_, _, rfl, rfl, rfl⟩
  obtain ⟨A, B, hA, hAr, hBr⟩ := ha
  have hsparse : ∀ p ∈ [(0x100000, 0), (0x110000, 0), (0x120000, 0), (0x130000, 1), (0x140000, 0), (0x150000, 0), (0x160000, 0), (0x170000, 1)],
      ∀ e ∈ sAlias.mem, e.1 < p.1 ∨ (p.1 + 8 * p.2 ≤ e.1 ∧ e.1 < p.1 + 8 * p.2 + 8) ∨ p.1 + 8192 ≤ e.1 := by decide
  have r0 : (sAlias.func 0).asroot.toNat = 0x100000 := rfl
  have r1 : (sAlias.func 1).asroot.toNat = 0x140000 := rfl
  have h1 : sAlias.scan 0 = ([page1 .hbm], [0x100000, 0x110000, 0x120000, 0x130000]) := by
    unfold State.scan
    rw [r0]
    exact scan_chain _ _ _ _ _ (page1 .hbm).l (fun p hp => hsparse p (by fin_cases hp <;> decide)) (by decide) (by decide) (by decide) (by decide)
  have h2 : sAlias.scan 1 = ([other1], [0x140000, 0x150000, 0x160000, 0x170000]) := by
    unfold State.scan
    rw [r1]
    exact scan_chain _ _ _ _ _ other1.l (fun p hp => hsparse p (by fin_cases hp <;> decide)) (by decide) (by decide) (by decide) (by decide)
  refine ⟨fun e he => ?_, ?_, by decide, rfl, rfl, by decide, by decide, by decide, by decide⟩
  · simp only [State.leavesOn, hF, hR, List.flatMap_cons, List.flatMap_nil, List.append_nil, if_neg (show FState.run ≠ .off by decide), h0] at he
    obtain ⟨m, hm, rfl⟩ := List.mem_map.mp he
    rw [List.mem_singleton.mp (List.mem_filter.mp hm).1]
    rfl
  · simp only [State.leavesOn, hA, hAr, hBr, List.flatMap_cons, List.flatMap_nil, List.append_nil, if_neg (show FState.run ≠ .off by decide), h1, h2]
    decide

/-- The messages of the protocol: a grant while another is in progress, an invalidate that must wait, a holder that stays silent. -/
def sDup (g : List RdGrant) (h : List RdHeld) (q : List Packet) (time : Nat) : State :=
  let s := sPage 0x10403
  { s with ftime := time, net := { s.net with rdGrants := g, rdHeld := h, packets := q } }

theorem witness_duplicates : ∃ m, m.va = 0x10000 ∧ (∀ g ∈ [[], [⟨0, 0x10000, 5⟩]], (sDup g [] [] 0).rdPage 0 0x10000 = some (m, [0, 5])) ∧
    NoGrant (sDup [] [] [] 0) 0 m ∧ ¬ NoGrant (sDup [⟨0, 0x10000, 5⟩] [] [] 0) 0 m ∧ (sDup [] [] [] 0).fab.dev.toNat = 0 ∧
    (sDup [] [] [] 0).rangeQuiet m.base m.size = true ∧
    ((sDup [] [] [pkt .load .hbm none] 0).rdPage 0 0x10000 = some (m, [0, 5]) ∧ (sDup [] [] [pkt .load .hbm none] 0).rangeQuiet m.base m.size = false) ∧
    (∀ t ∈ [1999999, 2000000], let h : RdHeld := ⟨7, 0, 0x10000, 5, 0, false⟩
      (sDup [] [h] [] t).net.rdHeld = [h] ∧ (sDup [] [h] [] t).net.upgrades = [] ∧ (sDup [] [h] [] t).ftime = t) ∧
    ((sUpgrade [upgrade (some 0)] 0).net.upgrades.find? (fun v => decide (v.log = 3)) = some (upgrade (some 0)) ∧
      (sUpgrade [upgrade (some 0)] 0).rdPage 0 0x10000 = some (m, [0, 5])) := by
  refine ⟨⟨0x10000, { tenant := 0, frame := 1, kind := .hbm, w := false, x := false, rd := true, pin := false, aux := 0, level := 0 }, 0x130008⟩, rfl, by decide,
    ⟨fun g hg => (by cases hg), fun u hu => (by cases hu)⟩, fun h => ?_, rfl, by decide, by decide, by decide, by decide⟩
  exact h.1 ⟨0, 0x10000, 5⟩ (List.mem_singleton.mpr rfl) ⟨rfl, Nat.le_refl _, by decide⟩

/-! ### Witnesses: events that complete -/

/-- A result of register 4 has come due. -/
def sDue : State := withBeam fun b => { b with fix := [⟨0, [(128, 7)], [4], 0, none⟩] }

/-- The watch of that node. -/
def hitWatch : Watch := { who := .node 4 0, kind := .hbm, pa := 0x10080, size := 4, hit := true, va := 0x10080, func := 0, gen := 0, cut := false }

/-- A node's watch has been hit. -/
def sHit : State :=
  let s := sGraph (replay true [(0, awaiting)] 1) 1
  { s with net := { s.net with watches := [hitWatch] } }

theorem witness_results_due : Finds sDue here fun _ b => b.fix = [⟨0, [(128, 7)], [4], 0, none⟩] ∧ 0 ≤ sDue.clock ∧ b.status ≠ .region :=
  ⟨_, _, ⟨by rfl, by rfl⟩, rfl, Nat.zero_le _, by decide⟩

theorem witness_body_nops : Meets (.nop ⟨0⟩) (sBody 2) (fun e s1 => decide (e.b.mcall.isSome = true ∧ (s1.core e.T.coreId).bad = []) = true) ∧
    sget 0 ((sBody 2).core 0).store (32 * 0 + 2) = 0 := ⟨meets_sound (by decide), by decide⟩

theorem witness_node_watches : sHit.net.watches[0]? = some hitWatch ∧ (sHit.replay? 4).isSome = true ∧
    ¬ WaitMet awaiting (sHit.mem.readNat 0x10080 4) ∧ WaitMet awaiting (({ sHit with mem := sHit.mem.writeNat 0x10080 4 5 } : State).mem.readNat 0x10080 4) := by
  refine ⟨rfl, by decide, ?_, ?_⟩ <;> unfold WaitMet <;> decide

/-- Nothing runs; a shootdown has removed its translations. -/
def sQuiet : State := { sShoot 1 (some 0) with teams := [] }

theorem witness_quiet : sQuiet.regs.sdBusy = true ∧ sQuiet.regs.sdMark.isSome = true ∧ sQuiet.net.packets = [] ∧ sQuiet.net.remotes = [] ∧ sQuiet.net.watches = [] ∧ sQuiet.teams = [] ∧ ({ sFunc .reset with teams := [] } : State).teams = [] ∧ ¬ Owes (sMail 3) 1 ∧
    ((sFunc .reset).func 2).state = .reset ∧ ((sFunc .reset).func 2).resetTag = [] ∧ (sFunc .reset).net.packets = [] ∧ (sFunc .reset).net.remotes = [] ∧
    (sFunc .reset).jobs = [] ∧ (sCmd 1 (cmd 4 0 0x10040 0)).work.replays = [] ∧
    ((sLink fun L => { L with state := .drained }).link 3).state = .drained ∧ ((sLink fun L => { L with state := .held }).link 3).state = .held ∧
    (let s := { sFabric .load with fab := { (sFabric .load).fab with links := [] } };
      (s.net.remotes.map fun r => (r.packet.job.isNone, r.packet.target, r.sentNs)) = [(true, some 5, 0)] ∧ 0 + 2000000 ≤ s.ftime) := by
  unfold Owes; decide

/-! ### Witnesses: frames, encoding, steps, reset -/

/-- Whether the step or instruction answers a next state that passes p. -/
def nextIs (o : Host.Outcome State Fault Refusal) (p : State → Bool) : Bool := match o with | .next t => p t | _ => false

theorem witness_fixed_frame : Meets (.add ⟨0, 4, 8, 12, none⟩) s0 fun e _ => (decide (fixedLat (numberOf (.add ⟨0, 4, 8, 12, none⟩)) ≠ none ∧ e.b.halt = .run ∧ s0.dueTenants e.r = []) &&
    nextIs (exec (.add ⟨0, 4, 8, 12, none⟩) s0) fun _ => true) = true := meets_sound (by decide)

theorem witness_issue_frame : isCoded mcst4 = true ∧ numberOf mcst4 < 0x220 ∧ nextIs (exec mcst4 (sMcst false)) (fun _ => true) = true := by decide

theorem witness_encoding : isCoded mcst4 = true ∧ mcst4.wf = true ∧ decode (encodeBytes mcst4) = some (mcst4, []) := by decide

/-- A state in which the next step fetches the word w. -/
def sNext (w : Nat) : State := State.reset.withFetchWord 32 w

theorem witness_fetched_steps : ∀ w ∈ [0x06A00000, 0x07E00000], let s := sNext w
    s.agenda = [] ∧ s.due = none ∧ (s.nextIssue.map fun x => (x.1, x.2.2.mcall)) = some (⟨0, 0⟩, none) ∧
      (match s.nextIssue with
       | some (_, T, b) => (match s.fetch T b.pc with | (.bytes l, _) => decide ((decode l).isSome = (w == 0x06A00000)) | _ => false)
       | none => false) = true := by decide

/-- The beam's PC is not canonical, or its page is not mapped. -/
def sFar (pc : Dword) : State := (sNext 0).modBeam ⟨0, 0⟩ fun b => { b with pc := pc }

theorem witness_unfetched_steps : (match (sFar 0x0100000000000000).nextIssue with
      | some (_, T, b) => (match (sFar 0x0100000000000000).fetch T b.pc with | (.fail, _) => true | _ => false)
      | none => false) = true ∧
    (match (sFar 0x50000).nextIssue with
      | some (_, T, b) => (match (sFar 0x50000).fetch T b.pc with | (.fault va, _) => decide (va = 0x50000) | _ => false)
      | none => false) = true ∧ (2 ^ 56 ≤ (0x0100000000000000 : Dword).toNat) := by decide

theorem witness_body_steps : ((sBody 0).nextIssue.map fun x => x.2.2.mcall.isSome) = some true := by decide

theorem witness_agenda : ({ s0 with agenda := [some (.mul ⟨0, 4, 8, 12, none⟩)] }.agenda = some (.mul ⟨0, 4, 8, 12, none⟩) :: []) ∧
    (decodeTableWord 32 0x06A00000 = some (.exit ⟨0⟩)) := ⟨rfl, by decide⟩

theorem witness_canonical : State.reset.canonical ∧ State.reset.agendaOfEvents ∧ nextIs (step State.reset) (fun _ => true) = true := by
  refine ⟨?_, ?_, by decide⟩
  · unfold State.canonical; decide
  · unfold State.agendaOfEvents; decide

/-! ### Ill-formed terms -/

/-- One term for each check on the words (R16 to R26, R30, R31, R34, R37, R39), refused, beside a legal one. -/
theorem test_ill_formed_base :
    (Instr.mov ⟨0, 1, 0, 2, none⟩).wf = true ∧ (Instr.mov ⟨0, 1, 3, 2, none⟩).wf = false ∧ (Instr.mov ⟨0, 1, 0, 2, some 5⟩).wf = false ∧
    (Instr.shli ⟨0, 1, 2, 31⟩).wf = true ∧ (Instr.shli ⟨0, 1, 2, 32⟩).wf = false ∧ (Instr.twrd ⟨0, 1, 0, 15⟩).wf = true ∧ (Instr.twrd ⟨0, 1, 0, 16⟩).wf = false ∧
    (Instr.twrd ⟨0, 1, 2, 15⟩).wf = false ∧ (Instr.twwr ⟨0, 1, 2, 0⟩).wf = false := by decide

theorem test_ill_formed_extended :
    (Instr.bfxu { z with d := 1, a := 2, b := 3 }).wf = true ∧
    (Instr.bfxu { z with d := 1, a := 2, b := 3, c := 4 }).wf = false ∧ (Instr.bfxu { z with x10 := 1 }).wf = false ∧ (Instr.bfxu { z with flg := 1 }).wf = false ∧
    (Instr.bfxu { z with ru := true }).wf = false ∧ (Instr.bfxu { z with p := 1 }).wf = false ∧ (Instr.bfxu { z with pn := true }).wf = false ∧
    (Instr.bfxu { z with lit := some 5 }).wf = false ∧ (Instr.bfxu { z with immb := true, b := 1, lit := some 5 }).wf = false ∧
    (Instr.addp { z with d := 2, a := 4, b := 6 }).wf = true ∧ (Instr.addp { z with d := 3, a := 4, b := 6 }).wf = false ∧
    (Instr.addp { z with d := 2, a := 5, b := 6 }).wf = false ∧ (Instr.region { z with immb := true, lit := some 896 }).wf = true ∧
    (Instr.region { z with immb := true, lit := some 928 }).wf = false ∧ (Instr.region { z with immb := true, lit := some 16 }).wf = false ∧
    (Instr.eret { z with pe := true }).wf = false ∧ (Instr.mcall { z with lit := some 0x1FFFFFFFFF }).wf = true ∧
    (Instr.mcall { z with lit := some 0x2000000000 }).wf = false ∧ (Instr.mcall z).wf = false := by decide

theorem test_ill_formed_selectors :
    (Instr.bfxu { z with bcm := 1, bcs := 1, bln := 7 }).wf = true ∧ (Instr.bfxu { z with bcm := 3 }).wf = false ∧ (Instr.bfxu { z with bcm := 0, bln := 1 }).wf = false ∧
    (Instr.bfxu { z with bcm := 2, bln := 1 }).wf = false ∧ (Instr.bfxu { z with bcm := 1, bcs := 2 }).wf = false ∧
    (Instr.bfxu { z with bcm := 1, bcs := 1, immb := true }).wf = false ∧ (Instr.ffma { z with x10 := 4 }).wf = true ∧ (Instr.ffma { z with x10 := 5 }).wf = false ∧
    (Instr.srd { z with x10 := 0x23 }).wf = true ∧ (Instr.srd { z with x10 := 0x24 }).wf = false ∧ (Instr.srd { z with x10 := 0x23, flg := 1 }).wf = false ∧
    (Instr.swr { z with x10 := 0 }).wf = false ∧ (Instr.atom { z with immb := true, x10 := 0x243 }).wf = true ∧ (Instr.atom { z with immb := true, x10 := 0x283 }).wf = false ∧
    (Instr.pawin { z with x10 := 1 }).wf = false ∧ (Instr.ldmeta { z with immb := true }).wf = false ∧ (Instr.mma { z with x10 := 1 }).wf = false := by decide

/-! ### Decoding -/

/-- More words, each written out from the layouts of R8, R14 and R18 to R21, of the families that `writtenWords` has not. -/
noncomputable def moreWords : List (List Word × Instr) :=
  [([0x43800004, 0x2000C320, 8], .mma { z with flg := 4, a := 128, b := 12, c := 200, x10 := 8 }),
   ([0x438A4400, 0, 0x80], .acccvt { z with d := 136, x10 := 0x80 }),
   ([0x43C60A00, 0, 2], .qwait { z with d := 20, x10 := 2 }),
   ([0x409A0C01, 0, 0x22], .srd { z with d := 24, flg := 1, x10 := 0x22 }),
   ([0x43001840, 0x03020000, 3], .ld { z with d := 48, immb := true, a := 12, b := 32, x10 := 3 }),
   ([0x43020040, 0x088000AC, 0x0A200002], .st { z with immb := true, a := 34, c := 43, p := 40, pe := true, x10 := 2 }),
   ([0x44480100, 0x0281E008, 0], .kvpub { z with d := 2, a := 10, b := 30, c := 2 }),
   ([0x40461000, 0x0501E000, 0x00050000], .fcltX { z with d := 32, a := 20, b := 30, bcm := 1, bcs := 1 }),
   ([0x608C0040, 0x00080000, 0], .region { z with st := 4, immb := true, b := 128 }),
   ([0x40800A40, 0x0000A000, 0], .call { z with d := 20, immb := true, b := 10 }),
   ([0xC08E4180, 0x32000000, 0, 0, 0], .mcall { z with d := 131, a := 200, lit := some 0 })]

theorem test_more_words : ∀ r ∈ moreWords, decode (r.1.flatMap bytesOfWord) = some (r.2, []) := by unfold moreWords; decide

/-! ### Single steps -/

/-- A value for register d in lane l is on its way to the beam. -/
def lands (i : Instr) (s : State) (d l : Nat) (v : Word) : Bool :=
  nextIs (exec i s) fun t => finds t here fun _ b => (b.fix.any fun f => f.regs.any fun e => decide (e = (32 * d + l, v))) ||
    b.pends.any fun p => p.vals.any fun e => decide (e = (32 * d + l, v))

/-- R185, R16, R186 by hand: a sum wraps; the immediate of `ADDI` is signed; `SHL` by 32 or more gives 0 and `SAR` the sign. -/
theorem test_integer : lands (.add ⟨0, 4, 8, 12, none⟩) (withBeam (regs [(8, 0xFFFFFFFF), (12, 2)])) 4 0 1 = true ∧
    lands (.addi ⟨0, 4, 8, 0x7F⟩) (withBeam (regs [(8, 0)])) 4 31 0xFFFFFFFF = true ∧
    lands (.shl ⟨0, 4, 8, 12, none⟩) (withBeam (regs [(8, 3), (12, 33)])) 4 0 0 = true ∧
    lands (.sar ⟨0, 4, 8, 12, none⟩) (withBeam (regs [(8, 0x80000000), (12, 40)])) 4 0 0xFFFFFFFF = true := by decide

/-- R188: BFXU takes LEN bits from POS; R189: `LEA.sx` with the immediate −1 subtracts 1 << s. -/
theorem test_extended_integer : lands (.bfxu { z with d := 4, a := 8, immb := true, b := 260 }) (withBeam (regs [(8, 0x00000AB5)])) 4 0 0xAB = true ∧
    lands (.lea { z with d := 4, a := 8, immb := true, b := 1023, flg := 1, x10 := 3 }) (withBeam (regs [(8, 0x100)])) 4 0 0xF8 = true ∧
    lands (.lea { z with d := 4, a := 8, immb := true, b := 1023, x10 := 3 }) (withBeam (regs [(8, 0x100)])) 5 0 8 = true := by decide

/-- R206: 1.5 × 1.5 = 2.25, and 1 + 2⁻²⁴ rounds to 1 to nearest even, and up with `.rup`. -/
theorem test_float : lands (.fmul ⟨0, 4, 8, 8, none⟩) (withBeam (regs [(8, 0x3FC00000)])) 4 0 0x40100000 = true ∧
    lands (.fadd ⟨0, 4, 8, 12, none⟩) (withBeam (regs [(8, 0x3F800000), (12, 0x33800000)])) 4 0 0x3F800000 = true := by decide

/-- R78, R199: the values worked out in the spec; R205: its `FMAC` example. -/
theorem test_worked_examples : lands (.rng { z with d := 4, a := 8, b := 8 }) (withBeam (regs [(8, 0)])) 4 0 0x038418E3 = true ∧
    lands (.rng { z with d := 4, a := 8, b := 12 }) (withBeam (regs [(8, 0), (12, 37)])) 4 0 0x5C9C5A3D = true ∧
    lands (.fmac ⟨0, 4, 8, 12, none⟩) (withBeam (regs [(4, 0xBF800000), (8, 0x3F800800), (12, 0x3F800800)])) 4 0 0x3A000400 = true := by decide

/-- The table of R191, and R196's example. -/
theorem test_division : ((divide 0 7 (-2), divide 2 7 (-2), divide 1 7 (-2), divide 3 7 (-2)) : Word × Word × Word × Word) = (-3, 1, 0, 7) ∧
    ((divide 0 (-7) 2, divide 2 (-7) 2, divide 1 (-7) 2, divide 3 (-7) 2) : Word × Word × Word × Word) = (-3, -1, 0x7FFFFFFC, 1) ∧
    ((divide 0 (-5) 0, divide 2 (-5) 0, divide 1 (-5) 0, divide 3 (-5) 0) : Word × Word × Word × Word) = (-1, -5, 0xFFFFFFFF, 0xFFFFFFFB) ∧
    ((divide 0 0x80000000 (-1), divide 2 0x80000000 (-1), divide 1 0x80000000 (-1), divide 3 0x80000000 (-1)) : Word × Word × Word × Word) =
      (0x80000000, 0, 0, 0x80000000) := by decide

/-- v8 holds 5, −2, 100, 7, 1 in lanes 0 to 4; lane 2 is inactive. -/
def sScan : State := withBeam fun b => (((({ b with exm := 0x1B } : Beam).wr 8 0 5).wr 8 1 (-2)).wr 8 2 100 |>.wr 8 3 7).wr 8 4 1

theorem test_scan : (lands (.scan { z with d := 4, a := 8, x10 := 0 }) sScan 4 4 11 && lands (.scan { z with d := 4, a := 8, x10 := 4 }) sScan 4 3 3 &&
    lands (.scan { z with d := 4, a := 8, x10 := 5 }) sScan 4 4 7 && lands (.scan { z with d := 4, a := 8, x10 := 5 }) sScan 4 0 0x80000000) = true := by decide

/-- R216's example: 1.5 and 300 as T6 with scale 1 in slots 0 and 2, and slot 2 back again. -/
theorem test_taps : (lands (.cvtt { z with d := 4, a := 8, b := 12, x10 := 8 }) (withBeam (regs [(8, 0x3FC00000), (12, 1)])) 4 0 0x0E &&
    lands (.cvtt { z with d := 4, a := 8, b := 12, x10 := 40 }) (withBeam (regs [(8, 0x43960000), (12, 1)])) 4 0 0x1E000 &&
    lands (.cvttf { z with d := 4, a := 8, b := 12, x10 := 41 }) (withBeam (regs [(8, 0x1E98E), (12, 1)])) 4 0 0x43000000) = true := by decide

/-- The array of the spec's worked example of the Prism array, as far as outputs 0 to 3 see it: input i with delays 2 to output i and 5 to
output i + 1, in MIN mode with W = 11. -/
def racers : Prism :=
  { Prism.init with
    w := 11, ins := [(0, 0), (1, 3), (2, 6), (3, 9), (63, 9)]
    delays := [(0, 2), (1, 5), (65, 2), (66, 5), (130, 2), (131, 5), (195, 2), (196, 5), (64 * 63, 5), (64 * 63 + 63, 2)] }

theorem test_prism : racers.evaluate 0 = (2, 0) ∧ racers.evaluate 1 = (5, 0) ∧ racers.evaluate 2 = (8, 1) ∧ racers.evaluate 3 = (255, 255) := by decide

end Sys2Proof.Tests
end

section
/-! SUPPORT. The canonical form of both memories through a whole step (log 3): for every function of the model that gives a
state, one lemma that says what it leaves of the states before it; the lemmas are then put together along `exec`, `State.run` and `step`. -/

namespace Sys2Proof.Machine

/-! ### What operations leave of a state -/

/-- `t` comes from `s` by operations that write device memory only where `w` allows it, and then keep its canonical form: the agenda is
that of `s`, and host memory is in canonical form if that of `s` is. -/
structure Kept (w : Prop) (s t : State) : Prop where
  mem : t.mem = s.mem ∨ w ∧ (s.mem.wf = true → t.mem.wf = true)
  host : s.hostMem.wf = true → t.hostMem.wf = true
  agenda : t.agenda = s.agenda

/-- `Kept` of every state that an instruction's body answers with. -/
def Res.Kept (w : Prop) (s : State) (x : Res) : Prop :=
  match x with
  | .done t => Machine.Kept w s t
  | .jump t _ => Machine.Kept w s t
  | .late t _ _ _ => Machine.Kept w s t
  | .wait t => Machine.Kept w s t
  | _ => True

/-- `Kept` of the state after the checks of an access. -/
def Checked.Kept (w : Prop) (s : State) (x : Checked) : Prop :=
  match x with
  | .go _ _ t => Machine.Kept w s t
  | _ => True

/-- `Kept` of the state after a job's translation. -/
def Reach.Kept (w : Prop) (s : State) (x : Reach) : Prop :=
  match x with
  | .page _ _ t => Machine.Kept w s t
  | .stop t => Machine.Kept w s t

/-- `Kept` of the state with which an attempt to issue begins. -/
def Start.Kept (w : Prop) (s : State) (x : Start) : Prop :=
  match x with
  | .noBeam => True
  | .hold t => Machine.Kept w s t
  | .trap _ t _ => Machine.Kept w s t
  | .go _ t => Machine.Kept w s t

/-- `Kept` of the next state, if there is one. -/
def KeptNext (w : Prop) (s : State) (x : Host.Outcome State Fault Refusal) : Prop :=
  match x with
  | .next t => Kept w s t
  | _ => True

section
variable {w : Prop} {s t u : State} {α β : Type}

theorem Kept.refl : Kept w s s := ⟨.inl rfl, id, rfl⟩

theorem Kept.keeps (h : Kept w s t) (k : Keeps t u) : Kept w s u :=
  ⟨k.mem ▸ h.mem, k.host ∘ h.host, k.agenda.trans h.agenda⟩

theorem Kept.wf (h : Kept w s t) (m : s.mem.wf = true) : t.mem.wf = true := h.mem.elim (fun e => e ▸ m) fun k => k.2 m

/-- Operations for every `w`, those of a beam instruction outside the shared contexts among them, leave device memory as it is. -/
theorem Kept.mem_eq (h : Kept False s t) : t.mem = s.mem := h.mem.elim id fun k => k.1.elim

theorem Kept.form (h : Kept True s t) (k : KeepsForm t u) : Kept True s u :=
  ⟨.inr ⟨trivial, k.mem ∘ h.wf⟩, k.host ∘ h.host, k.agenda.trans h.agenda⟩

theorem Kept.canonical (h : Kept w s t) (c : s.canonical) : t.canonical := ⟨h.wf c.1, h.host c.2⟩

/-- An update of other fields. -/
theorem Kept.same (h : Kept w s t) {clock ftime free nextId cur spent net teams cores grids jobs work regs halo fab sys} :
    Kept w s { t with
      clock := clock, ftime := ftime, free := free, nextId := nextId, cur := cur, spent := spent, net := net, teams := teams,
      cores := cores, grids := grids, jobs := jobs, work := work, regs := regs, halo := halo, fab := fab, sys := sys } :=
  ⟨h.mem, h.host, h.agenda⟩

/-- A write of device memory that keeps its canonical form, with an update of other fields. -/
theorem Kept.writes {m : Memory} (h : Kept True s t) (hm : t.mem.wf = true → m.wf = true)
    {clock ftime free nextId cur spent net teams cores grids jobs work regs halo fab sys} :
    Kept True s { t with
      mem := m, clock := clock, ftime := ftime, free := free, nextId := nextId, cur := cur, spent := spent, net := net, teams := teams,
      cores := cores, grids := grids, jobs := jobs, work := work, regs := regs, halo := halo, fab := fab, sys := sys } :=
  ⟨.inr ⟨trivial, hm ∘ h.wf⟩, h.host, h.agenda⟩

/-- A fold of operations that each keep the canonical form of a memory, keeps it. -/
theorem Memory.wf_foldl {α : Type} {f : Memory → α → Memory} {l : List α} {m : Memory}
    (hf : ∀ m a, m.wf = true → (f m a).wf = true) (h : m.wf = true) : (l.foldl f m).wf = true := by
  induction l generalizing m with
  | nil => exact h
  | cons a r ih => exact ih (hf m a h)

/-! ### Branches, pairs, options and folds -/

theorem Kept.ite {c : Prop} [Decidable c] (h : Kept w s t) (k : Kept w s u) : Kept w s (if c then t else u) := by
  split
  · exact h
  · exact k

theorem Res.Kept.ite {c : Prop} [Decidable c] {x y : Res} (h : x.Kept w s) (k : y.Kept w s) : (if c then x else y).Kept w s := by
  split
  · exact h
  · exact k

theorem Checked.Kept.ite {c : Prop} [Decidable c] {x y : Checked} (h : x.Kept w s) (k : y.Kept w s) :
    (if c then x else y).Kept w s := by
  split
  · exact h
  · exact k

theorem Reach.Kept.ite {c : Prop} [Decidable c] {x y : Reach} (h : x.Kept w s) (k : y.Kept w s) :
    (if c then x else y).Kept w s := by
  split
  · exact h
  · exact k

theorem KeptNext.ite {c : Prop} [Decidable c] {x y : Host.Outcome State Fault Refusal} (h : KeptNext w s x) (k : KeptNext w s y) :
    KeptNext w s (if c then x else y) := by
  split
  · exact h
  · exact k

theorem Kept.ite_fst {c : Prop} [Decidable c] {p q : State × α} (h : Kept w s p.1) (k : Kept w s q.1) :
    Kept w s (if c then p else q).1 := by
  split
  · exact h
  · exact k

theorem Kept.ite_snd {c : Prop} [Decidable c] {p q : α × State} (h : Kept w s p.2) (k : Kept w s q.2) :
    Kept w s (if c then p else q).2 := by
  split
  · exact h
  · exact k

theorem Kept.of_fst {p : State × α} {x : α} (h : Kept w s p.1) (e : p = (u, x)) : Kept w s u := by subst e; exact h

theorem Kept.of_snd {p : α × State} {x : α} (h : Kept w s p.2) (e : p = (x, u)) : Kept w s u := by subst e; exact h

theorem Checked.Kept.of_go {x : Checked} {a b} (h : x.Kept w s) (e : x = .go a b u) : Machine.Kept w s u := by subst e; exact h

theorem Reach.Kept.of_page {x : Reach} {l a} (h : x.Kept w s) (e : x = .page l a u) : Machine.Kept w s u := by subst e; exact h

theorem Reach.Kept.of_stop {x : Reach} (h : x.Kept w s) (e : x = .stop u) : Machine.Kept w s u := by subst e; exact h

theorem Kept.getD {o : Option State} (h : ∀ v, o = some v → Kept w s v) (k : Kept w s u) : Kept w s (o.getD u) := by
  cases o with
  | none => exact k
  | some v => exact h v rfl

theorem Kept.foldl {f : State → α → State} {l : List α} (hf : ∀ v a, Kept w s v → Kept w s (f v a)) (h : Kept w s t) :
    Kept w s (l.foldl f t) := by
  induction l generalizing t with
  | nil => exact h
  | cons a r ih => exact ih (hf t a h)

theorem Kept.foldl_fst {f : State × β → α → State × β} {l : List α} {p : State × β}
    (hf : ∀ q a, Kept w s q.1 → Kept w s (f q a).1) (h : Kept w s p.1) : Kept w s (l.foldl f p).1 := by
  induction l generalizing p with
  | nil => exact h
  | cons a r ih => exact ih (hf p a h)

theorem Kept.foldl_snd {f : β × State → α → β × State} {l : List α} {p : β × State}
    (hf : ∀ q a, Kept w s q.2 → Kept w s (f q a).2) (h : Kept w s p.2) : Kept w s (l.foldl f p).2 := by
  induction l generalizing p with
  | nil => exact h
  | cons a r ih => exact ih (hf p a h)

/-! ### Teams, beams, event records and traps -/

theorem Kept.setTeam {t' T} (h : Kept w s t) : Kept w s (t.setTeam t' T) := h.keeps (State.setTeam_keeps ..)

theorem Kept.setBeam {r b} (h : Kept w s t) : Kept w s (t.setBeam r b) := h.keeps (State.setBeam_keeps ..)

theorem Kept.modTeam {t' f} (h : Kept w s t) : Kept w s (t.modTeam t' f) := h.keeps (State.modTeam_keeps ..)

theorem Kept.modBeam {r f} (h : Kept w s t) : Kept w s (t.modBeam r f) := h.keeps (State.modBeam_keeps ..)

theorem Kept.setGrid {g G} (h : Kept w s t) : Kept w s (t.setGrid g G) := h.keeps (State.setGrid_keeps ..)

theorem Kept.setFunc {f F} (h : Kept w s t) : Kept w s (t.setFunc f F) := h.keeps (State.setFunc_keeps ..)

theorem Kept.setCore {c C} (h : Kept w s t) : Kept w s (t.setCore c C) := h.keeps (State.setCore_keeps ..)

theorem Kept.setChan {c C} (h : Kept w s t) : Kept w s (t.setChan c C) := h.keeps (State.setChan_keeps ..)

theorem Kept.setLink {l L} (h : Kept w s t) : Kept w s (t.setLink l L) := h.keeps (State.setLink_keeps ..)

theorem Kept.keepOld {host pa n} (h : Kept w s t) : Kept w s (t.keepOld host pa n) := .ite h h.same

theorem Kept.hostPut {pa bytes} (h : Kept w s t) : Kept w s (t.hostPut pa bytes) :=
  h.keeps ⟨by simp, fun m => by simpa using Memory.wf_writeBytes _ _ m, by simp⟩

theorem Kept.sendMsix {f v} (h : Kept w s t) : Kept w s (t.sendMsix f v) := h.same

theorem Kept.record {f kind body} (h : Kept w s t) : Kept w s (t.record f kind body) := h.keeps (State.record_keeps ..)

theorem Kept.report {p} (h : Kept w s t) : Kept w s (t.report p) := h.keeps (State.report_keeps ..)

theorem Kept.teamReport {T kind cause arg beam peer epc info} (h : Kept w s t) :
    Kept w s (t.teamReport T kind cause arg beam peer epc info) :=
  h.keeps (State.teamReport_keeps ..)

theorem Kept.failReplay {r code node} (h : Kept w s t) : Kept w s (t.failReplay r code node) :=
  h.keeps (State.failReplay_keeps ..)

theorem Kept.endGrid {g} (h : Kept w s t) : Kept w s (t.endGrid g) := h.keeps (State.endGrid_keeps ..)

theorem Kept.fatalStop {r cause arg epc peer info} (h : Kept w s t) : Kept w s (t.fatalStop r cause arg epc peer info) :=
  h.keeps (State.fatalStop_keeps ..)

theorem Kept.dropWatches {r} (h : Kept w s t) : Kept w s (t.dropWatches r) := h.keeps (State.dropWatches_keeps ..)

theorem Kept.takeTrap {r cause arg epc pix peer info} (h : Kept w s t) : Kept w s (t.takeTrap r cause arg epc pix peer info) :=
  h.keeps (State.takeTrap_keeps ..)

theorem Kept.lateTrap {r cause arg epc pix peer info} (h : Kept w s t) : Kept w s (t.lateTrap r cause arg epc pix peer info) :=
  h.keeps (State.lateTrap_keeps ..)

theorem Kept.enterPending {r} (h : Kept w s t) : Kept w s (t.enterPending r) := h.keeps (State.enterPending_keeps ..)

theorem Kept.eret {r} (h : Kept w s t) : Kept w s (t.eret r) := h.keeps (State.eret_keeps ..)

theorem Kept.handlerGone {r} (h : Kept w s t) : Kept w s (t.handlerGone r) := h.keeps (State.handlerGone_keeps ..)

/-! ### Issue -/

theorem Kept.heldUntil {r c} (h : Kept w s t) : Kept w s (Issue.heldUntil t r c) := h.keeps (Issue.heldUntil_keeps ..)

theorem Kept.issued {r next} (h : Kept w s t) : Kept w s (Issue.issued t r next) := h.keeps (Issue.issued_keeps ..)

theorem Kept.trap {r cause arg epc pix info} (h : Kept w s t) : Kept w s (Issue.trap t r cause arg epc pix info) :=
  h.keeps (Issue.trap_keeps ..)

theorem Kept.trapRemote {r info peer} (h : Kept w s t) : Kept w s (Issue.trapRemote t r info peer) :=
  h.keeps (Issue.trapRemote_keeps ..)


theorem Kept.dropPages {r ls} (h : Kept w s t) : Kept w s (t.dropPages r ls) := .ite h h.same

theorem Kept.select {r T b} (h : Kept w s t) (e : Issue.select t = some (r, T, b, u)) : Kept w s u := by
  unfold Issue.select at e
  dsimp only at e
  split at e
  · cases e
  · split at e
    · cases e
    · split at e
      · cases e
      · cases e
        exact h.setTeam.dropPages

theorem Kept.start {n sig len mk} (h : Kept w s t) : (Issue.start t n sig len mk).Kept w s := by
  unfold Issue.start
  split
  · exact trivial
  · have k := h.select ‹_›
    dsimp only
    split_ifs
    · exact k.heldUntil
    · exact k
    · exact k
    · exact k
    · exact k

theorem Kept.finish {e pc} (h : Kept w s t) : Kept w s (Issue.finish e t pc) := h.keeps (Issue.finish_keeps ..)

theorem Start.Kept.conclude {x : Start} {body} (h : x.Kept w s) (hb : ∀ e u, Machine.Kept w s u → (body e u).Kept w s) :
    KeptNext w s (Issue.conclude x body) := by
  cases x with
  | noBeam => exact trivial
  | hold u => exact h
  | trap e u c => exact .ite (Kept.heldUntil h) (Kept.issued h).trap
  | go e u =>
    have k := hb e u h
    rw [Issue.conclude_go]
    generalize body e u = y at k
    cases y with
    | done v => exact Kept.finish k
    | jump v pc => exact Kept.finish k
    | trap c a p i n => exact (Kept.issued h).trap
    | remote n p => exact (Kept.issued h).trapRemote
    | late v c i n => exact (Kept.issued k).trap
    | hold => exact Kept.heldUntil h
    | wait v => exact k

theorem Kept.ext {n x body} (h : Kept w s t) (hb : ∀ e u, Kept w s u → (body e u).Kept w s) :
    KeptNext w s (Issue.ext n x body t) :=
  h.start.conclude hb

theorem Kept.base {op o body} (h : Kept w s t) (hb : ∀ e u, Kept w s u → (body e u).Kept w s) :
    KeptNext w s (Issue.base op o body t) :=
  h.start.conclude hb

theorem Kept.fixed {e vals flags} (h : Kept w s t) : Kept w s (Env.fixed e t vals flags) := h.keeps (Env.fixed_keeps ..)

theorem Kept.fixedLanes {e f flags} (h : Kept w s t) : (Env.fixedLanes e t f flags).Kept w s := h.fixed

theorem Kept.fixedPairs {e f} (h : Kept w s t) : (Env.fixedPairs e t f).Kept w s := h.fixed

theorem Kept.pendingAt {e names vals wait ready exact} (h : Kept w s t) :
    Kept w s (Env.pendingAt e t names vals wait ready exact) :=
  h.same.modBeam

theorem Kept.pending {e names vals wait ready} (h : Kept w s t) : Kept w s (Env.pending e t names vals wait ready) :=
  h.pendingAt

/-! ### Translation -/

theorem Kept.tlbAdd {place size f va l} (h : Kept w s t) : Kept w s (t.tlbAdd place size f va l) := h.same

theorem Kept.walkFill {core f va l} (h : Kept w s t) : Kept w s (t.walkFill core f va l) := h.tlbAdd.tlbAdd

theorem Kept.lastPage {q va l} (h : Kept w s t) : Kept w s (t.lastPage q va l) := by
  unfold State.lastPage
  split
  · exact h
  · exact h.tlbAdd

theorem Kept.translate {q va} (h : Kept w s t) : Kept w s (t.translate q va).2 := by
  unfold State.translate
  refine .ite_snd h ?_
  split
  · exact h.lastPage
  · split
    · exact h.walkFill.lastPage
    · exact h

/-! ### Fetch -/

theorem Kept.codeWord {mark k pa} (h : Kept w s t) : Kept w s (t.codeWord mark k pa).2 := by
  unfold State.codeWord
  dsimp only
  refine .ite_snd h.same ?_
  split
  · exact h
  · exact h.same

theorem Kept.fetchWord {T va} (h : Kept w s t) : Kept w s (t.fetchWord T va).2 := by
  unfold State.fetchWord
  dsimp only
  refine .ite_snd h ?_
  split
  · exact .ite_snd (Kept.of_snd h.translate ‹_›).codeWord (Kept.of_snd h.translate ‹_›)
  · exact Kept.of_snd h.translate ‹_›
  · exact Kept.of_snd h.translate ‹_›

theorem Kept.fetchWords {T va n} (h : Kept w s t) : Kept w s (t.fetchWords T va n).2 := by
  induction n generalizing t va with
  | zero => exact h
  | succ n ih =>
    unfold State.fetchWords
    split
    · have k := ih (va := va + 4) (Kept.of_snd h.fetchWord ‹_›)
      split
      · exact Kept.of_snd k ‹_›
      · exact k
    · exact h.fetchWord

theorem Kept.fetch {T va} (h : Kept w s t) : Kept w s (t.fetch T va).2 := by
  unfold State.fetch
  split
  · split
    · exact Kept.of_snd h.fetchWord ‹_›
    · split
      · exact Kept.of_snd (Kept.of_snd h.fetchWord ‹_›).fetchWords ‹_›
      · exact (Kept.of_snd h.fetchWord ‹_›).fetchWords
  · exact h.fetchWord

/-! ### Control instructions -/

theorem bodyNop_kept {x} (h : Kept w s t) : (bodyNop x t).Kept w s := h

theorem bodyBra_kept {e} (h : Kept w s t) : (bodyBra e t).Kept w s := h

theorem bodyBrIf_kept {taken e} (h : Kept w s t) : (bodyBrIf taken e t).Kept w s := .ite h h

theorem Kept.link {e} (h : Kept w s t) : Kept w s (Env.link e t) := h.pending

theorem jumpTo_kept {t'} (h : Kept w s t) : (jumpTo t' t).Kept w s := .ite trivial h

theorem bodyCall_kept {e} (h : Kept w s t) : (bodyCall e t).Kept w s := h.link

theorem bodyCallr_kept {e} (h : Kept w s t) : (bodyCallr e t).Kept w s := .ite trivial h.link

theorem bodyJmpr_kept {e} (h : Kept w s t) : (bodyJmpr e t).Kept w s := jumpTo_kept h

theorem bodyMaskp_kept {e} (h : Kept w s t) : (bodyMaskp e t).Kept w s := h.modBeam

theorem bodyGetm_kept {e} (h : Kept w s t) : (bodyGetm e t).Kept w s := h.fixed

theorem bodySetm_kept {e} (h : Kept w s t) : (bodySetm e t).Kept w s := h.modBeam

theorem Kept.clearLanes {r m} (h : Kept w s t) : Kept w s (t.clearLanes r m) := by
  unfold State.clearLanes
  dsimp only
  split
  · exact h.modBeam
  · exact .ite (.ite h.modBeam.modTeam.handlerGone h.modBeam.modTeam) h.modBeam

theorem bodyExit_kept {e} (h : Kept w s t) : (bodyExit e t).Kept w s := h.clearLanes

theorem Kept.wait {e w'} (h : Kept w s t) : Kept w s (Env.wait e t w') := h.modBeam

theorem bodyYield_kept {e} (h : Kept w s t) : (bodyYield e t).Kept w s := h.wait

theorem bodyRegion_kept {e} (h : Kept w s t) : (bodyRegion e t).Kept w s := .ite trivial (.ite trivial h.modBeam)

theorem bodyMcall_kept {e} (h : Kept w s t) : (bodyMcall e t).Kept w s := .ite trivial (.ite trivial (.ite h h.modBeam))

theorem bodyBar_kept {e} (h : Kept w s t) : (bodyBar e t).Kept w s := Kept.ite h.setTeam.wait h.setTeam

theorem bodyArrive_kept {e} (h : Kept w s t) : (bodyArrive e t).Kept w s := h.setTeam.pending

theorem bodyBarn_kept {e} (h : Kept w s t) : (bodyBarn e t).Kept w s := Kept.ite h.setTeam.wait h.setTeam

theorem bodyWaitb_kept {e} (h : Kept w s t) : (bodyWaitb e t).Kept w s := Kept.ite h.wait h

theorem bodyTwrd_kept {e} (h : Kept w s t) : (bodyTwrd e t).Kept w s := .ite trivial h.fixedLanes

theorem Kept.twWrite {e word op pend} (h : Kept w s t) : Kept w s (Env.twWrite e t word op pend) := h.modTeam

theorem bodyTwwr_kept {e} (h : Kept w s t) : (bodyTwwr e t).Kept w s := .ite (.ite trivial h.twWrite) h

theorem bodyTwRmw_kept {op e} (h : Kept w s t) : (bodyTwRmw op e t).Kept w s := .ite (.ite trivial h.pending.twWrite) h

theorem bodySrd_kept {e} (h : Kept w s t) : (bodySrd e t).Kept w s := .ite h.fixedPairs h.fixedLanes

theorem Kept.swrLater {e n vs} (h : Kept w s t) : Kept w s (Env.swrLater e t n vs) := h.modBeam

theorem bodySwr_kept {e} (h : Kept w s t) : (bodySwr e t).Kept w s :=
  .ite (.ite trivial (.ite h.modBeam (.ite h.swrLater h.swrLater))) h

theorem bodyTrap_kept {e} : (bodyTrap e t).Kept w s := trivial

theorem bodyBrk_kept {e} : (bodyBrk e t).Kept w s := trivial

theorem bodyEret_kept {e} (h : Kept w s t) : (bodyEret e t).Kept w s := .ite trivial (.ite trivial h.eret)

/-! ### Integer instructions -/

theorem bodyA_kept {f e} (h : Kept w s t) : (bodyA f e t).Kept w s := h.fixedLanes

theorem bodyAB_kept {f e} (h : Kept w s t) : (bodyAB f e t).Kept w s := h.fixedLanes

theorem bodyABD_kept {f e} (h : Kept w s t) : (bodyABD f e t).Kept w s := h.fixedLanes

theorem bodyPair_kept {f e} (h : Kept w s t) : (bodyPair f e t).Kept w s := h.fixedPairs

theorem bodyPairShift_kept {f e} (h : Kept w s t) : (bodyPairShift f e t).Kept w s := h.fixedPairs

theorem bodyPairCmp_kept {f e} (h : Kept w s t) : (bodyPairCmp f e t).Kept w s := h.fixedLanes

theorem bodyLea_kept {e} (h : Kept w s t) : (bodyLea e t).Kept w s := h.fixedPairs

theorem bodyDiv_kept {op e} (h : Kept w s t) : (bodyDiv op e t).Kept w s := .ite h h.pendingAt.modBeam

theorem execDividerSubstep_kept {t' b} (h : Kept w s t) : KeptNext w s (execDividerSubstep t' b t) := by
  unfold execDividerSubstep
  dsimp only
  split
  · exact h
  · split
    · exact h
    · split
      · exact h
      · exact .ite h h.setTeam.setCore

theorem bodyShfl_kept {src e} (h : Kept w s t) : (bodyShfl src e t).Kept w s := h.fixedLanes


theorem bodyVote_kept {e} (h : Kept w s t) : (bodyVote e t).Kept w s := h.fixedLanes

theorem bodyMatch_kept {e} (h : Kept w s t) : (bodyMatch e t).Kept w s := h.fixedLanes

theorem bodyFold_kept {f e} (h : Kept w s t) : (bodyFold f e t).Kept w s := h.fixedLanes

theorem bodyScan_kept {e} (h : Kept w s t) : (bodyScan e t).Kept w s := h.fixedLanes

theorem Kept.xchgTry {r} (h : Kept w s t) : Kept w s (t.xchgTry r) := by
  unfold State.xchgTry
  split
  · split
    · split
      · exact h
      · exact h.setBeam
      · split
        · exact h
        · exact h.setBeam.modBeam
    · exact h
  · exact h

theorem bodyXchg_kept {e} (h : Kept w s t) : (bodyXchg e t).Kept w s := .ite trivial h.pending.wait.xchgTry

/-! ### Float instructions -/

theorem bodyFlagged_kept {f e} (h : Kept w s t) : (bodyFlagged f e t).Kept w s := h.fixedLanes

theorem bodyF2_kept {f a} (h : Kept w s t) : (bodyF2 f a t).Kept w s := bodyFlagged_kept h

theorem bodyF3_kept {f a} (h : Kept w s t) : (bodyF3 f a t).Kept w s := bodyFlagged_kept h

theorem bodyF3d_kept {f a} (h : Kept w s t) : (bodyF3d f a t).Kept w s := bodyFlagged_kept h

theorem bodyP2_kept {f a} (h : Kept w s t) : (bodyP2 f a t).Kept w s := bodyFlagged_kept h

theorem bodyP3_kept {f a} (h : Kept w s t) : (bodyP3 f a t).Kept w s := bodyFlagged_kept h

theorem bodyP3d_kept {f a} (h : Kept w s t) : (bodyP3d f a t).Kept w s := bodyFlagged_kept h

theorem bodyFsign_kept {f e} (h : Kept w s t) : (bodyFsign f e t).Kept w s := h.fixedLanes

theorem bodyFsel_kept {f a} (h : Kept w s t) : (bodyFsel f a t).Kept w s := bodyFlagged_kept h

theorem bodyPsel_kept {f a} (h : Kept w s t) : (bodyPsel f a t).Kept w s := bodyFlagged_kept h

theorem bodyFcmp_kept {f a} (h : Kept w s t) : (bodyFcmp f a t).Kept w s := bodyFlagged_kept h

theorem bodyFrnd_kept {a} (h : Kept w s t) : (bodyFrnd a t).Kept w s := bodyFlagged_kept h

theorem bodyFn_kept {fn a} (h : Kept w s t) : (bodyFn fn a t).Kept w s := bodyFlagged_kept h

theorem bodyFscl_kept {a} (h : Kept w s t) : (bodyFscl a t).Kept w s := bodyFlagged_kept h

theorem bodyCvtf_kept {a} (h : Kept w s t) : (bodyCvtf a t).Kept w s := bodyFlagged_kept h

theorem bodyCvtfi_kept {a} (h : Kept w s t) : (bodyCvtfi a t).Kept w s := bodyFlagged_kept h

theorem bodyCvtif_kept {a} (h : Kept w s t) : (bodyCvtif a t).Kept w s := bodyFlagged_kept h

theorem bodyCvtt_kept {a} (h : Kept w s t) : (bodyCvtt a t).Kept w s := bodyFlagged_kept h

theorem bodyCvttf_kept {a} (h : Kept w s t) : (bodyCvttf a t).Kept w s := bodyFlagged_kept h

theorem bodyFredadd_kept {e} (h : Kept w s t) : (bodyFredadd e t).Kept w s := h.fixedLanes

theorem bodyFred_kept {big e} (h : Kept w s t) : (bodyFred big e t).Kept w s := h.fixedLanes

theorem bodyFredIdx_kept {big e} (h : Kept w s t) : (bodyFredIdx big e t).Kept w s := h.fixed

/-! ### Memory instructions -/

theorem Kept.roClear {core} (h : Kept w s t) : Kept w s (t.roClear core) := h.same

theorem Kept.roDrop {core lines} (h : Kept w s t) : Kept w s (t.roDrop core lines) := h.same

theorem Kept.roFill {core line bytes} (h : Kept w s t) : Kept w s (t.roFill core line bytes) := .ite h h.same

theorem translateAll_kept {q l} (h : Kept w s t) : Kept w s (translateAll t q l).2 := by
  induction l generalizing t with
  | nil => exact h
  | cons a r ih => exact ih h.translate

theorem Kept.inject {r ps} (h : Kept w s t) : Kept w s (t.inject r ps) := h.same.modBeam

theorem Kept.send {r pc inst gs first} (h : Kept w s t) : Kept w s (t.send r pc inst gs first) :=
  .ite h.same.inject h.same.modBeam

theorem Kept.logAdd {g} (h : Kept w s t) : Kept w s (t.logAdd g) := .ite h.same h.same.record

theorem Kept.faultWait {r T va write fetch upg} (h : Kept w s t) : Kept w s (t.faultWait r T va write fetch upg) :=
  (Kept.ite h.same h.same.record).modBeam

theorem Kept.logOne {r T c inst write long upg va elems kv} (h : Kept w s t) :
    Kept w s (t.logOne r T c inst write long upg va elems kv) :=
  h.logAdd

theorem Kept.logPage {r T c inst k long upg l page} (h : Kept w s t) : Kept w s (t.logPage r T c inst k long upg l page) :=
  h.logOne

theorem Kept.logLanes {r T c inst k long upg l} (h : Kept w s t) : Kept w s (t.logLanes r T c inst k long upg l) :=
  .foldl (fun _ _ k => k.logPage) h

theorem Kept.dropLog {p} (h : Kept w s t) : Kept w s (t.dropLog p) := h.same

theorem Kept.unstall {r} (h : Kept w s t) : Kept w s (t.unstall r) := .ite h h.modBeam

theorem Kept.logSentAt {r inst at_} (h : Kept w s t) : Kept w s (t.logSentAt r inst at_) := h.same

theorem Kept.stopAccess {r inst long pc at_ pend cause peer info} (h : Kept w s t) :
    Kept w s (t.stopAccess r inst long pc at_ pend cause peer info) := by
  unfold State.stopAccess
  dsimp only
  split
  · exact h
  · exact h.dropLog.setBeam.lateTrap

theorem Kept.memChecks {r T b k atom l} (h : Kept w s t) : (t.memChecks r T b k atom l).Kept w s :=
  .ite trivial (.ite trivial (.ite trivial (.ite trivial (.ite trivial (.ite trivial (translateAll_kept h))))))

theorem Kept.poisonAt {e inst g first gs cached rest} (h : Kept w s t) :
    (Env.poisonAt e t inst g first gs cached rest).Kept w s :=
  h.pending.same.inject.modBeam

theorem Kept.access {e k op atom rel acq scope ro sx ret l} (h : Kept w s t) :
    (Env.access e t k op atom rel acq scope ro sx ret l).Kept w s := by
  unfold Env.access
  split
  · exact trivial
  · exact trivial
  · extract_lets _ _ _ _ _ _ _ _ _ _ _ s2 s3 s4 _ s5
    have k1 := h.memChecks.of_go ‹_›
    have k2 : Kept w s s2 := .ite k1.pending k1.same
    have k5 : Kept w s s5 := (Kept.ite k2.roDrop k2).send.logLanes
    refine .ite trivial (.ite trivial ?_)
    split
    · exact k1.poisonAt
    · exact .ite k5 k5.logLanes.wait

theorem Kept.global {e f} (h : Kept w s t) (hf : ∀ x0, (f x0).Kept w s) : (Env.global e t f).Kept w s :=
  .ite h (.ite trivial (hf _))

theorem Kept.setScap {e c} (h : Kept w s t) : Kept w s (Env.setScap e t c) := .ite h.modBeam h

theorem Kept.capped {e f} (h : Kept w s t) (hf : ∀ x0 u, Kept w s u → (f x0 u).Kept w s) : (Env.capped e t f).Kept w s := by
  unfold Env.capped
  split
  · exact trivial
  · exact hf _ _ h.setScap

theorem bodyLd_kept {e} (h : Kept w s t) : (bodyLd e t).Kept w s := h.global (fun _ => h.access)

theorem bodySt_kept {e} (h : Kept w s t) : (bodySt e t).Kept w s := h.global (fun _ => h.access)

theorem bodyLda_kept {e} (h : Kept w s t) : (bodyLda e t).Kept w s :=
  .ite h (h.capped (fun _ _ k => k.global (fun _ => k.access)))

theorem bodyStl_kept {e} (h : Kept w s t) : (bodyStl e t).Kept w s :=
  .ite h (h.capped (fun _ _ k => k.global (fun _ => k.access)))

theorem bodyAtom_kept {e} (h : Kept w s t) : (bodyAtom e t).Kept w s := h.global (fun _ => h.access)

theorem bodyRed_kept {e} (h : Kept w s t) : (bodyRed e t).Kept w s := h.global (fun _ => h.access)

theorem bodyFence_kept {e} (h : Kept w s t) : (bodyFence e t).Kept w s :=
  h.capped (fun _ _ k => .ite trivial (Kept.ite k.roClear k))

theorem bodyCinv_kept {e} (h : Kept w s t) : (bodyCinv e t).Kept w s := .ite trivial h.setCore.roClear

theorem bodyPrf_kept {e} (h : Kept w s t) : (bodyPrf e t).Kept w s := .ite h (.ite trivial (translateAll_kept h).send)

theorem bodyMcst_kept {e} (h : Kept w s t) : (bodyMcst e t).Kept w s := by
  unfold bodyMcst
  dsimp only
  refine h.global (fun _ => ?_)
  split
  · exact trivial
  · exact trivial
  · exact .ite trivial (.ite trivial h.access)

theorem bodyWaitm_kept {e} (h : Kept w s t) : (bodyWaitm e t).Kept w s := by
  unfold bodyWaitm
  dsimp only
  refine .ite trivial ?_
  split
  · exact trivial
  · exact trivial
  · exact .ite trivial (h.memChecks.of_go ‹_›).pending.send.logLanes.wait

theorem Kept.portTake {r core cycles} (h : Kept w s t) : Kept w s (t.portTake r core cycles).2 := by
  unfold State.portTake
  dsimp only
  split
  · exact h.setCore.modBeam
  · exact h.same.setCore.modBeam

theorem Kept.scratch {e reads l f} (h : Kept w s t) (hf : ∀ x0 u, Kept w s u → (f x0 u).Kept w s) :
    (Env.scratch e t reads l f).Kept w s := by
  unfold Env.scratch
  dsimp only
  refine .ite h (.ite trivial ?_)
  split
  · exact trivial
  · exact .ite trivial (hf _ _ h.portTake)

theorem Kept.scrLoadRes {e l at_} (h : Kept w s t) : (Env.scrLoadRes e l at_ t).Kept w s := h.pending

theorem Kept.scrStoreRes {e l x} (h : Kept w s t) : (Env.scrStoreRes e l x t).Kept w s := h.modTeam

theorem Kept.scrForm {e reads f} (h : Kept w s t) (hf : ∀ x0 x1 u, Kept w s u → (f x0 x1 u).Kept w s) :
    (Env.scrForm e t reads f).Kept w s := by
  unfold Env.scrForm
  refine .ite (.ite h ?_) (h.scratch (fun _ _ k1 => hf _ _ _ k1))
  split
  · exact trivial
  · exact h.scratch (fun _ _ k => hf _ _ _ k)

theorem bodyLds_kept {e} (h : Kept w s t) : (bodyLds e t).Kept w s := h.scrForm (fun _ _ _ k => k.scrLoadRes)

theorem bodySts_kept {e} (h : Kept w s t) : (bodySts e t).Kept w s := h.scrForm (fun _ _ _ k => k.scrStoreRes)

theorem bodyLdsw_kept {e} (h : Kept w s t) : (bodyLdsw e t).Kept w s := h.scratch (fun _ _ k => k.scrLoadRes)

theorem bodyStsw_kept {e} (h : Kept w s t) : (bodyStsw e t).Kept w s := h.scratch (fun _ _ k => k.scrStoreRes)

theorem bodyAtoms_kept {e} (h : Kept w s t) : (bodyAtoms e t).Kept w s := h.scratch (fun _ _ k => k.modTeam.pending)

theorem bodyTile_kept {e} (h : Kept w s t) : (bodyTile e t).Kept w s :=
  .ite trivial (.ite trivial (.ite trivial h.modTeam))

/-! ### Queues and job instructions -/

theorem bodyQset_kept {e} (h : Kept w s t) : (bodyQset e t).Kept w s := .ite trivial h.modTeam

theorem Kept.qTake {e take vals w'} (h : Kept w s t) : (Env.qTake e t take vals w').Kept w s := by
  unfold Env.qTake
  dsimp only
  refine .ite trivial ?_
  split
  · exact h.setTeam.pending
  · exact h.pending.wait

theorem bodyQacq_kept {e} (h : Kept w s t) : (bodyQacq e t).Kept w s := h.qTake

theorem bodyQwait_kept {e} (h : Kept w s t) : (bodyQwait e t).Kept w s := h.qTake

theorem bodyQcommit_kept {e} (h : Kept w s t) : (bodyQcommit e t).Kept w s := by
  unfold bodyQcommit
  dsimp only
  refine .ite trivial ?_
  split
  · exact trivial
  · exact .ite trivial h.modTeam

theorem bodyQfree_kept {e} (h : Kept w s t) : (bodyQfree e t).Kept w s := by
  unfold bodyQfree
  dsimp only
  refine .ite trivial ?_
  split
  · exact trivial
  · exact .ite trivial (.ite trivial h.modTeam)

theorem Kept.observe {r core w'} (h : Kept w s t) : Kept w s (t.observe r core w') :=
  .ite h.modTeam.modBeam.roClear h.modTeam.modBeam

theorem Kept.addJob {t' j} (h : Kept w s t) : Kept w s (t.addJob t' j) := h.same.modTeam

theorem Kept.issueJob {e j} (h : Kept w s t) : Kept w s (Env.issueJob e t j) := h.addJob.pending

theorem Kept.cardRead {e} (h : Kept w s t) : Kept w s (Env.cardRead e t) := h.portTake

theorem Kept.jobIssue {e kind ok reach f} (h : Kept w s t) (hf : ∀ u x1, Kept w s u → (f u x1).Kept w s) :
    (Env.jobIssue e t kind ok reach f).Kept w s :=
  .ite trivial (.ite trivial (.ite trivial (.ite trivial (.ite trivial (.ite trivial (.ite trivial (.ite trivial
    (hf _ _ h.cardRead))))))))

theorem bodyCpyj_kept {e} (h : Kept w s t) : (bodyCpyj e t).Kept w s := h.jobIssue (fun _ _ k => k.issueJob)

theorem bodyGatj_kept {e} (h : Kept w s t) : (bodyGatj e t).Kept w s := h.jobIssue (fun _ _ k => k.pending.modBeam)

theorem Kept.gatherStep {r T l j idx rowb entries d pend n} (h : Kept w s t) :
    Kept w s (t.gatherStep r T l j idx rowb entries d pend n) :=
  .ite h.lateTrap (.ite h.portTake.modBeam (.ite h h.portTake.addJob.modBeam))

theorem bodyColj_kept {e} (h : Kept w s t) : (bodyColj e t).Kept w s :=
  h.jobIssue (fun _ _ k => .ite trivial k.issueJob)

theorem bodyJwait_kept {e} (h : Kept w s t) : (bodyJwait e t).Kept w s := by
  unfold bodyJwait
  dsimp only
  refine .ite h.wait ?_
  split
  · exact h.wait
  · exact h.observe

theorem bodyJtest_kept {e} (h : Kept w s t) : (bodyJtest e t).Kept w s := .ite h.pending h.observe.pending

theorem bodyYieldj_kept {e} (h : Kept w s t) : (bodyYieldj e t).Kept w s := by
  unfold bodyYieldj
  dsimp only
  refine .ite h.wait ?_
  split
  · exact h.wait
  · exact h.observe

theorem Kept.wakeJob {r core h' epc} (h : Kept w s t) : Kept w s (t.wakeJob r core h' epc) := by
  unfold State.wakeJob
  dsimp only
  split
  · exact h
  · refine .ite h ?_
    split
    · exact h.observe.modBeam
    · exact h.observe.modBeam.takeTrap

/-! ### Matrix instructions and the engine -/

theorem Kept.accept {e n} (h : Kept w s t) : Kept w s (Env.accept e t n) := h.same.setCore

theorem Kept.matrix {e always f} (h : Kept w s t) (hf : ∀ x0, (f x0).Kept w s) : (Env.matrix e t always f).Kept w s :=
  .ite h (.ite trivial (hf _))

theorem Kept.releaseLatch {core q keep} (h : Kept w s t) : Kept w s (t.releaseLatch core q keep) := h.same

theorem Kept.latch {e g} (h : Kept w s t) : Kept w s (Env.latch e t g) := .ite h.releaseLatch.modBeam h.releaseLatch

theorem Kept.multiply {e sparse} (h : Kept w s t) : (Env.multiply e t sparse).Kept w s :=
  h.matrix (fun _ => .ite trivial (.ite trivial (.ite trivial h.latch.accept)))

theorem bodyMma_kept {e} (h : Kept w s t) : (bodyMma e t).Kept w s := h.multiply

theorem bodyMmasp_kept {e} (h : Kept w s t) : (bodyMmasp e t).Kept w s := h.multiply

theorem bodyAccz_kept {e} (h : Kept w s t) : (bodyAccz e t).Kept w s := h.matrix (fun _ => .ite h.accept trivial)

theorem bodyAccld_kept {e} (h : Kept w s t) : (bodyAccld e t).Kept w s := h.matrix (fun _ => .ite h.accept trivial)

theorem Kept.acceptOut {e n} (h : Kept w s t) : Kept w s (Env.acceptOut e t n) := h.pendingAt.accept

theorem bodyAccst_kept {e} (h : Kept w s t) : (bodyAccst e t).Kept w s := h.matrix (fun _ => .ite h.acceptOut trivial)

theorem bodyAcccvt_kept {e} (h : Kept w s t) : (bodyAcccvt e t).Kept w s := h.matrix (fun _ => .ite h.acceptOut trivial)

theorem bodyLdmeta_kept {e} (h : Kept w s t) : (bodyLdmeta e t).Kept w s :=
  h.matrix (fun _ => .ite trivial (.ite trivial h.accept))

theorem bodyMwait_kept {e} (h : Kept w s t) : (bodyMwait e t).Kept w s := Kept.ite h h.wait

theorem execEngineEntryStart_kept {core} (h : Kept w s t) : KeptNext w s (execEngineEntryStart core t) := by
  unfold execEngineEntryStart
  dsimp only
  split
  · exact h
  · exact .ite h h.setCore

theorem execEngineSubstep_kept {core} (h : Kept w s t) : KeptNext w s (execEngineSubstep core t) := by
  unfold execEngineSubstep
  dsimp only
  split
  · exact h
  · refine .ite h (.ite h.setCore ?_)
    split
    · exact h.setCore
    · exact .ite h.lateTrap h.setTeam.setCore

theorem execEngineEntryComplete_kept {core} (h : Kept w s t) : KeptNext w s (execEngineEntryComplete core t) := by
  unfold execEngineEntryComplete
  dsimp only
  split
  · exact h
  · refine .ite h ?_
    split
    · exact h.setCore
    · split
      · exact h.setCore.same
      · exact h.setCore.same.modBeam

/-! ### The Prism array -/

theorem Env.prism_kept {e ok f} (hf : ∀ x, (f x).Kept w s) : (Env.prism e t ok f).Kept w s :=
  .ite trivial (.ite trivial (.ite trivial (hf _)))

theorem Kept.setPrism {e f} (h : Kept w s t) : Kept w s (Env.setPrism e t f) := h.modTeam

theorem bodyPawin_kept {e} (h : Kept w s t) : (bodyPawin e t).Kept w s := Env.prism_kept (fun _ => h.setPrism)

theorem Kept.paldBegin {t'} (h : Kept w s t) : Kept w s (t.paldBegin t') := by
  unfold State.paldBegin
  dsimp only
  split
  · exact h
  · split
    · exact .ite h h.portTake.modBeam
    · exact h

theorem bodyPald_kept {e} (h : Kept w s t) : (bodyPald e t).Kept w s :=
  Env.prism_kept (fun _ => .ite trivial (.ite trivial (.ite trivial h.modBeam.paldBegin)))

theorem bodyPain_kept {e} (h : Kept w s t) : (bodyPain e t).Kept w s := Env.prism_kept (fun _ => h.setPrism)

theorem bodyPago_kept {e} (h : Kept w s t) : (bodyPago e t).Kept w s := Env.prism_kept (fun _ => h.setPrism)

theorem bodyPacap_kept {e} (h : Kept w s t) : (bodyPacap e t).Kept w s :=
  Env.prism_kept (fun _ => .ite h.setPrism.pendingAt h.pendingAt.wait)

theorem bodyPaclr_kept {e} (h : Kept w s t) : (bodyPaclr e t).Kept w s := Env.prism_kept (fun _ => h.setPrism)

theorem execPaldSubstep_kept {t'} (h : Kept w s t) : KeptNext w s (execPaldSubstep t' t) := by
  unfold execPaldSubstep
  dsimp only
  split
  · exact h
  · split
    · exact h
    · exact .ite h (.ite h.lateTrap h.setTeam.modBeam.paldBegin)
    · exact .ite h.paldBegin (.ite h h.modBeam)

theorem execPrismWindowEnd_kept {t'} (h : Kept w s t) : KeptNext w s (execPrismWindowEnd t' t) := h.modTeam

/-! ### The Halo ring -/

theorem Kept.setStop {c k p} (h : Kept w s t) : Kept w s (t.setStop c k p) := h.same

theorem Kept.modBoard {t' id f} (h : Kept w s t) : Kept w s (t.modBoard t' id f) := h.modTeam

theorem Kept.capture {tile l} (h : Kept w s t) : Kept w s (t.capture tile l) := .foldl (fun _ _ k => k.modBoard) h

theorem Kept.uncapture {t' id tile f} (h : Kept w s t) : Kept w s (t.uncapture t' id tile f) := h.modTeam


theorem Kept.haloAt {r} (h : Kept w s t) : Kept w s (t.haloAt r) := h.same

theorem execTilePassing_kept {c k poison} (h : Kept w s t) : KeptNext w s (execTilePassing c k poison t) := by
  unfold execTilePassing
  dsimp only
  split
  · exact h
  · split
    · exact h
    · exact .ite h (Kept.ite h.setStop.capture h.setStop).setChan.same.haloAt

theorem Kept.endBoards {c} (h : Kept w s t) : Kept w s (t.endBoards c) := h.same

theorem Kept.lapStops {c first} (h : Kept w s t) : Kept w s (t.lapStops c first) := .foldl (fun _ _ k => k.setStop) h

theorem Kept.haloStart {c} (h : Kept w s t) : Kept w s (t.haloStart c) := by
  unfold State.haloStart
  dsimp only
  split
  · exact h
  · exact h.same.setChan.lapStops

theorem execLapBoundary_kept {c} (h : Kept w s t) : KeptNext w s (execLapBoundary c t) := by
  unfold execLapBoundary
  dsimp only
  split
  · exact h
  · exact .ite h (.ite (Kept.ite h.haloAt h.haloAt.endBoards).lapStops.setChan
      (Kept.ite h.haloAt h.haloAt.endBoards).lapStops.setChan)

theorem Kept.haloRun {c} (h : Kept w s t) : Kept w s (t.haloRun c) := .ite h.setChan h.setChan.haloStart

theorem execHaloRunStart_kept {c} (h : Kept w s t) : KeptNext w s (execHaloRunStart c t) := h.haloRun

theorem Kept.haloHalt {c} (h : Kept w s t) : Kept w s (t.haloHalt c) := h.setChan

theorem execHaloRunStop_kept {c} (h : Kept w s t) : KeptNext w s (execHaloRunStop c t) := h.haloHalt

theorem Kept.haloThr {c v} (h : Kept w s t) : Kept w s (t.haloThr c v) := .ite h.setChan h

theorem execHaloThrSet_kept {c thr} (h : Kept w s t) : KeptNext w s (execHaloThrSet c thr t) := h.haloThr

theorem Kept.haloValidate {c} (h : Kept w s t) : Kept w s (t.haloValidate c) := by
  unfold State.haloValidate
  dsimp only
  split
  · exact h.setChan
  · exact .ite h.setChan.haloStart h.setChan

theorem Kept.hnextWrite {c part v} (h : Kept w s t) : Kept w s (t.hnextWrite c part v) :=
  .ite h.setChan h.setChan.haloValidate

theorem execHnextWrite_kept {c part v} (h : Kept w s t) : KeptNext w s (execHnextWrite c part v t) := h.hnextWrite

theorem tryTodo_kept {k se p} (h : Kept w s se.1) : Kept w s (tryTodo k se p).1 := by
  unfold tryTodo
  dsimp only
  split
  · exact h
  · split
    · exact h
    · refine .ite_fst h ?_
      split
      · exact h
      · exact h.setTeam

theorem Kept.acquireFor {k n} (h : Kept w s t) : Kept w s (t.acquireFor k n).1 := .foldl_fst (fun _ _ => tryTodo_kept) h

theorem Kept.giveBack {n} (h : Kept w s t) : Kept w s (t.giveBack n) := .foldl (fun _ _ k => k.uncapture) h

theorem crcOne_kept {c n crcOk se p} (h : Kept w s se.1) : Kept w s (crcOne c n crcOk se p).1 := by
  unfold crcOne
  dsimp only
  split
  · exact h
  · exact .ite_fst h (.ite_fst h.modBoard (.ite_fst h.setChan h.uncapture.setChan))

theorem Kept.putEntry {c k old n} (h : Kept w s t) : Kept w s (t.putEntry c k old n) := h.setStop

theorem Kept.retryHeld {c k} (h : Kept w s t) : Kept w s (t.retryHeld c k) :=
  .foldl (fun _ _ k => .ite k k.acquireFor.putEntry) h

theorem execTileChecked_kept {c k crcOk} (h : Kept w s t) : KeptNext w s (execTileChecked c k crcOk t) := by
  unfold execTileChecked
  dsimp only
  split
  · exact .ite (Kept.foldl_fst (fun _ _ => crcOne_kept) h).acquireFor.giveBack.putEntry.haloAt
      (Kept.foldl_fst (fun _ _ => crcOne_kept) h).acquireFor.putEntry.haloAt
  · exact .ite h h.retryHeld.haloAt

theorem deliverSlot_kept {n bytes x} (h : Kept w s t) : Kept w s (deliverSlot n bytes t x) := by
  unfold deliverSlot
  dsimp only
  split
  · exact h
  · split
    · exact h
    · exact h.setTeam

theorem Kept.haloRecord {c k n cause} (h : Kept w s t) : Kept w s (t.haloRecord c k n cause) := h.setChan.record

theorem execTileCommit_kept {c k} (h : Kept w s t) : KeptNext w s (execTileCommit c k t) := by
  unfold execTileCommit
  extract_lets _ s0
  have k0 : Kept w s s0 := h.same
  split
  · exact k0
  · refine .ite k0 ?_
    split
    · exact .ite k0 k0.putEntry.haloAt.same
    · refine .ite k0 ?_
      split
      · exact k0.putEntry.same
      · extract_lets s1 s2 s3
        have k1 : Kept w s s1 := .foldl (fun _ _ => deliverSlot_kept) k0
        have k3 : Kept w s s3 := (Kept.ite k1.same k1).putEntry.haloAt
        exact Kept.ite k3.haloRecord k3

theorem Kept.boardAdd {t' c q layer tile count id tenant} (h : Kept w s t) :
    Kept w s (t.boardAdd t' c q layer tile count id tenant) :=
  h.modTeam

theorem bodyHboard_kept {e} (h : Kept w s t) : (bodyHboard e t).Kept w s := by
  unfold bodyHboard
  dsimp only
  refine .ite trivial (.ite trivial (.ite trivial ?_))
  split
  · exact h.boardAdd.pendingAt
  · exact h.pendingAt.wait

theorem Kept.wakeBoard {r c q layer tile count d pend} (h : Kept w s t) :
    Kept w s (t.wakeBoard r c q layer tile count d pend) := by
  unfold State.wakeBoard
  dsimp only
  split
  · exact h
  · exact h.boardAdd.modBeam

theorem bodyHcancel_kept {e} (h : Kept w s t) : (bodyHcancel e t).Kept w s := by
  unfold bodyHcancel
  dsimp only
  split
  · exact h.pendingAt
  · exact h.pendingAt.modTeam

theorem bodyHlap_kept {e} (h : Kept w s t) : (bodyHlap e t).Kept w s := h.pendingAt

theorem cancelOne_kept {t' x} (h : Kept w s t) : Kept w s (cancelOne t' t x) :=
  (Kept.ite h.modBeam.modBoard h.modBeam).modTeam

theorem execBoardRegister_kept {t' id} (h : Kept w s t) : KeptNext w s (execBoardRegister t' id t) := by
  unfold execBoardRegister
  split
  · exact h
  · extract_lets _ _ s1 s2
    have k2 : Kept w s s2 := .foldl (fun _ _ => cancelOne_kept) (.ite h.modBoard h)
    exact Kept.ite k2.haloAt k2

/-! ### Home slices -/

theorem Kept.homeWrite {k pa bytes} (h : Kept True s t) : Kept True s (t.homeWrite k pa bytes) :=
  h.form (State.homeWrite_form ..)

theorem Kept.wakeWith {r pend vals} (h : Kept w s t) : Kept w s (t.wakeWith r pend vals) := h.modBeam

theorem Kept.watchReply {r pend v} (h : Kept w s t) : Kept w s (t.watchReply r pend v) := by
  unfold State.watchReply
  split
  · exact h
  · split
    · exact .ite h.wakeWith h
    · exact h

/-! ### Shared contexts -/

theorem Kept.touch {q vas} (h : Kept w s t) : Kept w s (t.touch q vas) := .foldl (fun _ _ k => .ite k.translate k) h

theorem Kept.kvErr {e k} (h : Kept w s t) : (Env.kvErr e t k).Kept w s := by
  unfold Env.kvErr
  split
  · exact trivial
  · exact h.faultWait
  · exact h.faultWait

theorem Kept.ctxOp {e write f} (h : Kept w s t) (hf : ∀ u x1 x2 x3, Kept w s u → (f u x1 x2 x3).Kept w s) :
    (Env.ctxOp e t write f).Kept w s := by
  unfold Env.ctxOp
  dsimp only
  refine .ite trivial (.ite trivial (.ite trivial (.ite trivial ?_)))
  split
  · exact h.kvErr
  · exact hf _ _ _ _ h.touch

theorem Kept.kvOut {e vals} (h : Kept w s t) : (Env.kvOut e t vals).Kept w s := h.pending

theorem Kept.put32 {a v} (h : Kept True s t) : Kept True s (t.put32 a v) := h.homeWrite

theorem bodyKvrsv_kept {e} (h : Kept True s t) : (bodyKvrsv e t).Kept True s :=
  .ite trivial (h.ctxOp (fun _ _ _ _ k => .ite k.put32.put32.kvOut k.kvOut))

theorem bodyKvcmt_kept {e} (h : Kept True s t) : (bodyKvcmt e t).Kept True s := by
  unfold bodyKvcmt
  dsimp only
  refine h.ctxOp (fun _ _ _ _ k => .ite k (.ite trivial (.ite trivial ?_)))
  split
  · exact k.kvErr
  · exact .ite k.touch.put32 trivial

theorem bodyKvroll_kept {e} (h : Kept True s t) : (bodyKvroll e t).Kept True s := by
  unfold bodyKvroll
  dsimp only
  refine h.ctxOp (fun _ _ _ _ k => .ite (.ite trivial (.ite trivial ?_)) k.homeWrite.put32.kvOut)
  split
  · exact k.kvErr
  · exact (Kept.foldl (fun _ _ k1 => k1.put32) k.touch).put32.homeWrite.put32.kvOut

theorem bodyKvgen_kept {e} (h : Kept True s t) : (bodyKvgen e t).Kept True s :=
  h.ctxOp (fun _ _ _ _ k => (Kept.ite k.homeWrite k).kvOut)

theorem Kept.publish {fra p0 n} (h : Kept True s t) : Kept True s (t.publish fra p0 n) := h.put32.homeWrite

theorem Kept.wakeKv {r T b ctx layer t' write go} (h : Kept w s t) (hgo : ∀ x0, Kept w s (go x0)) :
    Kept w s (t.wakeKv r T b ctx layer t' write go) := by
  unfold State.wakeKv
  dsimp only
  split
  · split
    · exact h.modBeam.takeTrap
    · exact h.modBeam
  · split
    · split
      · exact h.modBeam.takeTrap
      · exact h.modBeam
    · exact hgo _

theorem Kept.wakeKvpub {r T b ctx layer p0 n t'} (h : Kept True s t) : Kept True s (t.wakeKvpub r T b ctx layer p0 n t') :=
  h.wakeKv (fun _ => .ite h h.publish.modBeam)

theorem Kept.wakeKvwait {r T b ctx layer target d pend t'} (h : Kept w s t) :
    Kept w s (t.wakeKvwait r T b ctx layer target d pend t') :=
  h.wakeKv (fun _ => .ite h h.roClear.modBeam)

theorem Kept.kvTry {r} (h : Kept True s t) : Kept True s (t.kvTry r) := by
  unfold State.kvTry
  split
  · refine .ite h ?_
    split
    · exact h.wakeKvpub
    · exact h.wakeKvwait
    · exact h
  · exact h

theorem Kept.kvSettle {fuel} (h : Kept True s t) : Kept True s (t.kvSettle fuel) := by
  induction fuel generalizing t with
  | zero => exact .foldl (fun _ _ k => k.kvTry) h
  | succ n ih =>
    have k : Kept True s ((t.kvHeld false).foldl State.kvTry t) := .foldl (fun _ _ k => k.kvTry) h
    unfold State.kvSettle
    dsimp only
    split
    · exact k
    · exact ih k.kvTry

theorem Kept.kvRetry (h : Kept True s t) : Kept True s t.kvRetry := h.kvSettle

theorem bodyKvpub_kept {e} (h : Kept True s t) : (bodyKvpub e t).Kept True s := by
  unfold bodyKvpub
  dsimp only
  refine h.ctxOp (fun _ _ _ _ k => .ite trivial (.ite trivial (.ite trivial ?_)))
  split
  · exact k.kvErr
  · exact .ite k.touch.same.modBeam.wait k.touch.publish.kvRetry

theorem Kept.kvAcq {e target} (h : Kept w s t) : (Env.kvAcq e t target).Kept w s := by
  unfold Env.kvAcq
  dsimp only
  refine h.ctxOp (fun _ _ _ _ k => .ite trivial ?_)
  split
  · exact k.kvErr
  · exact .ite trivial (.ite k.touch.roClear.kvOut k.touch.pending.wait)

theorem bodyKvacq_kept {e} (h : Kept w s t) : (bodyKvacq e t).Kept w s := h.kvAcq

theorem bodyKvwait_kept {e} (h : Kept w s t) : (bodyKvwait e t).Kept w s := h.kvAcq

theorem Kept.kvTouch {r T ls} (h : Kept w s t) : Kept w s (t.kvTouch r T ls) := .foldl (fun _ _ k => k.touch) h

theorem Kept.logKv {r T c inst kind d named long l} (h : Kept w s t) : Kept w s (t.logKv r T c inst kind d named long l) := by
  unfold State.logKv
  dsimp only
  refine .foldl (fun _ _ k => ?_) h
  split
  · exact k
  · exact k.logOne

theorem Kept.kvPer {e k f} (h : Kept w s t) (hf : ∀ u x1 x2, Kept w s u → (f u x1 x2).Kept w s) :
    (Env.kvPer e t k f).Kept w s := by
  unfold Env.kvPer
  refine .ite h (.ite trivial ?_)
  split
  · exact trivial
  · exact .ite trivial (hf _ _ _ h.kvTouch)

theorem Kept.kvAside {e inst k long l} (h : Kept w s t) : (Env.kvAside e t inst k long l).Kept w s :=
  .ite h.logKv.wait h.logKv

theorem Kept.kvBegin {e op} (h : Kept w s t) : Kept w s (Env.kvBegin e t op) := h.modBeam

theorem bodyKvw_kept {e} (h : Kept w s t) : (bodyKvw e t).Kept w s :=
  h.kvPer (fun _ _ _ k => .ite trivial k.same.roDrop.kvBegin.kvAside)

theorem Kept.kvpois {func k} (h : Kept w s t) : Kept w s (t.kvpois func k) := h.record

theorem Kept.specPoison {func k} (h : Kept True s t) : Kept True s (t.specPoison func k) :=
  (Kept.ite h.homeWrite h.homeWrite.put32).kvpois

theorem Kept.kvSlot {func k} (h : Kept True s t) : Kept True s (t.kvSlot func k).2.2 := by
  unfold State.kvSlot
  dsimp only
  split_ifs
  · exact h
  · exact h
  · exact h.specPoison
  · exact h
  · exact h

theorem Kept.kvStale {func k} (h : Kept w s t) (e : t.kvStale func k = some u) : Kept w s u := by
  unfold State.kvStale at e
  dsimp only at e
  split at e
  · cases e
  · cases e
    exact h.setFunc

theorem Kept.kvRead {func d l} (h : Kept True s t) : Kept True s (t.kvRead func d l).2 := by
  induction l generalizing t with
  | nil => exact h
  | cons k r ih =>
    refine ih ?_
    split
    · exact h.kvStale ‹_›
    · exact h.kvSlot

theorem Kept.kvReadTags {func d l} (h : Kept True s t) : Kept True s (t.kvReadTags func d l).2 := by
  induction l generalizing t with
  | nil => exact h
  | cons k r ih => exact ih (.ite h.specPoison h)

theorem Kept.kvValues {kind func d l} (h : Kept True s t) : Kept True s (t.kvValues kind func d l).2 :=
  .ite_snd h.kvReadTags h.kvRead

theorem Kept.kvKill {r T pc k} (h : Kept True s t) : Kept True s (t.kvKill r T pc k) := h.homeWrite.teamReport

theorem Kept.kvKills {r T pc bad named} (h : Kept True s t) : Kept True s (t.kvKills r T pc bad named) :=
  (Kept.foldl (fun _ _ k => k.kvKill) h).clearLanes

theorem Kept.kvPoisoned {e k ls aside rest} (h : Kept True s t) (hrest : ∀ x0 x1 u, Kept True s u → (rest x0 x1 u).Kept True s) :
    (Env.kvPoisoned e t k ls aside rest).Kept True s := by
  unfold Env.kvPoisoned
  dsimp only
  split
  · exact hrest _ _ _ h
  · exact .ite h.kvValues.pending.modBeam (hrest _ _ _ h.kvKills)

theorem bodyKvr_kept {e} (h : Kept True s t) : (bodyKvr e t).Kept True s :=
  h.kvPer (fun _ _ _ k => .ite trivial (k.kvPoisoned (fun _ _ _ k1 => k1.pending.kvBegin.kvAside)))

theorem bodyKvrt_kept {e} (h : Kept True s t) : (bodyKvrt e t).Kept True s :=
  h.kvPer (fun _ _ _ k => .ite trivial (k.kvPoisoned (fun _ _ _ k1 => k1.kvReadTags.pending.kvAside)))

theorem bodyKvstage_kept {e} (h : Kept w s t) : (bodyKvstage e t).Kept w s :=
  .ite trivial (.ite trivial (.ite trivial (.ite trivial (.ite trivial (.ite trivial (.ite trivial h.cardRead.issueJob))))))

theorem Kept.kvReadStep {r T l own rest m d pend g} (h : Kept True s t) :
    Kept True s (t.kvReadStep r T l own rest m d pend g) :=
  h.kvRead.modBeam

theorem execKvSubstep_kept {t' b} (h : Kept True s t) : KeptNext True s (execKvSubstep t' b t) := by
  unfold execKvSubstep
  dsimp only
  split
  · split
    · exact h
    · refine .ite h ?_
      split
      · exact .ite h h.same.inject.modBeam
      · refine .ite h ?_
        split
        · exact h.kvReadStep
        · exact .ite h.stopAccess h.kvKills.kvReadStep
      · exact h.gatherStep
      · exact h
  · exact h

theorem Kept.kvPerform {g f T ok new} (h : Kept True s t) : Kept True s (t.kvPerform g f T ok new) :=
  (Kept.ite_snd h.kvTouch.same.inject.roDrop h.kvTouch.same.inject.kvValues).modBeam.logKv.logSentAt.modBeam.unstall

theorem Kept.kvReplay {g f T b fail} (h : Kept True s t) (hfail : ∀ x0, Kept True s (fail x0)) :
    Kept True s (t.kvReplay g f T b fail) := by
  unfold State.kvReplay
  dsimp only
  refine .ite h ?_
  split
  · exact hfail _
  · refine .ite (hfail _) (.ite h ?_)
    split
    · exact h.dropLog.kvPerform
    · exact .ite h.stopAccess h.dropLog.kvKills.kvPerform

/-! ### Functions and partitions -/

theorem Kept.setPart {p P} (h : Kept w s t) : Kept w s (t.setPart p P) := h.same

theorem Kept.writePblk {p v} (h : Kept w s t) : Kept w s (t.writePblk p v) := .ite h h.setPart

theorem Kept.writePway {p v} (h : Kept w s t) : Kept w s (t.writePway p v) := .ite h h.setPart

theorem Kept.writePrbase {p r v} (h : Kept w s t) : Kept w s (t.writePrbase p r v) := h.setPart

theorem Kept.writePrlim {p r v} (h : Kept w s t) : Kept w s (t.writePrlim p r v) := h.setPart

theorem Kept.tlbDrop {p} (h : Kept w s t) : Kept w s (t.tlbDrop p) := h.same

theorem Kept.dropRange {f va len} (h : Kept w s t) : Kept w s (t.dropRange f va len) := h.tlbDrop

theorem Kept.dropTenant {t'} (h : Kept w s t) : Kept w s (t.dropTenant t') := h.tlbDrop

theorem Kept.shoot {mode f p inside} (h : Kept w s t) : Kept w s (t.shoot mode f p inside) := .ite h.same h

theorem execShootdownRange_kept {f} (h : Kept w s t) : KeptNext w s (execShootdownRange f t) := h.shoot

theorem execShootdownSpace_kept {f} (h : Kept w s t) : KeptNext w s (execShootdownSpace f t) := h.shoot

theorem execShootdownTenant_kept {f} (h : Kept w s t) : KeptNext w s (execShootdownTenant f t) := h.shoot

theorem execShootdownDone_kept (h : Kept w s t) : KeptNext w s (execShootdownDone t) := by
  unfold execShootdownDone
  dsimp only
  split
  · exact h
  · exact .ite h.same h

theorem Kept.writeSdctl {v} (h : Kept w s t) : Kept w s (t.writeSdctl v) := .ite h.same h.same

theorem Kept.forceExit {t'} (h : Kept w s t) : Kept w s (t.forceExit t') := by
  unfold State.forceExit
  dsimp only
  refine .foldl (fun _ _ k => ?_) h
  split
  · exact k
  · exact .ite k k.clearLanes

theorem Kept.emptied {g} (h : Kept w s t) : Kept w s (t.emptied g) := by
  unfold State.emptied
  dsimp only
  split
  · exact h.watchReply
  · exact h.modBeam.unstall
  · exact h.unstall

theorem Kept.trimEntry {t' g} (h : Kept w s t) : Kept w s (t.trimEntry t' g) := by
  unfold State.trimEntry
  dsimp only
  split
  · exact h
  · exact .ite h (.ite (.ite h.same.setBeam h) (.ite h.same.emptied h.same))

theorem Kept.cancelTenant {t'} (h : Kept w s t) : Kept w s (t.cancelTenant t') := h.same

theorem Kept.dropHeld {f t'} (h : Kept w s t) : Kept w s (t.dropHeld f t') := by
  unfold State.dropHeld
  dsimp only
  refine .foldl (fun _ _ k => ?_) h.same.setFunc
  split
  · exact k.watchReply
  · exact k

theorem Kept.fcfgRst {f} (h : Kept w s t) : Kept w s (t.fcfgRst f) :=
  .ite h (Kept.foldl (fun _ _ k1 => k1.trimEntry) (Kept.foldl
    (fun _ _ k => k.failReplay) h.setFunc).forceExit).cancelTenant.dropHeld.dropTenant

theorem execFcfgRst_kept {f} (h : Kept w s t) : KeptNext w s (execFcfgRst f t) := h.fcfgRst

theorem Kept.complete {f tag status value} (h : Kept w s t) : Kept w s (t.complete f tag status value) :=
  .ite h.hostPut.setFunc.sendMsix h.hostPut.setFunc

theorem execResetDrained_kept {f} (h : Kept w s t) : KeptNext w s (execResetDrained f t) :=
  .ite (Kept.foldl (fun _ _ k => k.complete) h.setFunc) h

theorem Kept.fcfgRel {f} (h : Kept w s t) : Kept w s (t.fcfgRel f) := .ite h.setFunc h

theorem execFcfgRel_kept {f} (h : Kept w s t) : KeptNext w s (execFcfgRel f t) := h.fcfgRel

theorem Kept.writeFcfg {f v} (h : Kept w s t) : Kept w s (t.writeFcfg f v) :=
  .ite (Kept.ite h.setFunc.fcfgRst h.setFunc).fcfgRel (.ite h.setFunc.fcfgRst h.setFunc)

theorem Kept.writeFtag {f v} (h : Kept w s t) : Kept w s (t.writeFtag f v) := .ite h h.setFunc

theorem Kept.writeAsroot {f v} (h : Kept w s t) : Kept w s (t.writeAsroot f v) := .ite h h.setFunc

theorem Kept.writePeert {f v} (h : Kept w s t) : Kept w s (t.writePeert f v) := .ite h h.setFunc

theorem Kept.writeFtmo {f v} (h : Kept w s t) : Kept w s (t.writeFtmo f v) := .ite h.setFunc h

theorem Kept.charge {f n} (h : Kept w s t) : Kept w s (t.charge f n) := .ite h.setFunc h

theorem Kept.chargeAll (h : Kept w s t) : Kept w s t.chargeAll := by
  unfold State.chargeAll
  refine .foldl (fun _ _ k => ?_) h
  split
  · exact k.charge
  · exact k

theorem Kept.writeRefill {f v} (h : Kept w s t) : Kept w s (t.writeRefill f v) := h.setFunc

theorem execRefillWrite_kept {f v} (h : Kept w s t) : KeptNext w s (execRefillWrite f v t) := h.writeRefill

theorem Kept.refillOne {f} (h : Kept w s t) : Kept w s (t.refillOne f) := .ite h.same.setFunc h

theorem Kept.loanOne {f} (h : Kept w s t) : Kept w s (t.loanOne f) := .ite h.same.setFunc h

theorem execBudgetPeriod_kept (h : Kept w s t) : KeptNext w s (execBudgetPeriod t) :=
  Kept.foldl (fun _ _ k1 => k1.loanOne) (.foldl (fun _ _ k => k.refillOne) h)

/-! ### Waits and their ends -/

theorem execFixedResultLand_kept {t' b} (h : Kept w s t) : KeptNext w s (execFixedResultLand t' b t) :=
  h.modBeam.dropPages

theorem execVariableResultWrite_kept {t' b k} (h : Kept w s t) : KeptNext w s (execVariableResultWrite t' b k t) :=
  h.modBeam

theorem execRegionComplete_kept {t' b} (h : Kept w s t) : KeptNext w s (execRegionComplete t' b t) := h.modBeam

theorem execCoalescerGroup_kept {t' b} (h : Kept w s t) : KeptNext w s (execCoalescerGroup t' b t) := by
  unfold execCoalescerGroup
  dsimp only
  split
  · exact h
  · split
    · exact h
    · split
      · exact h.modBeam
      · refine .ite h ?_
        split
        · exact h.stopAccess
        · exact h.inject.modBeam

theorem execYieldEnd_kept {t' b} (h : Kept w s t) : KeptNext w s (execYieldEnd t' b t) := by
  unfold execYieldEnd
  dsimp only
  split
  · exact h
  · split
    · exact .ite h.setBeam h
    · exact h

theorem execTeamWordApply_kept {t'} (h : Kept w s t) : KeptNext w s (execTeamWordApply t' t) := h.modTeam

theorem Kept.wakeQueue {r T b take vals q d pend} (h : Kept w s t) : Kept w s (t.wakeQueue r T b take vals q d pend) := by
  unfold State.wakeQueue
  refine .ite h ?_
  split
  · exact h
  · exact h.setTeam.wakeWith

theorem Kept.wake {r T b} (h : Kept True s t) : Kept True s (t.wake r T b) := by
  unfold State.wake
  dsimp only
  split
  · exact .ite h h.modBeam
  · exact .ite h h.modBeam
  · exact .ite h.wakeJob h
  · exact .ite h.wakeJob h
  · exact h.xchgTry
  · exact h.wakeQueue
  · exact h.wakeQueue
  · exact .ite h.kvRetry h
  · exact .ite h.kvRetry h
  · exact .ite h.modTeam.wakeWith h
  · exact h.wakeBoard
  · exact .ite h.modBeam h
  · exact h

theorem Kept.runCommits {r} (h : Kept w s t) : Kept w s (t.runCommits r) := h.modTeam

theorem execBeamWake_kept {t' b} (h : Kept True s t) : KeptNext True s (execBeamWake t' b t) := by
  unfold execBeamWake
  dsimp only
  split
  · exact h.runCommits
  · split
    · exact h.runCommits
    · exact .ite h.runCommits (.ite (.ite h.runCommits.enterPending h.runCommits) h.runCommits.wake)

theorem execSiblingStop_kept {t' b} (h : Kept w s t) : KeptNext w s (execSiblingStop t' b t) := by
  unfold execSiblingStop
  split
  · exact h
  · split
    · exact h
    · split
      · refine .ite h ?_
        split
        · exact h.setBeam
        · exact .ite h h.setBeam
      · exact h

theorem Kept.teleWrite {f bytes} (h : Kept True s t) : Kept True s (t.teleWrite f bytes) := .ite h h.homeWrite.setFunc

theorem execTelemetryRecompute_kept {k} (h : Kept True s t) : KeptNext True s (execTelemetryRecompute k t) := by
  unfold execTelemetryRecompute
  dsimp only
  split
  · exact h
  · exact h.same.teleWrite

/-! ### Pre-emption, gangs and budgets -/

theorem Kept.drainTeam {t'} (h : Kept w s t) : Kept w s (t.drainTeam t') := by
  unfold State.drainTeam
  dsimp only
  split
  · exact h
  · split
    · exact .ite h (.foldl (fun _ _ k => k.dropWatches) h.setTeam)
    · exact h

theorem Kept.preempt {t'} (h : Kept w s t) : Kept w s (t.preempt t') := by
  unfold State.preempt
  split
  · exact h.drainTeam
  · exact h.drainTeam.drainTeam

theorem Kept.preemptWhere {p f} (h : Kept w s t) : Kept w s (t.preemptWhere p f) := .foldl (fun _ _ k => k.preempt) h

theorem Kept.prectlGo {p} (h : Kept w s t) : Kept w s (t.prectlGo p) := .ite h (.ite h h.same.preemptWhere.same)

theorem execPrectlGo_kept {p} (h : Kept w s t) : KeptNext w s (execPrectlGo p t) := h.prectlGo

theorem Kept.gangEnable (h : Kept w s t) : Kept w s t.gangEnable := .ite h.same h.same

theorem execGsctlEnable_kept (h : Kept w s t) : KeptNext w s (execGsctlEnable t) := h.gangEnable

theorem Kept.gangDisable (h : Kept w s t) : Kept w s t.gangDisable := h.same

theorem execGsctlDisable_kept (h : Kept w s t) : KeptNext w s (execGsctlDisable t) := h.gangDisable

theorem execGangSliceStart_kept (h : Kept w s t) : KeptNext w s (execGangSliceStart t) := by
  unfold execGangSliceStart
  dsimp only
  refine .ite h ?_
  split
  · exact h
  · exact Kept.foldl (fun _ _ k => k.preemptWhere) h.same

theorem execGangSliceEnd_kept (h : Kept w s t) : KeptNext w s (execGangSliceEnd t) := by
  unfold execGangSliceEnd
  dsimp only
  split
  · exact .ite h h.same
  · exact h

theorem Kept.gangSend {m} (h : Kept w s t) : Kept w s (t.gangSend m) := h.same

theorem Kept.openGate (h : Kept w s t) : Kept w s t.openGate := by
  unfold State.openGate
  dsimp only
  split
  · exact h
  · exact h.same

theorem Kept.gangRecord {n idx e late} (h : Kept w s t) : Kept w s (t.gangRecord n idx e late) := h.record

theorem Kept.arrivedLate {chip gang n x} (h : Kept w s t) : Kept w s (t.arrivedLate chip gang n x) :=
  .ite h (.ite h.same.gangSend h.same)

theorem Kept.arrivedOf {chip gang n} (h : Kept w s t) : Kept w s (t.arrivedOf chip gang n) := by
  unfold State.arrivedOf
  dsimp only
  split
  · exact .ite (.foldl (fun _ _ k => k.arrivedLate) h) (.ite h (.ite h.same.gangSend h.same))
  · exact .foldl (fun _ _ k1 => k1.arrivedLate) h

theorem execArrived_kept {chip gang n} (h : Kept w s t) : KeptNext w s (execArrived chip gang n t) := h.arrivedOf

theorem Kept.tellMembers {n e late} (h : Kept w s t) : Kept w s (t.tellMembers n e late) :=
  .foldl (fun _ _ k => k.gangSend) h

theorem Kept.endTrial {x late} (h : Kept w s t) : Kept w s (t.endTrial x late) := .ite h.same h.same.gangRecord

theorem execGangDecide_kept (h : Kept w s t) : KeptNext w s (execGangDecide t) := by
  unfold execGangDecide
  dsimp only
  split
  · split
    · split
      · exact h
      · exact h.tellMembers.endTrial
    · exact Kept.ite h.same.tellMembers.openGate h.same.tellMembers.gangRecord
  · split
    · exact h
    · exact h.tellMembers.endTrial

theorem Kept.decided {is late} (h : Kept w s t) : Kept w s (t.decided is late) := by
  unfold State.decided
  dsimp only
  split
  · refine .ite (.ite h.same.openGate h.same.gangRecord) ?_
    split
    · exact h
    · exact h.endTrial
  · split
    · exact h
    · exact h.endTrial

theorem execOpenGate_kept (h : Kept w s t) : KeptNext w s (execOpenGate t) := h.decided

theorem execForfeit_kept {late} (h : Kept w s t) : KeptNext w s (execForfeit late t) := .ite h h.decided

theorem Kept.gangReceive {src b} (h : Kept w s t) : Kept w s (t.gangReceive src b) := by
  unfold State.gangReceive
  dsimp only
  split
  · exact h.arrivedOf
  · exact h.decided
  · exact h.decided
  · exact h

/-! ### Links -/

theorem Kept.linkRecord {l old new reason} (h : Kept w s t) : Kept w s (t.linkRecord l old new reason) := h.record

theorem Kept.setLState {l x} (h : Kept w s t) : Kept w s (t.setLState l x) := h.setLink

theorem Kept.modJob {id f} (h : Kept w s t) : Kept w s (t.modJob id f) := h.same

theorem Kept.abandon {p} (h : Kept w s t) : Kept w s (t.abandon p) := by
  unfold State.abandon
  dsimp only
  split
  · exact h.modJob
  · refine .ite (Kept.modBeam ?_) ?_
    · split
      · exact h
      · exact h.modBeam
    · split
      · exact h
      · exact h.modBeam

theorem Kept.jobReport {j peer pa} (h : Kept w s t) : Kept w s (t.jobReport j peer pa) := h.report

theorem Kept.remoteFatal {p peer} (h : Kept w s t) : Kept w s (t.remoteFatal p peer) := by
  unfold State.remoteFatal
  dsimp only
  split
  · split
    · exact h.abandon
    · exact .ite h.abandon h.abandon.fatalStop
  · split
    · exact h.abandon
    · split
      · split
        · exact h.abandon
        · exact .ite h.abandon h.abandon.fatalStop
      · exact .ite h.abandon h.abandon.modJob.jobReport

theorem Kept.dropRemote {r} (h : Kept w s t) : Kept w s (t.dropRemote r) := h.same

theorem Kept.pumped {l} (h : Kept w s t) : Kept w s (t.pumped l) := h.same.setLink

theorem Kept.enqueue {l p} (h : Kept w s t) : Kept w s (t.enqueue l p) := h.setLink.pumped

theorem Kept.sendPacket {dst pa p} (h : Kept w s t) (e : t.sendPacket dst pa p = some u) : Kept w s u := by
  obtain ⟨l, -, rfl⟩ := Option.map_eq_some_iff.mp e
  exact h.enqueue

theorem Kept.sendBack {via dst pa p} (h : Kept w s t) : Kept w s (t.sendBack via dst pa p) := by
  unfold State.sendBack
  split
  · exact h.enqueue
  · exact .getD (fun _ => h.sendPacket) h

theorem Kept.passOn {via b} (h : Kept w s t) : Kept w s (t.passOn via b) := by
  unfold State.passOn
  dsimp only
  split
  · exact h.sendPacket ‹_›
  · exact .ite h.sendBack h

theorem Kept.unsent {b} (h : Kept w s t) : Kept w s (t.unsent b) := by
  unfold State.unsent
  refine .ite ?_ h.passOn
  split
  · exact h
  · exact .ite h.dropRemote.remoteFatal h

theorem Kept.reroute {l b} (h : Kept w s t) : Kept w s (t.reroute l b) := by
  unfold State.reroute
  refine .ite (.ite h.enqueue h) ?_
  split
  · exact h.enqueue
  · exact h.unsent

theorem Kept.failLink {l reason} (h : Kept w s t) : Kept w s (t.failLink l reason) :=
  .foldl (fun _ _ k => k.reroute) h.setLink.linkRecord

theorem Kept.pump {l} (h : Kept w s t) : Kept w s (t.pump l) := .ite h.pumped.failLink h.pumped

theorem Kept.setCaps {src w'} (h : Kept w s t) : Kept w s (t.setCaps src w') := h.same

theorem Kept.announce {l} (h : Kept w s t) : Kept w s (t.announce l) :=
  .foldl (fun _ _ k => .ite k (.getD (fun _ => k.sendPacket) k)) h

theorem Kept.linkCmd {l cmd f} (h : Kept w s t) (hf : ∀ u, Kept w s u → Kept w s (f u)) : Kept w s (t.linkCmd l cmd f) :=
  .ite (hf _ h.setLink) h.setLink

theorem Kept.startTrain {l L} (h : Kept w s t) : Kept w s (t.startTrain l L) := h.setLink.pumped

theorem Kept.linkTrain {l} (h : Kept w s t) : Kept w s (t.linkTrain l) := h.linkCmd (fun _ k => k.startTrain)

theorem Kept.linkDrain {l} (h : Kept w s t) : Kept w s (t.linkDrain l) := h.linkCmd (fun _ k => k.setLink.pumped)

theorem Kept.linkHold {l} (h : Kept w s t) : Kept w s (t.linkHold l) := h.linkCmd (fun _ k => k.setLState)

theorem Kept.linkDark {l} (h : Kept w s t) : Kept w s (t.linkDark l) := h.linkCmd (fun _ k => k.setLState)

theorem Kept.linkRelock {l} (h : Kept w s t) : Kept w s (t.linkRelock l) := h.linkCmd (fun _ k => k.startTrain)

theorem Kept.linkDown {l} (h : Kept w s t) : Kept w s (t.linkDown l) := h.linkCmd (fun _ k => k.setLink)

theorem execTrain_kept {l} (h : Kept w s t) : KeptNext w s (execTrain l t) := h.linkTrain

theorem execDrain_kept {l} (h : Kept w s t) : KeptNext w s (execDrain l t) := h.linkDrain

theorem execHold_kept {l} (h : Kept w s t) : KeptNext w s (execHold l t) := h.linkHold

theorem execDark_kept {l} (h : Kept w s t) : KeptNext w s (execDark l t) := h.linkDark

theorem execRelock_kept {l} (h : Kept w s t) : KeptNext w s (execRelock l t) := h.linkRelock

theorem execDown_kept {l} (h : Kept w s t) : KeptNext w s (execDown l t) := h.linkDown

theorem Kept.trained {l peer link level caps} (h : Kept w s t) : Kept w s (t.trained l peer link level caps) := by
  unfold State.trained
  dsimp only
  refine .ite h ?_
  split
  · exact h.setLink.setCaps.setLState.linkRecord.announce
  · exact h.setLink.setCaps.setLState
  · exact h

theorem execTrainingComplete_kept {l peer link level} (h : Kept w s t) :
    KeptNext w s (execTrainingComplete l peer link level t) :=
  h.trained

theorem execTrainTimeout_kept {l} (h : Kept w s t) : KeptNext w s (execTrainTimeout l t) := by
  unfold execTrainTimeout
  dsimp only
  refine .ite h ?_
  split
  · exact h.failLink
  · exact h.failLink
  · exact h

theorem Kept.markerAck {l} (h : Kept w s t) : Kept w s (t.markerAck l) := .ite h.setLink h

theorem execMarkerAck_kept {l} (h : Kept w s t) : KeptNext w s (execMarkerAck l t) := h.markerAck

theorem execPortDown_kept {p} (h : Kept w s t) : KeptNext w s (execPortDown p t) := by
  unfold execPortDown
  dsimp only
  split
  · exact h
  · exact h
  · exact h.failLink

theorem Kept.restripeTo {l new} (h : Kept w s t) : Kept w s (t.restripeTo l new) := .ite h.failLink h.setLink.pumped

theorem execLossOfLight_kept {l bank} (h : Kept w s t) : KeptNext w s (execLossOfLight l bank t) :=
  .ite h (.ite h.setLink.restripeTo (.ite h.setLink h))

theorem Kept.bankenWrite {l m} (h : Kept w s t) : Kept w s (t.bankenWrite l m) := .ite h.setLink.restripeTo h.setLink

theorem execBankenClear_kept {l mask} (h : Kept w s t) : KeptNext w s (execBankenClear l mask t) := h.bankenWrite

theorem Kept.laserRecord {l L new x} (h : Kept w s t) : Kept w s (t.laserRecord l L new x) := h.record

theorem Kept.restripeDone {l} (h : Kept w s t) : Kept w s (t.restripeDone l) := by
  unfold State.restripeDone
  dsimp only
  split
  · exact h
  · exact (Kept.foldl (fun _ _ k => k.laserRecord) h.setLink).pump

theorem execRestripeDone_kept {l} (h : Kept w s t) : KeptNext w s (execRestripeDone l t) := h.restripeDone

theorem execLossOfSignal_kept {l bank} (h : Kept w s t) : KeptNext w s (execLossOfSignal l bank t) := .ite h.setLink h

theorem Kept.restripeDecode {l m} (h : Kept w s t) : Kept w s (t.restripeDecode l m) := .ite h.setLink.pump h

theorem execRestripeDecode_kept {l mask} (h : Kept w s t) : KeptNext w s (execRestripeDecode l mask t) :=
  h.restripeDecode

theorem execNakRepeat_kept {l} (h : Kept w s t) : KeptNext w s (execNakRepeat l t) := .ite h.setLink.pump h

theorem execFabricTimeLock_kept {t'} (h : Kept w s t) : KeptNext w s (execFabricTimeLock t' t) := .ite h.same h.same

/-! ### Fabric traffic -/

theorem Kept.loadDone {p vals} (h : Kept w s t) : Kept w s (t.loadDone p vals) := by
  unfold State.loadDone
  dsimp only
  refine .ite (Kept.roClear ?_) ?_
  · split
    · exact h
    · exact h.modBeam
  · split
    · exact h
    · exact h.modBeam

theorem Kept.ackPacket {p} (h : Kept w s t) : Kept w s (t.ackPacket p) := .ite h.same h

theorem Kept.remoteSend {p dst} (h : Kept w s t) : Kept w s (t.remoteSend p dst) := by
  unfold State.remoteSend
  dsimp only
  split
  · exact h.remoteFatal
  · exact (Kept.ite h h.same).sendPacket ‹_›

theorem Kept.answered {r line} (h : Kept w s t) : Kept w s (t.answered r line) := by
  unfold State.answered
  dsimp only
  split
  · exact .ite h.dropRemote.modJob h.dropRemote.modJob
  · split
    · exact h.dropRemote.loadDone
    · exact h.dropRemote.loadDone.ackPacket
    · exact h.dropRemote.ackPacket

theorem Kept.writeLine {k base l} (h : Kept True s t) : Kept True s (t.writeLine k base l) := h.homeWrite

theorem Kept.remoteAtom {op size base mask data} (h : Kept True s t) : Kept True s (t.remoteAtom op size base mask data) :=
  .foldl (fun _ _ k => .ite k.homeWrite.same k) h

theorem Kept.rejectRequest {via src tag pa reason owner} (h : Kept w s t) :
    Kept w s (t.rejectRequest via src tag pa reason owner) :=
  h.sendBack.report

theorem Kept.serve {via b} (h : Kept True s t) : Kept True s (t.serve via b) := by
  unfold State.serve
  dsimp only
  split
  · exact h.rejectRequest
  · exact .ite h.rejectRequest (.ite h.sendBack (.ite h.writeLine.sendBack (.ite h.rejectRequest
      (.ite h.remoteAtom.sendBack h.remoteAtom.sendBack))))

theorem Kept.stamped {g stamp off l} (h : Kept w s t) : Kept w s (t.stamped g stamp off l) := by
  unfold State.stamped
  dsimp only
  split
  · exact h
  · exact .ite h h.same

theorem execCollimatorStamp_kept {g k} (h : Kept w s t) : KeptNext w s (execCollimatorStamp g k t) := by
  unfold execCollimatorStamp
  dsimp only
  split
  · exact .ite h (.ite h.same.remoteFatal (.ite h h.same.enqueue.ackPacket))
  · exact h

theorem execStampedApply_kept {g} (h : Kept True s t) : KeptNext True s (execStampedApply g t) := by
  unfold execStampedApply
  dsimp only
  split
  · exact h
  · split
    · exact h
    · exact h.writeLine.homeWrite.same

theorem Kept.capability {src w' answer} (h : Kept w s t) : Kept w s (t.capability src w' answer) :=
  .ite h.setCaps (.getD (fun _ => h.setCaps.sendPacket) h.setCaps)

theorem execCapability_kept {src word} (h : Kept w s t) : KeptNext w s (execCapability src word t) := h.capability

theorem Kept.receive {via b} (h : Kept True s t) : Kept True s (t.receive via b) := by
  unfold State.receive
  dsimp only
  refine .ite h.passOn (.ite h.serve (.ite ?_ (.ite ?_ (.ite h.stamped (.ite h.capability (.ite h.gangReceive
    (.ite h h.rejectRequest)))))))
  · split
    · exact h
    · exact h.answered
  · split
    · exact h
    · exact h.dropRemote.remoteFatal

theorem execPacketReceive_kept {bytes} (h : Kept True s t) : KeptNext True s (execPacketReceive bytes t) := h.receive

theorem execRemoteTimeout_kept {k} (h : Kept w s t) : KeptNext w s (execRemoteTimeout k t) := by
  unfold execRemoteTimeout
  split
  · exact h
  · exact .ite h h.dropRemote.remoteFatal

theorem Kept.linkRelease {l} (h : Kept w s t) : Kept w s (t.linkRelease l) :=
  h.linkCmd (fun _ k => (Kept.foldl (fun _ _ k1 => k1.reroute) k.setLink).linkRecord.announce)

theorem execRelease_kept {l} (h : Kept w s t) : KeptNext w s (execRelease l t) := h.linkRelease

theorem Kept.forward {l} (h : Kept True s t) : Kept True s (t.forward l) := by
  unfold State.forward
  dsimp only
  split
  · exact h
  · exact h.setLink.pump
  · exact (Kept.foldl (fun _ _ k => k.receive) h.setLink).pump

theorem Kept.forwardN {n l} (h : Kept True s t) : Kept True s (State.forwardN n l t) := by
  induction n generalizing t with
  | zero => exact h
  | succ n ih => exact ih h.forward

theorem Kept.nakOnce {l} (h : Kept w s t) : Kept w s (t.nakOnce l) := .ite h h.setLink

theorem Kept.applyAck {l ack allow nak} (h : Kept w s t) : Kept w s (t.applyAck l ack allow nak) := h.setLink.pump

theorem Kept.controlFlit {l payload} (h : Kept w s t) : Kept w s (t.controlFlit l payload) :=
  .ite h (.ite h.restripeDone (.ite h.restripeDecode h))

theorem Kept.ident {l b} (h : Kept w s t) : Kept w s (t.ident l b) := .ite h.trained h

theorem Kept.flitBody {l type seq payload} (h : Kept w s t) : Kept w s (t.flitBody l type seq payload) :=
  .ite (.ite h.setLink (.ite h.nakOnce h)) (.ite h.markerAck (.ite h.controlFlit h))

theorem execFlitReceive_kept {l bytes} (h : Kept w s t) : KeptNext w s (execFlitReceive l bytes t) :=
  .ite h (.ite (.ite h.ident h) (.ite h (.ite h.setLink.nakOnce.pump (.ite h h.flitBody.applyAck))))

/-! ### Register blocks -/

theorem Kept.pgEnd {stat busy} (h : Kept w s t) : Kept w s (t.pgEnd stat busy) := h.same

theorem Kept.gateWays {unit mask} (h : Kept w s t) : Kept w s (t.gateWays unit mask) :=
  .ite h.pgEnd (.ite h.pgEnd h.same.pgEnd)

theorem Kept.gateGranules {core grp mask} (h : Kept w s t) : Kept w s (t.gateGranules core grp mask) :=
  .ite h.pgEnd (.ite (Kept.ite h.same h).pgEnd (Kept.ite h.same h).same.pgEnd)

theorem Kept.pgGo {kind grp unit mask} (h : Kept w s t) : Kept w s (t.pgGo kind grp unit mask) :=
  .ite h (.ite h.gateWays (.ite h.gateGranules h.pgEnd))

theorem execGateWays_kept {unit mask} (h : Kept w s t) : KeptNext w s (execGateWays unit mask t) := h.pgGo

theorem execGateGranules_kept {core grp mask} (h : Kept w s t) : KeptNext w s (execGateGranules core grp mask t) :=
  h.pgGo

theorem execWakeDone_kept (h : Kept w s t) : KeptNext w s (execWakeDone t) := h.same

theorem Kept.setGang {g} (h : Kept w s t) : Kept w s (t.setGang g) := h.same

theorem Kept.set64 {off v} (h : Kept w s t) : Kept w s (t.set64 off v) := by
  unfold State.set64
  dsimp only
  split
  · exact h.writeAsroot
  · exact h.writePeert
  · exact h.hnextWrite
  · exact .ite h h.setFunc
  · exact .ite h h.setFunc
  · exact .ite h h.setFunc
  · exact .ite h.same (.ite (.ite h.same h) (.ite (.ite h h.setGang) (.ite (.ite h h.setGang) h)))

theorem Kept.writePart {p o v} (h : Kept w s t) : Kept w s (t.writePart p o v) :=
  .ite h.writePblk (.ite h.writePway (.ite (.ite h.writePrbase h.writePrlim) h))

theorem Kept.writeFn {f o v} (h : Kept w s t) : Kept w s (t.writeFn f o v) := by
  unfold State.writeFn
  dsimp only
  split
  · exact h.writeFcfg
  · exact h.writeFtag
  · exact h.setFunc
  · exact h.setFunc
  · exact h.writeFtmo
  · exact h

theorem Kept.writeBudget {f o v} (h : Kept w s t) : Kept w s (t.writeBudget f o v) := by
  unfold State.writeBudget
  dsimp only
  split
  · exact h.writeRefill
  · exact h.setFunc
  · exact h.setFunc
  · exact h.setFunc
  · exact h

theorem Kept.writeChan {c o v} (h : Kept w s t) : Kept w s (t.writeChan c o v) := by
  unfold State.writeChan
  dsimp only
  split
  · exact .ite h.haloThr.haloRun h.haloThr.haloHalt
  · exact h.setChan
  · exact h

theorem Kept.writeLctl {l v} (h : Kept w s t) : Kept w s (t.writeLctl l v) := by
  unfold State.writeLctl
  dsimp only
  split
  · exact h.bankenWrite.linkTrain
  · exact h.bankenWrite.linkDrain
  · exact h.bankenWrite.linkHold
  · exact h.bankenWrite.linkDark
  · exact h.bankenWrite.linkRelock
  · exact h.bankenWrite.linkRelease
  · exact h.bankenWrite.linkDown
  · exact h.bankenWrite

theorem Kept.writeLink {l o v} (h : Kept w s t) : Kept w s (t.writeLink l o v) := by
  unfold State.writeLink
  dsimp only
  split
  · exact h.writeLctl
  · exact h.setLink
  · exact h.setLink
  · exact h.setLink
  · exact h

theorem Kept.writeMbcfg {f v} (h : Kept w s t) : Kept w s (t.writeMbcfg f v) := h.setFunc

theorem Kept.writeMbtail {f v} (h : Kept w s t) : Kept w s (t.writeMbtail f v) := .ite h h.setFunc

theorem Kept.writeMbchead {f v} (h : Kept w s t) : Kept w s (t.writeMbchead f v) := h.setFunc

theorem Kept.writeEvcfg {f v} (h : Kept w s t) : Kept w s (t.writeEvcfg f v) := h.setFunc

theorem Kept.writeBar {f o v} (h : Kept w s t) : Kept w s (t.writeBar f o v) := by
  unfold State.writeBar
  dsimp only
  split
  · exact h.writeMbcfg
  · exact h.writeMbtail
  · exact h.writeMbchead
  · exact h.writeEvcfg
  · exact h.setFunc
  · exact h

theorem Kept.writeSched {o v} (h : Kept w s t) : Kept w s (t.writeSched o v) := by
  unfold State.writeSched
  dsimp only
  split
  · exact .ite h.same h
  · exact h.same
  · exact h.same
  · exact h.same
  · exact .ite (Kept.ite h.same h).prectlGo (.ite h.same h)
  · exact .ite h.gangEnable h.gangDisable
  · exact .ite h h.setGang
  · exact .ite h h.setGang
  · exact h

theorem Kept.writePgctl {v} (h : Kept w s t) : Kept w s (t.writePgctl v) := .ite h.same.pgGo h.same

theorem Kept.set32 {off v} (h : Kept w s t) : Kept w s (t.set32 off v) := by
  unfold State.set32
  dsimp only
  split
  · exact h.writePart
  · exact h.writeFn
  · exact h.writeBudget
  · exact h.writeChan
  · exact h.writeLink
  · exact h.writeBar
  · exact .ite h.writeSdctl (.ite h.same (.ite h.writeSched (.ite h.writePgctl (.ite h.same (.ite h.same h)))))

theorem Kept.writeReg {off v} (h : Kept w s t) : Kept w s (t.writeReg off v) := by
  unfold State.writeReg
  split
  · split
    · exact h.hnextWrite
    · exact h.set64
  · refine .ite ?_ h.set32
    split
    · split
      · exact h.hnextWrite
      · exact h.set64
    · exact h.set32

theorem Kept.writeWide {off v} (h : Kept w s t) : Kept w s (t.writeWide off v) := by
  unfold State.writeWide
  split
  · exact h.set64
  · exact h.writeReg.writeReg

theorem execRegisterWrite_kept {off wide v} (h : Kept w s t) : KeptNext w s (execRegisterWrite off wide v t) :=
  .ite (.ite h.writeWide h) (.ite h.writeReg h)

theorem execCounterClear_kept {off} (h : Kept w s t) : KeptNext w s (execCounterClear off t) := .ite h.set32 h

theorem execMbcfgWrite_kept {f v} (h : Kept w s t) : KeptNext w s (execMbcfgWrite f v t) := h.writeMbcfg

theorem execMbtailWrite_kept {f v} (h : Kept w s t) : KeptNext w s (execMbtailWrite f v t) := h.writeMbtail

theorem execMbcheadWrite_kept {f v} (h : Kept w s t) : KeptNext w s (execMbcheadWrite f v t) := h.writeMbchead

theorem execEvcfgWrite_kept {f v} (h : Kept w s t) : KeptNext w s (execEvcfgWrite f v t) := h.writeEvcfg

/-! ### Packets at slices -/

theorem Kept.barStore {base m} (h : Kept w s t) : Kept w s (t.barStore base m) :=
  .foldl (fun _ _ k => .ite k.writeWide k.writeReg) h

theorem Kept.storeLine {p} (h : Kept True s t) : Kept True s (t.storeLine p) := .ite h.barStore h.writeLine

theorem Kept.atomLine {op p} (h : Kept True s t) : Kept True s (t.atomLine op p) := .foldl (fun _ _ k => k.homeWrite) h

theorem Kept.watchPoison {r pend va} (h : Kept w s t) : Kept w s (t.watchPoison r pend va) := by
  unfold State.watchPoison
  split
  · exact h
  · split
    · exact .ite h.modBeam.lateTrap h
    · exact h

theorem Kept.watchArrive {p} (h : Kept w s t) : Kept w s (t.watchArrive p) :=
  .ite h.watchPoison (.ite h.watchReply h.same)

theorem Kept.applyPacket {p} (h : Kept True s t) : Kept True s (t.applyPacket p) := by
  unfold State.applyPacket
  dsimp only
  split
  · exact (Kept.ite h.roFill h).loadDone
  · exact h.storeLine.ackPacket
  · exact h.atomLine.loadDone.ackPacket
  · exact h.atomLine.ackPacket
  · exact .ite h.roFill h
  · exact h.watchArrive
  · exact h

theorem Kept.dropStale {p} (h : Kept w s t) : Kept w s (t.dropStale p) := by
  unfold State.dropStale
  dsimp only
  split
  · exact h.setFunc.loadDone
  · exact h.setFunc.loadDone.ackPacket
  · exact h.setFunc.watchReply
  · exact h.setFunc.ackPacket

theorem Kept.servePacket {k p} (h : Kept True s t) : Kept True s (t.servePacket k p) := by
  unfold State.servePacket
  dsimp only
  refine .ite h (.ite h.same.dropStale ?_)
  split
  · exact h.same.remoteSend
  · exact h.same.applyPacket

theorem execAcknowledgement_kept {k} (h : Kept w s t) : KeptNext w s (execAcknowledgement k t) := by
  unfold execAcknowledgement
  dsimp only
  split
  · exact h
  · exact .ite h h.same.modBeam

theorem execPacketArbitration_kept {ks} (h : Kept w s t) : KeptNext w s (execPacketArbitration ks t) := by
  unfold execPacketArbitration
  dsimp only
  split
  · exact h
  · exact h.same

theorem execPageWalk_kept {core f va} (h : Kept w s t) : KeptNext w s (execPageWalk core f va t) := by
  unfold execPageWalk
  refine .ite h ?_
  split
  · exact h.walkFill
  · exact h

theorem Kept.watchLoad {w' r T b mask d pend} (h : Kept w s t) : Kept w s (t.watchLoad w' r T b mask d pend) :=
  .ite h.watchPoison (.ite h.same.modBeam h.same.inject.modBeam)

theorem execWatchTimeout_kept {k} (h : Kept w s t) : KeptNext w s (execWatchTimeout k t) := by
  unfold execWatchTimeout
  dsimp only
  split
  · exact h
  · split
    · exact h
    · split
      · split
        · exact .ite h h.same.watchLoad
        · exact h
      · exact h

theorem Kept.answerPage {f va ok} (h : Kept w s t) : Kept w s (t.answerPage f va ok) := h.same

theorem execFaultTimeout_kept {id} (h : Kept w s t) : KeptNext w s (execFaultTimeout id t) := by
  unfold execFaultTimeout
  split
  · exact h
  · exact .ite h.answerPage h

theorem Kept.failEntry {g cause peer} (h : Kept w s t) : Kept w s (t.failEntry g cause peer) := by
  unfold State.failEntry
  dsimp only
  split
  · exact h.dropLog.modJob
  · split
    · exact h.dropLog
    · exact .ite h.dropLog.setBeam.lateTrap h.stopAccess

theorem Kept.tellGroup {inst op} (h : Kept w s t) : Kept w s (t.tellGroup inst op) := .ite h.same h

theorem Kept.sendReplay {g ps} (h : Kept w s t) : Kept w s (t.sendReplay g ps) := by
  unfold State.sendReplay
  dsimp only
  split
  · exact h.same
  · exact .ite h.same.modBeam (.ite h.same.inject h.same.modBeam)

theorem Kept.replayOk {g T ok} (h : Kept w s t) : Kept w s (t.replayOk g T ok) :=
  (Kept.ite h.roDrop h).tellGroup.sendReplay.unstall.modBeam

theorem Kept.replayLanes {g T b} (h : Kept w s t) : Kept w s (t.replayLanes g T b) := by
  unfold State.replayLanes
  extract_lets _ _ _ _ bare
  have k0 : Kept w s bare := h.dropLog.same
  split
  · exact h.failEntry
  · exact h.failEntry
  · extract_lets _ s2 _
    have k2 : Kept w s s2 := (k0.memChecks.of_go ‹_›).same
    exact .ite h.failEntry (.ite h.failEntry (.ite h.failEntry (.ite k2.logLanes.logSentAt.modBeam (.ite h k2.replayOk))))

theorem Kept.replayEntry {id} (h : Kept True s t) : Kept True s (t.replayEntry id) := by
  unfold State.replayEntry
  split
  · exact h
  · split
    · exact h
    · split
      · exact .ite h (.ite h.failEntry h.dropLog.modJob)
      · split
        · refine .ite h (.ite h.failEntry (.ite (.ite h.failEntry h.dropLog.modBeam) ?_))
          split
          · exact h.kvReplay (fun _ => h.failEntry)
          · exact h.replayLanes
        · exact h

theorem execOperandLogReplay_kept {id} (h : Kept True s t) : KeptNext True s (execOperandLogReplay id t) :=
  h.replayEntry

/-! ### Jobs -/

theorem Kept.failJob {id code} (h : Kept w s t) : Kept w s (t.failJob id code) := h.modJob

theorem Kept.jobFault {j va write upgrade} (h : Kept w s t) : Kept w s (t.jobFault j va write upgrade) :=
  h.logAdd.modJob

theorem Kept.jobReach {j va write} (h : Kept w s t) : (t.jobReach j va write).Kept w s := by
  unfold State.jobReach
  dsimp only
  refine .ite h.failJob ?_
  split
  · exact (Kept.of_snd h.translate ‹_›).jobFault
  · exact (Kept.of_snd h.translate ‹_›).failJob
  · exact (Kept.of_snd h.translate ‹_›).failJob
  · exact .ite (Kept.of_snd h.translate ‹_›).failJob (.ite (Kept.of_snd h.translate ‹_›).jobFault (Kept.of_snd h.translate ‹_›))

theorem Kept.jobRead {j va n} (h : Kept w s t) : Kept w s (t.jobRead j va n) := by
  unfold State.jobRead
  dsimp only
  split
  · exact h.jobReach.of_stop ‹_›
  · split
    · exact .ite (h.jobReach.of_page ‹_›).same.modJob.remoteSend (h.jobReach.of_page ‹_›).same.modJob.remoteFatal
    · exact .ite (h.jobReach.of_page ‹_›).failJob (h.jobReach.of_page ‹_›).modJob

theorem Kept.jobWrite {j va bytes wrote} (h : Kept True s t) : Kept True s (t.jobWrite j va bytes wrote) := by
  unfold State.jobWrite
  dsimp only
  split
  · exact h.jobReach.of_stop ‹_›
  · split
    · exact .ite (h.jobReach.of_page ‹_›).same.modJob.modJob.remoteSend (h.jobReach.of_page ‹_›).same.modJob.modJob.remoteFatal
    · exact .ite (h.jobReach.of_page ‹_›).barStore.modJob (h.jobReach.of_page ‹_›).homeWrite.modJob

theorem Kept.jobSlot {j f} (h : Kept w s t) (hf : ∀ x0 x1 x2 u, Kept w s u → Kept w s (f x0 x1 x2 u)) :
    Kept w s (t.jobSlot j f) := by
  unfold State.jobSlot
  split
  · split
    · exact h
    · split
      · exact hf _ _ _ _ h
      · refine .ite h ?_
        split
        · exact h
        · exact hf _ _ _ _ h.setTeam.modJob
  · exact h

theorem Kept.fillWaits {core} (h : Kept w s t) : Kept w s (t.fillWaits core).2 := by
  unfold State.fillWaits
  split
  · exact h
  · exact .ite_snd h h.same

theorem Kept.slotWrite {j T q k at_ bytes wrote} (h : Kept w s t) : Kept w s (t.slotWrite j T q k at_ bytes wrote) :=
  .ite h.fillWaits h.fillWaits.modTeam.modJob

theorem Kept.jobMove {j g queue} (h : Kept True s t) : Kept True s (t.jobMove j g queue) := by
  unfold State.jobMove
  extract_lets _ _ _ _ _ _ s1 _
  have k1 : Kept True s s1 := .ite h.same h
  exact .ite (.ite (k1.jobSlot fun _ _ _ _ k => k.slotWrite) k1.jobWrite) (.ite k1.jobRead k1)

theorem Kept.jobSeg {j g} (h : Kept True s t) : Kept True s (t.jobSeg j g) :=
  .ite h.failJob (.ite (h.jobSlot (fun _ _ _ _ k => k)) h.jobMove)

theorem Kept.gatherMove {j} (h : Kept True s t) : Kept True s (t.gatherMove j) := by
  unfold State.gatherMove
  dsimp only
  split
  · exact .ite h.jobWrite h
  · refine .ite h.failJob ?_
    split
    · exact h.modJob
    · exact .ite (Kept.ite h.same h).jobWrite (.ite (Kept.ite h.same h).jobRead (.ite h.same h))

theorem Kept.collTele {j op result ref} (h : Kept w s t) : Kept w s (t.collTele j op result ref) :=
  .ite h (.ite h.same h.same)

theorem Kept.collMeet {j op n me} (h : Kept w s t) : Kept w s (t.collMeet j op n me) :=
  .ite (Kept.ite h h.same).failJob (Kept.ite h h.same).collTele.modJob

theorem Kept.collStep {j op n me ring} (h : Kept True s t) : Kept True s (t.collStep j op n me ring) := by
  unfold State.collStep
  dsimp only
  refine .ite ?_ (.ite h.failJob (.ite h.failJob ?_))
  · split
    · exact h
    · exact h.jobMove
  · split
    · exact h.remoteFatal
    · exact .ite (.ite h h.jobRead) h.collMeet

theorem Kept.stageErr {j k} (h : Kept w s t) : Kept w s (t.stageErr j k) := by
  unfold State.stageErr
  split
  · exact h.jobFault
  · exact h.jobFault
  · exact h.failJob

theorem Kept.seen {l} (h : Kept True s t) : Kept True s (t.seen l) := 
  h.writes (Memory.wf_foldl fun _ _ => Memory.wf_writeBytes _ _)

theorem Kept.stageOpen {j q waitf n p0 layer} (h : Kept w s t) : Kept w s (t.stageOpen j q waitf n p0 layer) := by
  unfold State.stageOpen
  dsimp only
  split
  · exact h.stageErr
  · refine .ite h.failJob (.ite h.modJob ?_)
    split
    · exact h.stageErr
    · exact .ite h.roClear.modJob h

theorem Kept.stageNext {j q v p0 layer} (h : Kept True s t) : Kept True s (t.stageNext j q v p0 layer) := by
  unfold State.stageNext
  dsimp only
  split
  · exact h.stageErr
  · exact .ite h.failJob (Kept.ite h.specPoison h).modJob

theorem Kept.stageStep {j v waitf n p0 layer} (h : Kept True s t) : Kept True s (t.stageStep j v waitf n p0 layer) :=
  .ite (h.jobSlot (fun _ _ _ _ k => k)) (.ite h.stageOpen (.ite h.stageNext (.ite h (h.jobSlot
    (fun _ _ _ _ k1 => k1.slotWrite)))))

theorem Kept.jobStep {j} (h : Kept True s t) : Kept True s (t.jobStep j) := by
  unfold State.jobStep
  refine .ite h ?_
  split
  · exact h.gatherMove
  · exact h.collStep
  · exact h.stageStep
  · split
    · exact h
    · exact h.jobSeg

theorem execSliceAccess_kept {k} (h : Kept True s t) : KeptNext True s (execSliceAccess k t) := by
  unfold execSliceAccess
  split
  · exact h.servePacket
  · split
    · exact h
    · exact h.jobStep

theorem Kept.modNode {r n f} (h : Kept w s t) : Kept w s (t.modNode r n f) := by
  unfold State.modNode
  dsimp only
  split
  · exact h
  · split
    · exact h
    · exact h.same

theorem execJobComplete_kept {k} (h : Kept w s t) : KeptNext w s (execJobComplete k t) := by
  unfold execJobComplete
  split
  · exact h
  · refine .ite h ?_
    extract_lets s1 s2 s3
    have k2 : Kept w s s2 := h.same.dropLog.charge
    have k3 : Kept w s s3 := by
      unfold s3
      split
      · exact k2
      · exact k2.modTeam
    split
    · exact k3
    · exact Kept.ite k3.modNode k3.modNode.failReplay

/-! ### Graph replays -/

theorem Kept.funcStore {l bytes} (h : Kept True s t) : Kept True s (t.funcStore l bytes) := by
  induction l generalizing t bytes with
  | nil => exact h
  | cons x r ih => exact ih h.homeWrite

theorem Kept.graphWrite {f va bytes} (h : Kept True s t) : Kept True s (t.graphWrite f va bytes) := by
  unfold State.graphWrite
  split
  · exact h
  · exact h.homeWrite

theorem Kept.setReplay {r R} (h : Kept w s t) : Kept w s (t.setReplay r R) := h.same

theorem Kept.queueReplay {f graph} (h : Kept w s t) : Kept w s (t.queueReplay f graph) := h.same.setReplay

theorem Kept.startReplay {r R} (h : Kept True s t) : Kept True s (t.startReplay r R) := by
  unfold State.startReplay
  dsimp only
  split
  · exact h.setReplay
  · exact .ite h.graphWrite.setReplay h.graphWrite.setReplay

theorem execReplayStart_kept {f} (h : Kept True s t) : KeptNext True s (execReplayStart f t) := by
  unfold execReplayStart
  refine .ite h ?_
  split
  · exact h
  · exact h.startReplay

theorem Kept.refuse {r n code} (h : Kept w s t) : Kept w s (t.refuse r n code) := h.modNode.failReplay

theorem Kept.seqStart {f} (h : Kept w s t) : Kept w s (t.seqStart f) := .ite h h.same

theorem Kept.startGrid {r n R N} (h : Kept w s t) : Kept w s (t.startGrid r n R N) :=
  (Kept.ite h.seqStart.same h.seqStart).same.setGrid.modNode

theorem execNodeLaunch_kept {r n} (h : Kept w s t) : KeptNext w s (execNodeLaunch r n t) := by
  unfold execNodeLaunch
  dsimp only
  split
  · exact h
  · exact .ite h (.ite h.refuse (.ite h.refuse h.startGrid))

theorem execNodeJob_kept {r n} (h : Kept w s t) : KeptNext w s (execNodeJob r n t) := by
  unfold execNodeJob
  dsimp only
  split
  · exact h
  · exact .ite h (.ite h (.ite h.refuse h.same.modNode))

theorem Kept.cpWrite {l pa bytes} (h : Kept True s t) : Kept True s (t.cpWrite l pa bytes) :=
  .ite h.barStore h.homeWrite

theorem Kept.nodeDone {r n} (h : Kept w s t) : Kept w s (t.nodeDone r n) := h.modNode

theorem Kept.nodeWatch {r n N l pa} (h : Kept w s t) : Kept w s (t.nodeWatch r n N l pa) := .ite h h.same

theorem Kept.nodeLook {r n N l pa} (h : Kept w s t) : Kept w s (t.nodeLook r n N l pa) :=
  .ite h.nodeDone (.ite h.nodeWatch h.modNode)

theorem execNodeWait_kept {r n} (h : Kept w s t) : KeptNext w s (execNodeWait r n t) := by
  unfold execNodeWait
  split
  · exact h
  · refine .ite h (.ite h.refuse ?_)
    split
    · exact h.refuse
    · exact h.modNode.nodeLook

theorem execWaitPoll_kept {r n} (h : Kept w s t) : KeptNext w s (execWaitPoll r n t) := by
  unfold execWaitPoll
  split
  · exact h
  · split
    · exact h
    · refine .ite h ?_
      split
      · exact h
      · exact .ite h h.nodeLook

theorem execNodeSignal_kept {r n} (h : Kept True s t) : KeptNext True s (execNodeSignal r n t) := by
  unfold execNodeSignal
  dsimp only
  split
  · exact h
  · refine .ite h (.ite h.refuse ?_)
    split
    · exact h.refuse
    · exact Kept.ite h.cpWrite.nodeDone.sendMsix h.cpWrite.nodeDone

theorem execWatchReply_kept {k} (h : Kept w s t) : KeptNext w s (execWatchReply k t) := by
  unfold execWatchReply
  dsimp only
  split
  · exact h
  · refine .ite h ?_
    split
    · exact Kept.ite h.same.watchPoison h.same.watchReply
    · split
      · exact h.same
      · exact .ite h.same.nodeDone h.same

theorem execReplayEnd_kept {r} (h : Kept True s t) : KeptNext True s (execReplayEnd r t) := by
  unfold execReplayEnd
  dsimp only
  split
  · exact h
  · exact .ite h h.graphWrite.same

/-! ### Mailbox commands and resets -/

theorem execCommandFetch_kept {f} (h : Kept w s t) : KeptNext w s (execCommandFetch f t) :=
  .ite h (.ite h.setFunc h.setFunc.complete)

theorem Kept.command {f opc act} (h : Kept w s t) (hact : ∀ x0 u, Kept w s u → Kept w s (act x0 u).1) :
    Kept w s (t.command f opc act) := by
  unfold State.command
  split
  · exact h
  · refine .ite h ?_
    split
    · exact h.complete
    · refine .ite h.complete ?_
      split
      · exact (Kept.of_fst (hact _ _ h) ‹_›).complete
      · exact Kept.of_fst (hact _ _ h) ‹_›

theorem failed_kept {st} (h : Kept w s t) : Kept w s (failed t st).1 := h

theorem actWrite_kept {f c} (h : Kept True s t) : Kept True s (actWrite f c t).1 := by
  unfold actWrite
  refine .ite_fst (failed_kept h) ?_
  split
  · exact failed_kept h
  · exact h.funcStore

theorem actRead_kept {f c} (h : Kept w s t) : Kept w s (actRead f c t).1 := by
  unfold actRead
  dsimp only
  refine .ite_fst (failed_kept h) ?_
  split
  · exact failed_kept h
  · exact .ite_fst (failed_kept h) h.hostPut

theorem actSetparam_kept {f c} (h : Kept w s t) : Kept w s (actSetparam f c t).1 := h.setFunc

theorem actReplay_kept {f c} (h : Kept w s t) : Kept w s (actReplay f c t).1 := by
  unfold actReplay
  dsimp only
  refine .ite_fst (failed_kept h) ?_
  split
  · exact failed_kept h
  · exact .ite_fst (failed_kept h) h.queueReplay

theorem execWrite_kept {f} (h : Kept True s t) : KeptNext True s (execWrite f t) :=
  h.command (fun _ _ k => actWrite_kept k)

theorem execRead_kept {f} (h : Kept w s t) : KeptNext w s (execRead f t) := h.command (fun _ _ k => actRead_kept k)

theorem execSetparam_kept {f} (h : Kept w s t) : KeptNext w s (execSetparam f t) :=
  h.command (fun _ _ k => actSetparam_kept k)

theorem execReplay_kept {f} (h : Kept w s t) : KeptNext w s (execReplay f t) :=
  h.command (fun _ _ k => actReplay_kept k)

theorem actQuery_kept {f c} (h : Kept w s t) : Kept w s (actQuery f c t).1 := by
  unfold actQuery
  dsimp only
  split
  · exact h
  · exact h.hostPut
  · exact h.hostPut
  · exact h.hostPut
  · exact failed_kept h

theorem actAttest_kept {f c} (h : Kept w s t) : Kept w s (actAttest f c t).1 := by
  unfold actAttest
  dsimp only
  split
  · exact failed_kept h
  · exact h.hostPut.same

theorem execQuery_kept {f} (h : Kept w s t) : KeptNext w s (execQuery f t) := h.command (fun _ _ k => actQuery_kept k)

theorem execAttest_kept {f} (h : Kept w s t) : KeptNext w s (execAttest f t) :=
  h.command (fun _ _ k => actAttest_kept k)


theorem actAnswer_kept {f ok c} (h : Kept w s t) : Kept w s (actAnswer f ok c t).1 := by
  unfold actAnswer
  split
  · exact failed_kept h
  · exact .ite_fst h.answerPage (failed_kept h)

theorem execResolve_kept {f} (h : Kept w s t) : KeptNext w s (execResolve f t) :=
  h.command (fun _ _ k => actAnswer_kept k)

theorem execFail_kept {f} (h : Kept w s t) : KeptNext w s (execFail f t) := h.command (fun _ _ k => actAnswer_kept k)

theorem Kept.deviceReset {codes} (h : Kept w s t) : Kept w s (t.deviceReset codes) := h.same

theorem Kept.bootEnd (h : Kept w s t) : Kept w s t.bootEnd := by
  unfold State.bootEnd
  dsimp only
  split
  · exact h
  · split <;> exact .ite h.same.setFunc h.same

theorem execPowerOn_kept {codes} (h : Kept True s t) : KeptNext True s (execPowerOn codes t) :=
  h.deviceReset.writes fun _ => Memory.wf_nil

theorem execPerst_kept {codes} (h : Kept w s t) : KeptNext w s (execPerst codes t) := h.deviceReset.same

theorem actReset_kept {f c} (h : Kept w s t) : Kept w s (actReset f c t).1 := by
  unfold actReset
  dsimp only
  refine .ite_fst (failed_kept h) (.ite_fst h.same.deviceReset ?_)
  split
  · exact .ite_fst (failed_kept h) h.setFunc
  · exact h
  · exact h.fcfgRst.setFunc.setFunc

theorem execReset_kept {f} (h : Kept w s t) : KeptNext w s (execReset f t) := h.command (fun _ _ k => actReset_kept k)

theorem execD3hotEnter_kept (h : Kept w s t) : KeptNext w s (execD3hotEnter t) := h.same

theorem execD0Return_kept (h : Kept w s t) : KeptNext w s (execD0Return t) := h.same

/-! ### Placement, saving and restoring -/

theorem Kept.loadImage {G c} (h : Kept w s t) (e : t.loadImage G c = some u) : Kept w s u := by
  unfold State.loadImage at e
  dsimp only at e
  split_ifs at e
  · cases e
    exact h
  · cases e
    exact h.setCore
  · obtain ⟨b, -, rfl⟩ := Option.map_eq_some_iff.mp e
    exact h.setCore

theorem Kept.enterCore {G t' T c} (h : Kept w s t) : Kept w s (t.enterCore G t' T c) := by
  unfold State.enterCore
  split
  · exact (h.loadImage ‹_›).roClear.setTeam
  · exact h.setTeam.fatalStop

theorem Kept.dropRoom {g} (h : Kept w s t) : Kept w s (t.dropRoom g) := h.same

theorem Kept.placeTeam {g G core a} (h : Kept w s t) : Kept w s (t.placeTeam g G core a) := by
  unfold State.placeTeam
  dsimp only
  refine Kept.dropRoom ?_
  split
  · exact h.setGrid.same.enterCore
  · exact h.setGrid.same.enterCore.same.enterCore

theorem execTeamPlace_kept {g core} (h : Kept w s t) : KeptNext w s (execTeamPlace g core t) := by
  unfold execTeamPlace
  dsimp only
  split
  · exact h
  · split
    · exact h
    · exact .ite h.placeTeam h

theorem execQuantumExpiry_kept {t'} (h : Kept w s t) : KeptNext w s (execQuantumExpiry t' t) := by
  unfold execQuantumExpiry
  dsimp only
  split
  · exact h
  · split
    · exact h
    · exact .ite h h.preempt.same

theorem Kept.opaqueBlock {a n} (h : Kept True s t) : Kept True s (t.opaqueBlock a n) := h.form (State.opaqueBlock_form ..)

theorem Kept.saveArea {t' T l} (h : Kept True s t) : Kept True s (t.saveArea t' T l) := by
  unfold State.saveArea
  dsimp only
  refine .foldl (fun _ _ k => k.opaqueBlock) (h.writes fun w => ?_)
  refine Memory.wf_splice _ (by omega) ?_
  have k := fun r => Memory.wf_splice r (Nat.le_add_right T.area 0x2000) w
  split
  · exact Memory.wf_splice _ (by omega) (k _)
  · exact k _

theorem Kept.dropLanes {t'} (h : Kept w s t) : Kept w s (t.dropLanes t') := h.tlbDrop

theorem Kept.dropTeamWatches {t'} (h : Kept w s t) : Kept w s (t.dropTeamWatches t') := h.same

theorem Kept.saveTeam {t' T core since} (h : Kept True s t) : Kept True s (t.saveTeam t' T core since) := by
  unfold State.saveTeam
  dsimp only
  refine Kept.dropTeamWatches (Kept.dropLanes (Kept.setTeam ?_))
  split
  · exact h.setCore
  · exact h.setCore.saveArea

theorem Kept.preDone (h : Kept w s t) : Kept w s t.preDone := h.same

theorem execPreempt_kept {t'} (h : Kept True s t) : KeptNext True s (execPreempt t' t) := by
  unfold execPreempt
  split
  · exact h
  · split
    · refine .ite h ?_
      split
      · exact h.saveTeam.preDone
      · split
        · exact h.saveTeam.preDone
        · split
          · exact .ite h h.saveTeam.saveTeam.preDone
          · exact h.saveTeam.preDone
    · exact h

theorem Kept.forgive {l} (h : Kept w s t) : Kept w s (t.forgive l) := .foldl (fun _ _ k => k.same.abandon) h

theorem execPreemptDrainTimeout_kept {t' b} (h : Kept w s t) : KeptNext w s (execPreemptDrainTimeout t' b t) := by
  unfold execPreemptDrainTimeout
  dsimp only
  split
  · split
    · exact .ite h (.ite h.forgive h.forgive.fatalStop.preDone)
    · exact h
  · exact h

theorem Kept.reaccept {core l} (h : Kept w s t) : Kept w s (t.reaccept core l) := h.setCore

theorem Kept.restoreTeam {G t' T core} (h : Kept True s t) : Kept True s (t.restoreTeam G t' T core) := by
  unfold State.restoreTeam
  extract_lets _ s2 _ _ _ _ s3 s4
  have k2 : Kept True s s2 := h.enterCore.dropLanes.reaccept
  have k3 : Kept True s s3 := (Kept.foldl (fun _ _ k => k.replayEntry) k2.same).modTeam
  have k4 : Kept True s s4 := by
    refine .foldl (fun _ _ k => ?_) k3
    split
    · exact .ite k.enterPending k
    · exact k
  exact .ite k4.fatalStop k4

theorem execTeamRestore_kept {t' core} (h : Kept True s t) : KeptNext True s (execTeamRestore t' core t) := by
  unfold execTeamRestore
  dsimp only
  split
  · exact h
  · split
    · exact h
    · refine .ite (Kept.dropRoom ?_) h
      split
      · exact h.restoreTeam.restoreTeam
      · exact h.restoreTeam

theorem execBeamRetire_kept {t' b} (h : Kept w s t) : KeptNext w s (execBeamRetire t' b t) := by
  unfold execBeamRetire
  dsimp only
  split
  · exact .ite h h.dropWatches.dropLog.setTeam
  · exact h

theorem Kept.unseenReport {T} (h : Kept w s t) : Kept w s (t.unseenReport T) := by
  unfold State.unseenReport
  split
  · exact h
  · exact h.teamReport

theorem Kept.retireTeam {t' T} (h : Kept w s t) : Kept w s (t.retireTeam t' T) := by
  unfold State.retireTeam
  dsimp only
  split
  · exact (Kept.ite h h.unseenReport).same.dropLanes.dropTeamWatches.dropLog.preDone
  · exact (Kept.ite h h.unseenReport).same.dropLanes.dropTeamWatches.dropLog.setGrid.preDone

theorem execTeamRetire_kept {t'} (h : Kept w s t) : KeptNext w s (execTeamRetire t' t) := by
  unfold execTeamRetire
  split
  · exact h
  · exact .ite h.retireTeam h

theorem execGridComplete_kept {g} (h : Kept w s t) : KeptNext w s (execGridComplete g t) := by
  unfold execGridComplete
  dsimp only
  split
  · exact h
  · exact .ite h (Kept.ite h.modNode.failReplay h.modNode).same.dropRoom

/-! ### Page moves and read duplication -/

theorem Kept.movePage {m} (h : Kept True s t) : Kept True s (t.movePage m) := by
  unfold State.movePage
  dsimp only
  refine Kept.dropRange (.foldl (fun _ _ k => k.dropRange) (h.writes fun w => ?_))
  exact Memory.wf_foldl (fun _ _ => Memory.wf_writeNat _ _ _)
    (Memory.wf_writeNat _ _ _ (Memory.wf_splice _ (Nat.le_add_right ..) w))

theorem Kept.moveBegin {m} (h : Kept w s t) : Kept w s (t.moveBegin m) := h.dropRange.same

theorem Kept.moveEnd {m} (h : Kept True s t) : Kept True s (t.moveEnd m) := h.movePage.same

theorem execPageMigrate_kept {f va frame} (h : Kept True s t) : KeptNext True s (execPageMigrate f va frame t) := by
  unfold execPageMigrate
  refine .ite h ?_
  split
  · exact .ite h.moveEnd h
  · exact .ite h (Kept.foldl (fun _ _ k => k.moveBegin) h)

theorem Kept.upEnd {f r answer} (h : Kept w s t) : Kept w s (t.upEnd f r answer) := h.same

theorem Kept.upFault {f r} (h : Kept w s t) : Kept w s (t.upFault f r) := .foldl (fun _ _ k => k.record) h.upEnd

theorem Kept.rdSend {k dst writer va} (h : Kept w s t) : Kept w s (t.rdSend k dst writer va) := h.same

theorem execRdUpgrade_kept {id} (h : Kept w s t) : KeptNext w s (execRdUpgrade id t) := by
  unfold execRdUpgrade
  dsimp only
  split
  · exact h
  · refine .ite h ?_
    split
    · exact Kept.ite h.same h.same.rdSend
    · exact .ite h.upEnd h.upFault

theorem execRdGrant_kept {writer va f} (h : Kept w s t) : KeptNext w s (execRdGrant writer va f t) := by
  unfold execRdGrant
  dsimp only
  split
  · exact h
  · exact .ite h (.ite (Kept.ite (.foldl (fun _ _ k => k.rdSend) h.same) (Kept.foldl
      (fun _ _ k1 => k1.rdSend) h.same).rdSend) h.same)

theorem execRdInvalidate_kept {writer va f} (h : Kept True s t) : KeptNext True s (execRdInvalidate writer va f t) := by
  unfold execRdInvalidate
  dsimp only
  split
  · exact h
  · exact .ite h (.ite (.ite h h.same) (h.writes (Memory.wf_write _ _)).dropRange.upFault.rdSend)

theorem execRdAckComplete_kept {id} (h : Kept True s t) : KeptNext True s (execRdAckComplete id t) := by
  unfold execRdAckComplete
  dsimp only
  split
  · exact h
  · split
    · exact (h.writes (Memory.wf_write _ _)).dropRange.upEnd
    · exact h

theorem Kept.rdSilent {id} (h : Kept w s t) : Kept w s (t.rdSilent id) := by
  unfold State.rdSilent
  dsimp only
  split
  · exact h
  · exact .ite h h.same.record

theorem execRdTimeout_kept {id} (h : Kept w s t) : KeptNext w s (execRdTimeout id t) := by
  unfold execRdTimeout
  dsimp only
  split
  · split
    · exact h
    · refine .ite h ?_
      split
      · exact h.same.dropLog.fatalStop
      · split
        · exact h.same.dropLog.modJob.fatalStop
        · exact h.same.dropLog.modJob.modJob
  · exact h.rdSilent

/-! ### Body words -/

theorem Kept.badWord {cause} (h : Kept w s t) : KeptNext w s (Issue.badWord cause t) := by
  unfold Issue.badWord
  split
  · exact trivial
  · have k := h.select ‹_›
    exact .ite k.issued.trap k.heldUntil

theorem bodyB3_kept {op o} (h : Kept w s t) : KeptNext w s ((bodyB3 op o t).getD (Issue.badWord cILLEGAL t)) := by
  unfold bodyB3
  split
  · exact h.base fun _ _ => bodyAB_kept
  · exact h.base fun _ _ => bodyAB_kept
  · exact h.base fun _ _ => bodyAB_kept
  · exact h.base fun _ _ => bodyAB_kept
  · exact h.base fun _ _ => bodyAB_kept
  · exact h.base fun _ _ => bodyAB_kept
  · exact h.base fun _ _ => bodyAB_kept
  · exact h.base fun _ _ => bodyAB_kept
  · exact h.base fun _ _ => bodyAB_kept
  · exact h.base fun _ _ => bodyAB_kept
  · exact h.base fun _ _ => bodyAB_kept
  · exact h.base fun _ _ => bodyAB_kept
  · exact h.base fun _ _ => bodyAB_kept
  · exact h.base fun _ _ => bodyAB_kept
  · exact h.base fun _ _ => bodyAB_kept
  · exact h.base fun _ _ => bodyAB_kept
  · exact h.base fun _ _ => bodyAB_kept
  · exact h.base fun _ _ => bodyAB_kept
  · exact h.base fun _ _ => bodyAB_kept
  · exact h.base fun _ _ => bodyAB_kept
  · exact h.base fun _ _ => bodyAB_kept
  · exact h.base fun _ _ => bodyABD_kept
  · exact h.base fun _ _ => bodyF2_kept
  · exact h.base fun _ _ => bodyF2_kept
  · exact h.base fun _ _ => bodyF2_kept
  · exact h.base fun _ _ => bodyF3d_kept
  · exact h.base fun _ _ => bodyFsel_kept
  · exact h.base fun _ _ => bodyFsel_kept
  · exact h.base fun _ _ => bodyFcmp_kept
  · exact h.base fun _ _ => bodyFcmp_kept
  · exact h.base fun _ _ => bodyFcmp_kept
  · exact h.base fun _ _ => bodyP2_kept
  · exact h.base fun _ _ => bodyP2_kept
  · exact h.base fun _ _ => bodyP3d_kept
  · exact h.base fun _ _ => bodyP2_kept
  · exact h.base fun _ _ => bodyP2_kept
  · exact h.base fun _ _ => bodyP3d_kept
  · exact h.base fun _ _ => bodyShfl_kept
  · exact h.base fun _ _ => bodyShfl_kept
  · exact h.base fun _ _ => bodyFold_kept
  · exact h.base fun _ _ => bodyFold_kept
  · exact h.base fun _ _ => bodyABD_kept
  · exact h.base fun _ _ => bodyA_kept
  · exact h.base fun _ _ => bodyA_kept
  · exact h.badWord

theorem bodyBI_kept {op o} (h : Kept w s t) : KeptNext w s ((bodyBI op o t).getD (Issue.badWord cILLEGAL t)) := by
  unfold bodyBI
  split
  · exact h.base fun _ _ => bodyAB_kept
  · exact h.base fun _ _ => bodyAB_kept
  · exact h.base fun _ _ => bodyAB_kept
  · exact h.base fun _ _ => bodyAB_kept
  · exact h.base fun _ _ => bodyAB_kept
  · exact h.base fun _ _ => bodyLdsw_kept
  · exact h.base fun _ _ => bodyStsw_kept
  · exact h.base fun _ _ => bodyTwrd_kept
  · exact h.base fun _ _ => bodyTwwr_kept
  · exact h.badWord

theorem bodyBZ_kept {op o} (h : Kept w s t) : KeptNext w s ((bodyBZ op o t).getD (Issue.badWord cILLEGAL t)) := by
  unfold bodyBZ
  split
  · exact h.base fun _ _ => bodyNop_kept
  · exact h.badWord

theorem bodyExec_kept {x} (h : Kept w s t) : KeptNext w s (bodyExec x t) := by
  unfold bodyExec
  dsimp only
  split
  · exact h.badWord
  · split
    · exact h.badWord
    · split
      · split
        · exact bodyB3_kept h
        · exact bodyBI_kept h
        · exact bodyBZ_kept h
        · exact h.badWord
      · exact h.badWord

theorem Kept.bodyStep {r T c} (h : Kept w s t) : KeptNext w s (t.bodyStep r T c) :=
  .ite h.same.badWord (bodyExec_kept h.same)

theorem execMacroBodyWord_kept {t' b} (h : Kept w s t) : KeptNext w s (execMacroBodyWord t' b t) := by
  unfold execMacroBodyWord
  split
  · split
    · exact h
    · exact h.bodyStep
  · exact h

/-! ### Every instruction and event -/

/-- Every instruction and every event of the table keeps the canonical form of both memories, and the agenda. -/
theorem exec_kept {i} (h : Kept True s t) : KeptNext True s (exec i t) := by
  cases i with
  | nop _ => exact h.base fun _ _ => bodyNop_kept
  | nopX _ => exact h.ext fun _ _ => bodyNop_kept
  | mov _ => exact h.base fun _ _ => bodyAB_kept
  | movX _ => exact h.ext fun _ _ => bodyAB_kept
  | add _ => exact h.base fun _ _ => bodyAB_kept
  | addX _ => exact h.ext fun _ _ => bodyAB_kept
  | sub _ => exact h.base fun _ _ => bodyAB_kept
  | subX _ => exact h.ext fun _ _ => bodyAB_kept
  | mul _ => exact h.base fun _ _ => bodyAB_kept
  | mulX _ => exact h.ext fun _ _ => bodyAB_kept
  | and _ => exact h.base fun _ _ => bodyAB_kept
  | andX _ => exact h.ext fun _ _ => bodyAB_kept
  | or _ => exact h.base fun _ _ => bodyAB_kept
  | orX _ => exact h.ext fun _ _ => bodyAB_kept
  | xor _ => exact h.base fun _ _ => bodyAB_kept
  | xorX _ => exact h.ext fun _ _ => bodyAB_kept
  | shl _ => exact h.base fun _ _ => bodyAB_kept
  | shlX _ => exact h.ext fun _ _ => bodyAB_kept
  | shr _ => exact h.base fun _ _ => bodyAB_kept
  | shrX _ => exact h.ext fun _ _ => bodyAB_kept
  | sar _ => exact h.base fun _ _ => bodyAB_kept
  | sarX _ => exact h.ext fun _ _ => bodyAB_kept
  | min _ => exact h.base fun _ _ => bodyAB_kept
  | minX _ => exact h.ext fun _ _ => bodyAB_kept
  | max _ => exact h.base fun _ _ => bodyAB_kept
  | maxX _ => exact h.ext fun _ _ => bodyAB_kept
  | minu _ => exact h.base fun _ _ => bodyAB_kept
  | minuX _ => exact h.ext fun _ _ => bodyAB_kept
  | maxu _ => exact h.base fun _ _ => bodyAB_kept
  | maxuX _ => exact h.ext fun _ _ => bodyAB_kept
  | andn _ => exact h.base fun _ _ => bodyAB_kept
  | andnX _ => exact h.ext fun _ _ => bodyAB_kept
  | addi _ => exact h.base fun _ _ => bodyAB_kept
  | addiX _ => exact h.ext fun _ _ => bodyAB_kept
  | shli _ => exact h.base fun _ _ => bodyAB_kept
  | shliX _ => exact h.ext fun _ _ => bodyAB_kept
  | shri _ => exact h.base fun _ _ => bodyAB_kept
  | shriX _ => exact h.ext fun _ _ => bodyAB_kept
  | sari _ => exact h.base fun _ _ => bodyAB_kept
  | sariX _ => exact h.ext fun _ _ => bodyAB_kept
  | andi _ => exact h.base fun _ _ => bodyAB_kept
  | andiX _ => exact h.ext fun _ _ => bodyAB_kept
  | ceq _ => exact h.base fun _ _ => bodyAB_kept
  | ceqX _ => exact h.ext fun _ _ => bodyAB_kept
  | cne _ => exact h.base fun _ _ => bodyAB_kept
  | cneX _ => exact h.ext fun _ _ => bodyAB_kept
  | clt _ => exact h.base fun _ _ => bodyAB_kept
  | cltX _ => exact h.ext fun _ _ => bodyAB_kept
  | cle _ => exact h.base fun _ _ => bodyAB_kept
  | cleX _ => exact h.ext fun _ _ => bodyAB_kept
  | cltu _ => exact h.base fun _ _ => bodyAB_kept
  | cltuX _ => exact h.ext fun _ _ => bodyAB_kept
  | cleu _ => exact h.base fun _ _ => bodyAB_kept
  | cleuX _ => exact h.ext fun _ _ => bodyAB_kept
  | sel _ => exact h.base fun _ _ => bodyABD_kept
  | selX _ => exact h.ext fun _ _ => bodyABD_kept
  | fadd _ => exact h.base fun _ _ => bodyF2_kept
  | faddX _ => exact h.ext fun _ _ => bodyF2_kept
  | fsub _ => exact h.base fun _ _ => bodyF2_kept
  | fsubX _ => exact h.ext fun _ _ => bodyF2_kept
  | fmul _ => exact h.base fun _ _ => bodyF2_kept
  | fmulX _ => exact h.ext fun _ _ => bodyF2_kept
  | fmac _ => exact h.base fun _ _ => bodyF3d_kept
  | fmacX _ => exact h.ext fun _ _ => bodyF3d_kept
  | fmin _ => exact h.base fun _ _ => bodyFsel_kept
  | fminX _ => exact h.ext fun _ _ => bodyFsel_kept
  | fmax _ => exact h.base fun _ _ => bodyFsel_kept
  | fmaxX _ => exact h.ext fun _ _ => bodyFsel_kept
  | fceq _ => exact h.base fun _ _ => bodyFcmp_kept
  | fceqX _ => exact h.ext fun _ _ => bodyFcmp_kept
  | fclt _ => exact h.base fun _ _ => bodyFcmp_kept
  | fcltX _ => exact h.ext fun _ _ => bodyFcmp_kept
  | fcle _ => exact h.base fun _ _ => bodyFcmp_kept
  | fcleX _ => exact h.ext fun _ _ => bodyFcmp_kept
  | hadd _ => exact h.base fun _ _ => bodyP2_kept
  | haddX _ => exact h.ext fun _ _ => bodyP2_kept
  | hmul _ => exact h.base fun _ _ => bodyP2_kept
  | hmulX _ => exact h.ext fun _ _ => bodyP2_kept
  | hmac _ => exact h.base fun _ _ => bodyP3d_kept
  | hmacX _ => exact h.ext fun _ _ => bodyP3d_kept
  | badd _ => exact h.base fun _ _ => bodyP2_kept
  | baddX _ => exact h.ext fun _ _ => bodyP2_kept
  | bmul _ => exact h.base fun _ _ => bodyP2_kept
  | bmulX _ => exact h.ext fun _ _ => bodyP2_kept
  | bmac _ => exact h.base fun _ _ => bodyP3d_kept
  | bmacX _ => exact h.ext fun _ _ => bodyP3d_kept
  | shfl _ => exact h.base fun _ _ => bodyShfl_kept
  | shflX _ => exact h.ext fun _ _ => bodyShfl_kept
  | shflx _ => exact h.base fun _ _ => bodyShfl_kept
  | shflxX _ => exact h.ext fun _ _ => bodyShfl_kept
  | ldsw _ => exact h.base fun _ _ => bodyLdsw_kept
  | ldswX _ => exact h.ext fun _ _ => bodyLdsw_kept
  | stsw _ => exact h.base fun _ _ => bodyStsw_kept
  | stswX _ => exact h.ext fun _ _ => bodyStsw_kept
  | twrd _ => exact h.base fun _ _ => bodyTwrd_kept
  | twrdX _ => exact h.ext fun _ _ => bodyTwrd_kept
  | twwr _ => exact h.base fun _ _ => bodyTwwr_kept
  | twwrX _ => exact h.ext fun _ _ => bodyTwwr_kept
  | bra _ => exact h.base fun _ _ => bodyBra_kept
  | braX _ => exact h.ext fun _ _ => bodyBra_kept
  | brany _ => exact h.base fun _ _ => bodyBrIf_kept
  | branyX _ => exact h.ext fun _ _ => bodyBrIf_kept
  | brall _ => exact h.base fun _ _ => bodyBrIf_kept
  | brallX _ => exact h.ext fun _ _ => bodyBrIf_kept
  | brnone _ => exact h.base fun _ _ => bodyBrIf_kept
  | brnoneX _ => exact h.ext fun _ _ => bodyBrIf_kept
  | exit _ => exact h.base fun _ _ => bodyExit_kept
  | exitX _ => exact h.ext fun _ _ => bodyExit_kept
  | bar _ => exact h.base fun _ _ => bodyBar_kept
  | barX _ => exact h.ext fun _ _ => bodyBar_kept
  | maskp _ => exact h.base fun _ _ => bodyMaskp_kept
  | maskpX _ => exact h.ext fun _ _ => bodyMaskp_kept
  | getm _ => exact h.base fun _ _ => bodyGetm_kept
  | getmX _ => exact h.ext fun _ _ => bodyGetm_kept
  | setm _ => exact h.base fun _ _ => bodySetm_kept
  | setmX _ => exact h.ext fun _ _ => bodySetm_kept
  | radd _ => exact h.base fun _ _ => bodyFold_kept
  | raddX _ => exact h.ext fun _ _ => bodyFold_kept
  | rmax _ => exact h.base fun _ _ => bodyFold_kept
  | rmaxX _ => exact h.ext fun _ _ => bodyFold_kept
  | mad _ => exact h.base fun _ _ => bodyABD_kept
  | madX _ => exact h.ext fun _ _ => bodyABD_kept
  | popc _ => exact h.base fun _ _ => bodyA_kept
  | popcX _ => exact h.ext fun _ _ => bodyA_kept
  | clz _ => exact h.base fun _ _ => bodyA_kept
  | clzX _ => exact h.ext fun _ _ => bodyA_kept
  | call _ => exact h.ext fun _ _ => bodyCall_kept
  | callr _ => exact h.ext fun _ _ => bodyCallr_kept
  | ret _ => exact h.ext fun _ _ => bodyJmpr_kept
  | jmpr _ => exact h.ext fun _ _ => bodyJmpr_kept
  | yield _ => exact h.ext fun _ _ => bodyYield_kept
  | yieldj _ => exact h.ext fun _ _ => bodyYieldj_kept
  | region _ => exact h.ext fun _ _ => bodyRegion_kept
  | mcall _ => exact h.ext fun _ _ => bodyMcall_kept
  | barn _ => exact h.ext fun _ _ => bodyBarn_kept
  | arrive _ => exact h.ext fun _ _ => bodyArrive_kept
  | waitb _ => exact h.ext fun _ _ => bodyWaitb_kept
  | twadd _ => exact h.ext fun _ _ => bodyTwRmw_kept
  | twcas _ => exact h.ext fun _ _ => bodyTwRmw_kept
  | srd _ => exact h.ext fun _ _ => bodySrd_kept
  | swr _ => exact h.ext fun _ _ => bodySwr_kept
  | trap _ => exact h.ext fun _ _ _ => bodyTrap_kept
  | eret _ => exact h.ext fun _ _ => bodyEret_kept
  | brk _ => exact h.ext fun _ _ _ => bodyBrk_kept
  | mulhi _ => exact h.ext fun _ _ => bodyAB_kept
  | mulhiu _ => exact h.ext fun _ _ => bodyAB_kept
  | addp _ => exact h.ext fun _ _ => bodyPair_kept
  | subp _ => exact h.ext fun _ _ => bodyPair_kept
  | mulp _ => exact h.ext fun _ _ => bodyPair_kept
  | lea _ => exact h.ext fun _ _ => bodyLea_kept
  | abs _ => exact h.ext fun _ _ => bodyA_kept
  | rol _ => exact h.ext fun _ _ => bodyAB_kept
  | ror _ => exact h.ext fun _ _ => bodyAB_kept
  | ctz _ => exact h.ext fun _ _ => bodyA_kept
  | brev _ => exact h.ext fun _ _ => bodyA_kept
  | bfx _ => exact h.ext fun _ _ => bodyAB_kept
  | bfxu _ => exact h.ext fun _ _ => bodyAB_kept
  | bfi _ => exact h.ext fun _ _ => bodyABD_kept
  | divs _ => exact h.ext fun _ _ => bodyDiv_kept
  | divu _ => exact h.ext fun _ _ => bodyDiv_kept
  | rems _ => exact h.ext fun _ _ => bodyDiv_kept
  | remu _ => exact h.ext fun _ _ => bodyDiv_kept
  | shflu _ => exact h.ext fun _ _ => bodyShfl_kept
  | shfld _ => exact h.ext fun _ _ => bodyShfl_kept
  | vote _ => exact h.ext fun _ _ => bodyVote_kept
  | matchLanes _ => exact h.ext fun _ _ => bodyMatch_kept
  | rmin _ => exact h.ext fun _ _ => bodyFold_kept
  | rminu _ => exact h.ext fun _ _ => bodyFold_kept
  | rmaxu _ => exact h.ext fun _ _ => bodyFold_kept
  | scan _ => exact h.ext fun _ _ => bodyScan_kept
  | xchg _ => exact h.ext fun _ _ => bodyXchg_kept
  | rng _ => exact h.ext fun _ _ => bodyAB_kept
  | shlp _ => exact h.ext fun _ _ => bodyPairShift_kept
  | shrp _ => exact h.ext fun _ _ => bodyPairShift_kept
  | sarp _ => exact h.ext fun _ _ => bodyPairShift_kept
  | ceqp _ => exact h.ext fun _ _ => bodyPairCmp_kept
  | cltp _ => exact h.ext fun _ _ => bodyPairCmp_kept
  | cltup _ => exact h.ext fun _ _ => bodyPairCmp_kept
  | ffma _ => exact h.ext fun _ _ => bodyF3_kept
  | fnms _ => exact h.ext fun _ _ => bodyF3_kept
  | fabs _ => exact h.ext fun _ _ => bodyFsign_kept
  | fneg _ => exact h.ext fun _ _ => bodyFsign_kept
  | fminn _ => exact h.ext fun _ _ => bodyFsel_kept
  | fmaxn _ => exact h.ext fun _ _ => bodyFsel_kept
  | fcun _ => exact h.ext fun _ _ => bodyFcmp_kept
  | fclass _ => exact h.ext fun _ _ => bodyA_kept
  | frnd _ => exact h.ext fun _ _ => bodyFrnd_kept
  | frcp _ => exact h.ext fun _ _ => bodyFn_kept
  | frsq _ => exact h.ext fun _ _ => bodyFn_kept
  | fsqrt _ => exact h.ext fun _ _ => bodyFn_kept
  | fexp2 _ => exact h.ext fun _ _ => bodyFn_kept
  | flog2 _ => exact h.ext fun _ _ => bodyFn_kept
  | ftanh _ => exact h.ext fun _ _ => bodyFn_kept
  | fscl _ => exact h.ext fun _ _ => bodyFscl_kept
  | hfma _ => exact h.ext fun _ _ => bodyP3_kept
  | bfma _ => exact h.ext fun _ _ => bodyP3_kept
  | hmin _ => exact h.ext fun _ _ => bodyPsel_kept
  | hmax _ => exact h.ext fun _ _ => bodyPsel_kept
  | cvtf _ => exact h.ext fun _ _ => bodyCvtf_kept
  | cvtfi _ => exact h.ext fun _ _ => bodyCvtfi_kept
  | cvtif _ => exact h.ext fun _ _ => bodyCvtif_kept
  | cvtt _ => exact h.ext fun _ _ => bodyCvtt_kept
  | cvttf _ => exact h.ext fun _ _ => bodyCvttf_kept
  | fredadd _ => exact h.ext fun _ _ => bodyFredadd_kept
  | fredmax _ => exact h.ext fun _ _ => bodyFred_kept
  | fredmin _ => exact h.ext fun _ _ => bodyFred_kept
  | fredmaxi _ => exact h.ext fun _ _ => bodyFredIdx_kept
  | fredmini _ => exact h.ext fun _ _ => bodyFredIdx_kept
  | ld _ => exact h.ext fun _ _ => bodyLd_kept
  | st _ => exact h.ext fun _ _ => bodySt_kept
  | lda _ => exact h.ext fun _ _ => bodyLda_kept
  | stl _ => exact h.ext fun _ _ => bodyStl_kept
  | lds _ => exact h.ext fun _ _ => bodyLds_kept
  | sts _ => exact h.ext fun _ _ => bodySts_kept
  | atom _ => exact h.ext fun _ _ => bodyAtom_kept
  | atoms _ => exact h.ext fun _ _ => bodyAtoms_kept
  | red _ => exact h.ext fun _ _ => bodyRed_kept
  | fence _ => exact h.ext fun _ _ => bodyFence_kept
  | mcst _ => exact h.ext fun _ _ => bodyMcst_kept
  | prf _ => exact h.ext fun _ _ => bodyPrf_kept
  | cinv _ => exact h.ext fun _ _ => bodyCinv_kept
  | tile _ => exact h.ext fun _ _ => bodyTile_kept
  | waitm _ => exact h.ext fun _ _ => bodyWaitm_kept
  | mma _ => exact h.ext fun _ _ => bodyMma_kept
  | mmasp _ => exact h.ext fun _ _ => bodyMmasp_kept
  | accz _ => exact h.ext fun _ _ => bodyAccz_kept
  | accld _ => exact h.ext fun _ _ => bodyAccld_kept
  | accst _ => exact h.ext fun _ _ => bodyAccst_kept
  | acccvt _ => exact h.ext fun _ _ => bodyAcccvt_kept
  | ldmeta _ => exact h.ext fun _ _ => bodyLdmeta_kept
  | mwait _ => exact h.ext fun _ _ => bodyMwait_kept
  | qset _ => exact h.ext fun _ _ => bodyQset_kept
  | qacq _ => exact h.ext fun _ _ => bodyQacq_kept
  | qcommit _ => exact h.ext fun _ _ => bodyQcommit_kept
  | qwait _ => exact h.ext fun _ _ => bodyQwait_kept
  | qfree _ => exact h.ext fun _ _ => bodyQfree_kept
  | cpyj _ => exact h.ext fun _ _ => bodyCpyj_kept
  | gatj _ => exact h.ext fun _ _ => bodyGatj_kept
  | colj _ => exact h.ext fun _ _ => bodyColj_kept
  | jwait _ => exact h.ext fun _ _ => bodyJwait_kept
  | jtest _ => exact h.ext fun _ _ => bodyJtest_kept
  | hboard _ => exact h.ext fun _ _ => bodyHboard_kept
  | hcancel _ => exact h.ext fun _ _ => bodyHcancel_kept
  | hlap _ => exact h.ext fun _ _ => bodyHlap_kept
  | kvrsv _ => exact h.ext fun _ _ => bodyKvrsv_kept
  | kvw _ => exact h.ext fun _ _ => bodyKvw_kept
  | kvr _ => exact h.ext fun _ _ => bodyKvr_kept
  | kvrt _ => exact h.ext fun _ _ => bodyKvrt_kept
  | kvpub _ => exact h.ext fun _ _ => bodyKvpub_kept
  | kvacq _ => exact h.ext fun _ _ => bodyKvacq_kept
  | kvwait _ => exact h.ext fun _ _ => bodyKvwait_kept
  | kvcmt _ => exact h.ext fun _ _ => bodyKvcmt_kept
  | kvroll _ => exact h.ext fun _ _ => bodyKvroll_kept
  | kvgen _ => exact h.ext fun _ _ => bodyKvgen_kept
  | kvstage _ => exact h.ext fun _ _ => bodyKvstage_kept
  | pawin _ => exact h.ext fun _ _ => bodyPawin_kept
  | pald _ => exact h.ext fun _ _ => bodyPald_kept
  | pain _ => exact h.ext fun _ _ => bodyPain_kept
  | pago _ => exact h.ext fun _ _ => bodyPago_kept
  | pacap _ => exact h.ext fun _ _ => bodyPacap_kept
  | paclr _ => exact h.ext fun _ _ => bodyPaclr_kept
  | macroBodyWord _ _ => exact execMacroBodyWord_kept h
  | fixedResultLand _ _ => exact execFixedResultLand_kept h
  | variableResultWrite _ _ _ => exact execVariableResultWrite_kept h
  | regionComplete _ _ => exact execRegionComplete_kept h
  | dividerSubstep _ _ => exact execDividerSubstep_kept h
  | coalescerGroup _ _ => exact execCoalescerGroup_kept h
  | kvSubstep _ _ => exact execKvSubstep_kept h
  | paldSubstep _ => exact execPaldSubstep_kept h
  | yieldEnd _ _ => exact execYieldEnd_kept h
  | teamWordApply _ => exact execTeamWordApply_kept h
  | beamWake _ _ => exact execBeamWake_kept h
  | watchReply _ => exact execWatchReply_kept h
  | watchTimeout _ => exact execWatchTimeout_kept h
  | siblingStop _ _ => exact execSiblingStop_kept h
  | engineEntryStart _ => exact execEngineEntryStart_kept h
  | engineSubstep _ => exact execEngineSubstep_kept h
  | engineEntryComplete _ => exact execEngineEntryComplete_kept h
  | prismWindowEnd _ => exact execPrismWindowEnd_kept h
  | telemetryRecompute _ => exact execTelemetryRecompute_kept h
  | sliceAccess _ => exact execSliceAccess_kept h
  | acknowledgement _ => exact execAcknowledgement_kept h
  | packetArbitration _ => exact execPacketArbitration_kept h
  | pageWalk _ _ _ => exact execPageWalk_kept h
  | faultTimeout _ => exact execFaultTimeout_kept h
  | operandLogReplay _ => exact execOperandLogReplay_kept h
  | shootdownRange _ => exact execShootdownRange_kept h
  | shootdownSpace _ => exact execShootdownSpace_kept h
  | shootdownTenant _ => exact execShootdownTenant_kept h
  | shootdownDone => exact execShootdownDone_kept h
  | pageMigrate _ _ _ => exact execPageMigrate_kept h
  | rdUpgrade _ => exact execRdUpgrade_kept h
  | rdGrant _ _ _ => exact execRdGrant_kept h
  | rdInvalidate _ _ _ => exact execRdInvalidate_kept h
  | rdAckComplete _ => exact execRdAckComplete_kept h
  | rdTimeout _ => exact execRdTimeout_kept h
  | jobComplete _ => exact execJobComplete_kept h
  | teamPlace _ _ => exact execTeamPlace_kept h
  | quantumExpiry _ => exact execQuantumExpiry_kept h
  | preempt _ => exact execPreempt_kept h
  | teamRestore _ _ => exact execTeamRestore_kept h
  | beamRetire _ _ => exact execBeamRetire_kept h
  | teamRetire _ => exact execTeamRetire_kept h
  | gridComplete _ => exact execGridComplete_kept h
  | fcfgRst _ => exact execFcfgRst_kept h
  | resetDrained _ => exact execResetDrained_kept h
  | fcfgRel _ => exact execFcfgRel_kept h
  | registerWrite _ _ _ => exact execRegisterWrite_kept h
  | counterClear _ => exact execCounterClear_kept h
  | gateWays _ _ => exact execGateWays_kept h
  | gateGranules _ _ _ => exact execGateGranules_kept h
  | wakeDone => exact execWakeDone_kept h
  | haloRunStart _ => exact execHaloRunStart_kept h
  | haloRunStop _ => exact execHaloRunStop_kept h
  | haloThrSet _ _ => exact execHaloThrSet_kept h
  | hnextWrite _ _ _ => exact execHnextWrite_kept h
  | lapBoundary _ => exact execLapBoundary_kept h
  | tilePassing _ _ _ => exact execTilePassing_kept h
  | tileChecked _ _ _ => exact execTileChecked_kept h
  | tileCommit _ _ => exact execTileCommit_kept h
  | boardRegister _ _ => exact execBoardRegister_kept h
  | write _ => exact execWrite_kept h
  | read _ => exact execRead_kept h
  | setparam _ => exact execSetparam_kept h
  | replay _ => exact execReplay_kept h
  | query _ => exact execQuery_kept h
  | attest _ => exact execAttest_kept h
  | reset _ => exact execReset_kept h
  | resolve _ => exact execResolve_kept h
  | fail _ => exact execFail_kept h
  | mbtailWrite _ _ => exact execMbtailWrite_kept h
  | mbcfgWrite _ _ => exact execMbcfgWrite_kept h
  | mbcheadWrite _ _ => exact execMbcheadWrite_kept h
  | commandFetch _ => exact execCommandFetch_kept h
  | replayStart _ => exact execReplayStart_kept h
  | nodeLaunch _ _ => exact execNodeLaunch_kept h
  | nodeJob _ _ => exact execNodeJob_kept h
  | nodeWait _ _ => exact execNodeWait_kept h
  | waitPoll _ _ => exact execWaitPoll_kept h
  | nodeSignal _ _ => exact execNodeSignal_kept h
  | replayEnd _ => exact execReplayEnd_kept h
  | budgetPeriod => exact execBudgetPeriod_kept h
  | refillWrite _ _ => exact execRefillWrite_kept h
  | prectlGo _ => exact execPrectlGo_kept h
  | gsctlEnable => exact execGsctlEnable_kept h
  | gsctlDisable => exact execGsctlDisable_kept h
  | gangSliceStart => exact execGangSliceStart_kept h
  | arrived _ _ _ => exact execArrived_kept h
  | gangDecide => exact execGangDecide_kept h
  | openGate => exact execOpenGate_kept h
  | forfeit _ => exact execForfeit_kept h
  | powerOn _ => exact execPowerOn_kept h
  | perst _ => exact execPerst_kept h
  | d3hotEnter => exact execD3hotEnter_kept h
  | d0Return => exact execD0Return_kept h
  | train _ => exact execTrain_kept h
  | drain _ => exact execDrain_kept h
  | hold _ => exact execHold_kept h
  | dark _ => exact execDark_kept h
  | relock _ => exact execRelock_kept h
  | release _ => exact execRelease_kept h
  | down _ => exact execDown_kept h
  | trainTimeout _ => exact execTrainTimeout_kept h
  | bankenClear _ _ => exact execBankenClear_kept h
  | flitReceive _ _ => exact execFlitReceive_kept h
  | nakRepeat _ => exact execNakRepeat_kept h
  | markerAck _ => exact execMarkerAck_kept h
  | lossOfLight _ _ => exact execLossOfLight_kept h
  | restripeDone _ => exact execRestripeDone_kept h
  | restripeDecode _ _ => exact execRestripeDecode_kept h
  | portDown _ => exact execPortDown_kept h
  | packetReceive _ => exact execPacketReceive_kept h
  | remoteTimeout _ => exact execRemoteTimeout_kept h
  | capability _ _ => exact execCapability_kept h
  | collimatorStamp _ _ => exact execCollimatorStamp_kept h
  | stampedApply _ => exact execStampedApply_kept h
  | fabricTimeLock _ => exact execFabricTimeLock_kept h
  | evcfgWrite _ _ => exact execEvcfgWrite_kept h
  | trainingComplete _ _ _ _ => exact execTrainingComplete_kept h
  | lossOfSignal _ _ => exact execLossOfSignal_kept h
  | preemptDrainTimeout _ _ => exact execPreemptDrainTimeout_kept h
  | gangSliceEnd => exact execGangSliceEnd_kept h

/-! ### What happens in a cycle -/

theorem Kept.fetchIssue {r T b} (h : Kept True s t) : KeptNext True s (t.fetchIssue r T b) := by
  unfold State.fetchIssue
  split
  · split
    · exact exec_kept (Kept.of_snd h.fetch ‹_›).same
    · exact (Kept.of_snd h.fetch ‹_›).same.badWord
  · exact (Kept.of_snd h.fetch ‹_›).same.badWord
  · exact (Kept.of_snd h.fetch ‹_›).faultWait

theorem Kept.issueBeam {r T b} (h : Kept True s t) : KeptNext True s (t.issueBeam r T b) := by
  unfold State.issueBeam
  split
  · exact h.bodyStep
  · exact h.fetchIssue

theorem Kept.sendOut (h : Kept w s t) : Kept w s t.sendOut :=
  .foldl (fun _ _ k => .getD (fun _ => k.sendPacket) k) h.same

theorem Kept.linkCycle {l} (h : Kept True s t) : Kept True s (t.linkCycle l) := .ite h.pump h.pump.same.forwardN

/-! ### Steps -/

theorem KeptNext.canonical {x : Host.Outcome State Fault Refusal} (h : KeptNext w s x) (e : x = .next t) (c : s.canonical) :
    t.canonical := by
  subst e
  exact Kept.canonical h c

theorem exec_canonical {i : Instr} (e : exec i s = .next t) (c : s.canonical) : t.canonical :=
  (exec_kept .refl).canonical e c

theorem State.issueBeam_canonical {r : Ref} {T : Team} {b : Beam} (e : s.issueBeam r T b = .next t) (c : s.canonical) :
    t.canonical :=
  (Kept.issueBeam .refl).canonical e c

/-- The events that a press puts on the agenda change no memory. -/
theorem State.press_canonical (c : s.canonical) : s.press.canonical := by
  unfold State.press
  split
  · exact c
  · exact c

theorem State.tick_canonical (c : s.canonical) : s.tick.canonical := by
  unfold State.tick
  extract_lets f s1 s2 s3 s4
  have c1 : s1.canonical := c
  have k2 : Kept True s1 s2 := .ite Kept.refl.chargeAll .refl
  have c3 : s3.canonical := State.press_canonical ((Kept.foldl (fun _ _ k => k.linkCycle) k2.sendOut).canonical c1)
  have k4 : Kept True s3 s4 := Kept.refl.same
  split
  · exact (Kept.ite k4 k4.bootEnd).canonical c3
  · exact c3

theorem State.idle_canonical (e : s.idle = .next t) (c : s.canonical) : t.canonical := by
  unfold State.idle at e
  dsimp only at e
  split at e
  · cases e
    exact State.tick_canonical c
  · split at e
    · exact exec_canonical e c
    · cases e
      exact State.tick_canonical c

theorem State.run_canonical (e : s.run = .next t) (c : s.canonical) : t.canonical := by
  unfold State.run at e
  dsimp only at e
  split at e
  · exact exec_canonical e c
  · split at e
    · exact State.issueBeam_canonical e c
    · split at e
      · exact exec_canonical e c
      · exact State.idle_canonical e c

/-- A step runs the event at the head of the agenda, or does what the machine does of its own. -/
theorem step_canonical (e : step s = .next t) (c : s.canonical) : t.canonical := by
  unfold step at e
  split at e
  · exact exec_canonical e c
  · exact State.run_canonical e c
  · exact State.run_canonical e c

end

/-- Settles O13: each operation that a step is made of keeps both memories in canonical form. -/
theorem memoryStaysCanonical : Obligations.MemoryStaysCanonical := fun _ _ c e => step_canonical e c

end Sys2Proof.Machine
end

section
/-! SUPPORT. Decoding and encoding (R7, R8, R13, R14, R18 to R21): words and their bytes, the layouts of the base word and
of the extended form, and that the words of an instruction are those that decode to it. -/

namespace Sys2Proof.Machine

/-! ### Fields of a word -/

/-- Bits that are a concatenation are its two parts, each where it stands. -/
theorem extractLsb'_eq_append {n s a b : Nat} {w : BitVec n} {x : BitVec a} {y : BitVec b} :
    w.extractLsb' s (a + b) = x ++ y ↔ w.extractLsb' (s + b) a = x ∧ w.extractLsb' s b = y := by
  rw [← BitVec.extractLsb'_append_extractLsb'_eq_extractLsb' (rfl : s + b = s + b)]
  constructor
  · intro h
    constructor
    · have := congrArg (BitVec.extractLsb' b a) h
      rwa [BitVec.extractLsb'_append_eq_left, BitVec.extractLsb'_append_eq_left] at this
    · have := congrArg (BitVec.extractLsb' 0 b) h
      rwa [BitVec.extractLsb'_append_eq_right, BitVec.extractLsb'_append_eq_right] at this
  · rintro ⟨rfl, rfl⟩
    rfl

theorem eq_iff_extractLsb'_eq {n : Nat} {w v : BitVec n} : w = v ↔ w.extractLsb' 0 n = v := by
  rw [BitVec.extractLsb'_eq_self]

/-- One bit of a word, as a field and as a flag. -/
theorem extractLsb'_eq_bit {n k : Nat} {w : BitVec n} {b : Bool} : w.extractLsb' k 1 = Bool.bit b ↔ w.getLsbD k = b := by
  constructor
  · intro h
    have := congrArg (·.getLsbD 0) h
    simpa [Bool.bit] using this
  · rintro rfl
    ext i hi
    obtain rfl : i = 0 := by omega
    simp [Bool.bit]

theorem eq_wordOfBytes_iff {w : Word} {b0 b1 b2 b3 : Byte} : w = wordOfBytes b0 b1 b2 b3 ↔ bytesOfWord w = [b0, b1, b2, b3] := by
  unfold wordOfBytes
  rw [eq_iff_extractLsb'_eq, extractLsb'_eq_append (b := 8), extractLsb'_eq_append (b := 8), extractLsb'_eq_append (b := 8)]
  simp only [bytesOfWord, List.cons.injEq, and_true, Nat.reduceAdd]
  tauto

theorem eq_litOfWords_iff {l : Dword} {lo hi : Word} : l = litOfWords lo hi ↔ l.extractLsb' 0 32 = lo ∧ l.extractLsb' 32 32 = hi := by
  unfold litOfWords
  rw [eq_iff_extractLsb'_eq, extractLsb'_eq_append (b := 32)]
  exact and_comm

/-! ### Words of a byte sequence -/

/-- A word is taken from a byte sequence exactly where its bytes stand first. -/
theorem takeWord_eq_some {bs r : List Byte} {w : Word} : takeWord bs = some (w, r) ↔ bs = bytesOfWord w ++ r := by
  constructor
  · intro h
    unfold takeWord at h
    split at h
    · cases h
      rw [eq_wordOfBytes_iff.mp rfl]
      rfl
    · cases h
  · rintro rfl
    simp only [bytesOfWord, takeWord, List.cons_append, List.nil_append, Option.some.injEq, Prod.mk.injEq, and_true]
    exact (eq_wordOfBytes_iff.mpr rfl).symm

/-- `n` words are taken from a byte sequence exactly where their bytes stand first. -/
theorem takeWords_eq_some {n : Nat} {bs r : List Byte} {ws : List Word} :
    takeWords n bs = some (ws, r) ↔ ws.length = n ∧ bs = ws.flatMap bytesOfWord ++ r := by
  constructor
  · intro h
    induction n generalizing bs ws with
    | zero => cases h; exact ⟨rfl, rfl⟩
    | succ n ih =>
      unfold takeWords at h
      split at h
      · cases h
      next w q hw =>
        split at h
        · cases h
        next vs r' hvs =>
          cases h
          obtain ⟨hl, hq⟩ := ih hvs
          exact ⟨by simp [hl], by rw [takeWord_eq_some.mp hw, hq]; simp⟩
  · rintro ⟨rfl, rfl⟩
    induction ws with
    | nil => rfl
    | cons w ws ih =>
      have hw : takeWord ((w :: ws).flatMap bytesOfWord ++ r) = some (w, ws.flatMap bytesOfWord ++ r) :=
        takeWord_eq_some.mpr (by simp)
      simp only [List.length_cons, takeWords, hw, ih]

/-- Four bytes make a word. -/
theorem length_flatMap_bytesOfWord (ws : List Word) : (ws.flatMap bytesOfWord).length = 4 * ws.length := by
  induction ws with
  | nil => rfl
  | cons w ws ih =>
    have hw : (bytesOfWord w).length = 4 := rfl
    simp only [List.flatMap_cons, List.length_append, List.length_cons, ih, hw]
    omega

/-- A byte sequence decodes as the words at its head do, as many as LEN of the first asks for. -/
theorem decode_eq_some {bs r : List Byte} {i : Instr} :
    decode bs = some (i, r) ↔ ∃ w ws, (w :: ws).length = lenWords (lenOf w) ∧ decodeWords (w :: ws) = some i ∧
      bs = (w :: ws).flatMap bytesOfWord ++ r := by
  constructor
  · intro h
    unfold decode at h
    split at h
    · cases h
    next w0 q hw =>
      split at h
      · cases h
      next ws r' hws =>
        split at h
        · cases h
        next j hj =>
          cases h
          obtain ⟨hl, rfl⟩ := takeWords_eq_some.mp hws
          cases ws with
          | nil => exact absurd hj (by simp [decodeWords])
          | cons w ws =>
            have hw' := takeWord_eq_some.mpr (show (w :: ws).flatMap bytesOfWord ++ r =
              bytesOfWord w ++ (ws.flatMap bytesOfWord ++ r) by simp)
            obtain ⟨rfl, -⟩ := Prod.mk.inj (Option.some.inj (hw.symm.trans hw'))
            exact ⟨w0, ws, hl, hj, rfl⟩
  · rintro ⟨w, ws, hl, hd, rfl⟩
    have hw := takeWord_eq_some.mpr (show (w :: ws).flatMap bytesOfWord ++ r =
      bytesOfWord w ++ (ws.flatMap bytesOfWord ++ r) by simp)
    have hws : takeWords (lenWords (lenOf w)) ((w :: ws).flatMap bytesOfWord ++ r) = some (w :: ws, r) :=
      takeWords_eq_some.mpr ⟨hl, rfl⟩
    simp only [decode, hw, hws, hd]

/-! ### Numbers and operands of instructions -/

/-- The instruction of a base opcode and operands has these as its number and operands, and a number of six bits. -/
theorem form_of_ofBase {op : Nat} {o : BaseOps} {i : Instr} (h : Instr.ofBase op o = some i) :
    i.form = .base op o ∧ op < 64 := by
  cases o with
  | b3 o => simp only [Instr.ofBase, Instr.ofB3] at h; split at h <;> cases h <;> exact ⟨rfl, by decide⟩
  | bi o => simp only [Instr.ofBase, Instr.ofBI] at h; split at h <;> cases h <;> exact ⟨rfl, by decide⟩
  | bb o => simp only [Instr.ofBase, Instr.ofBB] at h; split at h <;> cases h <;> exact ⟨rfl, by decide⟩
  | bj o => simp only [Instr.ofBase, Instr.ofBJ] at h; split at h <;> cases h; exact ⟨rfl, by decide⟩
  | bz o => simp only [Instr.ofBase, Instr.ofBZ] at h; split at h <;> cases h <;> exact ⟨rfl, by decide⟩

/-- The instruction of an extended opcode and fields has these as its number and fields, and a number of ten bits. -/
theorem form_of_ofX {n : Nat} {x : Ext} {i : Instr} (h : Instr.ofX n x = some i) : i.form = .ext n x ∧ n < 1024 := by
  unfold Instr.ofX at h
  split_ifs at h
  case pos => unfold ofTwinLo at h; split at h <;> cases h <;> exact ⟨rfl, by decide⟩
  case pos => unfold ofTwinHi at h; split at h <;> cases h <;> exact ⟨rfl, by decide⟩
  case pos => unfold ofCtrl at h; split at h <;> cases h <;> exact ⟨rfl, by decide⟩
  case pos => unfold ofInt at h; split at h <;> cases h <;> exact ⟨rfl, by decide⟩
  case pos => unfold ofFloat at h; split at h <;> cases h <;> exact ⟨rfl, by decide⟩
  case pos => unfold ofMem at h; split at h <;> cases h <;> exact ⟨rfl, by decide⟩
  case pos => unfold ofMatrix at h; split at h <;> cases h <;> exact ⟨rfl, by decide⟩
  case pos => unfold ofEngine at h; split at h <;> cases h <;> exact ⟨rfl, by decide⟩
  case pos => unfold ofHalo at h; split at h <;> cases h <;> exact ⟨rfl, by decide⟩
  case pos => unfold ofKv at h; split at h <;> cases h <;> exact ⟨rfl, by decide⟩
  case neg => unfold ofPrism at h; split at h <;> cases h <;> exact ⟨rfl, by decide⟩

theorem form_eq_base_iff {op : Nat} {o : BaseOps} {i : Instr} : i.form = .base op o ↔ Instr.ofBase op o = some i := by
  constructor
  · intro h
    have := Laws.OfForm.all i
    simpa only [Laws.OfForm.Statement, h] using this
  · exact fun h => (form_of_ofBase h).1

theorem form_eq_ext_iff {n : Nat} {x : Ext} {i : Instr} : i.form = .ext n x ↔ Instr.ofX n x = some i := by
  constructor
  · intro h
    have := Laws.OfForm.all i
    simpa only [Laws.OfForm.Statement, h] using this
  · exact fun h => (form_of_ofX h).1

/-! ### The words of an instruction -/

/-- The two words of a literal, low word first (R7). -/
def litWords (lit : Option Dword) : List Word :=
  match lit with
  | none => []
  | some l => [l.extractLsb' 0 32, l.extractLsb' 32 32]

theorem litWords_inj {a b : Option Dword} : litWords a = litWords b ↔ a = b := by
  refine ⟨fun h => ?_, congrArg _⟩
  cases a with
  | none => cases b with
    | none => rfl
    | some m => cases h
  | some l => cases b with
    | none => cases h
    | some m =>
      simp only [litWords, List.cons.injEq, and_true] at h
      rw [eq_litOfWords_iff.mpr h, ← eq_litOfWords_iff.mpr ⟨rfl, rfl⟩]

theorem litWords_litOfWords (lo hi : Word) : litWords (some (litOfWords lo hi)) = [lo, hi] := by
  obtain ⟨h1, h2⟩ := eq_litOfWords_iff.mp (rfl : litOfWords lo hi = litOfWords lo hi)
  simp only [litWords, h1, h2]

/-- LEN of a base word (R8). -/
def baseLen (lit : Option Dword) : BitVec 2 := if lit.isSome then 2 else 0

/-- LEN of an extended instruction (R8). -/
def extLen (lit : Option Dword) : BitVec 2 := if lit.isSome then 3 else 1

/-- The opcodes of each layout (R14, R34). -/
def inLayout (op : Nat) (o : BaseOps) : Prop :=
  match o with
  | .bz _ => op = 0x00 ∨ op = 0x35 ∨ op = 0x36
  | .bj _ => op = 0x31
  | .bb _ => op = 0x32 ∨ op = 0x33 ∨ op = 0x34
  | .bi _ => (0x10 ≤ op ∧ op ≤ 0x14) ∨ (0x2D ≤ op ∧ op ≤ 0x30)
  | .b3 _ => (0x01 ≤ op ∧ op ≤ 0x0F) ∨ (0x15 ≤ op ∧ op ≤ 0x2C) ∨ 0x37 ≤ op

/-- A legal base word has an opcode of its layout. -/
theorem inLayout_of_baseOk {op : Nat} {o : BaseOps} (h : baseOk op o = true) : inLayout op o := by
  cases o with
  | bz o => simpa [baseOk, inLayout] using h
  | bj o => simpa [baseOk, inLayout] using h
  | bb o => simpa [baseOk, inLayout] using h
  | bi o => simp only [baseOk] at h; split at h <;> simp_all [inLayout]
  | b3 o =>
    simp only [baseOk, Bool.and_eq_true, decide_eq_true_eq] at h
    obtain ⟨-, hn⟩ := h
    simp only [List.mem_cons, List.not_mem_nil, or_false, not_or] at hn
    simp only [inLayout]
    omega

theorem op6Of_eq_iff {w : Word} {op : Nat} (h : op < 64) : op6Of w = op ↔ w.extractLsb' 21 6 = BitVec.ofNat 6 op := by
  rw [← BitVec.toNat_inj, BitVec.toNat_ofNat, Nat.mod_eq_of_lt h]
  rfl

theorem xopOf_eq_iff {w : Word} {n : Nat} (h : n < 1024) : xopOf w = n ↔ w.extractLsb' 17 10 = BitVec.ofNat 10 n := by
  rw [← BitVec.toNat_inj, BitVec.toNat_ofNat, Nat.mod_eq_of_lt h]
  rfl

/-- The operand fields of a base word, and the literal after it, are these (R14, R18). -/
def operandsStand (w : Word) (lit : Option Dword) (o : BaseOps) : Prop :=
  match o with
  | .bz o => w.extractLsb' 27 3 = o.st ∧ w.extractLsb' 0 21 = 0 ∧ lit = none
  | .bj o => w.extractLsb' 27 3 = o.st ∧ w.extractLsb' 0 21 = o.off ∧ lit = none
  | .bb o => w.extractLsb' 27 3 = o.st ∧ w.extractLsb' 14 7 = o.a ∧ w.extractLsb' 0 14 = o.off ∧ lit = none
  | .bi o =>
    w.extractLsb' 27 3 = o.st ∧ w.extractLsb' 14 7 = o.d ∧ w.extractLsb' 7 7 = o.a ∧ w.extractLsb' 0 7 = o.imm ∧ lit = none
  | .b3 o =>
    w.extractLsb' 27 3 = o.st ∧ w.extractLsb' 14 7 = o.d ∧ w.extractLsb' 7 7 = o.a ∧ w.extractLsb' 0 7 = o.b ∧ lit = o.lit

/-- The decoder reads the operands of a layout that the opcode has exactly where they stand. -/
theorem baseOpsOf_eq_some_iff {w : Word} {lit : Option Dword} {o : BaseOps} (h : inLayout (op6Of w) o) :
    baseOpsOf w lit = some o ↔ operandsStand w lit o := by
  unfold baseOpsOf
  cases o with
  | bz o =>
    obtain ⟨st⟩ := o
    simp only [inLayout] at h
    rw [if_pos h]
    simp [operandsStand]
    tauto
  | bj o =>
    obtain ⟨st, off⟩ := o
    simp only [inLayout] at h
    rw [if_neg (by omega), if_pos h]
    simp [operandsStand]
    tauto
  | bb o =>
    obtain ⟨st, a, off⟩ := o
    simp only [inLayout] at h
    rw [if_neg (by omega), if_neg (by omega), if_pos h]
    simp [operandsStand]
    tauto
  | bi o =>
    obtain ⟨st, d, a, imm⟩ := o
    simp only [inLayout] at h
    rw [if_neg (by omega), if_neg (by omega), if_neg (by omega), if_pos h]
    simp [operandsStand]
    tauto
  | b3 o =>
    obtain ⟨st, d, a, b, l⟩ := o
    simp only [inLayout] at h
    rw [if_neg (by omega), if_neg (by omega), if_neg (by omega), if_neg (by omega)]
    simp [operandsStand]

/-- A base word of three register fields (R14). -/
theorem eq_b3Word_iff {w : Word} {l : BitVec 2} {st : BitVec 3} {o6 : BitVec 6} {d a b : BitVec 7} :
    w = (l ++ st ++ o6 ++ d ++ a ++ b : BitVec 32) ↔ lenOf w = l ∧ w.extractLsb' 27 3 = st ∧ w.extractLsb' 21 6 = o6 ∧
      w.extractLsb' 14 7 = d ∧ w.extractLsb' 7 7 = a ∧ w.extractLsb' 0 7 = b := by
  rw [eq_iff_extractLsb'_eq, extractLsb'_eq_append (b := 7), extractLsb'_eq_append (b := 7), extractLsb'_eq_append (b := 7),
     extractLsb'_eq_append (b := 6), extractLsb'_eq_append (b := 3)]
  simp only [lenOf, and_assoc, Nat.reduceAdd]

/-- A base word of layout BB (R14). -/
theorem eq_bbWord_iff {w : Word} {l : BitVec 2} {st : BitVec 3} {o6 : BitVec 6} {a : BitVec 7} {off : BitVec 14} :
    w = (l ++ st ++ o6 ++ a ++ off : BitVec 32) ↔ lenOf w = l ∧ w.extractLsb' 27 3 = st ∧ w.extractLsb' 21 6 = o6 ∧
      w.extractLsb' 14 7 = a ∧ w.extractLsb' 0 14 = off := by
  rw [eq_iff_extractLsb'_eq, extractLsb'_eq_append (b := 14), extractLsb'_eq_append (b := 7), extractLsb'_eq_append (b := 6),
    extractLsb'_eq_append (b := 3)]
  simp only [lenOf, and_assoc, Nat.reduceAdd]

/-- A base word of layout BJ or BZ (R14). -/
theorem eq_bjWord_iff {w : Word} {l : BitVec 2} {st : BitVec 3} {o6 : BitVec 6} {off : BitVec 21} :
    w = (l ++ st ++ o6 ++ off : BitVec 32) ↔ lenOf w = l ∧ w.extractLsb' 27 3 = st ∧ w.extractLsb' 21 6 = o6 ∧
      w.extractLsb' 0 21 = off := by
  rw [eq_iff_extractLsb'_eq, extractLsb'_eq_append (b := 21), extractLsb'_eq_append (b := 6), extractLsb'_eq_append (b := 3)]
  simp only [lenOf, and_assoc, Nat.reduceAdd]

/-- The words of a base instruction are those in which its opcode and its operands stand (R13, R14, R18). -/
theorem cons_eq_encodeBase_iff {w : Word} {lit : Option Dword} {op : Nat} {o : BaseOps} (hop : op < 64) :
    w :: litWords lit = encodeBase op o ↔ lenOf w = baseLen lit ∧ op6Of w = op ∧ operandsStand w lit o := by
  rw [op6Of_eq_iff hop]
  cases o with
  | bz o =>
    cases lit <;> simp [encodeBase, litWords, eq_bjWord_iff, baseLen, operandsStand]
    tauto
  | bj o =>
    cases lit <;> simp [encodeBase, litWords, eq_bjWord_iff, baseLen, operandsStand]
    tauto
  | bb o =>
    cases lit <;> simp [encodeBase, litWords, eq_bbWord_iff, baseLen, operandsStand]
    tauto
  | bi o =>
    cases lit <;> simp [encodeBase, litWords, eq_b3Word_iff, baseLen, operandsStand]
    tauto
  | b3 o =>
    have h : encodeBase op (.b3 o) =
        (baseLen o.lit ++ o.st ++ BitVec.ofNat 6 op ++ o.d ++ o.a ++ o.b : BitVec 32) :: litWords o.lit := by
      cases hl : o.lit <;> simp only [encodeBase, hl] <;> rfl
    rw [h, List.cons.injEq, eq_b3Word_iff, litWords_inj]
    simp only [operandsStand]
    constructor
    · rintro ⟨⟨hl, hst, hn, hd, ha, hb⟩, rfl⟩
      exact ⟨hl, hn, hst, hd, ha, hb, rfl⟩
    · rintro ⟨hl, hn, hst, hd, ha, hb, rfl⟩
      exact ⟨⟨hl, hst, hn, hd, ha, hb⟩, rfl⟩

/-! ### The extended form -/

/-- Word 0 of an extended instruction (R19). -/
theorem eq_extWord0_iff {w : Word} {l : BitVec 2} {st : BitVec 3} {n d : BitVec 10} {i : Bool} {flg : BitVec 6} :
    w = (l ++ st ++ n ++ d ++ Bool.bit i ++ flg : BitVec 32) ↔ lenOf w = l ∧ w.extractLsb' 27 3 = st ∧
      w.extractLsb' 17 10 = n ∧ w.extractLsb' 7 10 = d ∧ w.getLsbD 6 = i ∧ w.extractLsb' 0 6 = flg := by
  rw [eq_iff_extractLsb'_eq, extractLsb'_eq_append (b := 6), extractLsb'_eq_append (b := 1), extractLsb'_eq_append (b := 10),
    extractLsb'_eq_append (b := 10), extractLsb'_eq_append (b := 3), extractLsb'_eq_bit]
  simp only [lenOf, and_assoc, Nat.reduceAdd]

/-- Word 1 of an extended instruction (R20). -/
theorem eq_extWord1_iff {w : Word} {a b c : BitVec 10} {z : BitVec 2} :
    w = (a ++ b ++ c ++ z : BitVec 32) ↔
      w.extractLsb' 22 10 = a ∧ w.extractLsb' 12 10 = b ∧ w.extractLsb' 2 10 = c ∧ w.extractLsb' 0 2 = z := by
  rw [eq_iff_extractLsb'_eq, extractLsb'_eq_append (b := 2), extractLsb'_eq_append (b := 10), extractLsb'_eq_append (b := 10)]
  simp only [and_assoc, Nat.reduceAdd]

/-- Word 2 of an extended instruction (R21). -/
theorem eq_extWord2_iff {w : Word} {p : BitVec 10} {pe pn : Bool} {bcm bcs : BitVec 2} {bln : BitVec 5} {ru : Bool}
    {x10 : BitVec 10} :
    w = (p ++ Bool.bit pe ++ Bool.bit pn ++ bcm ++ bcs ++ bln ++ Bool.bit ru ++ x10 : BitVec 32) ↔
      w.extractLsb' 22 10 = p ∧ w.getLsbD 21 = pe ∧ w.getLsbD 20 = pn ∧ w.extractLsb' 18 2 = bcm ∧ w.extractLsb' 16 2 = bcs ∧
        w.extractLsb' 11 5 = bln ∧ w.getLsbD 10 = ru ∧ w.extractLsb' 0 10 = x10 := by
  rw [eq_iff_extractLsb'_eq, extractLsb'_eq_append (b := 10), extractLsb'_eq_append (b := 1), extractLsb'_eq_append (b := 5),
    extractLsb'_eq_append (b := 2), extractLsb'_eq_append (b := 2), extractLsb'_eq_append (b := 1),
    extractLsb'_eq_append (b := 1), extractLsb'_eq_bit, extractLsb'_eq_bit, extractLsb'_eq_bit]
  simp only [and_assoc, Nat.reduceAdd]

/-- The words of an extended instruction are those in which its opcode and its fields stand (R19 to R21). -/
theorem cons_eq_encodeExt_iff {w0 w1 w2 : Word} {lit : Option Dword} {n : Nat} {x : Ext} (hn : n < 1024) :
    w0 :: w1 :: w2 :: litWords lit = encodeExt n x ↔
      lenOf w0 = extLen lit ∧ xopOf w0 = n ∧ w1.extractLsb' 0 2 = 0 ∧ extOf w0 w1 w2 lit = x := by
  have h : encodeExt n x =
      (extLen x.lit ++ x.st ++ BitVec.ofNat 10 n ++ x.d ++ Bool.bit x.immb ++ x.flg : BitVec 32) ::
      (x.a ++ x.b ++ x.c ++ 0#2 : BitVec 32) ::
      (x.p ++ Bool.bit x.pe ++ Bool.bit x.pn ++ x.bcm ++ x.bcs ++ x.bln ++ Bool.bit x.ru ++ x.x10 : BitVec 32) ::
      litWords x.lit := by
    unfold encodeExt
    cases x.lit <;> rfl
  rw [xopOf_eq_iff hn, h]
  simp only [List.cons.injEq, eq_extWord0_iff, eq_extWord1_iff, eq_extWord2_iff, litWords_inj]
  constructor
  · rintro ⟨⟨hl, hst, hn, hd, hi, hflg⟩, ⟨ha, hb, hc, hz⟩, ⟨hp, hpe, hpn, hbcm, hbcs, hbln, hru, hx10⟩, rfl⟩
    refine ⟨hl, hn, hz, ?_⟩
    rw [extOf, hst, hd, hi, hflg, ha, hb, hc, hp, hpe, hpn, hbcm, hbcs, hbln, hru, hx10]
  · rintro ⟨hl, hn, hz, rfl⟩
    exact ⟨⟨hl, rfl, hn, rfl, rfl, rfl⟩, ⟨rfl, rfl, rfl, hz⟩, ⟨rfl, rfl, rfl, rfl, rfl, rfl, rfl, rfl⟩, rfl⟩

/-! ### Instructions -/

theorem decodeBase_eq_some_iff {w : Word} {lit : Option Dword} {i : Instr} :
    lenOf w = baseLen lit ∧ decodeBase w lit = some i ↔
      ∃ op o, i.form = .base op o ∧ baseOk op o = true ∧ w :: litWords lit = encodeBase op o := by
  constructor
  · rintro ⟨hl, hd⟩
    unfold decodeBase at hd
    split at hd
    · cases hd
    next o ho =>
      split_ifs at hd with hok
      obtain ⟨hf, hlt⟩ := form_of_ofBase hd
      exact ⟨_, o, hf, hok, (cons_eq_encodeBase_iff hlt).mpr
        ⟨hl, rfl, (baseOpsOf_eq_some_iff (inLayout_of_baseOk hok)).mp ho⟩⟩
  · rintro ⟨op, o, hf, hok, hw⟩
    have hi := form_eq_base_iff.mp hf
    obtain ⟨hl, rfl, ho⟩ := (cons_eq_encodeBase_iff (form_of_ofBase hi).2).mp hw
    refine ⟨hl, ?_⟩
    simp only [decodeBase, (baseOpsOf_eq_some_iff (inLayout_of_baseOk hok)).mpr ho, if_pos hok, hi]

theorem decodeExt_eq_some_iff {w0 w1 w2 : Word} {lit : Option Dword} {i : Instr} :
    lenOf w0 = extLen lit ∧ decodeExt w0 w1 w2 lit = some i ↔
      ∃ n x, i.form = .ext n x ∧ extOk n x = true ∧ w0 :: w1 :: w2 :: litWords lit = encodeExt n x := by
  constructor
  · rintro ⟨hl, hd⟩
    simp only [decodeExt] at hd
    split_ifs at hd with hok
    obtain ⟨hz, hok⟩ := hok
    obtain ⟨hf, hlt⟩ := form_of_ofX hd
    exact ⟨_, _, hf, hok, (cons_eq_encodeExt_iff hlt).mpr ⟨hl, rfl, hz, rfl⟩⟩
  · rintro ⟨n, x, hf, hok, hw⟩
    have hi := form_eq_ext_iff.mp hf
    obtain ⟨hl, rfl, hz, rfl⟩ := (cons_eq_encodeExt_iff (form_of_ofX hi).2).mp hw
    exact ⟨hl, by simp only [decodeExt, if_pos (And.intro hz hok), hi]⟩

theorem litOfWords_extract (l : Dword) : litOfWords (l.extractLsb' 0 32) (l.extractLsb' 32 32) = l :=
  (eq_litOfWords_iff.mpr ⟨rfl, rfl⟩).symm

/-- Words whose LEN is that of a base word are decoded as one. -/
theorem decodeWords_base {w : Word} {lit : Option Dword} (h : lenOf w = baseLen lit) :
    decodeWords (w :: litWords lit) = decodeBase w lit := by
  cases lit <;> simp [decodeWords, litWords, h, baseLen, litOfWords_extract]

/-- Words whose LEN is that of an extended instruction are decoded as one. -/
theorem decodeWords_ext {w0 w1 w2 : Word} {lit : Option Dword} (h : lenOf w0 = extLen lit) :
    decodeWords (w0 :: w1 :: w2 :: litWords lit) = decodeExt w0 w1 w2 lit := by
  cases lit <;> simp [decodeWords, litWords, h, extLen, litOfWords_extract]

/-- A base instruction is one word and a literal's. -/
theorem exists_encodeBase_eq (op : Nat) (o : BaseOps) : ∃ w lit, encodeBase op o = w :: litWords lit := by
  cases o with
  | b3 o => cases hl : o.lit with
    | none => exact ⟨_, none, by simp only [encodeBase, hl]; rfl⟩
    | some l => exact ⟨_, some l, by simp only [encodeBase, hl]; rfl⟩
  | _ => exact ⟨_, none, rfl⟩

/-- An extended instruction is three words and a literal's. -/
theorem exists_encodeExt_eq (n : Nat) (x : Ext) : ∃ w0 w1 w2 lit, encodeExt n x = w0 :: w1 :: w2 :: litWords lit := by
  cases hl : x.lit with
  | none => exact ⟨_, _, _, none, by simp only [encodeExt, hl]; rfl⟩
  | some l => exact ⟨_, _, _, some l, by simp only [encodeExt, hl]; rfl⟩

/-- A coded instruction has the words of a base or of an extended one, and is legal as its opcode and operands are. -/
theorem isCoded_wf_encode_iff {ws : List Word} {i : Instr} :
    isCoded i = true ∧ i.wf = true ∧ ws = encode i ↔
      (∃ op o, i.form = .base op o ∧ baseOk op o = true ∧ ws = encodeBase op o) ∨
        ∃ n x, i.form = .ext n x ∧ extOk n x = true ∧ ws = encodeExt n x := by
  unfold isCoded Instr.wf encode
  cases i.form <;> simp [Form.ok]

/-- Words decode to an instruction exactly where it is legal and they are its words (R8, R39, R40). -/
theorem decodeWords_eq_some_iff {ws : List Word} {i : Instr} :
    decodeWords ws = some i ↔ isCoded i = true ∧ i.wf = true ∧ ws = encode i := by
  rw [isCoded_wf_encode_iff]
  constructor
  · intro h
    unfold decodeWords at h
    split at h
    next w0 =>
      split_ifs at h with hl
      exact .inl (decodeBase_eq_some_iff (lit := none).mp ⟨hl, h⟩)
    next w0 w1 w2 =>
      split_ifs at h with h1 h2
      · exact .inr (decodeExt_eq_some_iff (lit := none).mp ⟨h1, h⟩)
      · have hw := decodeBase_eq_some_iff.mp ⟨h2, h⟩
        rw [litWords_litOfWords] at hw
        exact .inl hw
    next w0 w1 w2 w3 w4 =>
      split_ifs at h with hl
      have hw := decodeExt_eq_some_iff.mp ⟨hl, h⟩
      rw [litWords_litOfWords] at hw
      exact .inr hw
    next => cases h
  · rintro (⟨op, o, hf, hok, rfl⟩ | ⟨n, x, hf, hok, rfl⟩)
    · obtain ⟨w, lit, he⟩ := exists_encodeBase_eq op o
      obtain ⟨hl, hd⟩ := decodeBase_eq_some_iff.mpr ⟨op, o, hf, hok, he.symm⟩
      rw [he, decodeWords_base hl, hd]
    · obtain ⟨w0, w1, w2, lit, he⟩ := exists_encodeExt_eq n x
      obtain ⟨hl, hd⟩ := decodeExt_eq_some_iff.mpr ⟨n, x, hf, hok, he.symm⟩
      rw [he, decodeWords_ext hl, hd]

/-- The words of a legal instruction are as many as LEN of the first says. -/
theorem length_encode {w : Word} {ws : List Word} {i : Instr} (h : decodeWords (w :: ws) = some i) :
    (w :: ws).length = lenWords (lenOf w) := by
  unfold decodeWords at h
  split at h
  next w0 he =>
    split_ifs at h with hl
    cases he
    rw [hl]; rfl
  next w0 w1 w2 he =>
    cases he
    split_ifs at h with h1 h2
    · rw [h1]; rfl
    · rw [h2]; rfl
  next w0 w1 w2 w3 w4 he =>
    cases he
    split_ifs at h with hl
    rw [hl]; rfl
  next => cases h

/-- The words of an instruction are as long as LEN says (R8). -/
theorem length_encodeBytes {i : Instr} : (encodeBytes i).length = lengthOf i := by
  rw [encodeBytes, length_flatMap_bytesOfWord]
  unfold encode lengthOf
  cases i.form with
  | base op o =>
    cases o with
    | b3 o => cases hl : o.lit <;> simp [encodeBase, baseBytes, hl]
    | _ => rfl
  | ext n x => cases hl : x.lit <;> simp [encodeExt, Ext.bytes, hl]
  | event => rfl

/-- Bytes decode to an instruction exactly where it is legal and its bytes stand first (R7, R8, R39, R40). -/
theorem decode_eq_some_iff {bs r : List Byte} {i : Instr} :
    decode bs = some (i, r) ↔ isCoded i = true ∧ i.wf = true ∧ bs = encodeBytes i ++ r := by
  rw [decode_eq_some]
  constructor
  · rintro ⟨w, ws, -, hd, rfl⟩
    obtain ⟨hc, hw, he⟩ := decodeWords_eq_some_iff.mp hd
    exact ⟨hc, hw, by rw [encodeBytes, he]⟩
  · rintro ⟨hc, hw, rfl⟩
    have hd := decodeWords_eq_some_iff.mpr ⟨hc, hw, rfl⟩
    cases he : encode i with
    | nil => rw [he] at hd; simp [decodeWords] at hd
    | cons w ws =>
      rw [he] at hd
      exact ⟨w, ws, length_encode hd, hd, by rw [encodeBytes, he]⟩

/-- Settles O57: the fields of each layout and the word that holds them determine each other, so that words decode to an
instruction exactly where it is legal and they are its words. -/
theorem encoding : Obligations.Encoding := by
  constructor
  · intro i r hc hw
    exact decode_eq_some_iff.mpr ⟨hc, hw, rfl⟩
  · intro bs r i h
    obtain ⟨hc, hw, hb⟩ := decode_eq_some_iff.mp h
    exact ⟨hc, hw, hb, length_encodeBytes⟩

end Sys2Proof.Machine
end

section
/-! SUPPORT. What an issued instruction leaves (R7, R82, R92), and the control transfers (R10, R166 to R168). -/

namespace Sys2Proof.Machine

open Sys2Proof.Claim

/-! ### After the effect (R7, R82, R92) -/

/-- The halt of a running beam counts nothing. -/
theorem Beam.skidOne_of_run {b : Beam} (now : Nat) (h : b.halt = .run) : b.skidOne now = b := by
  simp [Beam.skidOne, h]

/-- A beam that the state holds is updated in its place. -/
theorem State.modBeam_of_hasBeam {s : State} {r : Ref} {T : Team} {b : Beam} (h : HasBeam s r T b) (f : Beam → Beam) :
    s.modBeam r f = s.setBeam r (f b) := by
  obtain ⟨hT, hb⟩ := h
  simp only [State.modBeam, State.beam?, hT, hb]

/-- Outside a body of `MCALL` the PC goes on (R7). -/
theorem Beam.advance_of_none {b : Beam} {e : Env} {pc : Option Dword} (h : e.b.mcall = none) :
    b.advance e pc = { b with
      pc := pc.getD (b.pc + BitVec.ofNat 64 e.len), issueAt := Max.max b.issueAt e.next, lastIssue := some e.now, latched := none
      trapped := if causeInh e.b.cause then b.trapped else none
      waitPc := e.b.pc, resume := if e.n = 0x050 then b.resume else none } := by
  simp only [Beam.advance, h]

/-- Before the last word of a body of `MCALL` the next word follows (R92). -/
theorem Beam.advance_of_word {b : Beam} {e : Env} {pc : Option Dword} {m : CallCtx} (h : e.b.mcall = some m)
    (hw : m.word + 1 < m.last) :
    b.advance e pc = { b with
      mcall := some { m with word := m.word + 1 }, issueAt := Max.max b.issueAt e.next, lastIssue := some e.now, latched := none
      trapped := if causeInh e.b.cause then b.trapped else none
      waitPc := e.b.pc, resume := if e.n = 0x050 then b.resume else none } := by
  simp only [Beam.advance, h, if_neg (Nat.not_le.mpr hw)]

/-- After the last word of a body of `MCALL` the beam goes on behind the call, when its fixed-latency writes are ready (R92). -/
theorem Beam.advance_of_last {b : Beam} {e : Env} {pc : Option Dword} {m : CallCtx} (h : e.b.mcall = some m)
    (hw : m.last ≤ m.word + 1) :
    b.advance e pc = { b with
      mcall := none, pc := m.next, issueAt := Max.max (Max.max b.issueAt e.next) b.lastReady, lastIssue := some e.now
      latched := none, trapped := if causeInh e.b.cause then b.trapped else none
      waitPc := e.b.pc, resume := if e.n = 0x050 then b.resume else none } := by
  simp only [Beam.advance, h, if_pos hw]
  rfl

/-- Moving on leaves the halt. -/
theorem Beam.advance_halt (b : Beam) (e : Env) (pc : Option Dword) : (b.advance e pc).halt = b.halt := by
  cases hm : e.b.mcall with
  | none => rw [Beam.advance_of_none hm]
  | some m =>
    by_cases hw : m.word + 1 < m.last
    · rw [Beam.advance_of_word hm hw]
    · rw [Beam.advance_of_last hm (Nat.not_lt.mp hw)]

/-- A running beam moves on, and nothing else of the state changes. -/
theorem Issue.finish_of_run {e : Env} {s : State} {T : Team} {b : Beam} (pc : Option Dword) (h : HasBeam s e.r T b)
    (hr : b.halt = .run) : Issue.finish e s pc = s.setBeam e.r (b.advance e pc) := by
  rw [Issue.finish, State.modBeam_of_hasBeam h, Beam.skidOne_of_run _ ((b.advance_halt e pc).trans hr)]

/-- Settles O4: what `Beam.advance` does in each of its three cases. -/
theorem issueMovesTheBeamOn : Obligations.IssueMovesTheBeamOn := by
  intro e s T b pc hb hr next
  refine ⟨b.advance e pc, Issue.finish_of_run pc hb hr, ?_⟩
  have hh := (b.advance_halt e pc).trans hr
  cases hm : e.b.mcall with
  | none =>
    rw [Beam.advance_of_none hm] at hh ⊢
    exact ⟨rfl, hh, fun _ => rfl, nofun, nofun, nofun⟩
  | some m =>
    by_cases hw : m.word + 1 < m.last
    · rw [Beam.advance_of_word hm hw] at hh ⊢
      refine ⟨rfl, hh, nofun, fun _ _ => ⟨rfl, rfl, rfl, rfl, rfl⟩, fun _ hk _ => ?_, fun k hk hl => ?_⟩
      · cases hk; exact ⟨rfl, rfl, rfl⟩
      · cases hk; omega
    · rw [Beam.advance_of_last hm (Nat.not_lt.mp hw)] at hh ⊢
      refine ⟨rfl, hh, nofun, fun _ _ => ⟨rfl, rfl, rfl, rfl, rfl⟩, fun _ hk hl => ?_, fun _ hk _ => ?_⟩
      · cases hk; exact absurd hl hw
      · cases hk; exact ⟨rfl, rfl, rfl⟩

/-! ### Control transfers (R10, R166 to R168) -/

/-- An instruction that issues sees its own fields. -/
theorem Issues.x_eq {i : Instr} {s s1 : State} {e : Env} (h : Issues i s e s1) : e.x = fieldsOf i e.b := by
  obtain ⟨⟨-, -, -, -, -, hv, -⟩, -⟩ := h
  rw [hv]; rfl

/-- The target of a branch by an offset of this value (R17). -/
theorem Env.branchTarget_eq {e : Env} {off : Int} (h : e.x.immDword = BitVec.ofInt 64 off) : e.branchTarget = target e off := by
  simp only [Env.branchTarget, target, Env.pc, z64, h, BitVec.ofInt_add, BitVec.ofInt_mul, BitVec.ofInt_natCast,
    BitVec.ofNat_toNat, BitVec.setWidth_eq]
  rfl

/-- The offset of a branch's twin is its immediate (R22). -/
theorem Ext.immDword_eq_extOffset (x : Ext) : x.immDword = BitVec.ofInt 64 (extOffset x) := by
  unfold Ext.immDword extOffset
  cases x.lit with
  | none => rfl
  | some l => exact (BitVec.ofInt_toInt).symm

/-- The lanes whose predicate bit is set are those whose A is odd (R167). -/
theorem Env.predLanes_eq (e : Env) : e.predLanes = e.activeLanes.filter fun l => (e.a l).toNat % 2 = 1 := by
  unfold Env.predLanes
  congr 1
  funext l
  simp [BitVec.getLsbD, Nat.testBit_zero]

/-- The lowest lane of a mask heads the list of its lanes. -/
theorem lowestLane_eq (m : Word) : lowestLane m = (lanes.filter fun l => m.getLsbD l).headD 0 := by
  rw [List.headD_eq_head?_getD, List.head?_filter]
  rfl

/-- The lane that stands for the beam (R163). -/
theorem Env.liveLane_eq (e : Env) : e.liveLane = beamLane e := by
  unfold Env.liveLane beamLane
  split_ifs with h1 h2
  · rfl
  · rw [Env.firstActive, if_neg h2.2, lowestLane_eq]
    rfl
  · rw [lowestLane_eq]

theorem Env.aPairLive_eq (e : Env) : e.aPairLive = beamPair e := by
  rw [Env.aPairLive, Env.liveLane_eq]
  rfl

/-- The words of the link (R168). -/
theorem Env.link_eq (e : Env) (s : State) : e.link s = linked e s := by
  have hn : e.nextPc.toNat = (e.b.pc.toNat + e.len) % 2 ^ 64 := by simp [Env.nextPc]
  unfold Env.link linked pairWords
  congr 2
  funext l
  congr 2
  · exact BitVec.eq_of_toNat_eq (by simp [hn, w32])
  · congr 1
    exact BitVec.eq_of_toNat_eq (by simp [hn, w32, Nat.shiftRight_eq_div_pow])

/-- A branch target is aligned where its two low bits are 0 (R10). -/
theorem aligned_iff (t : Dword) : t.extractLsb' 0 2 = 0 ↔ t.toNat % 4 = 0 := by
  rw [← BitVec.toNat_inj]
  simp [BitVec.extractLsb'_toNat]

/-- `NOP`'s body leaves the state (R166). -/
theorem nopHasNoEffect : NopHasNoEffect :=
  ⟨fun _ _ _ _ h => h.base rfl bodyNop, fun _ _ _ _ h => h.ext rfl bodyNop⟩

/-- What a conditional branch answers (R167). -/
theorem bodyBrIf_outcome {e : Env} {s1 : State} {off : Int} {taken : Env → Bool} {p : Prop}
    (hx : e.x.immDword = BitVec.ofInt 64 off) (hp : taken e = true ↔ p) :
    (p → (bodyBrIf taken e s1).outcome e s1 = .next (Issue.finish e s1 (some (target e off)))) ∧
    (¬ p → (bodyBrIf taken e s1).outcome e s1 = .next (Issue.finish e s1 none)) := by
  rw [← hp, ← Env.branchTarget_eq hx]
  constructor
  · intro h
    rw [bodyBrIf, if_pos h, Res.outcome_jump]
  · intro h
    rw [bodyBrIf, if_neg h, Res.outcome_done]

theorem takenAny_iff (e : Env) : takenAny e = true ↔ anyTaken e.activeLanes (e.activeLanes.filter fun l => (e.a l).toNat % 2 = 1) := by
  rw [takenAny, decide_eq_true_iff, Env.predLanes_eq]; rfl

theorem takenAll_iff (e : Env) : takenAll e = true ↔ allTaken e.activeLanes (e.activeLanes.filter fun l => (e.a l).toNat % 2 = 1) := by
  rw [takenAll, Bool.and_eq_true, decide_eq_true_iff, decide_eq_true_iff, Env.predLanes_eq]; rfl

theorem takenNone_iff (e : Env) : takenNone e = true ↔ noneTaken e.activeLanes (e.activeLanes.filter fun l => (e.a l).toNat % 2 = 1) := by
  rw [takenNone, decide_eq_true_iff, Env.predLanes_eq]; rfl

/-- A conditional base branch (R167). -/
theorem branches_base {i : Instr} {op : Nat} {o : BB} {taken : Env → Bool} {p : List Nat → List Nat → Prop}
    (hf : i.form = .base op (.bb o)) (hx : ∀ s, exec i s = Issue.base op (.bb o) (bodyBrIf taken) s)
    (hp : ∀ e, taken e = true ↔ p e.activeLanes (e.activeLanes.filter fun l => (e.a l).toNat % 2 = 1)) :
    Branches i o.off.toInt p := by
  intro s e s1 h
  have hi : e.x.immDword = BitVec.ofInt 64 o.off.toInt := by
    rw [h.x_eq, fieldsOf, hf]; rfl
  simp only [JumpsTo, Completes, hx, h.base hf]
  exact bodyBrIf_outcome hi (hp e)

/-- The twin of a conditional branch (R167). -/
theorem branches_ext {i : Instr} {n : Nat} {x : Ext} {taken : Env → Bool} {p : List Nat → List Nat → Prop}
    (hf : i.form = .ext n x) (hx : ∀ s, exec i s = Issue.ext n x (bodyBrIf taken) s)
    (hp : ∀ e, taken e = true ↔ p e.activeLanes (e.activeLanes.filter fun l => (e.a l).toNat % 2 = 1)) :
    Branches i (extOffset x) p := by
  intro s e s1 h
  have hi : e.x.immDword = BitVec.ofInt 64 (extOffset x) := by
    rw [h.x_eq, fieldsOf, hf, Ext.immDword_eq_extOffset]
  simp only [JumpsTo, Completes, hx, h.ext hf]
  exact bodyBrIf_outcome hi (hp e)

/-- Each branch by its body (R167). -/
theorem branchesAreTaken : BranchesAreTaken := by
  refine ⟨fun o s e s1 h => ?_, fun x s e s1 h => ?_, fun o => branches_base rfl (fun _ => rfl) takenAny_iff,
    fun x => branches_ext rfl (fun _ => rfl) takenAny_iff, fun o => branches_base rfl (fun _ => rfl) takenAll_iff,
    fun x => branches_ext rfl (fun _ => rfl) takenAll_iff, fun o => branches_base rfl (fun _ => rfl) takenNone_iff,
    fun x => branches_ext rfl (fun _ => rfl) takenNone_iff⟩
  · rw [← Env.branchTarget_eq (by rw [h.x_eq]; rfl)]
    exact h.base rfl bodyBra
  · rw [← Env.branchTarget_eq (by rw [h.x_eq]; exact Ext.immDword_eq_extOffset x)]
    exact h.ext rfl bodyBra

/-- A register target is jumped to where it is aligned, and is `MISALIGN` where it is not (R10, R168). -/
theorem registerTarget_outcome (e : Env) (s1 s' : State) (t : Dword) :
    let x := if t.extractLsb' 0 2 ≠ 0 then Res.trapOwn cMISALIGN else .jump s' t
    (t.toNat % 4 = 0 → x.outcome e s1 = .next (Issue.finish e s' (some t))) ∧
    (t.toNat % 4 ≠ 0 → x.outcome e s1 = .next (Issue.trap (Issue.issued s1 e.r e.next) e.r cMISALIGN 0 none none 0)) := by
  simp only [ne_eq, ← aligned_iff]
  constructor
  · intro h
    rw [if_neg (not_not.mpr h), Res.outcome_jump]
  · intro h
    rw [if_pos h]
    rfl

/-- Each call and jump by its body (R10, R168). -/
theorem callsAndJumps : CallsAndJumps := by
  refine ⟨fun x s e s1 h => ?_, fun x s e s1 h => ?_, fun i hi x s e s1 h => ?_⟩
  · rw [← Env.branchTarget_eq (by rw [h.x_eq]; exact Ext.immDword_eq_extOffset x), ← Env.link_eq]
    exact h.ext rfl bodyCall
  · have hx : exec (.callr x) s = _ := h.ext rfl bodyCallr
    rw [JumpsTo, TrapsOwn, hx, bodyCallr, Env.aPairLive_eq, Env.link_eq]
    exact registerTarget_outcome e s1 (linked e s1) (beamPair e)
  · have hx : exec (i x) s = (bodyJmpr e s1).outcome e s1 := by
      simp only [List.mem_cons, List.not_mem_nil, or_false] at hi
      obtain rfl | rfl := hi
      · exact h.ext rfl bodyJmpr
      · exact h.ext rfl bodyJmpr
    rw [JumpsTo, TrapsOwn, hx, bodyJmpr, Env.aPairLive_eq]
    exact registerTarget_outcome e s1 s1 (beamPair e)

/-- Settles O20: each control transfer's body, with the target and the link in the words of the statement. -/
theorem controlTransfers : Obligations.ControlTransfers := ⟨nopHasNoEffect, branchesAreTaken, callsAndJumps⟩

end Sys2Proof.Machine
end

section
/-! SUPPORT. When a beam may issue (R107, R182, R390). -/

namespace Sys2Proof.Machine

open Sys2Proof.Claim

theorem Team.isResident_iff {T : Team} : T.isResident = true ↔ ∃ c, T.life = .resident c := by
  unfold Team.isResident
  cases T.life <;> simp

/-- The handler's beam waits until no sibling skids (R182). -/
theorem Team.quiet_iff {T : Team} {k : Nat} :
    T.quiet k = true ↔ (T.handler = some k → ∀ c ∈ T.beams, ∀ n m, c.halt ≠ .skidding n m) := by
  simp only [Team.quiet, Bool.or_eq_true, decide_eq_true_eq, List.all_eq_true]
  rw [← imp_iff_not_or]
  refine imp_congr_right fun _ => forall₂_congr fun c _ => ?_
  cases c.halt <;> simp

theorem State.owes_eq_false_iff {s : State} {T : Team} : s.owes T = false ↔ ∀ i ∈ T.owed, ∀ g ∈ s.net.log, g.id ≠ i := by
  simp [State.owes]

/-- The halt leaves the beam an instruction to issue, and no trap waits to be entered (R182). -/
theorem Beam.canGo_iff {b : Beam} {now : Nat} :
    b.canGo now = true ↔ b.ptrap = none ∧ (b.halt = .run ∨ ∃ n m, b.halt = .skidding n m ∧ (n ≠ 0 ∨ now ≤ m)) := by
  unfold Beam.canGo
  cases b.halt <;> simp [and_comm]

theorem Beam.mayIssue_iff {b : Beam} {now : Nat} :
    b.mayIssue now = true ↔ b.status = .ready ∧ b.ptrap = none ∧ b.lvm ≠ 0 ∧ b.issueAt ≤ now ∧
      (b.halt = .run ∨ ∃ n m, b.halt = .skidding n m ∧ (n ≠ 0 ∨ now ≤ m)) := by
  simp only [Beam.mayIssue, Bool.and_eq_true, decide_eq_true_eq, Beam.canGo_iff]
  exact ⟨fun ⟨⟨⟨hs, hp, hh⟩, hl⟩, hi⟩ => ⟨hs, hp, hl, hi, hh⟩, fun ⟨hs, hp, hl, hi, hh⟩ => ⟨⟨⟨hs, hp, hh⟩, hl⟩, hi⟩⟩

/-- R107, R182, R164, R359, R390, R404: the conditions under which a beam may issue, one by one. -/
theorem whenABeamMayIssue : WhenABeamMayIssue := by
  intro s T b k
  simp only [State.mayIssue, Bool.and_eq_true, Bool.not_eq_true', Team.isResident_iff, Team.quiet_iff, State.owes_eq_false_iff,
    Beam.mayIssue_iff, State.gateClosed, State.partOf]
  exact ⟨fun ⟨⟨⟨⟨⟨⟨hr, hs⟩, hq⟩, hg⟩, hd⟩, ho⟩, hb⟩ => ⟨hr, hs, hd, hg, hq, ho, hb⟩,
    fun ⟨hr, hs, hd, hg, hq, ho, hb⟩ => ⟨⟨⟨⟨⟨⟨hr, hs⟩, hq⟩, hg⟩, hd⟩, ho⟩, hb⟩⟩

end Sys2Proof.Machine
end

section
/-! SUPPORT. Operands of base and extended words (R14 to R16, R22, R28 to R32). -/

namespace Sys2Proof.Machine

open Sys2Proof.Claim

/-! ### Base words as their twins (R15, R16, R22, R32) -/

theorem toNat_add_window (a : BitVec 10) (w : BitVec 7) : (a + w.setWidth 10).toNat = (a.toNat + w.toNat) % 1024 := by
  rw [BitVec.toNat_add, BitVec.toNat_setWidth_of_le (by omega)]

/-- A signed imm7 as an immediate word (R16). -/
theorem signExtend_signExtend_imm7 (v : BitVec 7) : (v.signExtend 10).signExtend 32 = z32 v.toInt := by
  rw [BitVec.signExtend, BitVec.toInt_signExtend_of_le (by omega)]
  rfl

/-- An unsigned imm7 as an immediate word (R16). -/
theorem signExtend_setWidth_imm7 (v : BitVec 7) : (v.setWidth 10 : BitVec 10).signExtend 32 = w32 v.toNat := by
  have hv := v.isLt
  apply BitVec.eq_of_toInt_eq
  rw [BitVec.toInt_signExtend_of_le (by omega), BitVec.toInt_eq_toNat_of_lt, BitVec.toInt_eq_toNat_of_lt] <;>
    simp [w32] <;> omega

/-- Each layout by the fields of its twin. -/
theorem baseWordsStandForTheirTwins : BaseWordsStandForTheirTwins := by
  refine ⟨fun b w h => ?_, fun b w c h hw => ?_, fun b w c h hw => ?_, fun b op o => ⟨rfl, rfl, rfl, fun h => ?_, fun l h => ?_⟩,
    fun b op o => ⟨rfl, rfl, rfl, rfl, ?_⟩⟩
  · simp only [Beam.winReg, h, toNat_add_window]
  · simp only [Beam.winReg, h, if_neg (Nat.not_le.mpr hw), toNat_add_window]
  · simp only [Beam.winReg, h, if_pos hw, BitVec.toNat_ofNat]
  · simp [Beam.baseExt, h]
  · simp only [Beam.baseExt, h, Ext.immWord, Ext.immDword, Option.isSome_some, true_and, and_true]
    exact BitVec.eq_of_toNat_eq (by simp [w32])
  · simp only [Beam.baseExt, Ext.immWord, Ext.zero, imm7Ext]
    split_ifs
    · exact signExtend_signExtend_imm7 _
    · exact signExtend_setWidth_imm7 _

/-! ### Active lanes and broadcasts (R28 to R30) -/

/-- A mask gathered over a list of lanes. -/
theorem foldl_mask_getLsbD (p : Nat → Bool) {l : Nat} (h : l < 32) (ls : List Nat) (m : Word) :
    (ls.foldl (fun m k => if p k then m ||| BitVec.ofNat 32 (2 ^ k) else m) m).getLsbD l =
      (m.getLsbD l || (ls.contains l && p l)) := by
  induction ls generalizing m with
  | nil => simp
  | cons k ls ih =>
    have hk : (BitVec.ofNat 32 (2 ^ k)).getLsbD l = decide (k = l) := by
      rw [BitVec.getLsbD_ofNat, Nat.testBit_two_pow, decide_eq_true h, Bool.true_and]
    rw [List.foldl_cons, ih, List.contains_cons]
    by_cases hp : p k = true
    · rw [if_pos hp, BitVec.getLsbD_or, hk]
      by_cases hkl : k = l
      · simp [← hkl, hp]
      · simp [hkl, beq_false_of_ne (Ne.symm hkl)]
    · rw [if_neg hp]
      by_cases hkl : k = l
      · simp [← hkl, hp]
      · simp [beq_false_of_ne (Ne.symm hkl)]

/-- Every lane is one of the 32. -/
theorem mem_lanes {l : Nat} : l ∈ lanes ↔ l < 32 := by
  rw [show lanes = List.range 32 from rfl, List.mem_range]

theorem maskOf_getLsbD (p : Nat → Bool) {l : Nat} (h : l < 32) : (maskOf p).getLsbD l = p l := by
  rw [maskOf, foldl_mask_getLsbD p h, List.contains_iff_mem.mpr (mem_lanes.mpr h)]
  simp

theorem getLsbD_zero_eq {n : Nat} (w : BitVec n) : w.getLsbD 0 = decide (w.toNat % 2 = 1) := by
  simp [BitVec.getLsbD, Nat.testBit_zero]

/-- The active lanes (R28). -/
theorem activeMask_getLsbD (b : Beam) (x : Ext) {l : Nat} (h : l < 32) :
    (activeMask b x).getLsbD l = (b.exm.getLsbD l && b.lvm.getLsbD l &&
      (!x.pe || (decide ((b.rd x.p.toNat l).toNat % 2 = 1) != x.pn))) := by
  unfold activeMask
  cases x.pe with
  | false => simp
  | true =>
    rw [← getLsbD_zero_eq, if_pos rfl, BitVec.getLsbD_and, maskOf_getLsbD _ h, BitVec.getLsbD_and]
    rfl

/-- The lane of a source under a broadcast (R29, R30). -/
theorem Env.lane_of_no_broadcast {e : Env} (h : e.x.bcm = 0) (f l : Nat) : e.lane f l = l := by
  simp [Env.lane, h]

theorem Env.lane_of_lane_broadcast {e : Env} (h : e.x.bcm = 1) (f : BitVec 2) (l : Nat) :
    e.lane f.toNat l = if e.x.bcs = f then e.x.bln.toNat else l := by
  simp [Env.lane, h, BitVec.toNat_inj]

theorem Env.lane_of_first_broadcast {e : Env} (h : e.x.bcm = 2) (ha : e.act ≠ 0) (l : Nat) :
    e.lane e.x.bcs.toNat l = e.activeLanes.headD 0 := by
  simp only [Env.lane, h, Env.firstActive, if_neg ha, lowestLane_eq]
  rfl

/-- The active lanes and the lane of each source, by the broadcast fields (R28 to R30). -/
theorem operandRules : OperandRules := by
  refine ⟨fun b x l h => activeMask_getLsbD b x h, fun e l h => ?_, fun e l h => ?_, fun e l h => ?_, fun e l h ha hs => ?_⟩
  · simp only [Env.a, Env.bv, Env.c, Env.lane_of_no_broadcast h]
    exact ⟨trivial, fun hi => by simp [hi], trivial⟩
  · simp [Env.bv, h]
  · have hl := fun f => Env.lane_of_lane_broadcast h f l
    exact ⟨by rw [Env.a, ← hl 0]; rfl, fun hi => by rw [Env.bv, ← hl 1]; simp [hi], by rw [Env.c, ← hl 2]; rfl⟩
  · have := Env.lane_of_first_broadcast h ha l
    rw [hs] at this
    rw [Env.a, ← this]
    rfl

/-- Settles O29: the operands of base words, and the rules of broadcasts. -/
theorem operands : Obligations.Operands := ⟨baseWordsStandForTheirTwins, operandRules⟩

end Sys2Proof.Machine
end

section
/-! SUPPORT. Words written out from the layouts (R8, R14, R18 to R21). -/

namespace Sys2Proof.Machine

open Sys2Proof.Claim

/-- The words of a legal instruction decode to it. -/
theorem decode_flatMap_words {ws : List Word} {i : Instr} (hc : isCoded i = true) (hw : i.wf = true) (he : encode i = ws) :
    decode (ws.flatMap bytesOfWord) = some (i, []) := by
  subst he
  exact decode_eq_some_iff.mpr ⟨hc, hw, (List.append_nil _).symm⟩

/-- Each written word is that of its instruction, which is legal. -/
theorem writtenWords_encode : ∀ r ∈ writtenWords, isCoded r.2 = true ∧ r.2.wf = true ∧ encode r.2 = r.1 := by
  decide

/-- Settles O12: each written word is the word of its instruction, and those of no instruction are refused. -/
theorem writtenWordsDecode : Obligations.WrittenWordsDecode := by
  refine ⟨fun r hr => ?_, ?_, ?_, ?_⟩
  · obtain ⟨hc, hw, he⟩ := writtenWords_encode r hr
    exact decode_flatMap_words hc hw he
  · rfl
  · rfl
  · rfl

end Sys2Proof.Machine
end

section
/-! SUPPORT. What a step runs (R7, R11, R39, R40, R91), and the first step after `State.withFetchWord`. -/

namespace Sys2Proof.Machine

open Sys2Proof.Claim

/-! ### The beam that issues next -/

theorem step_of_nextIssue {s : State} {r : Ref} {T : Team} {b : Beam} (ha : s.agenda = []) (hd : s.due = none)
    (hn : s.nextIssue = some (r, T, b)) : step s = s.issueBeam r T b := by
  unfold step State.run
  rw [ha, hd, hn]

theorem State.issueBeam_of_call {s : State} {r : Ref} {T : Team} {b : Beam} {c : CallCtx} (h : b.mcall = some c) :
    s.issueBeam r T b = s.bodyStep r T c := by
  rw [State.issueBeam, h]

theorem State.issueBeam_of_pc {s : State} {r : Ref} {T : Team} {b : Beam} (h : b.mcall = none) :
    s.issueBeam r T b = s.fetchIssue r T b := by
  rw [State.issueBeam, h]

theorem State.fetchIssue_of_decode {s s1 : State} {r : Ref} {T : Team} {b : Beam} {l rest : List Byte} {i : Instr}
    (hf : s.fetch T b.pc = (.bytes l, s1)) (hd : decode l = some (i, rest)) :
    s.fetchIssue r T b = exec i { s1 with cur := some r } := by
  rw [State.fetchIssue, hf]
  simp only [hd]

/-! ### Fetching -/

/-- Bits [63:56] of an address are 0 where it is below 2^56 (R364). -/
theorem high_bits_eq_zero_iff {va : Dword} : va.extractLsb' 56 8 = 0 ↔ va.toNat < 2 ^ 56 := by
  rw [← BitVec.toNat_inj, BitVec.extractLsb'_toNat, Nat.shiftRight_eq_div_pow, show (0 : BitVec 8).toNat = 0 from rfl]
  omega

theorem State.fetchWord_high {s : State} {T : Team} {va : Dword} (h : 2 ^ 56 ≤ va.toNat) : s.fetchWord T va = (.fail, s) := by
  unfold State.fetchWord
  rw [if_pos fun h0 => absurd (high_bits_eq_zero_iff.mp h0) (by omega)]

/-- A fetch from a valid executable page of the grid's tenant, where no write has touched the word since the grid's launch (R11,
R12). -/
theorem State.fetchWord_valid {s s1 : State} {T : Team} {va : Dword} {L : Leaf} {pa : Nat} {G : Grid} (hv : va.toNat < 2 ^ 56)
    (hg : s.grid? T.grid = some G) (ht : s.translate (s.fetchReq T) va.toNat = (.ok L pa, s1)) (hx : L.x = true)
    (hn : L.tenant = G.launch.tenant) (hk : L.kind = .hbm ∨ L.kind = .cxl) (ho : s1.oldWords G.mark false pa = []) :
    s.fetchWord T va = (.bytes (s1.mem.readBytes pa 4), s1) := by
  have hp : L.kind ≠ .peer := by rcases hk with h | h <;> simp [h]
  have hh : L.kind ≠ .host := by rcases hk with h | h <;> simp [h]
  unfold State.fetchWord
  rw [if_neg (not_not_intro (high_bits_eq_zero_iff.mpr hv)), ht]
  simp [State.gridOf, hg, hx, hn, State.codeWord, hp, hh, ho]

/-- R7, R11, R39, R40, R91: what a step runs. -/
theorem stepRunsTheDecoded : StepRunsTheDecoded := by
  refine ⟨fun s i rest h => ?_, fun s r T b ha hd hn => ⟨fun hm => ?_, fun c hm => ?_⟩, ?_, fun s T va => State.fetchWord_high⟩
  · rw [step, h]
  · rw [step_of_nextIssue ha hd hn, State.issueBeam_of_pc hm]
    refine ⟨fun l rest s1 i hf => State.fetchIssue_of_decode hf, fun l s1 hf hl => ?_, fun s1 hf => ?_, fun va s1 hf => ?_⟩
    · rw [State.fetchIssue, hf]
      simp only [hl]
    · rw [State.fetchIssue, hf]
    · rw [State.fetchIssue, hf]
  · rw [step_of_nextIssue ha hd hn, State.issueBeam_of_call hm]
    exact ⟨fun hb => if_neg fun h => hb (List.contains_iff_mem.mp h), fun hb => if_pos (List.contains_iff_mem.mpr hb)⟩
  · intro s s1 T va L pa G hv hg ht hx hn hk ho
    rw [State.fetchWord_valid hv hg ht hx hn hk ho]
    rfl

/-! ### The first step after `State.withFetchWord` -/

/-- The one team that `State.place` puts on the machine after reset. -/
def placedTeam : Team := probeLaunch.team 0 0 0 0 0

/-- Its one beam. -/
def placedBeam : Beam := probeLaunch.beam 0 0

theorem place_teams (bytes : List Byte) : (State.reset.place bytes).teams = [(0, placedTeam)] := rfl

theorem placedTeam_beams : placedTeam.beams = [placedBeam] := rfl

/-- Its team has not been resident for a quantum, so that it makes no room (R352). -/
theorem victim_placedTeam (bytes : List Byte) (c : Cand) : (State.reset.place bytes).victim c placedTeam = false := by
  have h : decide (placedTeam.since + 700 * (State.reset.place bytes).regs.quantum.toNat ≤ (State.reset.place bytes).clock) = false := rfl
  simp [State.victim, h]

theorem needy_place (bytes : List Byte) (p : Nat) : (State.reset.place bytes).needy p = none := by
  simp [State.needy, place_teams, victim_placedTeam]

theorem timed_place (bytes : List Byte) : (State.reset.place bytes).timed = [] := by
  have hd : (State.reset.place bytes).distTimed 0 placedTeam = [] := by
    have hl : placedTeam.life = .resident 0 := rfl
    unfold State.distTimed
    cases (State.reset.place bytes).gridOf placedTeam with
    | none => rfl
    | some G => simp [hl, needy_place]
  have ht : placedTeam.timed 0 = [] := rfl
  unfold State.timed
  simp only [place_teams, List.flatMap_cons, List.flatMap_nil, hd, ht]
  rfl

theorem due_place (bytes : List Byte) : (State.reset.place bytes).due = none := by
  rw [State.due, timed_place]
  rfl

theorem blocked_placedBeam (g : Sig) (x : Ext) : placedBeam.blocked g x = false := by
  have h : placedBeam.pendNames = [] := rfl
  simp [Beam.blocked, h]

theorem unitHeld_placedBeam (bytes : List Byte) (n : Nat) (x : Ext) :
    (State.reset.place bytes).unitHeld placedTeam placedBeam 0 n x = false := by
  have hq : (State.reset.place bytes).quadFull placedTeam.coreId (0 % 4) = false := rfl
  have hp : placedTeam.paldRuns = false := rfl
  have ht : placedTeam.twq = [] := rfl
  have hs : placedBeam.scrReading = false := rfl
  simp [State.unitHeld, hq, hp, ht, hs]

theorem ready_placedBeam (bytes : List Byte) : (State.reset.place bytes).ready placedTeam placedBeam 0 = true := by
  have hg : (State.reset.place bytes).gateClosed ((State.reset.place bytes).partOf placedTeam) = false :=
    BitVec.getLsbD_zero
  have hm : (State.reset.place bytes).mayIssue placedTeam placedBeam 0 = true :=
    (whenABeamMayIssue _ _ _ _).mpr ⟨⟨0, rfl⟩, rfl, rfl, hg, nofun, nofun, rfl, rfl, by decide, le_refl _, .inl rfl⟩
  unfold State.ready
  rw [hm, Bool.true_and]
  split
  · simp only [blocked_placedBeam, unitHeld_placedBeam]
    rfl
  · rfl

theorem readyBeams_place (bytes : List Byte) :
    (State.reset.place bytes).readyBeams = [(⟨0, 0⟩, placedTeam, placedBeam)] := by
  have hr : placedTeam.isResident = true := rfl
  have hq : (State.reset.place bytes).quadBusy placedTeam.coreId (0 % 4) = false := rfl
  simp [State.readyBeams, place_teams, placedTeam_beams, hr, ready_placedBeam, hq]

theorem nextIssue_place (bytes : List Byte) :
    (State.reset.place bytes).nextIssue = some (⟨0, 0⟩, placedTeam, placedBeam) := by
  have hs : (State.reset.place bytes).spent = false := rfl
  have hf : (State.reset.place bytes).firsts = [(⟨0, 0⟩, placedTeam, placedBeam)] := by
    have he : earlier (⟨0, 0⟩, placedTeam, placedBeam) (⟨0, 0⟩, placedTeam, placedBeam) = false := rfl
    simp [State.firsts, readyBeams_place, he]
  simp [State.nextIssue, hs, hf]

/-- Word `k` of the bytes placed is fetched at its address. -/
theorem fetchWord_place {bytes : List Byte} {k : Nat} (hk : 4 * k + 4 ≤ bytes.length) (h5 : k < 5) :
    (State.reset.place bytes).fetchWord placedTeam (BitVec.ofNat 64 (0x10000 + 4 * k)) =
      (.bytes ((bytes.drop (4 * k)).take 4), State.reset.place bytes) := by
  have ha : (BitVec.ofNat 64 (0x10000 + 4 * k)).toNat = 0x10000 + 4 * k := by
    rw [BitVec.toNat_ofNat]; omega
  have ht : (State.reset.place bytes).translate ((State.reset.place bytes).fetchReq placedTeam) (0x10000 + 4 * k) =
      (.ok probeLeaf (0x10000 + 4 * k), State.reset.place bytes) := by
    interval_cases k <;> rfl
  rw [State.fetchWord_valid (by omega) rfl (by rw [ha]; exact ht) rfl rfl (.inl rfl) rfl]
  congr 2
  refine List.ext_getElem (by simp [Memory.readBytes]; omega) fun j h1 h2 => ?_
  have hj : j < 4 := by simpa [Memory.readBytes] using h1
  have hr : (State.reset.place bytes).mem.read (0x10000 + (4 * k + j)) = bytes[4 * k + j] :=
    Memory.read_writeBytes_same [] 0x10000 bytes (by omega)
  simpa [Memory.readBytes, Nat.add_assoc] using hr

/-- The words that follow one another there are fetched one by one. -/
theorem fetchWords_place {bytes : List Byte} {n : Nat} (hb : bytes.length = 20) : ∀ {k : Nat}, k + n ≤ 5 →
    (State.reset.place bytes).fetchWords placedTeam (BitVec.ofNat 64 (0x10000 + 4 * k)) n =
      (.bytes ((bytes.drop (4 * k)).take (4 * n)), State.reset.place bytes) := by
  induction n with
  | zero => intro k _; simp [State.fetchWords]
  | succ n ih =>
    intro k hk
    have hn : BitVec.ofNat 64 (0x10000 + 4 * k) + 4 = BitVec.ofNat 64 (0x10000 + 4 * (k + 1)) := by
      rw [show 0x10000 + 4 * (k + 1) = (0x10000 + 4 * k) + 4 by omega, BitVec.ofNat_add (0x10000 + 4 * k)]
      rfl
    rw [State.fetchWords, fetchWord_place (by omega) (by omega)]
    simp only [hn, ih (k := k + 1) (by omega)]
    rw [show 4 * (n + 1) = 4 + 4 * n by omega, List.take_add, List.drop_drop, show 4 * (k + 1) = 4 * k + 4 by omega]

/-- The bytes fetched are those of the instruction that the bytes placed decode to. -/
theorem fetch_place {bytes rest : List Byte} {i : Instr} (hb : bytes.length = 20) (hd : decode bytes = some (i, rest)) :
    (State.reset.place bytes).fetch placedTeam placedBeam.pc = (.bytes (encodeBytes i), State.reset.place bytes) := by
  obtain ⟨w, ws, hl, hi, he⟩ := decode_eq_some.mp hd
  obtain ⟨-, -, hw⟩ := decodeWords_eq_some_iff.mp hi
  have hlen := length_flatMap_bytesOfWord (w :: ws)
  have hws := length_flatMap_bytesOfWord ws
  have h4 : (bytesOfWord w).length = 4 := rfl
  have h5 : (w :: ws).length ≤ 5 := by
    have := congrArg List.length he
    rw [List.length_append] at this
    omega
  have h0 := fetchWord_place (bytes := bytes) (k := 0) (by omega) (by omega)
  have h1 := fetchWords_place (n := ws.length) hb (k := 1) (by simp only [List.length_cons] at h5; omega)
  have hf : (bytes.drop (4 * 0)).take 4 = bytesOfWord w := by
    rw [he]; simp [← h4]
  have hr : (bytes.drop (4 * 1)).take (4 * ws.length) = ws.flatMap bytesOfWord := by
    rw [he, ← hws, List.flatMap_cons, List.append_assoc, Nat.mul_one, ← h4, List.drop_left, List.take_left]
  rw [hf] at h0
  rw [hr] at h1
  have hn : lenWords (lenOf w) - 1 = ws.length := by rw [← hl]; rfl
  have ht : takeWord (bytesOfWord w) = some (w, []) := takeWord_eq_some.mpr (List.append_nil _).symm
  unfold State.fetch
  rw [show placedBeam.pc = BitVec.ofNat 64 (0x10000 + 4 * 0) from rfl, h0]
  simp only [ht, hn]
  rw [show BitVec.ofNat 64 (0x10000 + 4 * 0) + 4 = BitVec.ofNat 64 (0x10000 + 4 * 1) from rfl, h1, encodeBytes, ← hw]
  rfl

theorem length_bytesOfNat (n w : Nat) : (bytesOfNat n w).length = n := by
  induction n generalizing w with
  | zero => rfl
  | succ n ih => rw [bytesOfNat, List.length_cons, ih]

/-- R7, R11: the first step after the placing is the exec of the instruction placed. -/
theorem placedInstructionsRun : PlacedInstructionsRun := by
  intro n w i h
  unfold decodeTableWord at h
  split at h
  · cases h
  next j rest hd =>
    obtain rfl : j = i := Option.some.inj h
    obtain ⟨hc, hw, -⟩ := decode_eq_some_iff.mp hd
    have hj : decode (encodeBytes j) = some (j, []) := decode_eq_some_iff.mpr ⟨hc, hw, (List.append_nil _).symm⟩
    refine ⟨_, ⟨0, 0⟩, ?_, rfl, rfl⟩
    rw [State.withFetchWord, step_of_nextIssue rfl (due_place _) (nextIssue_place _), State.issueBeam_of_pc rfl]
    exact State.fetchIssue_of_decode (fetch_place (length_bytesOfNat _ _) hd) hj

/-- Settles O58: a step runs the agenda's head, else the beam that issues next; the instruction placed is the one that the first
beam fetches. -/
theorem stepsRunTheDecoded : Obligations.StepsRunTheDecoded := ⟨stepRunsTheDecoded, placedInstructionsRun⟩

end Sys2Proof.Machine
end

section
/-! SUPPORT. The integer operations of base words, as exact values modulo 2^32 (R184 to R186). -/

namespace Sys2Proof.Machine

open Sys2Proof.Claim

/-! ### Exact values of the integer operations (R184 to R186) -/

theorem opAdd_eq (a b : Word) : opAdd a b = w32 (a.toNat + b.toNat) := by
  rw [opAdd, w32, BitVec.ofNat_add, BitVec.ofNat_toNat, BitVec.ofNat_toNat, BitVec.setWidth_eq, BitVec.setWidth_eq]

theorem opMul_eq (a b : Word) : opMul a b = w32 (a.toNat * b.toNat) := by
  rw [opMul, w32, BitVec.ofNat_mul, BitVec.ofNat_toNat, BitVec.ofNat_toNat, BitVec.setWidth_eq, BitVec.setWidth_eq]

theorem opSub_eq (a b : Word) : opSub a b = z32 ((a.toNat : Int) - b.toNat) := by
  rw [opSub, z32, Int.sub_eq_add_neg, BitVec.ofInt_add, BitVec.ofInt_neg, BitVec.ofInt_natCast, BitVec.ofInt_natCast,
    BitVec.ofNat_toNat, BitVec.ofNat_toNat, BitVec.setWidth_eq, BitVec.setWidth_eq, BitVec.sub_eq_add_neg]

theorem opShl_eq (a c : Word) : opShl a c = shl a c := by
  unfold opShl shl
  by_cases h : c.toNat < 32
  · rw [if_pos h, if_neg (by omega)]
    refine BitVec.eq_of_toNat_eq ?_
    simp [w32, BitVec.toNat_shiftLeft, Nat.shiftLeft_eq]
  · rw [if_neg h, if_pos (by omega)]

theorem opShr_eq (a c : Word) : opShr a c = shr a c := by
  unfold opShr shr
  refine BitVec.eq_of_toNat_eq ?_
  rw [BitVec.toNat_ushiftRight, Nat.shiftRight_eq_div_pow]
  split_ifs with h
  · exact Nat.div_eq_of_lt (Nat.lt_of_lt_of_le a.isLt (Nat.pow_le_pow_right (by omega) h))
  · rw [w32, BitVec.toNat_ofNat, Nat.mod_eq_of_lt (Nat.lt_of_le_of_lt (Nat.div_le_self _ _) a.isLt)]

theorem opSar_eq (a c : Word) : opSar a c = sar a c := by
  unfold opSar sar
  have hd : (a.sshiftRight c.toNat).toInt = a.toInt / 2 ^ c.toNat := by
    rw [BitVec.toInt_sshiftRight, Int.shiftRight_eq_div_pow]; rfl
  have hl := BitVec.le_toInt a
  have hu := BitVec.toInt_lt (x := a)
  split_ifs with h hs
  · refine BitVec.eq_of_toInt_eq (hd.trans ?_)
    have : (2 : Int) ^ 32 ≤ 2 ^ c.toNat := pow_le_pow_right₀ (by norm_num) h
    exact Int.ediv_eq_zero_of_lt hs (by omega)
  · refine BitVec.eq_of_toInt_eq (hd.trans ?_)
    have : (2 : Int) ^ 32 ≤ 2 ^ c.toNat := pow_le_pow_right₀ (by norm_num) h
    have h1 : (0xFFFFFFFF : Word).toInt = -1 := by decide
    rw [h1]
    exact (Int.ediv_eq_iff_of_pos (by omega)).mpr (by omega)
  · rw [z32, ← hd, BitVec.ofInt_toInt]

theorem opMin_eq (a b : Word) : opMin a b = z32 (Min.min a.toInt b.toInt) := by
  unfold opMin
  rw [BitVec.sle_eq_decide, min_def]
  by_cases h : a.toInt ≤ b.toInt <;> simp [h, z32]

theorem opMax_eq (a b : Word) : opMax a b = z32 (Max.max a.toInt b.toInt) := by
  unfold opMax
  rw [BitVec.sle_eq_decide, max_comm, max_def]
  by_cases h : b.toInt ≤ a.toInt <;> simp [h, z32]

theorem opMinu_eq (a b : Word) : opMinu a b = w32 (Min.min a.toNat b.toNat) := by
  unfold opMinu
  rw [BitVec.ule_eq_decide, min_def]
  by_cases h : a.toNat ≤ b.toNat <;> simp [h, w32]

theorem opMaxu_eq (a b : Word) : opMaxu a b = w32 (Max.max a.toNat b.toNat) := by
  unfold opMaxu
  rw [BitVec.ule_eq_decide, max_comm, max_def]
  by_cases h : b.toNat ≤ a.toNat <;> simp [h, w32]

theorem boolWord_decide (p : Prop) [Decidable p] : boolWord (decide p) = truth p := by
  by_cases h : p <;> simp [boolWord, truth, h]

theorem opCeq_eq (a b : Word) : opCeq a b = truth (a = b) := by
  rw [← boolWord_decide]; rfl

theorem opCne_eq (a b : Word) : opCne a b = truth (a ≠ b) := by
  rw [← boolWord_decide, opCne]
  congr 1
  by_cases h : a = b <;> simp [h]

theorem opClt_eq (a b : Word) : opClt a b = truth (a.toInt < b.toInt) := by
  rw [← boolWord_decide, opClt, BitVec.slt_eq_decide]

theorem opCle_eq (a b : Word) : opCle a b = truth (a.toInt ≤ b.toInt) := by
  rw [← boolWord_decide, opCle, BitVec.sle_eq_decide]

theorem opCltu_eq (a b : Word) : opCltu a b = truth (a.toNat < b.toNat) := by
  rw [← boolWord_decide, opCltu, BitVec.ult_eq_decide]

theorem opCleu_eq (a b : Word) : opCleu a b = truth (a.toNat ≤ b.toNat) := by
  rw [← boolWord_decide, opCleu, BitVec.ule_eq_decide]

theorem opSel_eq (a b d : Word) : opSel a b d = if d.toNat % 2 = 1 then a else b := by
  simp [opSel, BitVec.getLsbD, Nat.testBit_zero]

theorem opMad_eq (a b d : Word) : opMad a b d = w32 (d.toNat + a.toNat * b.toNat) := by
  rw [w32, BitVec.ofNat_add, ← w32, ← w32, ← opMul_eq, w32, BitVec.ofNat_toNat, BitVec.setWidth_eq]
  rfl

/-- The numbers below n, as far as they meet a condition: those before the first that does not. -/
theorem length_takeWhile_range {p : Nat → Bool} {n k : Nat} (hk : k ≤ n) (hp : ∀ j < k, p j = true) (hn : k < n → p k = false) :
    ((List.range n).takeWhile p).length = k := by
  obtain ⟨m, rfl⟩ := Nat.exists_eq_add_of_le hk
  rw [List.range_add, List.takeWhile_append_of_pos (by simpa using hp)]
  cases m with
  | zero => simp
  | succ m => simp [List.range_succ_eq_map, hn (by omega)]

/-- The zeros above the highest 1 of a word. -/
theorem leading_eq (a : Word) : leading a = if a = 0 then 32 else 31 - Nat.log2 a.toNat := by
  unfold leading
  split_ifs with h
  · exact length_takeWhile_range (le_refl _) (by simp [h]) (by omega)
  · have h0 : a.toNat ≠ 0 := fun h' => h (BitVec.eq_of_toNat_eq h')
    have hl : Nat.log2 a.toNat < 32 := (Nat.log2_lt h0).mpr a.isLt
    refine length_takeWhile_range (by omega) (fun j hj => ?_) fun _ => ?_
    · have hj' : Nat.log2 a.toNat < 31 - j := by omega
      simpa [BitVec.getLsbD] using Nat.testBit_lt_two_pow ((Nat.log2_lt h0).mp hj')
    · have ht : 31 - (31 - Nat.log2 a.toNat) = Nat.log2 a.toNat := by omega
      simpa [BitVec.getLsbD, ht] using Nat.testBit_log2 h0

theorem opClz_eq (a : Word) : opClz a = w32 (leading a) := by
  rw [leading_eq]; rfl

end Sys2Proof.Machine
end

section
/-! SUPPORT. The order of floating-point values by their bits (R62, R207, R208), and the rows of the base floating-point
instructions. -/

namespace Sys2Proof.Machine

open Sys2Proof.Claim

/-! ### The order of values is the order of their bits (R62) -/

theorem nv_eq (f : Fmt) (l : List Nat) : nv f l = snanFlag f l := rfl

/-- The significand of a magnitude, over the unit of the smallest value. -/
def sigOf (f : Fmt) (n : Nat) : Nat := if n / 2 ^ f.mb = 0 then n % 2 ^ f.mb else 2 ^ f.mb + n % 2 ^ f.mb

/-- Its exponent there: 0 for a subnormal. -/
def expOf (f : Fmt) (n : Nat) : Nat := n / 2 ^ f.mb - 1

theorem FVal.of_nan {f : Fmt} {a : Nat} (h : isNanBits f a = true) : FVal.of f a = .nan := by
  have h' : a % f.signBit > f.infCode := of_decide_eq_true h
  simp [FVal.of, h']

theorem FVal.of_inf {f : Fmt} {a : Nat} (h : mag f a = infMag f) : FVal.of f a = .inf (sgn f a) := by
  have h' : a % f.signBit = f.infCode := h
  simp only [FVal.of, h', lt_irrefl, if_false, if_true]
  rfl

theorem FVal.of_fin {f : Fmt} {a : Nat} (h : mag f a < infMag f) :
    FVal.of f a = .fin (sgn f a) (sigOf f (mag f a)) (f.emin - f.mb + expOf f (mag f a)) := by
  have h1 : ¬ a % f.signBit > f.infCode := by
    have h' : a % f.signBit < f.infCode := h
    omega
  have h2 : a % f.signBit ≠ f.infCode := by
    have h' : a % f.signBit < f.infCode := h
    omega
  have hm : mag f a = a % f.signBit := rfl
  unfold FVal.of sigOf expOf
  simp only [← hm] at h1 h2 ⊢
  rw [if_neg h1, if_neg h2]
  split_ifs with h0
  · rw [h0, Nat.zero_sub, Int.natCast_zero, Int.add_zero]
    rfl
  · have he : f.emin - f.mb + ((mag f a / 2 ^ f.mb : Nat) : Int) - 1 = f.emin - f.mb + ((mag f a / 2 ^ f.mb - 1 : Nat) : Int) := by
      rw [Nat.cast_sub (Nat.one_le_iff_ne_zero.mpr h0)]
      push_cast
      ring
    rw [he]
    rfl

/-- The magnitude in units of the smallest value rises with the bits. -/
theorem strictMono_sig_exp (f : Fmt) : StrictMono fun n => sigOf f n * 2 ^ expOf f n := by
  refine strictMono_nat_of_lt_succ fun n => ?_
  unfold sigOf expOf
  have hP : 0 < 2 ^ f.mb := Nat.two_pow_pos _
  generalize 2 ^ f.mb = P at hP
  have hn := Nat.div_add_mod n P
  have hr := Nat.mod_lt n hP
  generalize n / P = q at hn
  generalize n % P = r at hn hr
  subst hn
  by_cases h : r + 1 < P
  · rw [Nat.add_assoc, Nat.mul_add_div hP, Nat.mul_add_mod, Nat.div_eq_of_lt h, Nat.mod_eq_of_lt h, Nat.add_zero]
    split_ifs <;> exact Nat.mul_lt_mul_of_pos_right (by omega) (Nat.two_pow_pos _)
  · have hq : P * q + r + 1 = P * (q + 1) := by rw [Nat.mul_succ]; omega
    rw [hq, Nat.mul_div_cancel_left _ hP, Nat.mul_mod_right, if_neg (Nat.succ_ne_zero q)]
    cases q with
    | zero => simp; omega
    | succ k =>
      have hk : P + r < P * 2 := by omega
      simpa [Nat.pow_succ', Nat.mul_assoc] using Nat.mul_lt_mul_of_pos_right hk (Nat.two_pow_pos k)

/-- Numbers over a common unit compare as their multiples of it. -/
theorem FVal.le_fin (s t : Bool) (m n p q : Nat) (u : Int) :
    (FVal.fin s m (u + p)).le (.fin t n (u + q)) = decide (signed s (m * 2 ^ p) ≤ signed t (n * 2 ^ q)) := by
  have hl : Min.min (u + p : Int) (u + q) = u + (Min.min p q : Nat) := by omega
  have hp : (u + (p : Int) - (u + (Min.min p q : Nat))).toNat = p - Min.min p q := by omega
  have hq : (u + (q : Int) - (u + (Min.min p q : Nat))).toNat = q - Min.min p q := by omega
  have hs (s : Bool) (m k : Nat) : signed s (m * 2 ^ k) = signed s m * 2 ^ k := by
    cases s <;> simp [signed]
  have hm (s : Bool) (m k : Nat) (h : Min.min p q ≤ k) :
      signed s (m * 2 ^ k) = signed s (m * 2 ^ (k - Min.min p q)) * 2 ^ Min.min p q := by
    rw [hs, hs, mul_assoc, ← pow_add, Nat.sub_add_cancel h]
  simp only [FVal.le, hl, hp, hq]
  rw [hm s m p (by omega), hm t n q (by omega)]
  simp

/-- Magnitudes compare as their bits, under their signs. -/
theorem signed_le_signed_iff (f : Fmt) (s t : Bool) (m n : Nat) :
    signed s (sigOf f m * 2 ^ expOf f m) ≤ signed t (sigOf f n * 2 ^ expOf f n) ↔ signed s m ≤ signed t n := by
  have hz : sigOf f 0 * 2 ^ expOf f 0 = 0 := by simp [sigOf]
  have hle (a b : Nat) : sigOf f a * 2 ^ expOf f a ≤ sigOf f b * 2 ^ expOf f b ↔ a ≤ b := (strictMono_sig_exp f).le_iff_le
  have h0 (a : Nat) : sigOf f a * 2 ^ expOf f a = 0 ↔ a = 0 := by
    refine ⟨fun h => (strictMono_sig_exp f).injective (h.trans hz.symm), ?_⟩
    rintro rfl
    exact hz
  have h1 := hle m n
  have h2 := hle n m
  have h3 := h0 m
  have h4 := h0 n
  generalize sigOf f m * 2 ^ expOf f m = x at *
  generalize sigOf f n * 2 ^ expOf f n = y at *
  cases s <;> cases t <;> simp only [signed] <;> simp <;> omega

theorem compareKey_eq (f : Fmt) (a : Nat) : compareKey f a = signed (sgn f a) (mag f a) := rfl

/-- Values that are no NaN compare as their keys, infinities among them (R208). -/
theorem FVal.le_iff {f : Fmt} {a b : Nat} (hf : 0 < f.eb) (ha : isNanBits f a = false) (hb : isNanBits f b = false) :
    (FVal.of f a).le (FVal.of f b) = true ↔ compareKey f a ≤ compareKey f b := by
  have ha' : mag f a ≤ infMag f := Nat.not_lt.mp (of_decide_eq_false ha)
  have hb' : mag f b ≤ infMag f := Nat.not_lt.mp (of_decide_eq_false hb)
  have hI : 0 < infMag f := Nat.mul_pos (Nat.sub_pos_of_lt (Nat.one_lt_two_pow hf.ne')) (Nat.two_pow_pos _)
  rw [compareKey_eq, compareKey_eq]
  rcases ha'.eq_or_lt with ha | ha <;> rcases hb'.eq_or_lt with hb | hb
  · rw [FVal.of_inf ha, FVal.of_inf hb, ha, hb]
    cases sgn f a <;> cases sgn f b <;> simp [FVal.le, signed]
    omega
  · rw [FVal.of_inf ha, FVal.of_fin hb, ha]
    cases sgn f a <;> cases sgn f b <;> simp [FVal.le, signed] <;> omega
  · rw [FVal.of_fin ha, FVal.of_inf hb, hb]
    cases sgn f a <;> cases sgn f b <;> simp [FVal.le, signed] <;> omega
  · rw [FVal.of_fin ha, FVal.of_fin hb, FVal.le_fin, decide_eq_true_iff]
    exact signed_le_signed_iff ..

theorem FVal.lt_iff {f : Fmt} {a b : Nat} (hf : 0 < f.eb) (ha : isNanBits f a = false) (hb : isNanBits f b = false) :
    (FVal.of f a).lt (FVal.of f b) = true ↔ compareKey f a < compareKey f b := by
  rw [FVal.lt, Bool.and_eq_true, Bool.not_eq_true', ← Bool.not_eq_true, FVal.le_iff hf ha hb, FVal.le_iff hf hb ha, not_le]
  exact ⟨And.right, fun h => ⟨h.le, h⟩⟩

theorem FVal.eq_iff {f : Fmt} {a b : Nat} (hf : 0 < f.eb) (ha : isNanBits f a = false) (hb : isNanBits f b = false) :
    (FVal.of f a).eq (FVal.of f b) = true ↔ compareKey f a = compareKey f b := by
  rw [FVal.eq, Bool.and_eq_true, FVal.le_iff hf ha hb, FVal.le_iff hf hb ha, le_antisymm_iff]

theorem FVal.isNan_of (f : Fmt) (a : Nat) : (FVal.of f a).isNan = isNanBits f a := by
  cases h : isNanBits f a with
  | true => simp [FVal.of_nan h, FVal.isNan]
  | false =>
    rcases (Nat.not_lt.mp (of_decide_eq_false h)).eq_or_lt with h | h
    · simp [FVal.of_inf h, FVal.isNan]
    · simp [FVal.of_fin h, FVal.isNan]

theorem FVal.isNeg_of {f : Fmt} {a : Nat} (h : isNanBits f a = false) : (FVal.of f a).isNeg = sgn f a := by
  rcases (Nat.not_lt.mp (of_decide_eq_false h)).eq_or_lt with h | h
  · simp [FVal.of_inf h, FVal.isNeg]
  · simp [FVal.of_fin h, FVal.isNeg]

/-- `FVal.below` is the order in which −0 is just below +0 (R207). -/
theorem FVal.below_iff {f : Fmt} {a b : Nat} (hf : 0 < f.eb) (ha : isNanBits f a = false) (hb : isNanBits f b = false) :
    (FVal.of f a).below (FVal.of f b) = true ↔ orderKey f a < orderKey f b := by
  rw [FVal.below, Bool.or_eq_true, Bool.and_eq_true, Bool.and_eq_true, FVal.lt_iff hf ha hb, FVal.eq_iff hf ha hb,
    FVal.isNeg_of ha, FVal.isNeg_of hb]
  unfold compareKey orderKey
  cases sgn f a <;> cases sgn f b <;> simp <;> omega

/-- minimumNumber and maximumNumber in the words of R207. -/
theorem fpick_eq {f : Fmt} (hf : 0 < f.eb) (big : Bool) (a b : Nat) : fpick f big a b = pickNumber f big a b := by
  unfold fpick pickNumber
  simp only [FVal.isNan_of, nv_eq]
  cases ha : isNanBits f a <;> cases hb : isNanBits f b
  · simp [FVal.below_iff hf ha hb, FVal.below_iff hf hb ha]
  · rfl
  · rfl
  · rfl

/-- A compare that is false with a NaN, by the keys (R208). -/
theorem fcmp_eq {g : FVal → FVal → Bool} {p : Int → Int → Bool} (hn : ∀ v, g .nan v = false ∧ g v .nan = false)
    (hg : ∀ a b, isNanBits .fp32 a = false → isNanBits .fp32 b = false →
      g (.of .fp32 a) (.of .fp32 b) = p (compareKey .fp32 a) (compareKey .fp32 b)) (a b : Nat) :
    ((if g (.of .fp32 a) (.of .fp32 b) then 1 else 0, snanFlag .fp32 [a, b]) : Nat × Flags) = compareBits p a b := by
  unfold compareBits
  cases ha : isNanBits .fp32 a with
  | true => simp [FVal.of_nan ha, (hn _).1, nv_eq]
  | false =>
    cases hb : isNanBits .fp32 b with
    | true => simp [FVal.of_nan hb, (hn _).2, nv_eq]
    | false => simp [hg a b ha hb, nv_eq]

theorem FVal.le_nan (v : FVal) : FVal.le .nan v = false ∧ v.le .nan = false := by
  constructor
  · rfl
  · rcases v with _ | s | _ <;> rfl

theorem FVal.lt_nan (v : FVal) : FVal.lt .nan v = false ∧ v.lt .nan = false := by
  simp [FVal.lt, FVal.le_nan]

theorem FVal.eq_nan (v : FVal) : FVal.eq .nan v = false ∧ v.eq .nan = false := by
  simp [FVal.eq, FVal.le_nan]

theorem fcle_eq (a b : Nat) :
    ((if (FVal.of .fp32 a).le (.of .fp32 b) then 1 else 0, snanFlag .fp32 [a, b]) : Nat × Flags) =
      compareBits (fun x y => decide (x ≤ y)) a b :=
  fcmp_eq FVal.le_nan (fun a b ha hb => by rw [Bool.eq_iff_iff, FVal.le_iff (by decide) ha hb, decide_eq_true_iff]) a b

theorem fclt_eq (a b : Nat) :
    ((if (FVal.of .fp32 a).lt (.of .fp32 b) then 1 else 0, snanFlag .fp32 [a, b]) : Nat × Flags) =
      compareBits (fun x y => decide (x < y)) a b :=
  fcmp_eq FVal.lt_nan (fun a b ha hb => by rw [Bool.eq_iff_iff, FVal.lt_iff (by decide) ha hb, decide_eq_true_iff]) a b

theorem fceq_eq (a b : Nat) :
    ((if (FVal.of .fp32 a).eq (.of .fp32 b) then 1 else 0, snanFlag .fp32 [a, b]) : Nat × Flags) =
      compareBits (fun x y => decide (x = y)) a b :=
  fcmp_eq FVal.eq_nan (fun a b ha hb => by rw [Bool.eq_iff_iff, FVal.eq_iff (by decide) ha hb, decide_eq_true_iff]) a b

/-- A packed result is that of the halves; a lane result counts modulo 2^32. -/
theorem packed2_eq (f : Nat → Nat → Nat × Flags) (a b : Word) :
    packed2 f a b = (w32 (onHalves f a.toNat b.toNat).1, (onHalves f a.toNat b.toNat).2) := rfl

theorem packed3_eq (f : Nat → Nat → Nat → Nat × Flags) (a b c : Word) :
    packed3 f a b c = (w32 (onHalves3 f a.toNat b.toNat c.toNat).1, (onHalves3 f a.toNat b.toNat c.toNat).2) := rfl

end Sys2Proof.Machine
end

section
/-! SUPPORT. Microprograms: the call and the words that it runs (R27, R38, R92, R93, R380). -/

namespace Sys2Proof.Machine

open Sys2Proof.Claim

/-! ### Rows of base instructions -/

/-- The base opcodes of control, which a body may not hold (R38). -/
def controlOps : List Nat := [0x31, 0x32, 0x33, 0x34, 0x35, 0x36, 0x37, 0x38, 0x39]

theorem bodyMayHold_of_form {i : Instr} {op : Nat} {o : BaseOps} (hf : i.form = .base op o) (h : op < 0x40) (hc : op ∉ controlOps) :
    bodyMayHold i := by
  have hn : numberOf i = op := by rw [numberOf, hf]
  unfold bodyMayHold
  rw [hn]
  exact ⟨by simp [isCoded, hf], h, o, hf, hc⟩

/-- A base instruction whose body gives each active lane a value, with exceptions. -/
theorem base_next_lanesHold {i : Instr} {op : Nat} {o : BaseOps} {body : Env → State → Res} {f : Env → Nat → Word} {fl : Env → Flags}
    (hf : i.form = .base op o) (hx : ∀ s, exec i s = Issue.base op o body s)
    (hb : ∀ e s1, body e s1 = e.fixedLanes s1 (f e) (fl e)) {s s1 : State} {e : Env} (h : Issues i s e s1) :
    exec i s = .next (Issue.finish e (lanesHold e s1 (f e) (fl e)) none) := by
  rw [hx, h.base hf, hb]
  rfl

/-- What a row of a table of base integer instructions says of the base form, which a body may hold. -/
def IntegerRow {α : Type} (p : TwinRow α) : Prop :=
  ∀ o, bodyMayHold (p.1 o) ∧ GivesLanes (p.1 o) fun e l => p.2.2 (e.a l) (e.bv l) (e.dOld l)

theorem integerRow_of_body {α : Type} {mk : α → Instr} {x : Ext → Instr} {k : Word → Word → Word → Word} (op : Nat) (ops : α → BaseOps)
    (body : Env → State → Res) (hf : ∀ o, (mk o).form = .base op (ops o)) (hop : op < 0x40 ∧ op ∉ controlOps)
    (hx : ∀ o s, exec (mk o) s = Issue.base op (ops o) body s)
    (hb : ∀ e s1, body e s1 = e.fixedLanes s1 (fun l => k (e.a l) (e.bv l) (e.dOld l)) 0) : IntegerRow (mk, x, k) :=
  fun o => ⟨bodyMayHold_of_form (hf o) hop.1 hop.2, fun _ _ _ h => base_next_lanesHold (hf o) (hx o) hb h⟩

theorem bodyAB_of_eq {f : Word → Word → Word} {k : Word → Word → Word → Word} (h : ∀ a b d, f a b = k a b d) (e : Env) (s1 : State) :
    bodyAB f e s1 = e.fixedLanes s1 (fun l => k (e.a l) (e.bv l) (e.dOld l)) 0 := by
  exact congrArg (e.fixedLanes s1 · 0) (funext fun l => h (e.a l) (e.bv l) (e.dOld l))

theorem bodyA_of_eq {f : Word → Word} {k : Word → Word → Word → Word} (h : ∀ a b d, f a = k a b d) (e : Env) (s1 : State) :
    bodyA f e s1 = e.fixedLanes s1 (fun l => k (e.a l) (e.bv l) (e.dOld l)) 0 := by
  exact congrArg (e.fixedLanes s1 · 0) (funext fun l => h (e.a l) (e.bv l) (e.dOld l))

theorem bodyABD_of_eq {f k : Word → Word → Word → Word} (h : ∀ a b d, f a b d = k a b d) (e : Env) (s1 : State) :
    bodyABD f e s1 = e.fixedLanes s1 (fun l => k (e.a l) (e.bv l) (e.dOld l)) 0 := by
  simp only [bodyABD, h]

/-- The row of an operation on A and B of layout B3. -/
theorem integerRow_ab {mk : B3 → Instr} {x : Ext → Instr} {k : Word → Word → Word → Word} (op : Nat) (f : Word → Word → Word)
    (hf : ∀ o, (mk o).form = .base op (.b3 o)) (hop : op < 0x40 ∧ op ∉ controlOps)
    (hx : ∀ o s, exec (mk o) s = Issue.base op (.b3 o) (bodyAB f) s) (h : ∀ a b d, f a b = k a b d) : IntegerRow (mk, x, k) :=
  integerRow_of_body op .b3 (bodyAB f) hf hop hx (bodyAB_of_eq h)

/-- The row of an operation on A and an immediate, of layout BI. -/
theorem integerRow_imm {mk : BI → Instr} {x : Ext → Instr} {k : Word → Word → Word → Word} (op : Nat) (f : Word → Word → Word)
    (hf : ∀ o, (mk o).form = .base op (.bi o)) (hop : op < 0x40 ∧ op ∉ controlOps)
    (hx : ∀ o s, exec (mk o) s = Issue.base op (.bi o) (bodyAB f) s) (h : ∀ a b d, f a b = k a b d) : IntegerRow (mk, x, k) :=
  integerRow_of_body op .bi (bodyAB f) hf hop hx (bodyAB_of_eq h)

theorem integerB3_rows : ∀ p ∈ integerB3, IntegerRow p := by
  simp only [integerB3, List.forall_mem_cons]
  refine ⟨?_, ?_, ?_, ?_, ?_, ?_, ?_, ?_, ?_, ?_, ?_, ?_, ?_, ?_, ?_, ?_, ?_, ?_, ?_, ?_, ?_, ?_, ?_, ?_, ?_, nofun⟩
  · exact integerRow_ab 0x01 opMov (fun _ => rfl) (by decide) (fun _ _ => rfl) fun _ _ _ => rfl
  · exact integerRow_ab 0x02 opAdd (fun _ => rfl) (by decide) (fun _ _ => rfl) fun a b _ => opAdd_eq a b
  · exact integerRow_ab 0x03 opSub (fun _ => rfl) (by decide) (fun _ _ => rfl) fun a b _ => opSub_eq a b
  · exact integerRow_ab 0x04 opMul (fun _ => rfl) (by decide) (fun _ _ => rfl) fun a b _ => opMul_eq a b
  · exact integerRow_ab 0x05 opAnd (fun _ => rfl) (by decide) (fun _ _ => rfl) fun _ _ _ => rfl
  · exact integerRow_ab 0x06 opOr (fun _ => rfl) (by decide) (fun _ _ => rfl) fun _ _ _ => rfl
  · exact integerRow_ab 0x07 opXor (fun _ => rfl) (by decide) (fun _ _ => rfl) fun _ _ _ => rfl
  · exact integerRow_ab 0x08 opShl (fun _ => rfl) (by decide) (fun _ _ => rfl) fun a b _ => opShl_eq a b
  · exact integerRow_ab 0x09 opShr (fun _ => rfl) (by decide) (fun _ _ => rfl) fun a b _ => opShr_eq a b
  · exact integerRow_ab 0x0A opSar (fun _ => rfl) (by decide) (fun _ _ => rfl) fun a b _ => opSar_eq a b
  · exact integerRow_ab 0x0B opMin (fun _ => rfl) (by decide) (fun _ _ => rfl) fun a b _ => opMin_eq a b
  · exact integerRow_ab 0x0C opMax (fun _ => rfl) (by decide) (fun _ _ => rfl) fun a b _ => opMax_eq a b
  · exact integerRow_ab 0x0D opMinu (fun _ => rfl) (by decide) (fun _ _ => rfl) fun a b _ => opMinu_eq a b
  · exact integerRow_ab 0x0E opMaxu (fun _ => rfl) (by decide) (fun _ _ => rfl) fun a b _ => opMaxu_eq a b
  · exact integerRow_ab 0x0F opAndn (fun _ => rfl) (by decide) (fun _ _ => rfl) fun _ _ _ => rfl
  · exact integerRow_ab 0x15 opCeq (fun _ => rfl) (by decide) (fun _ _ => rfl) fun a b _ => opCeq_eq a b
  · exact integerRow_ab 0x16 opCne (fun _ => rfl) (by decide) (fun _ _ => rfl) fun a b _ => opCne_eq a b
  · exact integerRow_ab 0x17 opClt (fun _ => rfl) (by decide) (fun _ _ => rfl) fun a b _ => opClt_eq a b
  · exact integerRow_ab 0x18 opCle (fun _ => rfl) (by decide) (fun _ _ => rfl) fun a b _ => opCle_eq a b
  · exact integerRow_ab 0x19 opCltu (fun _ => rfl) (by decide) (fun _ _ => rfl) fun a b _ => opCltu_eq a b
  · exact integerRow_ab 0x1A opCleu (fun _ => rfl) (by decide) (fun _ _ => rfl) fun a b _ => opCleu_eq a b
  · exact integerRow_of_body 0x1B .b3 (bodyABD opSel) (fun _ => rfl) (by decide) (fun _ _ => rfl) (bodyABD_of_eq opSel_eq)
  · exact integerRow_of_body 0x3C .b3 (bodyABD opMad) (fun _ => rfl) (by decide) (fun _ _ => rfl) (bodyABD_of_eq opMad_eq)
  · exact integerRow_of_body 0x3D .b3 (bodyA opPopc) (fun _ => rfl) (by decide) (fun _ _ => rfl) (bodyA_of_eq fun _ _ _ => rfl)
  · exact integerRow_of_body 0x3E .b3 (bodyA opClz) (fun _ => rfl) (by decide) (fun _ _ => rfl)
      (bodyA_of_eq fun a _ _ => opClz_eq a)

theorem integerBI_rows : ∀ p ∈ integerBI, IntegerRow p := by
  simp only [integerBI, List.forall_mem_cons]
  refine ⟨?_, ?_, ?_, ?_, ?_, nofun⟩
  · exact integerRow_imm 0x10 opAdd (fun _ => rfl) (by decide) (fun _ _ => rfl) fun a b _ => opAdd_eq a b
  · exact integerRow_imm 0x11 opShl (fun _ => rfl) (by decide) (fun _ _ => rfl) fun a b _ => opShl_eq a b
  · exact integerRow_imm 0x12 opShr (fun _ => rfl) (by decide) (fun _ _ => rfl) fun a b _ => opShr_eq a b
  · exact integerRow_imm 0x13 opSar (fun _ => rfl) (by decide) (fun _ _ => rfl) fun a b _ => opSar_eq a b
  · exact integerRow_imm 0x14 opAnd (fun _ => rfl) (by decide) (fun _ _ => rfl) fun _ _ _ => rfl

/-- What a row of the base floating-point instructions says of the base form, which a body may hold. -/
def FloatBaseRow (p : FloatRow) : Prop :=
  ∀ o, bodyMayHold (p.1 o) ∧ GivesFlagged (p.1 o) fun e l => p.2.2 e.rmode (e.a l).toNat (e.bv l).toNat (e.dOld l).toNat

/-- A body gives each active lane the value of a row, modulo 2^32, and the exceptions of every active lane. -/
def BodyGives (body : Env → State → Res) (k : RMode → Nat → Nat → Nat → Nat × Flags) : Prop :=
  ∀ e s1, body e s1 = e.fixedLanes s1 (fun l => w32 (k e.rmode (e.a l).toNat (e.bv l).toNat (e.dOld l).toNat).1)
    (e.activeLanes.foldl (fun m l => m ||| (k e.rmode (e.a l).toNat (e.bv l).toNat (e.dOld l).toNat).2) 0)

theorem floatBaseRow_of_body {mk : B3 → Instr} {x : Ext → Instr} {k : RMode → Nat → Nat → Nat → Nat × Flags} (op : Nat)
    (body : Env → State → Res) (hf : ∀ o, (mk o).form = .base op (.b3 o)) (hop : op < 0x40 ∧ op ∉ controlOps)
    (hx : ∀ o s, exec (mk o) s = Issue.base op (.b3 o) body s) (hb : BodyGives body k) : FloatBaseRow (mk, x, k) :=
  fun o => ⟨bodyMayHold_of_form (hf o) hop.1 hop.2, fun _ _ _ h => base_next_lanesHold (hf o) (hx o) hb h⟩

theorem bodyF2_gives (f : RMode → Nat → Nat → FRes) : BodyGives (bodyF2 f) fun rm a b _ => f rm a b := fun _ _ => rfl

theorem bodyF3d_gives (f : RMode → Nat → Nat → Nat → FRes) : BodyGives (bodyF3d f) f := fun _ _ => rfl

theorem packedRes_w32 (n : Nat) (fl : Flags) : BitVec.ofNat 32 (packedRes (w32 n, fl)).1 = w32 n :=
  (BitVec.ofNat_toNat 32 (w32 n)).trans (BitVec.setWidth_eq _)

theorem bodyP2_gives (f : RMode → Nat → Nat → FRes) : BodyGives (bodyP2 f) fun rm a b _ => onHalves (f rm) a b := by
  intro e s1
  unfold bodyP2 bodyFlagged
  simp only [packed2_eq, packedRes_w32]
  rfl

theorem bodyP3d_gives (f : RMode → Nat → Nat → Nat → FRes) : BodyGives (bodyP3d f) fun rm a b d => onHalves3 (f rm) a b d := by
  intro e s1
  unfold bodyP3d bodyFlagged
  simp only [packed3_eq, packedRes_w32]
  rfl

theorem bodyFsel_gives (big : Bool) : BodyGives (bodyFsel (fpick .fp32 big)) fun _ a b _ => pickNumber .fp32 big a b := by
  intro e s1
  unfold bodyFsel bodyFlagged
  simp only [fpick_eq (f := .fp32) (by decide)]
  rfl

theorem bodyFcmp_gives {g : FVal → FVal → Bool} {p : Int → Int → Bool}
    (h : ∀ a b, ((if g (.of .fp32 a) (.of .fp32 b) then 1 else 0, snanFlag .fp32 [a, b]) : Nat × Flags) = compareBits p a b) :
    BodyGives (bodyFcmp g) fun _ a b _ => compareBits p a b := by
  intro e s1
  simp only [← h]
  rfl

theorem floatBase_rows : ∀ p ∈ floatBase, FloatBaseRow p := by
  simp only [floatBase, List.forall_mem_cons]
  refine ⟨?_, ?_, ?_, ?_, ?_, ?_, ?_, ?_, ?_, ?_, ?_, ?_, ?_, ?_, ?_, nofun⟩
  · exact floatBaseRow_of_body 0x1C _ (fun _ => rfl) (by decide) (fun _ _ => rfl) (bodyF2_gives (faddBits .fp32))
  · exact floatBaseRow_of_body 0x1D _ (fun _ => rfl) (by decide) (fun _ _ => rfl) (bodyF2_gives (fsubBits .fp32))
  · exact floatBaseRow_of_body 0x1E _ (fun _ => rfl) (by decide) (fun _ _ => rfl) (bodyF2_gives (fmulBits .fp32))
  · exact floatBaseRow_of_body 0x1F _ (fun _ => rfl) (by decide) (fun _ _ => rfl) (bodyF3d_gives (ffmaBits .fp32))
  · exact floatBaseRow_of_body 0x25 _ (fun _ => rfl) (by decide) (fun _ _ => rfl) (bodyP2_gives (faddBits .fp16))
  · exact floatBaseRow_of_body 0x26 _ (fun _ => rfl) (by decide) (fun _ _ => rfl) (bodyP2_gives (fmulBits .fp16))
  · exact floatBaseRow_of_body 0x27 _ (fun _ => rfl) (by decide) (fun _ _ => rfl) (bodyP3d_gives (ffmaBits .fp16))
  · exact floatBaseRow_of_body 0x28 _ (fun _ => rfl) (by decide) (fun _ _ => rfl) (bodyP2_gives (faddBits .bf16))
  · exact floatBaseRow_of_body 0x29 _ (fun _ => rfl) (by decide) (fun _ _ => rfl) (bodyP2_gives (fmulBits .bf16))
  · exact floatBaseRow_of_body 0x2A _ (fun _ => rfl) (by decide) (fun _ _ => rfl) (bodyP3d_gives (ffmaBits .bf16))
  · exact floatBaseRow_of_body 0x20 _ (fun _ => rfl) (by decide) (fun _ _ => rfl) (bodyFsel_gives false)
  · exact floatBaseRow_of_body 0x21 _ (fun _ => rfl) (by decide) (fun _ _ => rfl) (bodyFsel_gives true)
  · exact floatBaseRow_of_body 0x22 _ (fun _ => rfl) (by decide) (fun _ _ => rfl) (bodyFcmp_gives fceq_eq)
  · exact floatBaseRow_of_body 0x23 _ (fun _ => rfl) (by decide) (fun _ _ => rfl) (bodyFcmp_gives fclt_eq)
  · exact floatBaseRow_of_body 0x24 _ (fun _ => rfl) (by decide) (fun _ _ => rfl) (bodyFcmp_gives fcle_eq)

/-! ### The words of a body (R38, R92, R380) -/

/-- What a body executes for an opcode: its instruction, but none of the control ones. -/
def bodyRuns (op : Nat) (i : Option Instr) (s : State) : Option (Host.Outcome State Fault Refusal) :=
  if op ∈ controlOps then none else i.map (exec · s)

theorem bodyB3_eq (op : Nat) (p : B3) (s : State) : bodyB3 op p s = bodyRuns op (Instr.ofB3 op p) s := by
  unfold Instr.ofB3
  split
  any_goals rfl
  unfold bodyB3 bodyRuns
  split
  any_goals contradiction
  simp

theorem bodyBI_eq (op : Nat) (p : BI) (s : State) : bodyBI op p s = bodyRuns op (Instr.ofBI op p) s := by
  unfold Instr.ofBI
  split
  any_goals rfl
  unfold bodyBI bodyRuns
  split
  any_goals contradiction
  simp

theorem bodyBZ_eq (op : Nat) (p : BZ) (s : State) : bodyBZ op p s = bodyRuns op (Instr.ofBZ op p) s := by
  unfold Instr.ofBZ
  split
  any_goals rfl
  unfold bodyBZ bodyRuns
  split
  any_goals contradiction
  simp

/-- The instructions of layouts BB and BJ are control ones. -/
theorem bodyRuns_ofBB (op : Nat) (p : BB) (s : State) : bodyRuns op (Instr.ofBB op p) s = none := by
  unfold Instr.ofBB
  split
  any_goals rfl
  simp [bodyRuns]

theorem bodyRuns_ofBJ (op : Nat) (p : BJ) (s : State) : bodyRuns op (Instr.ofBJ op p) s = none := by
  unfold Instr.ofBJ
  split
  any_goals rfl
  simp [bodyRuns]

/-- A word is executed as the instruction that it decodes to, where that is no control one; else it is `ILLEGAL`. -/
theorem bodyExec_eq (w : Word) (s : State) :
    bodyExec w s = ((decodeWords [w]).bind fun i => bodyRuns (numberOf i) (some i) s).getD (Issue.badWord cILLEGAL s) := by
  unfold bodyExec decodeWords decodeBase
  dsimp only
  by_cases hl : lenOf w = 0
  · rw [if_neg (not_not_intro hl), if_pos hl]
    cases baseOpsOf w none with
    | none => rfl
    | some o =>
      dsimp only
      cases baseOk (op6Of w) o
      · rfl
      · have hr : bodyRuns (op6Of w) (Instr.ofBase (op6Of w) o) s =
            (Instr.ofBase (op6Of w) o).bind fun i => bodyRuns (numberOf i) (some i) s := by
          cases h : Instr.ofBase (op6Of w) o with
          | none => simp [bodyRuns]
          | some i =>
            have hn : numberOf i = op6Of w := by rw [numberOf, (form_of_ofBase h).1]
            rw [Option.bind_some, hn]
        rw [if_pos rfl, if_pos rfl, ← hr]
        cases o with
        | b3 p => exact congrArg (Option.getD · _) (bodyB3_eq ..)
        | bi p => exact congrArg (Option.getD · _) (bodyBI_eq ..)
        | bz p => exact congrArg (Option.getD · _) (bodyBZ_eq ..)
        | bb p => exact congrArg (Option.getD · _) (bodyRuns_ofBB ..).symm
        | bj p => exact congrArg (Option.getD · _) (bodyRuns_ofBJ ..).symm
  · rw [if_pos hl, if_neg hl]
    rfl

/-- A body may hold the base instruction of a word exactly where it is no control one (R38). -/
theorem bodyMayHold_iff {w : Word} {i : Instr} (h : decodeWords [w] = some i) : bodyMayHold i ↔ numberOf i ∉ controlOps := by
  refine ⟨fun hb => ?_, fun hc => ?_⟩
  · obtain ⟨-, -, -, -, hc⟩ := hb
    exact hc
  · have hl : lenOf w = 0 := by
      by_contra hl
      rw [decodeWords, if_neg hl] at h
      cases h
    rw [decodeWords, if_pos hl] at h
    obtain ⟨op, o, hf, -, -⟩ := (decodeBase_eq_some_iff (lit := none)).mp ⟨hl, h⟩
    have hn : numberOf i = op := by rw [numberOf, hf]
    exact bodyMayHold_of_form hf (form_of_ofBase (form_eq_base_iff.mp hf)).2 (hn ▸ hc)

theorem bodyExec_of_mayHold {w : Word} {i : Instr} (h : decodeWords [w] = some i) (hb : bodyMayHold i) (s : State) :
    bodyExec w s = exec i s := by
  rw [bodyExec_eq, h, Option.bind_some, bodyRuns, if_neg ((bodyMayHold_iff h).mp hb)]
  rfl

theorem bodyExec_of_other {w : Word} (h : ∀ i, decodeWords [w] = some i → ¬ bodyMayHold i) (s : State) :
    bodyExec w s = Issue.badWord cILLEGAL s := by
  rw [bodyExec_eq]
  cases hd : decodeWords [w] with
  | none => rfl
  | some i =>
    have hc : numberOf i ∈ controlOps := not_not.mp fun hc => h i hd ((bodyMayHold_iff hd).mpr hc)
    rw [Option.bind_some, bodyRuns, if_pos hc]
    rfl

/-- The beam that runs a microprogram executes its body word. -/
theorem exec_macroBodyWord {s : State} {r : Ref} {T : Team} {b : Beam} {c : CallCtx} (hb : HasBeam s r T b) (hm : b.mcall = some c) :
    exec (.macroBodyWord r.t r.b) s = s.bodyStep r T c := by
  obtain ⟨hT, hB⟩ := hb
  have hr : s.beam? ⟨r.t, r.b⟩ = some b := by rw [State.beam?, hT]; exact hB
  show execMacroBodyWord r.t r.b s = _
  simp only [execMacroBodyWord, hT, hr, hm]

/-- R38, R92, R380: the body words of a microprogram. -/
theorem macroBodyWords : MacroBodyWords := by
  intro s r T b c hb hm
  simp only [exec_macroBodyWord hb hm, State.bodyStep, List.contains_iff_mem]
  refine ⟨fun hg => ?_, fun hg => by rw [if_pos hg]⟩
  rw [if_neg hg, State.bodyWord]
  refine ⟨fun i hd hi => bodyExec_of_mayHold hd hi _, fun i e s1 hd hi h => ?_, fun p hp o e s1 hd h => ?_, fun p hp o e s1 hd h => ?_,
    fun p hp o e s1 hd h => ?_, fun h => bodyExec_of_other h _⟩
  · rw [bodyExec_of_mayHold hd hi]
    obtain ⟨ha, -⟩ := h
    obtain ⟨-, hc, -⟩ := id ha
    exact (exec_coded_next i _ hc).resolve_right fun hs => by
      rw [ha.select] at hs
      exact nomatch hs.2
  · obtain ⟨hi, hr⟩ := integerB3_rows p hp o
    exact (bodyExec_of_mayHold hd hi _).trans (hr _ e s1 h)
  · obtain ⟨hi, hr⟩ := integerBI_rows p hp o
    exact (bodyExec_of_mayHold hd hi _).trans (hr _ e s1 h)
  · obtain ⟨hi, hr⟩ := floatBase_rows p hp o
    exact (bodyExec_of_mayHold hd hi _).trans (hr _ e s1 h)

/-! ### The call (R27, R92, R93) -/

/-- R27, R92, R93: what an `MCALL` answers. -/
theorem macroCalls : MacroCalls := by
  intro x s e s1 h
  have hx : exec (.mcall x) s = (bodyMcall e s1).outcome e s1 := h.ext rfl bodyMcall
  have he : e.x = x := h.x_eq
  intro lit params entry len
  have hp : e.params = params := by rw [Env.params, he]
  have hn : e.entryOf = entry := by rw [Env.entryOf, he]
  rw [TrapsOwn, TrapsOwn, JumpsTo, Completes, hx, bodyMcall]
  simp only [hp, hn]
  refine ⟨fun hr => ?_, fun hr h0 => ?_, fun hr h0 hw => ?_, fun hr h0 hw => ?_⟩
  · rw [if_pos (by simpa using hr)]
    rfl
  all_goals rw [if_neg (by simpa using hr)]
  · rw [if_pos h0]
    rfl
  · rw [if_neg h0, if_neg (Nat.not_le.mpr hw), Res.outcome_jump]
    rfl
  · rw [if_neg h0, if_pos hw, Res.outcome_done]

/-- Settles O27: the call by its body, and each body word by the instruction that it decodes to. -/
theorem microprograms : Obligations.Microprograms := ⟨macroCalls, macroBodyWords⟩

end Sys2Proof.Machine
end

section
/-! SUPPORT. Translation of a memory instruction's accesses (R124, R365): it changes cached translations only, and pages that are
mapped one way are translated that way, whatever is cached meanwhile. -/

namespace Sys2Proof.Machine

open Sys2Proof.Claim

/-! ### What translation changes (R124) -/

/-- The states differ in cached translations at most. -/
def State.TlbOnly (s t : State) : Prop := ∃ l, t = { s with net := { s.net with tlb := l } }

theorem State.TlbOnly.refl (s : State) : s.TlbOnly s := ⟨s.net.tlb, rfl⟩

theorem State.TlbOnly.trans {s t u : State} (h : s.TlbOnly t) (h' : t.TlbOnly u) : s.TlbOnly u := by
  obtain ⟨l, rfl⟩ := h
  obtain ⟨k, rfl⟩ := h'
  exact ⟨k, rfl⟩

theorem State.tlbAdd_tlbOnly (s : State) (p : TlbAt) (n f va : Nat) (l : Leaf) : s.TlbOnly (s.tlbAdd p n f va l) := ⟨_, rfl⟩

theorem State.walkFill_tlbOnly (s : State) (c f va : Nat) (l : Leaf) : s.TlbOnly (s.walkFill c f va l) :=
  (s.tlbAdd_tlbOnly ..).trans (State.tlbAdd_tlbOnly ..)

theorem State.lastPage_tlbOnly (s : State) (q : Requester) (va : Nat) (l : Leaf) : s.TlbOnly (s.lastPage q va l) := by
  unfold State.lastPage
  cases q.lane with
  | none => exact .refl s
  | some p => exact s.tlbAdd_tlbOnly ..

theorem State.translate_tlbOnly (s : State) (q : Requester) (va : Nat) : s.TlbOnly (s.translate q va).2 := by
  unfold State.translate
  split_ifs
  · exact .refl s
  · split
    · exact s.lastPage_tlbOnly ..
    · split
      · exact (s.walkFill_tlbOnly ..).trans (State.lastPage_tlbOnly ..)
      · exact .refl s

theorem translateAll_tlbOnly (s : State) (q : Nat → Requester) (l : List Acc) : s.TlbOnly (translateAll s q l).2 := by
  induction l generalizing s with
  | nil => exact .refl s
  | cons a l ih => exact (s.translate_tlbOnly ..).trans (ih _)

/-- Where the checks let an instruction go on, they have changed cached translations at most. -/
theorem State.memChecks_tlbOnly {s s2 : State} {r : Ref} {T : Team} {b : Beam} {k : AKind} {atom : Option Nat} {l : List Acc}
    {ok : List (Acc × Leaf × Nat)} {faulted : List Acc} (h : s.memChecks r T b k atom l = .go ok faulted s2) : s.TlbOnly s2 := by
  unfold State.memChecks at h
  dsimp only at h
  split_ifs at h
  obtain ⟨-, -, rfl⟩ := Checked.go.inj h
  exact translateAll_tlbOnly ..

/-! ### Pages that are mapped one way (R365) -/

theorem shiftRight_of_page {m k a b : Nat} (h : a / 2 ^ m = b / 2 ^ m) (hk : m ≤ k) : a >>> k = b >>> k := by
  obtain ⟨d, rfl⟩ := Nat.exists_eq_add_of_le hk
  rw [Nat.shiftRight_eq_div_pow, Nat.shiftRight_eq_div_pow, Nat.pow_add, ← Nat.div_div_eq_div_mul, ← Nat.div_div_eq_div_mul, h]

theorem pteOf_leaf_level {e : Dword} {n : Nat} {l : Leaf} (h : pteOf e n = .leaf l) : l.level = n := by
  unfold pteOf at h
  dsimp only at h
  split_ifs at h
  rw [← Pte.leaf.inj h]
  rfl

/-- A walk that ends at a leaf has read the bits of the address above its page alone. -/
theorem walkFrom_leaf {m : Memory} {n table va : Nat} {l : Leaf} (h : walkFrom m n table va = .leaf l) :
    l.level < n ∧ ∀ va', va' / 2 ^ pageBits l.level = va / 2 ^ pageBits l.level → walkFrom m n table va' = .leaf l := by
  induction n generalizing table with
  | zero => cases h
  | succ n ih =>
    unfold walkFrom at h
    split at h
    next a ha =>
      obtain ⟨hl, hw⟩ := ih h
      refine ⟨by omega, fun va' hv => ?_⟩
      rw [walkFrom, pteAddr, shiftRight_of_page hv (by unfold pageBits; omega), ← pteAddr, ha]
      exact hw va' hv
    next hn =>
      have hl := pteOf_leaf_level h
      refine ⟨by omega, fun va' hv => ?_⟩
      rw [walkFrom, pteAddr, shiftRight_of_page hv (by rw [hl]), ← pteAddr, h]

/-- Addresses of one page are translated by one leaf. -/
theorem State.walk_page {s : State} {f p va va' pa : Nat} {l : Leaf} (h : s.walk f p va = .ok l pa)
    (hv : va' / 2 ^ pageBits l.level = va / 2 ^ pageBits l.level) : s.walk f p va' = .ok l (l.pa va') := by
  unfold State.walk at *
  split at h
  · cases h
  · cases h
  · cases h
  next k hk =>
    dsimp only at h
    split_ifs at h with h1 h2 h3
    obtain ⟨rfl, -⟩ := Xlat.ok.inj h
    rw [(walkFrom_leaf hk).2 va' hv]
    dsimp only
    rw [if_neg h1, if_neg h2, if_neg h3]
    rfl

theorem mem_of_mem_capPlace {p : TlbAt} {n : Nat} {l : List TlbEntry} {t : TlbEntry} (h : t ∈ capPlace p n l) : t ∈ l := by
  induction l generalizing n with
  | nil => exact h
  | cons e l ih =>
    unfold capPlace at h
    split_ifs at h
    · split at h
      · exact List.mem_cons_of_mem _ (ih h)
      · rcases List.mem_cons.mp h with rfl | h
        · exact List.mem_cons_self
        · exact List.mem_cons_of_mem _ (ih h)
    · rcases List.mem_cons.mp h with rfl | h
      · exact List.mem_cons_self
      · exact List.mem_cons_of_mem _ (ih h)

/-- A cached translation that a walk of the page table would give. -/
def State.Walked (s : State) (f p : Nat) (t : TlbEntry) : Prop :=
  t.func = f ∧ ∃ va pa, s.walk f p va = .ok t.leaf pa ∧ t.page = va / 2 ^ pageBits t.leaf.level

/-- Every cached translation was there before, or is one that a walk gives. -/
def State.Filled (s : State) (f p : Nat) (u : State) : Prop :=
  s.TlbOnly u ∧ ∀ t ∈ u.net.tlb, t ∈ s.net.tlb ∨ s.Walked f p t

theorem State.Filled.tlbAdd {s u : State} {f p va pa : Nat} {l : Leaf} (h : s.Filled f p u) (hw : s.walk f p va = .ok l pa) (q : TlbAt)
    (n : Nat) : s.Filled f p (u.tlbAdd q n f va l) := by
  obtain ⟨hs, ht⟩ := h
  refine ⟨hs.trans (u.tlbAdd_tlbOnly ..), fun t hm => ?_⟩
  rcases List.mem_cons.mp (mem_of_mem_capPlace hm) with rfl | hm
  · exact .inr ⟨rfl, va, pa, hw, Nat.shiftRight_eq_div_pow ..⟩
  · exact ht t (List.mem_of_mem_filter hm)

theorem State.Filled.lastPage {s u : State} {f p va pa : Nat} {l : Leaf} {q : Requester} (h : s.Filled f p u)
    (hw : s.walk f p va = .ok l pa) (hq : q.func = f) : s.Filled f p (u.lastPage q va l) := by
  unfold State.lastPage
  cases q.lane with
  | none => exact h
  | some a =>
    subst hq
    exact h.tlbAdd hw _ _

/-- A cached translation is one of the requester's function for the page. -/
theorem State.cached_hit {s : State} {q : Requester} {va : Nat} {t : TlbEntry} (h : s.cached q va = some t) :
    t ∈ s.net.tlb ∧ ∃ a, t.hit a q.func va = true := by
  have hf {a : TlbAt} {t : TlbEntry} (h : (s.net.tlb.find? fun e => e.hit a q.func va) = some t) :
      t ∈ s.net.tlb ∧ ∃ a, t.hit a q.func va = true :=
    ⟨List.mem_of_find?_eq_some h, a, List.find?_some (p := fun e : TlbEntry => e.hit a q.func va) h⟩
  unfold State.cached at h
  dsimp only at h
  split at h
  next e he =>
    cases h
    cases hq : q.lane with
    | none => rw [hq] at he; cases he
    | some a => rw [hq] at he; exact hf he
  · split at h
    next e he =>
      cases h
      exact hf he
    · exact hf h

/-- An address that is mapped one way is translated that way. -/
theorem State.Filled.translate {s u : State} {q : Requester} {va : Nat} {l : Leaf} (h : s.Filled q.func q.part u)
    (hm : s.moving q.func va = false) (hw : s.walk q.func q.part va = .ok l (l.pa va))
    (ht : ∀ t ∈ s.net.tlb, t.func = q.func → t.page = va / 2 ^ pageBits t.leaf.level → t.leaf = l) :
    (u.translate q va).1 = .ok l (l.pa va) ∧ s.Filled q.func q.part (u.translate q va).2 := by
  have hs := h.1
  have hm' : u.moving q.func va = false := by
    obtain ⟨k, rfl⟩ := hs
    exact hm
  have hw' : u.walk q.func q.part va = .ok l (l.pa va) := by
    obtain ⟨k, rfl⟩ := hs
    exact hw
  have hc : ∀ t, u.cached q va = some t → t.leaf = l := by
    intro t hc
    obtain ⟨hmem, a, hit⟩ := State.cached_hit hc
    simp only [TlbEntry.hit, Bool.and_eq_true, decide_eq_true_eq, Nat.shiftRight_eq_div_pow] at hit
    obtain ⟨⟨-, hf⟩, hp⟩ := hit
    rcases h.2 t hmem with h0 | ⟨-, va0, pa0, h0, hp0⟩
    · exact ht t h0 hf hp
    · have := State.walk_page h0 (hp.symm.trans hp0)
      rw [hw] at this
      exact (Xlat.ok.inj this).1.symm
  unfold State.translate
  rw [if_neg (by simp [hm'])]
  split
  next t hct =>
    rw [hc t hct]
    exact ⟨rfl, h.lastPage hw rfl⟩
  next hct =>
    rw [hw']
    exact ⟨rfl, ((h.tlbAdd hw ..).tlbAdd hw ..).lastPage hw rfl⟩

/-- Accesses that are mapped one way are translated that way, in turn. -/
theorem translateAll_of_mapped {s u : State} {f p : Nat} {q : Nat → Requester} {leaf : Nat → Leaf} {l : List Acc} (h : s.Filled f p u)
    (hq : ∀ n, (q n).func = f ∧ (q n).part = p)
    (hl : ∀ a ∈ l, s.moving f a.va = false ∧ s.walk f p a.va = .ok (leaf a.lane) ((leaf a.lane).pa a.va) ∧
      ∀ t ∈ s.net.tlb, t.func = f → t.page = a.va / 2 ^ pageBits t.leaf.level → t.leaf = leaf a.lane) :
    (translateAll u q l).1 = l.map fun a => (a, .ok (leaf a.lane) ((leaf a.lane).pa a.va)) := by
  induction l generalizing u with
  | nil => rfl
  | cons a l ih =>
    obtain ⟨hf, hp⟩ := hq a.lane
    obtain ⟨hm, hw, ht⟩ := hl a List.mem_cons_self
    subst hf hp
    obtain ⟨h1, h2⟩ := h.translate hm hw ht
    simp only [translateAll, List.map_cons]
    rw [h1, ih h2 fun b hb => hl b (List.mem_cons_of_mem _ hb)]

end Sys2Proof.Machine
end

section
/-! SUPPORT. The coalescer: the packets of an instruction carry its lanes' elements, by target, line and kind (R225). -/

namespace Sys2Proof.Machine

open Sys2Proof.Claim

/-! ### Keys and their order (R225) -/

/-- The place of a target: this device first. -/
def PKey.place (k : PKey) : Nat := k.target.elim 0 (· + 1)

theorem PKey.before_iff {a b : PKey} : a.before b = true ↔ a.place < b.place ∨ a.place = b.place ∧ a.line < b.line := by
  unfold PKey.before PKey.place
  cases a.target <;> cases b.target <;> simp

theorem PKey.eq_of_fields {a b : PKey} (ht : a.target = b.target) (hl : a.line = b.line) (hk : a.kind = b.kind)
    (hn : a.tenant = b.tenant) : a = b := by
  rcases a with ⟨t, l, k, n⟩
  subst ht hl hk hn
  rfl

/-- What coalesced elements are: each once, under its key, the keys apart and in order. -/
structure Coalesced (inp : List (PKey × Elem)) (l : List (PKey × List Elem)) : Prop where
  perm : (l.flatMap (·.2)).Perm (inp.map (·.2))
  keyed : ∀ p ∈ l, ∀ y ∈ p.2, (p.1, y) ∈ inp
  ordered : l.Pairwise fun p q => p.1 ≠ q.1 ∧ q.1.before p.1 = false
  length_le : l.length ≤ inp.length

theorem fst_mem_addElem {k : PKey} {x : Elem} {l : List (PKey × List Elem)} {p : PKey × List Elem} (h : p ∈ addElem k x l) :
    p.1 = k ∨ ∃ q ∈ l, q.1 = p.1 := by
  induction l with
  | nil => exact .inl (List.mem_singleton.mp h ▸ rfl)
  | cons q l ih =>
    unfold addElem at h
    split_ifs at h with hk hb
    · rcases List.mem_cons.mp h with rfl | h
      · exact .inl rfl
      · exact .inr ⟨p, List.mem_cons_of_mem _ h, rfl⟩
    · rcases List.mem_cons.mp h with rfl | h
      · exact .inl rfl
      · exact .inr ⟨p, h, rfl⟩
    · rcases List.mem_cons.mp h with rfl | h
      · exact .inr ⟨p, List.mem_cons_self, rfl⟩
      · rcases ih h with h | ⟨c, hc, hp⟩
        · exact .inl h
        · exact .inr ⟨c, List.mem_cons_of_mem _ hc, hp⟩

theorem perm_addElem (k : PKey) (x : Elem) (l : List (PKey × List Elem)) :
    ((addElem k x l).flatMap (·.2)).Perm (x :: l.flatMap (·.2)) := by
  induction l with
  | nil => exact .refl _
  | cons q l ih =>
    unfold addElem
    split_ifs
    · simp only [List.flatMap_cons, List.append_assoc]
      exact List.perm_middle
    · exact .refl _
    · simp only [List.flatMap_cons]
      exact (ih.append_left q.2).trans List.perm_middle

theorem length_addElem_le (k : PKey) (x : Elem) (l : List (PKey × List Elem)) : (addElem k x l).length ≤ l.length + 1 := by
  induction l with
  | nil => exact le_refl _
  | cons q l ih =>
    unfold addElem
    split_ifs <;> simp only [List.length_cons] <;> omega

theorem keyed_addElem {k : PKey} {x : Elem} {l : List (PKey × List Elem)} {p : PKey × List Elem} {y : Elem} (h : p ∈ addElem k x l)
    (hy : y ∈ p.2) : (p.1 = k ∧ y = x) ∨ ∃ q ∈ l, q.1 = p.1 ∧ y ∈ q.2 := by
  induction l with
  | nil =>
    obtain rfl := List.mem_singleton.mp h
    exact .inl ⟨rfl, List.mem_singleton.mp hy⟩
  | cons q l ih =>
    unfold addElem at h
    split_ifs at h with hk hb
    · rcases List.mem_cons.mp h with rfl | h
      · rcases List.mem_append.mp hy with hy | hy
        · exact .inr ⟨q, List.mem_cons_self, hk, hy⟩
        · exact .inl ⟨rfl, List.mem_singleton.mp hy⟩
      · exact .inr ⟨p, List.mem_cons_of_mem _ h, rfl, hy⟩
    · rcases List.mem_cons.mp h with rfl | h
      · exact .inl ⟨rfl, List.mem_singleton.mp hy⟩
      · exact .inr ⟨p, h, rfl, hy⟩
    · rcases List.mem_cons.mp h with rfl | h
      · exact .inr ⟨p, List.mem_cons_self, rfl, hy⟩
      · rcases ih h with h | ⟨c, hc, hp⟩
        · exact .inl h
        · exact .inr ⟨c, List.mem_cons_of_mem _ hc, hp⟩

theorem ordered_addElem {k : PKey} {x : Elem} {l : List (PKey × List Elem)}
    (h : l.Pairwise fun p q => p.1 ≠ q.1 ∧ q.1.before p.1 = false) :
    (addElem k x l).Pairwise fun p q => p.1 ≠ q.1 ∧ q.1.before p.1 = false := by
  induction l with
  | nil => exact List.pairwise_singleton ..
  | cons q l ih =>
    obtain ⟨hq, hl⟩ := List.pairwise_cons.mp h
    unfold addElem
    split_ifs with hk hb
    · exact List.pairwise_cons.mpr ⟨fun p hp => hk ▸ hq p hp, hl⟩
    · have hb' := PKey.before_iff.mp hb
      refine List.pairwise_cons.mpr ⟨fun p hp => ?_, h⟩
      rcases List.mem_cons.mp hp with rfl | hp
      · refine ⟨Ne.symm hk, ?_⟩
        rw [← Bool.not_eq_true, PKey.before_iff]
        dsimp only
        omega
      · obtain ⟨-, hpq⟩ := hq p hp
        rw [← Bool.not_eq_true, PKey.before_iff] at hpq
        refine ⟨?_, ?_⟩
        · rintro rfl
          exact hpq hb'
        · rw [← Bool.not_eq_true, PKey.before_iff]
          dsimp only
          omega
    · refine List.pairwise_cons.mpr ⟨fun p hp => ?_, ih hl⟩
      rcases fst_mem_addElem hp with h1 | ⟨c, hc, h1⟩
      · exact h1 ▸ ⟨hk, Bool.eq_false_of_not_eq_true hb⟩
      · exact h1 ▸ hq c hc

theorem Coalesced.addElem {inp : List (PKey × Elem)} {l : List (PKey × List Elem)} (h : Coalesced inp l) (e : PKey × Elem) :
    Coalesced (inp ++ [e]) (addElem e.1 e.2 l) where
  perm := by
    rw [List.map_append]
    exact ((perm_addElem ..).trans (h.perm.cons _)).trans (List.perm_append_singleton ..).symm
  keyed := fun p hp y hy => by
    rcases keyed_addElem hp hy with ⟨h1, h2⟩ | ⟨q, hq, h1, hy⟩
    · exact List.mem_append_right _ (List.mem_singleton.mpr (Prod.ext h1 h2))
    · exact List.mem_append_left _ (h1 ▸ h.keyed q hq y hy)
  ordered := ordered_addElem h.ordered
  length_le := by
    have := length_addElem_le e.1 e.2 l
    have := h.length_le
    rw [List.length_append, List.length_singleton]
    omega

theorem coalesced_coalesce (inp : List (PKey × Elem)) : Coalesced inp (coalesce inp) := by
  have hg : ∀ (r done : List (PKey × Elem)) (l : List (PKey × List Elem)), Coalesced done l →
      Coalesced (done ++ r) (r.foldl (fun m e => Machine.addElem e.1 e.2 m) l) := by
    intro r
    induction r with
    | nil => intro done l h; rwa [List.append_nil]
    | cons e r ih =>
      intro done l h
      rw [List.append_cons]
      exact ih _ _ (h.addElem e)
  exact hg inp [] [] ⟨.refl _, nofun, List.Pairwise.nil, le_refl _⟩

/-! ### The packets of an instruction (R225) -/

/-- The element of an access that goes through. -/
def elemAt (sx : Bool) (o : Acc × Leaf × Nat) : Elem := ⟨o.1.lane, o.1.va, o.2.2, o.1.size, o.1.val, o.1.cmp, o.1.reg, sx⟩

theorem length_packetsOf_le (s : State) (r : Ref) (T : Team) (c : Cast) (ok : List (Acc × Leaf × Nat)) :
    (s.packetsOf r T c ok).length ≤ ok.length := by
  rw [State.packetsOf, List.length_mapIdx]
  exact (coalesced_coalesce _).length_le.trans (List.length_map _).le

/-- Each packet's elements lie on the line of its key, with its target, kind and tenant. -/
theorem mem_packetsOf {s : State} {r : Ref} {T : Team} {c : Cast} {ok : List (Acc × Leaf × Nat)} {p : Packet}
    (h : p ∈ s.packetsOf r T c ok) :
    ∃ n k l, p = s.mkPacket r T c n k l ∧ ∀ y ∈ l, ∃ o ∈ ok, y = elemAt c.sx o ∧ k.line = o.2.2 / 128 ∧ k.kind = o.2.1.kind := by
  rw [State.packetsOf, List.mem_mapIdx] at h
  obtain ⟨i, hi, rfl⟩ := h
  refine ⟨_, _, _, rfl, fun y hy => ?_⟩
  have hk := (coalesced_coalesce _).keyed _ (List.getElem_mem hi) y hy
  obtain ⟨o, ho, he⟩ := List.mem_map.mp hk
  obtain ⟨hk, rfl⟩ := Prod.ext_iff.mp he
  exact ⟨o, ho, rfl, by rw [← hk]; rfl, by rw [← hk]; rfl⟩

/-- The packets carry the elements of the lanes that go through. -/
theorem carries_packetsOf {s : State} {e : Env} {c : Cast} {ok : List (Acc × Leaf × Nat)} (hn : s.clock = e.now) (hp : c.pc = e.b.pc) :
    Carries e c.op c.pend c.sx ok (s.packetsOf e.r e.T c ok) := by
  have hc := coalesced_coalesce (ok.map (s.keyed (s.funcOf e.T) c))
  refine ⟨?_, fun p h => ?_, ?_⟩
  · have hm : (s.packetsOf e.r e.T c ok).flatMap (·.elems) = (coalesce (ok.map (s.keyed (s.funcOf e.T) c))).flatMap (·.2) := by
      rw [State.packetsOf, List.mapIdx_eq_zipIdx_map, List.flatMap_map]
      conv_rhs => rw [← List.zipIdx_map_fst 0 (coalesce _), List.flatMap_map]
      rfl
    rw [hm]
    refine hc.perm.trans (List.Perm.of_eq ?_)
    rw [List.map_map]
    rfl
  · obtain ⟨n, k, l, rfl, hl⟩ := mem_packetsOf h
    refine ⟨rfl, rfl, rfl, hn, hp, rfl, fun y hy z hz => ?_⟩
    obtain ⟨o, -, rfl, ho, -⟩ := hl y hy
    obtain ⟨o', -, rfl, ho', -⟩ := hl z hz
    exact ho.symm.trans ho'
  · rw [State.packetsOf, List.pairwise_iff_getElem]
    intro i j hi hj hij y hy z hz hl ht
    simp only [List.length_mapIdx] at hi hj
    rw [List.getElem_mapIdx] at hy hz ht ⊢
    rw [List.getElem_mapIdx] at ht ⊢
    obtain ⟨hne, -⟩ := List.pairwise_iff_getElem.mp hc.ordered i j hi hj hij
    obtain ⟨o, -, ho⟩ := List.mem_map.mp (hc.keyed _ (List.getElem_mem hi) y hy)
    obtain ⟨o', -, ho'⟩ := List.mem_map.mp (hc.keyed _ (List.getElem_mem hj) z hz)
    obtain ⟨hk, rfl⟩ := Prod.ext_iff.mp ho
    obtain ⟨hk', rfl⟩ := Prod.ext_iff.mp ho'
    by_contra hcon
    rw [not_or, not_not, not_not] at hcon
    obtain ⟨hkind, hten⟩ := hcon
    refine hne (PKey.eq_of_fields ht ?_ hkind hten)
    rw [← hk, ← hk']
    exact hl

end Sys2Proof.Machine
end

section
/-! SUPPORT. Global accesses at issue: what a memory instruction's fields name (R221, R222), the groups its packets are sent in
(R226), and the state that it leaves where its checks pass. -/

namespace Sys2Proof.Machine

open Sys2Proof.Claim

/-! ### The selected beam -/

/-- The beam that tries an instruction is in the state with everything that has come due. -/
theorem Attempts.hasBeam {i : Instr} {s s1 : State} {e : Env} (h : Attempts i s e s1) : HasBeam s1 e.r e.T e.b := by
  obtain ⟨-, -, -, -, hb, -, rfl⟩ := h
  refine ⟨?_, hb⟩
  rw [State.team?, State.dropPages_teams]
  exact State.team?_setTeam ..

theorem Attempts.now_eq {i : Instr} {s s1 : State} {e : Env} (h : Attempts i s e s1) : s1.clock = e.now := by
  obtain ⟨-, -, -, -, -, hv, rfl⟩ := h
  rw [hv, State.dropPages_clock]
  rfl

/-- What has come due leaves memory and packets (R124). -/
theorem Attempts.mem_packets {i : Instr} {s s1 : State} {e : Env} (h : Attempts i s e s1) :
    s1.mem = s.mem ∧ s1.net.packets = s.net.packets := by
  obtain ⟨-, -, -, -, -, -, rfl⟩ := h
  refine ⟨by rw [State.dropPages_mem]; rfl, ?_⟩
  unfold State.dropPages
  split_ifs <;> rfl

/-- A beam's update is found in its place. -/
theorem hasBeam_modBeam {s : State} {r : Ref} {T : Team} {b : Beam} (h : HasBeam s r T b) (f : Beam → Beam) :
    HasBeam (s.modBeam r f) r (T.setBeam r.b (f b)) (f b) := by
  rw [State.modBeam_of_hasBeam h]
  obtain ⟨hT, hb⟩ := h
  obtain ⟨hc, ht⟩ := State.beam?_setBeam s r (c := f b) hT hb
  refine ⟨ht, ?_⟩
  rwa [State.beam?, ht] at hc

/-- Cached translations leave the beams. -/
theorem State.TlbOnly.hasBeam {s t : State} {r : Ref} {T : Team} {b : Beam} (h : s.TlbOnly t) (hb : HasBeam s r T b) :
    HasBeam t r T b := by
  obtain ⟨l, rfl⟩ := h
  exact hb

/-! ### Moving on after an access -/

/-- Moving on leaves what an access has put in the beam. -/
theorem Beam.advance_frame (b : Beam) (e : Env) (pc : Option Dword) :
    (b.advance e pc).orc = b.orc ∧ (b.advance e pc).pends = b.pends ∧ (b.advance e pc).longs = b.longs ∧
      (b.advance e pc).status = b.status := by
  unfold Beam.advance
  cases e.b.mcall with
  | none => exact ⟨rfl, rfl, rfl, rfl⟩
  | some m =>
    dsimp only
    split_ifs <;> exact ⟨rfl, rfl, rfl, rfl⟩

/-- A ready beam that stops with no long instruction of its own keeps what its accesses have put in it (R182, R381). -/
theorem Beam.stopWait_frame {b : Beam} {now : Nat} (h : b.status = .ready) (hl : b.lastLong = none) :
    (b.stopWait now).orc = b.orc ∧ (b.stopWait now).pends = b.pends := by
  have hw : b.withdraw = b := by rw [Beam.withdraw, h]
  have hs : b.stopWait now = b.stop now := by rw [Beam.stopWait, h, hw]
  have hl' : ({ b with halt := .stopped } : Beam).lastLong = none := hl
  rw [hs, Beam.stop]
  dsimp only
  rw [hl']
  cases b.mcall <;> exact ⟨rfl, rfl⟩

/-- The halt counts an instruction of a ready beam without undoing it (R182). -/
theorem Beam.skidOne_frame {b : Beam} {now : Nat} (h : b.status = .ready) :
    (b.skidOne now).orc = b.orc ∧ (b.skidOne now).pends = b.pends := by
  unfold Beam.skidOne
  split
  · dsimp only
    split_ifs with h1 h2
    · exact ⟨rfl, rfl⟩
    · exact ⟨rfl, rfl⟩
    · obtain ⟨hl, -⟩ := not_or.mp h2
      exact Beam.stopWait_frame (b := { b with skid := b.skid + 1 }) h (Option.not_isSome_iff_eq_none.mp hl)
    · exact ⟨rfl, rfl⟩
  · exact ⟨rfl, rfl⟩

/-! ### The fields of a memory instruction (R221, R222) -/

theorem groupVal_eq_sum (f : Nat → Word) (n : Nat) :
    groupVal f n = ((List.range n).map fun i => (f i).toNat * 2 ^ (32 * i)).sum := by
  induction n with
  | zero => rfl
  | succ n ih => simp [groupVal, ih, List.range_succ]

theorem Env.width_eq (e : Env) : e.width = elemSize e.x := by
  simp [Env.width, elemSize, Ext.xf]

/-- A group holds one element of up to 16 bytes. -/
theorem groupLen_eq {x : Ext} (h : x.xf 0 3 ≤ 4) : groupLen (x.xf 0 3) = groupRegs (elemSize x) := by
  have hx : x.x10.toNat % 8 = x.xf 0 3 := by simp [Ext.xf]
  unfold elemSize
  rw [hx]
  generalize x.xf 0 3 = w at h
  interval_cases w <;> rfl

theorem Env.ea_eq (e : Env) (l : Nat) : (e.ea l).toNat = address e l := BitVec.toNat_add ..

/-- The accesses of the active lanes, as the model and the spec write them (R221, R222). -/
theorem Env.gAccs_eq {e : Env} (h : e.x.xf 0 3 ≤ 4) : e.gAccs = activeAccesses e := by
  unfold Env.gAccs Env.accs activeAccesses accesses
  refine List.map_congr_left fun l _ => ?_
  simp only [Env.cElem, Env.dElem, groupVal_eq_sum, groupLen_eq h, Env.width_eq, Env.ea_eq]
  rfl

theorem Ext.ff_zero_one (x : Ext) : decide (x.ff 0 1 = 1) = x.flg.getLsbD 0 := by
  simp [Ext.ff, BitVec.getLsbD, Nat.testBit_zero]

theorem Env.sx_eq (e : Env) : e.sx = e.x.x10.getLsbD 6 := by
  simp [Env.sx, Ext.xf, BitVec.getLsbD, Nat.testBit_eq_decide_div_mod_eq, Nat.shiftRight_eq_div_pow]

theorem Env.atomOp_eq (e : Env) : e.atomOp = atomCode e.x := by
  simp [Env.atomOp, Ext.xf, atomCode, Nat.shiftRight_eq_div_pow]

/-! ### Groups of eight (R226) -/

theorem chunks8_flatten {n : Nat} {l : List Packet} (h : l.length ≤ 8 * n) : (chunks8 n l).flatten = l := by
  induction n generalizing l with
  | zero =>
    obtain rfl : l = [] := List.eq_nil_of_length_eq_zero (by omega)
    rfl
  | succ n ih =>
    unfold chunks8
    split_ifs with h0
    · rw [h0]; rfl
    · rw [List.flatten_cons, ih (by rw [List.length_drop]; omega), List.take_append_drop]

theorem length_le_of_mem_chunks8 {n : Nat} {l q : List Packet} (h : q ∈ chunks8 n l) : q.length ≤ 8 := by
  induction n generalizing l with
  | zero => cases h
  | succ n ih =>
    unfold chunks8 at h
    split_ifs at h with h0
    · cases h
    · rcases List.mem_cons.mp h with rfl | h
      · rw [List.length_take]; omega
      · exact ih h

/-- Up to eight packets are one group. -/
theorem length_chunks8_le_one {n : Nat} {l : List Packet} (h : l.length ≤ 8) : (chunks8 n l).length ≤ 1 := by
  cases n with
  | zero => exact Nat.zero_le _
  | succ n =>
    unfold chunks8
    split_ifs
    · exact Nat.zero_le _
    · have hd : l.drop 8 = [] := List.drop_eq_nil_of_le h
      cases n <;> simp [chunks8, hd]

/-- More are more than one. -/
theorem one_lt_length_chunks8 {n : Nat} {l : List Packet} (h : 8 < l.length) : 1 < (chunks8 (n + 2) l).length := by
  have h0 : l ≠ [] := by rintro rfl; simp at h
  have hd : l.drop 8 ≠ [] := by
    intro hd
    have := List.drop_eq_nil_iff.mp hd
    omega
  simp [chunks8, h0, hd]

/-- All but the last group are full. -/
theorem length_getD_chunks8 {n k : Nat} {l : List Packet} (h : k + 1 < (chunks8 n l).length) :
    ((chunks8 n l).getD k []).length = 8 := by
  induction n generalizing l k with
  | zero => simp [chunks8] at h
  | succ n ih =>
    rw [chunks8] at h ⊢
    split_ifs at h ⊢ with h0
    · simp at h
    · cases k with
      | zero =>
        have hl : 8 < l.length := by
          by_contra hl
          have hd : l.drop 8 = [] := List.drop_eq_nil_of_le (by omega)
          rw [hd] at h
          cases n <;> simp [chunks8] at h
        simp
        omega
      | succ k =>
        rw [List.getD_cons_succ]
        exact ih (by simpa using h)

/-! ### What an access leaves (R225, R226) -/

/-- What the packets of an access have in common. -/
def Env.castOf (e : Env) (s2 : State) (op : POp) (rel acq : Bool) (scope : Nat) (ro sx ret : Bool) : Cast :=
  { op := op, pend := if ret then some s2.nextId else none, after := if rel then some e.b.scrAt else none, acq := acq, scope := scope,
    ro := ro, sx := sx, slack := Nat.min 3 (s2.readySiblings e.r e.T.coreId).length, pc := e.pc }

/-- The packets of an access: those of the lanes that the read-only cache does not serve. -/
def Env.packetsFor (e : Env) (s2 : State) (c : Cast) (ok : List (Acc × Leaf × Nat)) : List Packet :=
  ({ s2 with nextId := s2.nextId + 1 } : State).packetsOf e.r e.T c (ok.filter fun o => !(c.ro && s2.roHit e.T.coreId o))

/-- The sub-step from which the packets are sent. -/
def Env.firstStep (e : Env) (ps : List Packet) : Nat := if ps.length ≤ 8 then 0 else e.b.resume.getD 0

/-- The state with D pending, where the instruction returns a value, for `n` packets. -/
def Env.awaits (e : Env) (s2 : State) (ret : Bool) (vals : List (Nat × Word)) (n : Nat) : State :=
  if ret then e.pending s2 (writeNames e.g e.x) vals n 0 else { s2 with nextId := s2.nextId + 1 }

/-- The state that an access leaves where every lane goes through: D pending, the cache without the lines written, the packets sent. -/
def Env.accessed (e : Env) (s2 : State) (k : AKind) (c : Cast) (ret : Bool) (ok : List (Acc × Leaf × Nat)) (ps : List Packet) : State :=
  let s3 := e.awaits s2 ret (s2.roServed e.T.coreId c.sx (ok.filter fun o => c.ro && s2.roHit e.T.coreId o))
    ((chunks8 4 ps).drop (e.firstStep ps)).flatten.length
  let s4 := if k.writes then s3.roDrop e.T.coreId (ok.map fun o => lineOf o.2.2) else s3
  s4.send e.r e.pc s2.nextId (chunks8 4 ps) (e.firstStep ps)

/-- No packet of a group is the load of a bad line. -/
theorem poisoned_groups {s : State} {ps : List Packet} (h : ∀ p ∈ ps, s.poisoned p = false) (hl : ps.length ≤ 32) (n : Nat) :
    (((chunks8 4 ps).drop n).flatten.filter s.poisoned = []) ∧ s.badGroup (chunks8 4 ps) n = none := by
  have hg : ∀ q ∈ chunks8 4 ps, ∀ p ∈ q, s.poisoned p = false := fun q hq p hp =>
    h p ((chunks8_flatten (n := 4) hl) ▸ List.mem_flatten.mpr ⟨q, hq, hp⟩)
  constructor
  · rw [List.filter_eq_nil_iff]
    intro p hp
    obtain ⟨q, hq, hp⟩ := List.mem_flatten.mp hp
    simp [hg q (List.mem_of_mem_drop hq) p hp]
  · rw [State.badGroup, List.find?_eq_none]
    intro g hgr
    have hlt : g < (chunks8 4 ps).length := List.mem_range.mp hgr
    rw [List.getD_eq_getElem _ _ hlt]
    simp only [Bool.and_eq_true, List.any_eq_true, not_and, not_exists, Bool.not_eq_true]
    exact fun _ p hp => hg _ (List.getElem_mem hlt) p hp

/-- The groups from a sub-step on hold no more packets than there are. -/
theorem length_groups_le {ps : List Packet} (hl : ps.length ≤ 32) (n : Nat) : ((chunks8 4 ps).drop n).flatten.length ≤ ps.length := by
  conv_rhs => rw [← chunks8_flatten (n := 4) (l := ps) hl, ← List.take_append_drop n (chunks8 4 ps), List.flatten_append]
  rw [List.length_append]
  omega

/-- What is left of a list without those of a filter of it. -/
theorem filter_not_contains_filter {α : Type} [BEq α] [LawfulBEq α] (l : List α) (p : α → Bool) :
    (l.filter fun o => !(l.filter p).contains o) = l.filter fun o => !p o := by
  refine List.filter_congr fun o ho => ?_
  congr 1
  rw [Bool.eq_iff_iff, List.contains_iff_mem, List.mem_filter]
  exact and_iff_right ho

theorem Env.groups_of_fresh {e : Env} (h : e.prior = none) (ps : List Packet) : e.groups ps = (chunks8 4 ps, e.firstStep ps) := by
  rw [Env.groups, h]
  rfl

/-- An access of which every lane goes through, and which nothing holds, is done: its packets are on their way. -/
theorem Env.access_go {e : Env} {s s2 : State} {k : AKind} {op : POp} {atom : Option Nat} {rel acq : Bool} {scope : Nat}
    {ro sx ret : Bool} {l : List Acc} {ok : List (Acc × Leaf × Nat)} (hp : e.prior = none)
    (hc : s.memChecks e.r e.T e.b k atom l = .go ok [] s2) (hrd : rdLanes k ok = [])
    (hfit : e.b.orc.toNat + s.reserved e.r + ok.length ≤ 1024) (hlen : ok.length ≤ 32)
    (hheld : ∀ o ∈ ok, s.heldLoad e.r e.now k o = false) (hkv : ∀ o ∈ ok, s.kvBars e.r o.1.lane o.1.va = false)
    (hgood : ∀ p ∈ e.packetsFor s2 (e.castOf s2 op rel acq scope ro sx ret) ok, s2.poisoned p = false) :
    e.access s k op atom rel acq scope ro sx ret l =
      .done (e.accessed s2 k (e.castOf s2 op rel acq scope ro sx ret) ret ok
        (e.packetsFor s2 (e.castOf s2 op rel acq scope ro sx ret) ok)) := by
  have hl : (e.packetsFor s2 (e.castOf s2 op rel acq scope ro sx ret) ok).length ≤ ok.length :=
    (length_packetsOf_le ..).trans (List.length_filter_le ..)
  have hg := length_groups_le (hl.trans hlen) (e.firstStep (e.packetsFor s2 (e.castOf s2 op rel acq scope ro sx ret) ok))
  obtain ⟨hbad, hgroup⟩ := poisoned_groups hgood (hl.trans hlen)
    (e.firstStep (e.packetsFor s2 (e.castOf s2 op rel acq scope ro sx ret) ok))
  have hcached : (if ro then ok.filter (s2.roHit e.T.coreId) else []) = ok.filter fun o => ro && s2.roHit e.T.coreId o := by
    cases ro <;> simp
  have hps : ({ s2 with nextId := s2.nextId + 1 } : State).packetsOf e.r e.T (e.castOf s2 op rel acq scope ro sx ret)
      (ok.filter fun o => !(ro && s2.roHit e.T.coreId o)) = e.packetsFor s2 (e.castOf s2 op rel acq scope ro sx ret) ok := rfl
  have hleft : e.left l = l := by rw [Env.left, hp]; rfl
  unfold Env.access
  rw [hleft, hc]
  dsimp only
  rw [hrd]
  simp only [List.contains_nil, Bool.not_false, List.filter_true, hcached, filter_not_contains_filter, List.append_nil]
  rw [← Env.castOf, hps, Env.groups_of_fresh hp]
  rw [if_neg]
  · rw [if_neg fun h => h.2 hbad]
    simp only [hgroup]
    rfl
  · simp only [not_or, Bool.not_eq_true, List.any_eq_false]
    refine ⟨?_, fun o ho => by simp [hheld o ho], fun o ho => by simp [hkv o ho]⟩
    split_ifs
    · simp only [List.length_nil]
      omega
    · omega

/-! ### The beam after an access -/

/-- The beam with D pending for `n` packets, where the instruction returns a value. -/
def Beam.awaiting (b : Beam) (e : Env) (s2 : State) (ret : Bool) (vals : List (Nat × Word)) (n : Nat) : Beam :=
  if ret then
    { b with pends := b.pends ++ [{ id := s2.nextId, ready := 0, names := writeNames e.g e.x, vals := vals, wait := n,
                                    exact := false, after := [] }] }
  else b

theorem Beam.awaiting_frame (b : Beam) (e : Env) (s2 : State) (ret : Bool) (vals : List (Nat × Word)) (n : Nat) :
    (b.awaiting e s2 ret vals n).orc = b.orc ∧ (b.awaiting e s2 ret vals n).longs = b.longs ∧
      (b.awaiting e s2 ret vals n).status = b.status ∧ (b.awaiting e s2 ret vals n).halt = b.halt := by
  unfold Beam.awaiting
  cases ret <;> exact ⟨rfl, rfl, rfl, rfl⟩

/-- The state that an access sends its packets from. -/
def Env.toSend (e : Env) (s2 : State) (k : AKind) (c : Cast) (ret : Bool) (ok : List (Acc × Leaf × Nat)) (n : Nat) : State :=
  let s3 := e.awaits s2 ret (s2.roServed e.T.coreId c.sx (ok.filter fun o => c.ro && s2.roHit e.T.coreId o)) n
  if k.writes then s3.roDrop e.T.coreId (ok.map fun o => lineOf o.2.2) else s3

theorem Env.toSend_frame {e : Env} {s2 : State} {T : Team} {b : Beam} (h : HasBeam s2 e.r T b) (k : AKind) (c : Cast) (ret : Bool)
    (ok : List (Acc × Leaf × Nat)) (n : Nat) :
    (∃ U, HasBeam (e.toSend s2 k c ret ok n) e.r U
      (b.awaiting e s2 ret (s2.roServed e.T.coreId c.sx (ok.filter fun o => c.ro && s2.roHit e.T.coreId o)) n)) ∧
      (e.toSend s2 k c ret ok n).mem = s2.mem ∧ (e.toSend s2 k c ret ok n).net.packets = s2.net.packets ∧
      (e.toSend s2 k c ret ok n).clock = s2.clock := by
  generalize hv : s2.roServed e.T.coreId c.sx (ok.filter fun o => c.ro && s2.roHit e.T.coreId o) = vals
  have ha : (∃ U, HasBeam (e.awaits s2 ret vals n) e.r U (b.awaiting e s2 ret vals n)) ∧
      (e.awaits s2 ret vals n).mem = s2.mem ∧ (e.awaits s2 ret vals n).net.packets = s2.net.packets ∧
      (e.awaits s2 ret vals n).clock = s2.clock := by
    cases ret with
    | true =>
      have hb : HasBeam ({ s2 with nextId := s2.nextId + 1 } : State) e.r T b := h
      unfold Env.awaits Env.pending Env.pendingAt
      simp only [if_true, State.modBeam_mem, State.modBeam_net, State.modBeam_clock, and_true]
      exact ⟨_, hasBeam_modBeam hb _⟩
    | false => exact ⟨⟨T, h⟩, rfl, rfl, rfl⟩
  unfold Env.toSend
  dsimp only
  rw [hv]
  split_ifs
  · exact ha
  · exact ha

/-- Moving on after an effect that leaves the beam ready keeps what the effect has put in it. -/
theorem Issue.finish_frame {e : Env} {t : State} {T : Team} {b : Beam} (pc : Option Dword) (h : HasBeam t e.r T b)
    (hr : b.status = .ready) :
    ∃ U d, HasBeam (Issue.finish e t pc) e.r U d ∧ (Issue.finish e t pc).mem = t.mem ∧ (Issue.finish e t pc).net = t.net ∧
      d.pends = b.pends ∧ d.orc = b.orc ∧ (b.halt = .run → d.longs = b.longs) := by
  obtain ⟨ho, hp, hl, hs⟩ := b.advance_frame e pc
  obtain ⟨ho', hp'⟩ := Beam.skidOne_frame (now := e.now) (hs.trans hr)
  refine ⟨_, _, hasBeam_modBeam h _, State.modBeam_mem .., State.modBeam_net .., hp'.trans hp, ho'.trans ho, fun hrun => ?_⟩
  rw [Beam.skidOne_of_run _ ((b.advance_halt e pc).trans hrun)]
  exact hl

/-- Up to eight packets are sent at once. -/
theorem State.send_short {s : State} {r : Ref} {ps : List Packet} (h : ps.length ≤ 8) (pc : Dword) (inst : Nat) :
    s.send r pc inst (chunks8 4 ps) 0 = ({ s with nextId := s.nextId + ps.length } : State).inject r ps := by
  unfold State.send
  rw [List.drop_zero, chunks8_flatten (by omega)]
  exact if_pos (length_chunks8_le_one h)

/-- More are sent in groups of eight. -/
theorem State.send_long {s : State} {r : Ref} {ps : List Packet} (h : 8 < ps.length) (pc : Dword) (inst first : Nat) :
    s.send r pc inst (chunks8 4 ps) first =
      ({ s with nextId := s.nextId + ((chunks8 4 ps).drop first).flatten.length } : State).modBeam r fun b =>
        { b.atStep first with longs := b.longs ++ [⟨pc, s.clock, s.clock, .coal inst (chunks8 4 ps) [] first⟩] } :=
  if_neg (Nat.not_le.mpr (one_lt_length_chunks8 h))

theorem Beam.atStep_frame (b : Beam) (n : Nat) :
    (b.atStep n).orc = b.orc ∧ (b.atStep n).pends = b.pends ∧ (b.atStep n).status = b.status ∧ (b.atStep n).halt = b.halt := by
  unfold Beam.atStep
  split_ifs <;> exact ⟨rfl, rfl, rfl, rfl⟩

/-- What an access of which every lane goes through leaves, when the beam has moved on: its packets, in the network where they are at most
eight, in groups of eight in the beam where they are more; D pending; and `%orc` raised by what has been sent and counts. -/
theorem Issue.finish_accessed {e : Env} {s2 : State} (h : HasBeam s2 e.r e.T e.b) (hr : e.b.status = .ready) (hn : s2.clock = e.now)
    (k : AKind) (c : Cast) (ret : Bool) (ok : List (Acc × Leaf × Nat)) (ps : List Packet) :
    ∃ U d, HasBeam (Issue.finish e (e.accessed s2 k c ret ok ps) none) e.r U d ∧
      (Issue.finish e (e.accessed s2 k c ret ok ps) none).mem = s2.mem ∧
      d.pends = (e.b.awaiting e s2 ret (s2.roServed e.T.coreId c.sx (ok.filter fun o => c.ro && s2.roHit e.T.coreId o))
        ((chunks8 4 ps).drop (e.firstStep ps)).flatten.length).pends ∧
      (ps.length ≤ 8 → (Issue.finish e (e.accessed s2 k c ret ok ps) none).net.packets = s2.net.packets ++ ps ∧
        d.orc = e.b.orc + BitVec.ofNat 11 (ps.filter fun p => p.op.counted).length ∧ (e.b.halt = .run → d.longs = e.b.longs)) ∧
      (8 < ps.length → (Issue.finish e (e.accessed s2 k c ret ok ps) none).net.packets = s2.net.packets ∧ d.orc = e.b.orc ∧
        (e.b.halt = .run → d.longs = e.b.longs ++
          [⟨e.b.pc, e.now, e.now, .coal s2.nextId (chunks8 4 ps) [] (e.b.resume.getD 0)⟩])) := by
  generalize hn' : ((chunks8 4 ps).drop (e.firstStep ps)).flatten.length = n
  have hacc : e.accessed s2 k c ret ok ps = (e.toSend s2 k c ret ok n).send e.r e.pc s2.nextId (chunks8 4 ps) (e.firstStep ps) := by
    rw [← hn']; rfl
  obtain ⟨⟨V, hV⟩, hmem, hpk, hck⟩ := Env.toSend_frame h k c ret ok n
  generalize s2.roServed e.T.coreId c.sx (ok.filter fun o => c.ro && s2.roHit e.T.coreId o) = vals at hV ⊢
  obtain ⟨ho, hl, hs, hh⟩ := e.b.awaiting_frame e s2 ret vals n
  generalize e.b.awaiting e s2 ret vals n = b1 at *
  generalize e.toSend s2 k c ret ok n = u at *
  rw [hacc]
  rcases Nat.lt_or_ge 8 ps.length with h8 | h8
  · rw [Env.firstStep, if_neg (by omega), State.send_long h8]
    obtain ⟨ho', hp', hs', hh'⟩ := b1.atStep_frame (e.b.resume.getD 0)
    have hb := hasBeam_modBeam (s := { u with nextId := u.nextId + ((chunks8 4 ps).drop (e.b.resume.getD 0)).flatten.length })
      (show HasBeam _ e.r V b1 from hV) fun b => { b.atStep (e.b.resume.getD 0) with
        longs := b.longs ++ [⟨e.pc, u.clock, u.clock, .coal s2.nextId (chunks8 4 ps) [] (e.b.resume.getD 0)⟩] }
    obtain ⟨U, d, hd, hm, hnet, hdp, hdo, hdl⟩ := Issue.finish_frame none hb (hs'.trans (hs.trans hr))
    refine ⟨U, d, hd, hm.trans ((State.modBeam_mem ..).trans hmem), hdp.trans hp', fun hc => absurd hc (by omega), fun _ => ?_⟩
    refine ⟨?_, hdo.trans (ho'.trans ho), fun hrun => ?_⟩
    · rw [hnet, State.modBeam_net]
      exact hpk
    · rw [hdl (hh'.trans (hh.trans hrun)), hck, hn, hl]
      rfl
  · rw [Env.firstStep, if_pos h8, State.send_short h8]
    have hb := hasBeam_modBeam (s := { u with nextId := u.nextId + ps.length, net := { u.net with packets := u.net.packets ++ ps } })
      (show HasBeam _ e.r V b1 from hV) fun b => { b with
        orc := b.orc + BitVec.ofNat 11 (ps.filter fun p => p.op.counted).length }
    obtain ⟨U, d, hd, hm, hnet, hdp, hdo, hdl⟩ := Issue.finish_frame none hb (hs.trans hr)
    refine ⟨U, d, hd, hm.trans ((State.modBeam_mem ..).trans hmem), hdp, fun _ => ⟨?_, ?_, fun hrun => ?_⟩, fun hc => absurd hc (by omega)⟩
    · refine (congrArg Net.packets (hnet.trans (State.modBeam_net ..))).trans ?_
      rw [← hpk]
    · rw [hdo, ← ho]
    · rw [hdl (hh.trans hrun), ← hl]

end Sys2Proof.Machine
end

section
/-! SUPPORT. Global loads, stores, atomics and reductions, and their groups (R224 to R229, R234). -/

namespace Sys2Proof.Machine

open Sys2Proof.Claim

/-! ### The six instructions -/

/-- The lanes that a load's read-only bit has the cache serve (R228). -/
def readsCache (g : GlobalRow) (x : Ext) : Bool := decide (g.form x = .ld x) && x.flg.getLsbD 0

theorem globalRow_cnt_eq {g : GlobalRow} (hg : g ∈ globalRows) (x : Ext) : g.cnt = (g.op x).counted := by
  simp only [globalRows, List.mem_cons, List.not_mem_nil, or_false] at hg
  obtain rfl | rfl | rfl | rfl | rfl | rfl := hg <;> rfl

theorem globalRow_kind_of_load {g : GlobalRow} (hg : g ∈ globalRows) {x : Ext} (h : g.op x = .load) : g.kind = .load := by
  simp only [globalRows, List.mem_cons, List.not_mem_nil, or_false] at hg
  obtain rfl | rfl | rfl | rfl | rfl | rfl := hg
  case inl => rfl
  case inr.inr.inr.inr.inl => rfl
  all_goals cases h

theorem globalRow_kind_ne_watch {g : GlobalRow} (hg : g ∈ globalRows) : g.kind ≠ .watch := by
  simp only [globalRows, List.mem_cons, List.not_mem_nil, or_false] at hg
  obtain rfl | rfl | rfl | rfl | rfl | rfl := hg <;> exact nofun

theorem Sig.x10_of_ok {g : Sig} {x : Ext} (h : g.ok x = true) : g.x10 = true := by
  simp only [Sig.ok, Bool.and_eq_true] at h
  obtain ⟨⟨-, h⟩, -⟩ := h
  exact h

/-- A legal memory instruction's X10 is one that its row of the table allows. -/
theorem x10_of_memSig {i : Instr} {n : Nat} {x : Ext} {g : Sig} (hf : i.form = .ext n x) (hn : 0x180 ≤ n ∧ n < 0x1C0)
    (hs : memSig n x = some g) (h : i.wf = true) : g.x10 = true := by
  have hx : xsig n x = some g := by
    rw [xsig, if_neg (by omega), if_neg (by omega), if_neg (by omega), if_neg (by omega), if_neg (by omega), if_neg (by omega),
      if_pos hn.2, hs]
  have hm : n ≠ xopMcall := by unfold xopMcall; omega
  rw [Instr.wf, hf] at h
  simp only [Form.ok, extOk, if_neg hm, hx] at h
  exact Sig.x10_of_ok h

theorem Ext.width_of_atomOk {x : Ext} (h : x.atomOk = true) : x.xf 0 3 ≤ 4 := by
  simp only [Ext.atomOk, Bool.or_eq_true, Bool.and_eq_true, decide_eq_true_eq] at h
  omega

/-- Their elements have at most 16 bytes (R221). -/
theorem globalRow_width_le {g : GlobalRow} (hg : g ∈ globalRows) {x : Ext} (h : (g.form x).wf = true) : x.xf 0 3 ≤ 4 := by
  have hv : x.x10.toNat ≤ 4 → x.xf 0 3 ≤ 4 := fun h => (Nat.mod_le _ _).trans (by simpa using h)
  simp only [globalRows, List.mem_cons, List.not_mem_nil, or_false] at hg
  obtain rfl | rfl | rfl | rfl | rfl | rfl := hg
  · have hx := x10_of_memSig rfl (by decide) rfl h
    simp only [Bool.and_eq_true, decide_eq_true_eq] at hx
    omega
  · exact hv (of_decide_eq_true (x10_of_memSig rfl (by decide) rfl h))
  · have hx := x10_of_memSig rfl (by decide) rfl h
    simp only [Bool.and_eq_true] at hx
    exact Ext.width_of_atomOk hx.1
  · have hx := x10_of_memSig rfl (by decide) rfl h
    simp only [Bool.and_eq_true] at hx
    exact Ext.width_of_atomOk hx.1.1.1
  · have hx := x10_of_memSig rfl (by decide) rfl h
    simp only [Bool.and_eq_true, decide_eq_true_eq] at hx
    omega
  · have hx := x10_of_memSig rfl (by decide) rfl h
    simp only [Bool.and_eq_true, decide_eq_true_eq] at hx
    omega

theorem Env.global_free {e : Env} {s : State} (hi : e.idle = false) (hm : s.memHeld e = false) (f : Unit → Res) : e.global s f = f () := by
  simp [Env.global, hi, hm]

theorem Env.global_idle {e : Env} {s : State} (hi : e.idle = true) (f : Unit → Res) : e.global s f = .done s := by
  simp [Env.global, hi]

/-- A scope that the cap lets through changes nothing (R238). -/
theorem Env.capped_of_passes {e : Env} {s : State} {n : Nat} (h : s.capScope e.T n = some (n, false)) (hn : e.scope = n)
    (f : Nat → State → Res) : e.capped s f = f n s := by
  subst hn
  simp only [Env.capped, h, Env.setScap]
  rfl

theorem Env.scope_eq (e : Env) : e.scope = e.x.x10.toNat / 8 % 8 := by
  simp [Env.scope, Ext.xf, Nat.shiftRight_eq_div_pow]

/-- The accesses of an instruction that no rule holds. -/
def AccessesOf (g : GlobalRow) (x : Ext) (e : Env) (s1 : State) (body : Res) : Prop :=
  ∃ rel acq scope, body = e.access s1 g.kind (g.op x) (g.atom x) rel acq scope (readsCache g x)
    (g.kind == .load && x.x10.getLsbD 6) g.ret e.gAccs

/-- What a global instruction does: nothing with no active lane (R29), and where nothing holds it, its accesses. -/
theorem globalRow_runs {g : GlobalRow} (hg : g ∈ globalRows) {x : Ext} {s s1 : State} {e : Env} (h : Issues (g.form x) s e s1) :
    ∃ body, exec (g.form x) s = body.outcome e s1 ∧ (e.idle = true → body = .done s1) ∧
      (e.idle = false → MemoryFree e s1 → ScopePasses (g.form x) e s1 → AccessesOf g x e s1 body) := by
  have hx : e.x = fieldsOf (g.form x) e.b := h.x_eq
  simp only [globalRows, List.mem_cons, List.not_mem_nil, or_false] at hg
  obtain rfl | rfl | rfl | rfl | rfl | rfl := hg
  · refine ⟨_, h.ext rfl bodyLd, fun hi => Env.global_idle hi _, fun hi hm _ => ⟨false, false, 0, ?_⟩⟩
    have hc : readsCache ⟨.ld, .load, fun _ => .load, fun _ => none, true, false⟩ x = x.flg.getLsbD 0 := by
      simp [readsCache]
    rw [bodyLd, Env.global_free hi hm, Env.sx_eq, Ext.ff_zero_one, hc, hx]
    rfl
  · refine ⟨_, h.ext rfl bodySt, fun hi => Env.global_idle hi _, fun hi hm _ => ⟨false, false, 0, ?_⟩⟩
    exact Env.global_free hi hm _
  · refine ⟨_, h.ext rfl bodyAtom, fun hi => Env.global_idle hi _, fun hi hm _ => ⟨false, false, 0, ?_⟩⟩
    rw [bodyAtom, Env.global_free hi hm, Env.atomOp_eq, hx]
    rfl
  · refine ⟨_, h.ext rfl bodyRed, fun hi => Env.global_idle hi _, fun hi hm _ => ⟨false, false, 0, ?_⟩⟩
    rw [bodyRed, Env.global_free hi hm, Env.atomOp_eq, hx]
    rfl
  · refine ⟨_, h.ext rfl bodyLda, fun hi => by rw [bodyLda, if_pos hi], fun hi hm hs => ⟨false, true, e.x.x10.toNat / 8 % 8, ?_⟩⟩
    have hp := hs.resolve_left fun hn => (hn x).1 rfl
    rw [bodyLda, if_neg (by rw [hi]; exact nofun), Env.capped_of_passes hp e.scope_eq, Env.global_free hi hm, Env.sx_eq, hx]
    rfl
  · refine ⟨_, h.ext rfl bodyStl, fun hi => by rw [bodyStl, if_pos hi], fun hi hm hs => ⟨true, false, e.x.x10.toNat / 8 % 8, ?_⟩⟩
    have hp := hs.resolve_left fun hn => (hn x).2.1 rfl
    rw [bodyStl, if_neg (by rw [hi]; exact nofun), Env.capped_of_passes hp e.scope_eq, Env.global_free hi hm]
    rfl

/-! ### An instruction that does not resume (R226) -/

theorem Env.prior_of_fresh {e : Env} (h : Fresh e) : e.prior = none := by
  unfold Env.prior Beam.again
  rcases h with h | h
  · simp [h]
  · have hf : (e.b.latched.toList ++ e.b.trapped.toList).find? (fun l => decide (l.pc = e.pc)) = none := by
      simp only [List.find?_eq_none, List.mem_append, Option.mem_toList, decide_eq_true_eq]
      exact fun l hl => h l hl
    rw [hf]
    simp

theorem Env.idle_eq {e : Env} (h : Fresh e) : e.idle = decide (e.act = 0) := by
  rw [Env.idle, Env.prior_of_fresh h, Env.anyActive]
  simp

theorem Env.reached_of_fresh {e : Env} (h : Fresh e) : e.reached = none := by
  rw [Env.reached, Env.prior_of_fresh h]
  rfl

/-- A lane that fails a check traps before any lane performs anything (R224). -/
theorem Env.access_trap {e : Env} {s : State} {k : AKind} {atom : Option Nat} {l : List Acc} {c n : Nat} (h : Fresh e)
    (hc : s.memChecks e.r e.T e.b k atom l = .trap c n) (op : POp) (rel acq : Bool) (scope : Nat) (ro sx ret : Bool) :
    e.access s k op atom rel acq scope ro sx ret l = .trap c 0 none none n := by
  have hl : e.left l = l := by rw [Env.left, Env.prior_of_fresh h]; rfl
  unfold Env.access
  rw [hl, hc]
  dsimp only
  rw [Env.reached_of_fresh h]

/-! ### Where every lane goes through -/

theorem length_activeLanes_le (e : Env) : e.activeLanes.length ≤ 32 := List.length_filter_le _ lanes

theorem okAccs_map (l : List Acc) (f : Acc → Leaf) (pa : Acc → Nat) :
    okAccs (l.map fun a => (a, .ok (f a) (pa a))) = l.map fun a => (a, f a, pa a) := by
  simp [okAccs]

theorem badAccs_map (l : List Acc) (f : Acc → Leaf) (pa : Acc → Nat) {x : Xlat} (hx : ∀ k n, x ≠ .ok k n) :
    badAccs (l.map fun a => (a, .ok (f a) (pa a))) x = [] := by
  simp [badAccs, fun k n => (hx k n).symm]

/-- Lanes that pass every check go through, by the leaves of their pages (R224). -/
theorem memChecks_of_goesThrough {g : GlobalRow} {x : Ext} {e : Env} {s1 : State} {leaf : Nat → Leaf} {l : List Acc}
    (h : ∀ a ∈ l, GoesThrough g x s1 e a (leaf a.lane)) :
    ∃ s2, s1.memChecks e.r e.T e.b g.kind (g.atom x) l =
      .go (l.map fun a => (a, leaf a.lane, (leaf a.lane).pa a.va)) [] s2 := by
  have hq : ∀ n, (s1.laneReq e.r e.T n).func = s1.funcOf e.T ∧ (s1.laneReq e.r e.T n).part = s1.partOf e.T := fun n => ⟨rfl, rfl⟩
  have ht := translateAll_of_mapped (leaf := leaf) ⟨.refl s1, fun t hm => .inl hm⟩ hq fun a ha => by
    obtain ⟨-, -, hm, -⟩ := h a ha
    exact hm
  have hwrong : l.filter Acc.misaligned = [] := by
    rw [List.filter_eq_nil_iff]
    intro a ha
    obtain ⟨h0, -⟩ := h a ha
    simp [Acc.misaligned, h0]
  have hhigh : (l.filter fun a => decide (a.va / 2 ^ 56 ≠ 0)) = [] := by
    rw [List.filter_eq_nil_iff]
    intro a ha
    obtain ⟨-, h0, -⟩ := h a ha
    exact fun hd => of_decide_eq_true hd h0
  have hall {p : Acc × Leaf × Nat → Bool} (hp : ∀ a ∈ l, p (a, leaf a.lane, (leaf a.lane).pa a.va) = false) :
      (l.map fun a => (a, leaf a.lane, (leaf a.lane).pa a.va)).filter p = [] := by
    simpa only [List.filter_eq_nil_iff, List.forall_mem_map, Bool.not_eq_true] using hp
  have hjoin : ∀ a ∈ l, s1.joins e.r a.lane a.va = false := by
    intro a ha
    obtain ⟨-, -, -, -, -, h0, -⟩ := h a ha
    exact h0
  have htarget : ∀ a ∈ l, ∀ i, s1.targetOf (s1.funcOf e.T) a (leaf a.lane) = some i →
      s1.reachable i = true ∧ ∀ op, g.atom x = some op → s1.capable i op a.size = true := by
    intro a ha
    obtain ⟨-, -, -, -, h0, -⟩ := h a ha
    exact h0
  refine ⟨(translateAll s1 (s1.laneReq e.r e.T) l).2, ?_⟩
  unfold State.memChecks
  rw [if_neg (not_not_intro hwrong), if_neg (not_not_intro hhigh)]
  simp only [ht, okAccs_map, badAccs_map _ _ _ (x := .memfault) nofun, badAccs_map _ _ _ (x := .prot) nofun,
    badAccs_map _ _ _ (x := .invalid) nofun, List.nil_append]
  rw [if_neg (not_not_intro rfl), if_neg, if_neg, if_neg]
  · rw [hall (p := fun o => s1.joins e.r o.1.lane o.1.va) hjoin, List.filter_eq_self.mpr]
    · rfl
    · simpa only [List.forall_mem_map, Bool.not_eq_true'] using hjoin
  · refine not_not_intro (hall fun a ha => ?_)
    dsimp only
    split
    · rfl
    next i hi => simp [(htarget a ha i hi).1]
  · refine not_not_intro ?_
    split
    · rfl
    next op hop =>
      refine List.map_eq_nil_iff.mpr (hall fun a ha => ?_)
      dsimp only
      split
      · rfl
      next i hi => simp [(htarget a ha i hi).2 op hop]
  · refine not_not_intro (List.map_eq_nil_iff.mpr (hall fun a ha => ?_))
    obtain ⟨-, -, -, h0, -⟩ := h a ha
    exact h0

/-- The lanes that go through and that the read-only cache does not serve. -/
def toSlices (g : GlobalRow) (x : Ext) (e : Env) (s : State) (ok : List (Acc × Leaf × Nat)) : List (Acc × Leaf × Nat) :=
  ok.filter fun o => !(readsCache g x && s.roHit e.T.coreId o)

/-- What a global instruction leaves of which every lane goes through: its packets on their way, D pending. -/
def Underway (g : GlobalRow) (x : Ext) (e : Env) (s2 : State) (ok : List (Acc × Leaf × Nat)) (t : State) : Prop :=
  ∃ U d ps, HasBeam t e.r U d ∧ t.mem = s2.mem ∧
    Carries e (g.op x) (if g.ret then some s2.nextId else none) (g.kind == .load && x.x10.getLsbD 6) (toSlices g x e s2 ok) ps ∧
    (ps.length ≤ 8 → t.net.packets = s2.net.packets ++ ps ∧
      d.orc.toNat = e.b.orc.toNat + (if g.cnt then ps.length else 0) ∧ (e.b.halt = .run → d.longs = e.b.longs)) ∧
    (8 < ps.length → t.net.packets = s2.net.packets ∧ d.orc = e.b.orc ∧ (e.b.halt = .run → d.longs = e.b.longs ++
      [⟨e.b.pc, e.now, e.now, .coal s2.nextId (chunks8 4 ps) [] (e.b.resume.getD 0)⟩])) ∧
    (g.ret = true → ∃ p ∈ d.pends, p.id = s2.nextId ∧ p.names = writeNames e.g e.x ∧ (ps.length ≤ 8 → p.wait = ps.length) ∧
      p.vals = s2.roServed e.T.coreId (g.kind == .load && x.x10.getLsbD 6)
        (ok.filter fun o => readsCache g x && s2.roHit e.T.coreId o)) ∧
    (g.ret = false → d.pends = e.b.pends) ∧ ps.length ≤ ok.length

/-- No packet of a load is for a bad line where no lane reads one. -/
theorem poisoned_packetsFor {e : Env} {s2 : State} {c : Cast} {ok : List (Acc × Leaf × Nat)} (h : c.op = .load → ReadsGoodLines s2 ok)
    {p : Packet} (hp : p ∈ e.packetsFor s2 c ok) : s2.poisoned p = false := by
  obtain ⟨n, k, l, rfl, hl⟩ := mem_packetsOf hp
  by_contra hbad
  simp only [State.poisoned, Bool.not_eq_false, Bool.and_eq_true, decide_eq_true_eq, List.any_eq_true,
    List.contains_iff_mem] at hbad
  obtain ⟨⟨⟨hop, hpeer⟩, hhost⟩, y, hy, hline⟩ := hbad
  obtain ⟨o, ho, rfl, -, hk⟩ := hl y hy
  refine h hop o (List.mem_of_mem_filter ho) ?_ ?_ hline
  · rw [← hk]; exact hpeer
  · rw [← hk]; exact hhost

theorem fieldsOf_globalRow {g : GlobalRow} (hg : g ∈ globalRows) (x : Ext) (b : Beam) : fieldsOf (g.form x) b = x := by
  simp only [globalRows, List.mem_cons, List.not_mem_nil, or_false] at hg
  obtain rfl | rfl | rfl | rfl | rfl | rfl := hg <;> rfl

/-- Of packets of one operation all count or none (R147). -/
theorem length_filter_counted {op : POp} {ps : List Packet} (h : ∀ p ∈ ps, p.op = op) :
    (ps.filter fun p => p.op.counted).length = if op.counted then ps.length else 0 := by
  split_ifs with hc
  · rw [List.filter_eq_self.mpr fun p hp => by rw [h p hp, hc]]
  · rw [List.filter_eq_nil_iff.mpr fun p hp => by rw [h p hp]; exact hc]
    rfl

/-- An instruction of which every lane goes through, and which nothing holds, completes: its packets are on their way. -/
theorem global_underway {g : GlobalRow} (hg : g ∈ globalRows) {x : Ext} {s s1 s2 : State} {e : Env} {ok : List (Acc × Leaf × Nat)}
    (h : Issues (g.form x) s e s1) (hf : Fresh e) (ha : e.act ≠ 0) (hm : MemoryFree e s1) (hs : ScopePasses (g.form x) e s1)
    (hc : s1.memChecks e.r e.T e.b g.kind (g.atom x) (activeAccesses e) = .go ok [] s2) (hrd : rdLanes g.kind ok = [])
    (hheld : ∀ o ∈ ok, g.kind = .load → o.2.1.kind = .multicast → s1.mcstOut e.r e.now o.1.lane (o.2.2 / 128) = false)
    (hgood : g.kind = .load → ReadsGoodLines s1 ok) (hkv : PastKv e s1 ok) (hfit : CountFits e s1 ok.length) (hlen : ok.length ≤ 32) :
    ∃ t, exec (g.form x) s = .next t ∧ Underway g x e s2 ok t := by
  have htlb := State.memChecks_tlbOnly hc
  have hw : e.x.xf 0 3 ≤ 4 := by
    obtain ⟨⟨hwf, -⟩, -⟩ := id h
    rw [h.x_eq, fieldsOf_globalRow hg]
    exact globalRow_width_le hg hwf
  obtain ⟨body, hx, -, hrun⟩ := globalRow_runs hg h
  have hi : e.idle = false := by rw [Env.idle_eq hf]; exact decide_eq_false ha
  obtain ⟨rel, acq, scope, hb⟩ := hrun hi hm hs
  obtain ⟨hat, hready, -⟩ := h
  obtain ⟨hmay, -⟩ := hready
  obtain ⟨-, -, -, -, -, -, hst, -⟩ := (whenABeamMayIssue ..).mp hmay
  rw [Env.gAccs_eq hw] at hb
  have hgood2 : (g.op x) = .load → ReadsGoodLines s2 ok := by
    obtain ⟨l, rfl⟩ := htlb
    exact fun hop => hgood (globalRow_kind_of_load hg hop)
  have hheld' : ∀ o ∈ ok, s1.heldLoad e.r e.now g.kind o = false := by
    intro o ho
    by_contra hh
    simp only [State.heldLoad, Bool.not_eq_false, Bool.and_eq_true, Bool.or_eq_true, decide_eq_true_eq] at hh
    obtain ⟨⟨hk, hmc⟩, hout⟩ := hh
    have := hheld o ho (hk.resolve_right (globalRow_kind_ne_watch hg)) hmc
    exact Bool.false_ne_true (this.symm.trans hout)
  have hbody := hb.trans (Env.access_go (Env.prior_of_fresh hf) hc hrd hfit hlen hheld' hkv
    fun p hp => poisoned_packetsFor hgood2 hp)
  rw [hbody, Res.outcome_done] at hx
  refine ⟨_, hx, ?_⟩
  have hck : s2.clock = e.now := by
    rw [← hat.now_eq]
    obtain ⟨l, rfl⟩ := htlb
    rfl
  generalize hcast : e.castOf s2 (g.op x) rel acq scope (readsCache g x) (g.kind == .load && x.x10.getLsbD 6) g.ret = c
  have hcar : Carries e c.op c.pend c.sx (toSlices g x e s2 ok) (e.packetsFor s2 c ok) := by
    subst hcast
    exact carries_packetsOf hck rfl
  have hplen : (e.packetsFor s2 c ok).length ≤ ok.length := (length_packetsOf_le ..).trans (List.length_filter_le ..)
  obtain ⟨U, d, hd, hmem, hpends, hshort, hlong⟩ :=
    Issue.finish_accessed (htlb.hasBeam hat.hasBeam) hst hck g.kind c g.ret ok (e.packetsFor s2 c ok)
  have hcount : ((e.packetsFor s2 c ok).filter fun p => p.op.counted).length =
      if g.cnt then (e.packetsFor s2 c ok).length else 0 := by
    obtain ⟨-, hp, -⟩ := hcar
    rw [globalRow_cnt_eq hg x]
    refine length_filter_counted fun p hm => ?_
    obtain ⟨hop, -⟩ := hp p hm
    rw [hop, ← hcast]
    rfl
  generalize e.packetsFor s2 c ok = ps at *
  subst hcast
  refine ⟨U, d, ps, hd, hmem, hcar, fun h8 => ?_, hlong, fun hret => ?_, fun hret => ?_, hplen⟩
  · obtain ⟨hpk, horc, hl⟩ := hshort h8
    refine ⟨hpk, ?_, hl⟩
    unfold CountFits at hfit
    rw [horc, hcount, BitVec.toNat_add, BitVec.toNat_ofNat]
    split_ifs <;> omega
  · rw [hpends, Beam.awaiting, if_pos hret]
    refine ⟨_, List.mem_append_right _ List.mem_cons_self, rfl, rfl, fun h8 => ?_, rfl⟩
    dsimp only
    rw [Env.firstStep, if_pos h8, List.drop_zero, chunks8_flatten (by omega)]
  · rw [hpends, Beam.awaiting, hret]
    rfl

theorem kind_of_readsCache {g : GlobalRow} (hg : g ∈ globalRows) {x : Ext} (h : readsCache g x = true) : g.kind = .load := by
  obtain ⟨hx, -⟩ := Bool.and_eq_true_iff.mp h
  have hx' := of_decide_eq_true hx
  simp only [globalRows, List.mem_cons, List.not_mem_nil, or_false] at hg
  obtain rfl | rfl | rfl | rfl | rfl | rfl := hg
  case inl => rfl
  all_goals cases hx'

/-- What the cache serves is extended as the load says. -/
theorem roServed_readsCache {g : GlobalRow} (hg : g ∈ globalRows) (x : Ext) (s : State) (core : Nat) (ok : List (Acc × Leaf × Nat))
    (b : Bool) :
    s.roServed core (g.kind == .load && b) (ok.filter fun o => readsCache g x && s.roHit core o) =
      s.roServed core b (ok.filter fun o => readsCache g x && s.roHit core o) := by
  cases hr : readsCache g x with
  | false => simp [State.roServed]
  | true =>
    rw [kind_of_readsCache hg hr]
    rfl

/-- R224 to R226, R228, R229, R234, R29: the global instructions. -/
theorem globalAccesses : GlobalAccesses := by
  intro g hg x s e s1 h hf
  obtain ⟨body, hx, hidle, hrun⟩ := globalRow_runs hg h
  have hat : Attempts (g.form x) s e s1 := h.1
  have hw : e.x.xf 0 3 ≤ 4 := by
    rw [h.x_eq, fieldsOf_globalRow hg]
    exact globalRow_width_le hg hat.1
  refine ⟨fun ha => ?_, fun ha hm hs c n hc => ?_, fun ha hm hs ok s2 hc hrd hld hkv hro hfit h8 => ?_,
    fun ha hm hs leaf hgo hfit hhalt => ?_⟩
  · rw [Completes, hx, hidle (by rw [Env.idle_eq hf]; exact decide_eq_true ha), Res.outcome_done]
  · obtain ⟨rel, acq, scope, hb⟩ := hrun (by rw [Env.idle_eq hf]; exact decide_eq_false ha) hm hs
    rw [TrapsOwn, hx, hb, Env.gAccs_eq hw, Env.access_trap hf hc]
    rfl
  · obtain ⟨t, ht, U, d, ps, hd, hmem, hcar, hshort, -, hret, hnone, hlen⟩ :=
      global_underway hg h hf ha hm hs hc hrd (fun o ho hk _ => (hld hk).1 o ho) (fun hk => (hld hk).2) hkv hfit (by omega)
    obtain ⟨hpk, horc, -⟩ := hshort (by omega)
    obtain ⟨hm1, hp1⟩ := hat.mem_packets
    have hall : toSlices g x e s2 ok = ok := List.filter_eq_self.mpr fun o ho => by
      cases hr : readsCache g x with
      | false => rfl
      | true => simp [hro (Bool.and_eq_true_iff.mp hr).2 o ho]
    have hs2 : s2.mem = s1.mem ∧ s2.net.packets = s1.net.packets := by
      obtain ⟨l, rfl⟩ := State.memChecks_tlbOnly hc
      exact ⟨rfl, rfl⟩
    refine ⟨t, U, d, ps, ht, hd, hmem.trans (hs2.1.trans hm1), by rw [hpk, hs2.2, hp1], hall ▸ hcar, horc, fun hr => ?_, hnone⟩
    obtain ⟨p, hp, hid, hnames, hwait, -⟩ := hret hr
    exact ⟨p, hp, hid, hnames, hwait (by omega)⟩
  · obtain ⟨s2, hc⟩ := memChecks_of_goesThrough hgo
    have hmem {p : Acc × Leaf × Nat → Prop} (hp : ∀ a ∈ activeAccesses e, p (a, leaf a.lane, (leaf a.lane).pa a.va)) :
        ∀ o ∈ (activeAccesses e).map fun a => (a, leaf a.lane, (leaf a.lane).pa a.va), p o := List.forall_mem_map.mpr hp
    have hlen : ((activeAccesses e).map fun a => (a, leaf a.lane, (leaf a.lane).pa a.va)).length = e.activeLanes.length := by
      rw [List.length_map, activeAccesses, accesses, List.length_map]
    have hrd : rdLanes g.kind ((activeAccesses e).map fun a => (a, leaf a.lane, (leaf a.lane).pa a.va)) = [] := by
      unfold rdLanes
      split_ifs with hw
      · refine List.map_eq_nil_iff.mpr (List.filter_eq_nil_iff.mpr (hmem fun a ha => ?_))
        obtain ⟨-, -, -, -, -, -, -, hrd, -⟩ := hgo a ha
        simp [hrd hw]
      · rfl
    obtain ⟨t, ht, U, d, ps, hd, htm, hcar, hshort, hlong, hret, hnone, hpl⟩ :=
      global_underway hg h hf ha hm hs hc hrd
        (hmem (p := fun o => g.kind = .load → o.2.1.kind = .multicast → s1.mcstOut e.r e.now o.1.lane (o.2.2 / 128) = false)
          fun a ha hk => by
            obtain ⟨-, -, -, -, -, -, -, -, hl⟩ := hgo a ha
            exact (hl hk).1)
        (fun hk => hmem fun a ha => by
          obtain ⟨-, -, -, -, -, -, -, -, hl⟩ := hgo a ha
          exact (hl hk).2)
        (hmem fun a ha => by
          obtain ⟨-, -, -, -, -, -, hkv, -⟩ := hgo a ha
          exact hkv)
        (hlen ▸ hfit) (hlen ▸ length_activeLanes_le e)
    obtain ⟨l, rfl⟩ := State.memChecks_tlbOnly hc
    refine ⟨t, ht, U, d, ps, hd, htm, hcar, fun h8 => ?_, fun h8 => ?_, fun hr => ?_, hnone⟩
    · obtain ⟨hpk, horc, hl⟩ := hshort h8
      exact ⟨hpk, hl hhalt, horc⟩
    · obtain ⟨hpk, horc, hl⟩ := hlong h8
      have hps : ps.length ≤ 8 * 4 := hpl.trans (hlen ▸ length_activeLanes_le e)
      exact ⟨hpk, horc, chunks8 4 ps, chunks8_flatten hps, fun q hq => length_le_of_mem_chunks8 hq,
        fun k hk => length_getD_chunks8 hk, hl hhalt⟩
    · obtain ⟨p, hp, hid, hnames, hwait, hvals⟩ := hret hr
      exact ⟨p, hp, hid, hnames, hwait, hvals.trans (roServed_readsCache hg x _ _ _ _)⟩

/-! ### The groups of a long instruction (R226) -/

theorem coalRun_of_longs {b : Beam} {l : LongRun} {i : Nat} {gs : List (List Packet)} {rest : List Elem} {n : Nat} (h : b.longs = [l])
    (hop : l.op = .coal i gs rest n) : b.coalRun = some (l, i, gs, n) := by
  simp [Beam.coalRun, h, hop]

/-- A running beam holds no long instruction back. -/
theorem Beam.held_of_run {b : Beam} (h : b.halt = .run) (l : LongRun) (start : Nat) : b.held l start = false := by
  simp [Beam.held, h]

/-- The one long instruction of a beam goes on, or ends. -/
theorem Beam.longs_setLong {b : Beam} {l : LongRun} (h : b.longs = [l]) (op : Option Long) :
    (b.setLong l op).longs = op.toList.map fun o => { l with op := o } := by
  simp [Beam.setLong, h]

/-- A sub-step's number in `%pix` (R181, log 57). -/
theorem Beam.atStep_pix (b : Beam) (n : Nat) : (b.atStep n).pix = stepPix b n := by
  unfold Beam.atStep stepPix
  split_ifs <;> rfl

theorem Beam.atStep_longs (b : Beam) (n : Nat) : (b.atStep n).longs = b.longs := by
  unfold Beam.atStep
  split_ifs <;> rfl

/-- R147, R226: the next group is sent where `%orc` has room for it. -/
theorem coalescerGroups : CoalescerGroups := by
  intro s r T b i gs rest ps n l hb hhalt hop hlongs hps counted
  have hB : s.beam? r = some b := by rw [State.beam?, hb.1]; exact hb.2
  have hexec : exec (.coalescerGroup r.t r.b) s = execCoalescerGroup r.t r.b s := rfl
  rw [hexec]
  unfold execCoalescerGroup
  simp only [hB, coalRun_of_longs hlongs hop, hps, Beam.held_of_run hhalt, Bool.false_eq_true, or_false]
  refine ⟨fun h => if_pos h, fun h hx => ?_⟩
  rw [if_neg (Nat.not_lt.mpr h), List.filter_eq_nil_iff.mpr fun p hp => by rw [hx p hp]; exact nofun]
  dsimp only
  have hi := hasBeam_modBeam (s := { s with net := { s.net with packets := s.net.packets ++ ps } }) (show HasBeam _ r T b from hb)
    fun b => { b with orc := b.orc + BitVec.ofNat 11 counted }
  have ht := hasBeam_modBeam hi fun b =>
    if n + 1 < gs.length then (b.atStep (n + 1)).setLong l (some (.coal i gs [] (n + 1))) else b.setLong l none
  refine ⟨_, _, _, rfl, ht, ?_, ?_, ?_, ?_, ?_⟩
  · exact (State.modBeam_mem ..).trans (State.modBeam_mem ..)
  · exact congrArg Net.packets ((State.modBeam_net ..).trans (State.modBeam_net ..))
  · have horc : (b.orc + BitVec.ofNat 11 counted).toNat = b.orc.toNat + counted := by
      rw [BitVec.toNat_add, BitVec.toNat_ofNat]
      omega
    rw [← horc]
    split_ifs
    · exact congrArg BitVec.toNat (Beam.atStep_frame _ _).1
    · rfl
  · split_ifs
    · exact Beam.atStep_pix ..
    · rfl
  · split_ifs
    · exact Beam.longs_setLong (b := Beam.atStep _ (n + 1)) (by rw [Beam.atStep_longs]; exact hlongs) (some _)
    · exact Beam.longs_setLong hlongs none

/-- Settles O33: what the six instructions leave by `Env.access`, and what `coalescerGroup` sends of a long one. -/
theorem globalMemory : Obligations.GlobalMemory := ⟨globalAccesses, coalescerGroups⟩

end Sys2Proof.Machine
end

section
/-! SUPPORT. What holds an instruction before its issue (R84): where a body answers that it is held, the state shows which rule does so.
Memory instructions first (R144, R147, R159, R372). -/

namespace Sys2Proof.Machine

open Sys2Proof.Claim

/-! ### Answers of bodies -/

theorem Res.isHold_hold_ite {c : Prop} [Decidable c] {r : Res} : (if c then .hold else r : Res).isHold = true ↔ c ∨ r.isHold = true := by
  by_cases h : c <;> simp [h, Res.isHold]

/-- A body that answers otherwise in one case is held in the other. -/
theorem Res.isHold_of_ite {c : Prop} [Decidable c] {x r : Res} (hx : x.isHold = false) (h : (if c then x else r : Res).isHold = true) :
    r.isHold = true := by
  split at h
  · rw [hx] at h; cases h
  · exact h

/-! ### Reasons -/

/-- Why a memory or context instruction is held. -/
def MemoryHolds (s : State) (e : Env) : Prop := s.memHeld e = true ∨ AccessesLeft s e ∨ CountPasses s e

theorem memoryHolds_of_logFull {e : Env} {s : State} (h : s.logFull e.T.coreId = true) : MemoryHolds s e := .inl (by simp [State.memHeld, h])

theorem memoryHolds_of_acquiring {e : Env} {s : State} (h : s.acquiring e.r = true) : MemoryHolds s e := .inl (by simp [State.memHeld, h])

/-- The state's beam has the long instructions that the environment shows. -/
def OwnLongs (s : State) (e : Env) : Prop := ∀ b, s.beam? e.r = some b → b.longs = e.b.longs

theorem ownLongs_of_hasBeam {s : State} {e : Env} (h : HasBeam s e.r e.T e.b) : OwnLongs s e := by
  intro b hb
  obtain ⟨hT, he⟩ := h
  rw [State.beam?, hT] at hb
  exact congrArg Beam.longs (Option.some.inj (hb.symm.trans he))

/-- An entry of the beam in the operand log is one of the accesses that R237 waits for. -/
theorem accessesLeft_of_logged {s : State} {e : Env} {g : LogEntry} (hg : g ∈ s.net.log) (ho : g.of e.r = true) : AccessesLeft s e := by
  refine .inr (.inr (.inl ?_))
  have : (s.net.log.all fun g => !g.of e.r) = false := by
    rw [List.all_eq_false]
    exact ⟨g, hg, by simp [ho]⟩
  simp [State.quietBeam, this]

theorem accessesLeft_of_scrReading {s : State} {e : Env} (h : e.b.scrReading = true) : AccessesLeft s e :=
  .inr (.inr (.inl (by simp [State.quietBeam, h])))

theorem accessesLeft_of_kvBars {s : State} {e : Env} {lane va : Nat} (h : s.kvBars e.r lane va = true) : AccessesLeft s e := by
  obtain ⟨g, hg, h⟩ := List.any_eq_true.mp h
  exact accessesLeft_of_logged hg ((Bool.and_eq_true _ _).mp h).1

theorem Beam.longs_ne_nil_of_unsent {b : Beam} {p : Packet} (h : p ∈ b.unsent) : b.longs ≠ [] := by
  intro hn
  rw [Beam.unsent, hn] at h
  cases h

/-- A collimated store that has not come back is on its way, unsent, in the log or in its group's queue (R159). -/
theorem accessesLeft_of_mcstOut {s : State} {e : Env} {t lane line : Nat} (hb : OwnLongs s e) (h : s.mcstOut e.r t lane line = true) :
    AccessesLeft s e := by
  simp only [State.mcstOut, Bool.or_eq_true] at h
  obtain ((h | h) | h) | h := h
  · obtain ⟨p, hp, h⟩ := List.any_eq_true.mp h
    simp only [Bool.and_eq_true, decide_eq_true_eq] at h
    exact .inl ⟨p, hp, .inl h.1.1⟩
  · cases he : s.beam? e.r with
    | none => rw [he] at h; cases h
    | some b =>
      rw [he] at h
      obtain ⟨p, hp, -⟩ := List.any_eq_true.mp h
      exact .inr (.inl (hb b he ▸ b.longs_ne_nil_of_unsent hp))
  · obtain ⟨g, hg, h⟩ := List.any_eq_true.mp h
    exact accessesLeft_of_logged hg ((Bool.and_eq_true _ _).mp h).1
  · obtain ⟨g, hg, h⟩ := List.any_eq_true.mp h
    obtain ⟨q, hq, h⟩ := List.any_eq_true.mp h
    simp only [Bool.and_eq_true, decide_eq_true_eq] at h
    exact .inr (.inr (.inr ⟨g, hg, q, hq, h.1.1⟩))

theorem accessesLeft_of_heldLoad {s : State} {e : Env} {t : Nat} {k : AKind} {o : Acc × Leaf × Nat} (hb : OwnLongs s e)
    (h : s.heldLoad e.r t k o = true) : AccessesLeft s e :=
  accessesLeft_of_mcstOut hb ((Bool.and_eq_true _ _).mp h).2

/-- A lane that waits for an earlier access of its own (R140, R159). -/
theorem accessesLeft_of_lanes {s : State} {e : Env} {t : Nat} {k : AKind} {ok : List (Acc × Leaf × Nat)} (hb : OwnLongs s e)
    (h : ok.any (s.heldLoad e.r t k) = true ∨ ok.any (fun o => s.kvBars e.r o.1.lane o.1.va) = true) : AccessesLeft s e := by
  rcases h with h | h
  · obtain ⟨o, -, h⟩ := List.any_eq_true.mp h
    exact accessesLeft_of_heldLoad hb h
  · obtain ⟨o, -, h⟩ := List.any_eq_true.mp h
    exact accessesLeft_of_kvBars h

/-- What comes before an access of the beam is a packet of its core, or in its long instructions (R135, R140). -/
theorem accessesLeft_of_ahead {s : State} {e : Env} {pas : List Nat} (hb : OwnLongs s e) (h : e.ahead s pas = true) : AccessesLeft s e := by
  simp only [Env.ahead, State.ahead, Bool.or_eq_true] at h
  rcases h with h | h
  · obtain ⟨p, hp, h⟩ := List.any_eq_true.mp h
    simp only [Bool.and_eq_true, decide_eq_true_eq] at h
    exact .inl ⟨p, hp, .inr h.1.1.1.1.1⟩
  · cases he : s.beam? e.r with
    | none => rw [he] at h; cases h
    | some b =>
      rw [he] at h
      refine .inr (.inl (hb b he ▸ fun hn => ?_))
      simp [Beam.unsentLines, hn] at h

/-! ### The accesses of an instruction -/

/-- Latched operands come from where a stopped or trapped instruction keeps them (R226). -/
theorem Beam.latched_of_again {b : Beam} {pc : Dword} {l : LongRun} (h : b.again pc = some l) : b.latched ≠ none ∨ b.trapped ≠ none := by
  unfold Beam.again at h
  by_contra hn
  simp only [ne_eq, not_or, not_not] at hn
  simp [hn.1, hn.2] at h

theorem length_translateAll (s : State) (q : Nat → Requester) (l : List Acc) : (translateAll s q l).1.length = l.length := by
  induction l generalizing s with
  | nil => rfl
  | cons a l ih => exact congrArg (· + 1) (ih _)

/-- The checks put no lane in more than three places. -/
theorem length_of_memChecks {s s2 : State} {r : Ref} {T : Team} {b : Beam} {k : AKind} {atom : Option Nat} {l : List Acc}
    {ok : List (Acc × Leaf × Nat)} {faulted : List Acc} (h : s.memChecks r T b k atom l = .go ok faulted s2) :
    ok.length ≤ l.length ∧ faulted.length ≤ 2 * l.length := by
  have hl := length_translateAll s (s.laneReq r T) l
  unfold State.memChecks at h
  dsimp only at h
  split_ifs at h
  obtain ⟨rfl, rfl, -⟩ := Checked.go.inj h
  have hok : (okAccs (translateAll s (s.laneReq r T) l).1).length ≤ l.length := hl ▸ List.length_filterMap_le ..
  have hbad : (badAccs (translateAll s (s.laneReq r T) l).1 .invalid).length ≤ l.length := hl ▸ List.length_filterMap_le ..
  have hj := fun p : Acc × Leaf × Nat → Bool => (List.length_filter_le p (okAccs (translateAll s (s.laneReq r T) l).1)).trans hok
  refine ⟨hj _, ?_⟩
  rw [List.length_append, List.length_map]
  have := hj fun o => s.joins r o.1.lane o.1.va
  omega

theorem length_rdLanes_le (k : AKind) (ok : List (Acc × Leaf × Nat)) : (rdLanes k ok).length ≤ ok.length := by
  unfold rdLanes
  split_ifs
  · rw [List.length_map]
    exact List.length_filter_le ..
  · exact Nat.zero_le _

/-- COUNT would pass 1,024 with at most 160 packets of a fresh instruction, or with those of latched operands (R147). -/
theorem countPasses_of_parts {s : State} {e : Env} {n : Nat} (h : 1024 < e.b.orc.toNat + (s.reserved e.r + n))
    (hn : e.b.again e.pc = none → n ≤ 160) : CountPasses s e := by
  refine ⟨n, ?_, by omega⟩
  cases ha : e.b.again e.pc with
  | none => exact .inl (hn ha)
  | some l => exact .inr (Beam.latched_of_again ha)

/-- The packets of a fresh instruction are no more than its accesses (R225). -/
theorem Env.length_rest_le {e : Env} {s : State} {c : Cast} {ok : List (Acc × Leaf × Nat)} (hp : e.prior = none) (hk : ok.length ≤ 32) :
    ((e.groups (s.packetsOf e.r e.T c ok)).1.drop (e.groups (s.packetsOf e.r e.T c ok)).2).flatten.length ≤ 32 := by
  have hps := (length_packetsOf_le s e.r e.T c ok).trans hk
  rw [Env.groups_of_fresh hp]
  exact (length_groups_le hps _).trans hps

/-- An access that waits at issue. -/
theorem Env.access_held {e : Env} {s : State} {k : AKind} {op : POp} {atom : Option Nat} {rel acq : Bool} {scope : Nat}
    {ro sx ret : Bool} {l : List Acc} (hb : OwnLongs s e) (hl : l.length ≤ 32)
    (h : (e.access s k op atom rel acq scope ro sx ret l).isHold = true) : AccessesLeft s e ∨ CountPasses s e := by
  unfold Env.access at h
  split at h
  · cases h
  · cases h
  next ok0 faulted s1 hm =>
    dsimp only at h
    rcases Res.isHold_hold_ite.mp h with (hc | hw) | h
    · right
      by_cases hn : op.counted = true
      · rw [if_pos hn, Nat.add_assoc (State.reserved _ _), Nat.add_assoc (State.reserved _ _)] at hc
        refine countPasses_of_parts hc fun ha => ?_
        have hp : e.prior = none := by rw [Env.prior, ha]; rfl
        rw [Env.left, hp, Option.map_none, Option.getD_none] at hm
        obtain ⟨hok, hf⟩ := length_of_memChecks hm
        have hrd := length_rdLanes_le k ok0
        have ho : ∀ p q : Acc × Leaf × Nat → Bool, ((ok0.filter p).filter q).length ≤ 32 := fun p q =>
          (List.length_filter_le ..).trans ((List.length_filter_le ..).trans (hok.trans hl))
        exact (Nat.add_le_add (Nat.add_le_add (Env.length_rest_le hp (ho _ _)) (hf.trans (Nat.mul_le_mul_left 2 hl)))
          (hrd.trans (hok.trans hl))).trans (by omega)
      · rw [if_neg hn] at hc
        exact countPasses_of_parts (n := 0) (by omega) fun _ => by omega
    · exact .inl (accessesLeft_of_lanes hb hw)
    · have h := Res.isHold_of_ite rfl h
      generalize s1.badGroup _ _ = g at h
      cases g with
      | some g => cases h
      | none => cases Res.isHold_of_ite rfl h

end Sys2Proof.Machine
end

section
/-! SUPPORT. The memory instructions of the beam that a rule holds before issue (R144, R159, R237, R372). -/

namespace Sys2Proof.Machine

open Sys2Proof.Claim

/-! ### The scope cap changes none of the reasons -/

theorem State.core?_modBeam {s : State} {r : Ref} {T : Team} {b : Beam} (h : HasBeam s r T b) (f : Beam → Beam) (t : Nat) :
    ((s.modBeam r f).team? t).bind Team.core? = (s.team? t).bind Team.core? := by
  by_cases ht : t = r.t
  · subst ht
    obtain ⟨hT', -⟩ := hasBeam_modBeam h f
    rw [hT', h.1]
    rfl
  · rw [State.team?_modBeam_other s r f ht]

theorem State.logFull_modBeam {s : State} {r : Ref} {T : Team} {b : Beam} (h : HasBeam s r T b) (f : Beam → Beam) (core : Nat) :
    (s.modBeam r f).logFull core = s.logFull core := by
  have hc (t : Nat) : decide (((s.modBeam r f).team? t).bind Team.core? = some core) = decide ((s.team? t).bind Team.core? = some core) :=
    decide_eq_decide.mpr (by rw [State.core?_modBeam h])
  have hi : (s.modBeam r f).logInsts core = s.logInsts core := by simp only [State.logInsts, hc, State.modBeam_net]
  rw [State.logFull, hi, State.logFull]

theorem beam?_of_hasBeam {s : State} {r : Ref} {T : Team} {b : Beam} (h : HasBeam s r T b) : s.beam? r = some b := by
  rw [State.beam?, h.1]
  exact h.2

theorem State.acquiring_modBeam {s : State} {r : Ref} {T : Team} {b : Beam} (h : HasBeam s r T b) {f : Beam → Beam}
    (hf : (f b).longs = b.longs) : (s.modBeam r f).acquiring r = s.acquiring r := by
  simp only [State.acquiring, State.modBeam_net, beam?_of_hasBeam h, beam?_of_hasBeam (hasBeam_modBeam h f), Option.elim_some,
    Beam.unsent, hf]

theorem State.reserved_modBeam {s : State} {r : Ref} {T : Team} {b : Beam} (h : HasBeam s r T b) {f : Beam → Beam}
    (hf : (f b).longs = b.longs) : (s.modBeam r f).reserved r = s.reserved r := by
  simp only [State.reserved, State.modBeam_net, beam?_of_hasBeam h, beam?_of_hasBeam (hasBeam_modBeam h f), Option.elim_some, hf]

theorem State.quietBeam_modBeam (s : State) (r : Ref) (f : Beam → Beam) (b : Beam) :
    (s.modBeam r f).quietBeam r b = s.quietBeam r b := by
  simp only [State.quietBeam, State.matrixBusy, State.modBeam_net, State.modBeam_clock, State.modBeam_cores]

theorem memoryHolds_modBeam {s : State} {e : Env} (h : HasBeam s e.r e.T e.b) {f : Beam → Beam} (hf : (f e.b).longs = e.b.longs) :
    MemoryHolds (s.modBeam e.r f) e ↔ MemoryHolds s e := by
  simp only [MemoryHolds, AccessesLeft, CountPasses, State.memHeld, State.logFull_modBeam h, State.acquiring_modBeam h hf,
    State.reserved_modBeam h hf, State.quietBeam_modBeam, State.modBeam_net, State.modBeam_work]

theorem ownLongs_modBeam {s : State} {e : Env} (h : HasBeam s e.r e.T e.b) {f : Beam → Beam} (hf : (f e.b).longs = e.b.longs) :
    OwnLongs (s.modBeam e.r f) e := by
  intro b hb
  rw [beam?_of_hasBeam (hasBeam_modBeam h f)] at hb
  rw [← Option.some.inj hb, hf]

/-- What is held after the cap has been applied is held by the state before it (R238). -/
theorem Env.capped_held {e : Env} {s : State} {f : Nat → State → Res} (hb : HasBeam s e.r e.T e.b) (h : (e.capped s f).isHold = true)
    (hf : ∀ sc s', OwnLongs s' e → (f sc s').isHold = true → MemoryHolds s' e) : MemoryHolds s e := by
  unfold Env.capped at h
  split at h
  · cases h
  next sc c _ =>
    cases c with
    | false => exact hf sc s (ownLongs_of_hasBeam hb) h
    | true => exact (memoryHolds_modBeam hb rfl).mp (hf sc _ (ownLongs_modBeam hb rfl) h)

/-! ### Global memory -/

theorem Env.length_accs_le (e : Env) (va : Nat → Nat) : (e.accs va e.activeLanes).length ≤ 32 := by
  unfold Env.accs
  rw [List.length_map]
  exact length_activeLanes_le e

/-- A global instruction is held as its accesses are. -/
theorem Env.global_held {e : Env} {s : State} {f : Unit → Res} (h : (e.global s f).isHold = true)
    (hf : (f ()).isHold = true → AccessesLeft s e ∨ CountPasses s e) : MemoryHolds s e := by
  rcases Res.isHold_hold_ite.mp (Res.isHold_of_ite rfl h) with hm | h
  · exact .inl hm
  · exact .inr (hf h)

theorem bodyLd_held {e : Env} {s : State} (hb : HasBeam s e.r e.T e.b) (h : (bodyLd e s).isHold = true) : MemoryHolds s e :=
  Env.global_held h (Env.access_held (ownLongs_of_hasBeam hb) (e.length_accs_le _))

theorem bodySt_held {e : Env} {s : State} (hb : HasBeam s e.r e.T e.b) (h : (bodySt e s).isHold = true) : MemoryHolds s e :=
  Env.global_held h (Env.access_held (ownLongs_of_hasBeam hb) (e.length_accs_le _))

theorem bodyAtom_held {e : Env} {s : State} (hb : HasBeam s e.r e.T e.b) (h : (bodyAtom e s).isHold = true) : MemoryHolds s e :=
  Env.global_held h (Env.access_held (ownLongs_of_hasBeam hb) (e.length_accs_le _))

theorem bodyRed_held {e : Env} {s : State} (hb : HasBeam s e.r e.T e.b) (h : (bodyRed e s).isHold = true) : MemoryHolds s e :=
  Env.global_held h (Env.access_held (ownLongs_of_hasBeam hb) (e.length_accs_le _))

theorem bodyLda_held {e : Env} {s : State} (hb : HasBeam s e.r e.T e.b) (h : (bodyLda e s).isHold = true) : MemoryHolds s e :=
  Env.capped_held hb (Res.isHold_of_ite rfl h) fun _ _ ho h => Env.global_held h (Env.access_held ho (e.length_accs_le _))

theorem bodyStl_held {e : Env} {s : State} (hb : HasBeam s e.r e.T e.b) (h : (bodyStl e s).isHold = true) : MemoryHolds s e :=
  Env.capped_held hb (Res.isHold_of_ite rfl h) fun _ _ ho h => Env.global_held h (Env.access_held ho (e.length_accs_le _))

theorem bodyMcst_held {e : Env} {s : State} (hb : HasBeam s e.r e.T e.b) (h : (bodyMcst e s).isHold = true) : MemoryHolds s e := by
  refine Env.global_held h fun h => ?_
  dsimp only at h
  split at h
  · cases h
  · cases h
  · exact Env.access_held (ownLongs_of_hasBeam hb) (e.length_accs_le _) (Res.isHold_of_ite rfl (Res.isHold_of_ite rfl h))

theorem bodyFence_held {e : Env} {s : State} (hb : HasBeam s e.r e.T e.b) (h : (bodyFence e s).isHold = true) : MemoryHolds s e := by
  refine Env.capped_held hb h fun sc s1 _ h => ?_
  rcases Res.isHold_hold_ite.mp h with (hf | hl | ⟨-, hq | ha⟩) | h
  · exact memoryHolds_of_logFull hf
  · obtain ⟨g, hg, ho⟩ := List.any_eq_true.mp hl
    exact .inr (.inl (accessesLeft_of_logged hg ho))
  · exact .inr (.inl (.inr (.inr (.inl hq))))
  · exact memoryHolds_of_acquiring ha
  · cases h

theorem bodyCinv_held {e : Env} {s : State} (h : (bodyCinv e s).isHold = true) : MemoryHolds s e := by
  rcases Res.isHold_hold_ite.mp h with hf | h
  · exact memoryHolds_of_logFull hf
  · cases h

theorem bodyPrf_held {e : Env} {s : State} (h : (bodyPrf e s).isHold = true) : MemoryHolds s e := by
  rcases Res.isHold_hold_ite.mp (Res.isHold_of_ite rfl h) with hm | h
  · exact .inl hm
  · cases h

theorem bodyWaitm_held {e : Env} {s : State} (hb : HasBeam s e.r e.T e.b) (h : (bodyWaitm e s).isHold = true) : MemoryHolds s e := by
  rcases Res.isHold_hold_ite.mp h with hm | h
  · exact .inl hm
  · dsimp only at h
    split at h
    · cases h
    · cases h
    · rcases Res.isHold_hold_ite.mp h with hw | h
      · exact .inr (.inl (accessesLeft_of_lanes (ownLongs_of_hasBeam hb) hw))
      · cases h

/-! ### Scratchpad -/

/-- A scratchpad instruction is held by the log, an acquire or a long read, and by nothing that its effect does. -/
theorem Env.scratch_held {e : Env} {s : State} {reads : Bool} {l : List Acc} {f : Nat → State → Res} (hf : ∀ n s', (f n s').isHold = false)
    (h : (e.scratch s reads l f).isHold = true) : MemoryHolds s e := by
  rcases Res.isHold_hold_ite.mp (Res.isHold_of_ite rfl h) with (hl | ha | hr) | h
  · exact memoryHolds_of_logFull hl
  · exact memoryHolds_of_acquiring ha
  · exact .inr (.inl (accessesLeft_of_scrReading hr))
  · split at h
    · cases h
    · exact absurd (Res.isHold_of_ite rfl h) (by simp [hf])

theorem Env.scrForm_held {e : Env} {s : State} {reads : Bool} {f : List Acc → Nat → State → Res}
    (hf : ∀ l n s', (f l n s').isHold = false) (h : (e.scrForm s reads f).isHold = true) : MemoryHolds s e := by
  unfold Env.scrForm at h
  split at h
  · have h := Res.isHold_of_ite rfl h
    split at h
    · cases h
    · exact Env.scratch_held (hf _) h
  · exact Env.scratch_held (hf _) h

theorem bodyLds_held {e : Env} {s : State} (h : (bodyLds e s).isHold = true) : MemoryHolds s e := Env.scrForm_held (fun _ _ _ => rfl) h
theorem bodySts_held {e : Env} {s : State} (h : (bodySts e s).isHold = true) : MemoryHolds s e := Env.scrForm_held (fun _ _ _ => rfl) h
theorem bodyLdsw_held {e : Env} {s : State} (h : (bodyLdsw e s).isHold = true) : MemoryHolds s e := Env.scratch_held (fun _ _ => rfl) h
theorem bodyStsw_held {e : Env} {s : State} (h : (bodyStsw e s).isHold = true) : MemoryHolds s e := Env.scratch_held (fun _ _ => rfl) h
theorem bodyAtoms_held {e : Env} {s : State} (h : (bodyAtoms e s).isHold = true) : MemoryHolds s e := Env.scratch_held (fun _ _ => rfl) h

theorem bodyTile_held {e : Env} {s : State} (h : (bodyTile e s).isHold = true) : MemoryHolds s e := by
  rcases Res.isHold_hold_ite.mp h with hf | h
  · exact memoryHolds_of_logFull hf
  · cases Res.isHold_of_ite rfl (Res.isHold_of_ite rfl h)

end Sys2Proof.Machine
end

section
/-! SUPPORT. The key-value and context instructions that a rule holds before issue (R135, R140, R143, R147, R301). -/

namespace Sys2Proof.Machine

open Sys2Proof.Claim

/-! ### Remembered translations change none of the reasons -/

theorem State.touch_tlbOnly (s : State) (q : Requester) (vas : List Nat) : s.TlbOnly (s.touch q vas) := by
  unfold State.touch
  induction vas generalizing s with
  | nil => exact .refl s
  | cons va vas ih =>
    rw [List.foldl_cons]
    split
    · exact (s.translate_tlbOnly q va).trans (ih _)
    · exact ih s

theorem State.kvTouch_tlbOnly (s : State) (r : Ref) (T : Team) (ls : List KvLane) : s.TlbOnly (s.kvTouch r T ls) := by
  unfold State.kvTouch
  induction ls generalizing s with
  | nil => exact .refl s
  | cons k ls ih => exact (s.touch_tlbOnly ..).trans (ih _)

theorem State.TlbOnly.memoryHolds {s t : State} {e : Env} (h : s.TlbOnly t) (hm : MemoryHolds t e) : MemoryHolds s e := by
  obtain ⟨l, rfl⟩ := h
  exact hm

/-! ### Context operations (R301, R302) -/

theorem Env.isHold_kvErr (e : Env) (s : State) (k : KErr) : (e.kvErr s k).isHold = false := by cases k <;> rfl

theorem memoryHolds_of_ahead {e : Env} {s : State} {pas : List Nat} (hb : HasBeam s e.r e.T e.b) (h : e.ahead s pas = true) :
    MemoryHolds s e :=
  .inr (.inl (accessesLeft_of_ahead (ownLongs_of_hasBeam hb) h))

/-- A context operation is held before its own part, or by it on a state with translations remembered. -/
theorem Env.ctxOp_held {e : Env} {s : State} {write : Bool} {f : State → Requester → Nat → KDesc → Res} (hb : HasBeam s e.r e.T e.b)
    (h : (e.ctxOp s write f).isHold = true)
    (hf : ∀ s' q pa d, HasBeam s' e.r e.T e.b → (f s' q pa d).isHold = true → MemoryHolds s' e) : MemoryHolds s e := by
  rcases Res.isHold_hold_ite.mp h with (hm | hl) | h
  · exact .inl hm
  · obtain ⟨g, hg, hl⟩ := List.any_eq_true.mp hl
    simp only [Bool.and_eq_true] at hl
    exact .inr (.inl (accessesLeft_of_logged hg hl.1.1))
  · rcases Res.isHold_hold_ite.mp (Res.isHold_of_ite rfl (Res.isHold_of_ite rfl h)) with ha | h
    · exact memoryHolds_of_ahead hb ha
    · split at h
      · exact absurd h (by simp [Env.isHold_kvErr])
      · have ht := s.touch_tlbOnly (e.kvReq s e.lowLive) [(e.b.rdPair e.x.a.toNat e.lowLive).toNat]
        exact ht.memoryHolds (hf _ _ _ _ (ht.hasBeam hb) h)

theorem bodyKvrsv_held {e : Env} {s : State} (hb : HasBeam s e.r e.T e.b) (h : (bodyKvrsv e s).isHold = true) : MemoryHolds s e := by
  refine Env.ctxOp_held hb (Res.isHold_of_ite rfl h) fun s' _ _ d _ h => ?_
  dsimp only at h
  split at h <;> cases h

theorem bodyKvgen_held {e : Env} {s : State} (hb : HasBeam s e.r e.T e.b) (h : (bodyKvgen e s).isHold = true) : MemoryHolds s e :=
  Env.ctxOp_held hb h fun _ _ _ _ _ h => by cases h

theorem bodyKvcmt_held {e : Env} {s : State} (hb : HasBeam s e.r e.T e.b) (h : (bodyKvcmt e s).isHold = true) : MemoryHolds s e := by
  unfold bodyKvcmt at h
  refine Env.ctxOp_held hb h fun s' _ _ d hb' h => ?_
  rcases Res.isHold_hold_ite.mp (Res.isHold_of_ite rfl (Res.isHold_of_ite rfl h)) with ha | h
  · exact memoryHolds_of_ahead hb' ha
  · split at h
    · exact absurd h (by simp [Env.isHold_kvErr])
    · split at h <;> cases h

theorem bodyKvroll_held {e : Env} {s : State} (hb : HasBeam s e.r e.T e.b) (h : (bodyKvroll e s).isHold = true) : MemoryHolds s e := by
  refine Env.ctxOp_held hb h fun s' _ _ d hb' h => ?_
  dsimp only at h
  split at h
  · rcases Res.isHold_hold_ite.mp (Res.isHold_of_ite rfl h) with ha | h
    · exact memoryHolds_of_ahead hb' ha
    · split at h
      · exact absurd h (by simp [Env.isHold_kvErr])
      · cases h
  · cases h

theorem bodyKvpub_held {e : Env} {s : State} (hb : HasBeam s e.r e.T e.b) (h : (bodyKvpub e s).isHold = true) : MemoryHolds s e := by
  unfold bodyKvpub at h
  refine Env.ctxOp_held hb h fun s' _ _ d hb' h => ?_
  rcases Res.isHold_hold_ite.mp (Res.isHold_of_ite rfl (Res.isHold_of_ite rfl h)) with hq | h
  · exact .inr (.inl (.inr (.inr (.inl hq))))
  · split at h
    · exact absurd h (by simp [Env.isHold_kvErr])
    · dsimp only at h
      split at h <;> cases h

theorem Env.kvAcq_held {e : Env} {s : State} {target : Option Nat} (hb : HasBeam s e.r e.T e.b) (h : (e.kvAcq s target).isHold = true) :
    MemoryHolds s e := by
  unfold Env.kvAcq at h
  refine Env.ctxOp_held hb h fun s' q _ d hb' h => ?_
  have h := Res.isHold_of_ite rfl h
  split at h
  · exact absurd h (by simp [Env.isHold_kvErr])
  · rcases Res.isHold_hold_ite.mp h with ha | h
    · have ht := s'.touch_tlbOnly q [d.fra + 64 * e.kvB]
      exact ht.memoryHolds (memoryHolds_of_ahead (ht.hasBeam hb') ha)
    · dsimp only at h
      split at h <;> cases h

/-! ### Per-lane instructions (R303 to R305) -/

/-- A per-lane instruction is held before its own part, or by it on a state with translations remembered. -/
theorem Env.kvPer_held {e : Env} {s : State} {k : KvKind} {f : State → List KvLane → List (KvArg × KErr) → Res}
    (hb : HasBeam s e.r e.T e.b) (h : (e.kvPer s k f).isHold = true)
    (hf : ∀ s' ok aside, HasBeam s' e.r e.T e.b → s.kvChecks e.r e.T k (e.kvArgs k) = .go ok aside → (f s' ok aside).isHold = true →
      MemoryHolds s' e) : MemoryHolds s e := by
  rcases Res.isHold_hold_ite.mp (Res.isHold_of_ite rfl h) with (hm | ha) | h
  · exact .inl hm
  · exact memoryHolds_of_ahead hb ha
  · split at h
    · cases h
    next ok aside hc =>
      rcases Res.isHold_hold_ite.mp h with hk | h
      · obtain ⟨k, -, hk⟩ := List.any_eq_true.mp hk
        obtain ⟨va, -, hk⟩ := List.any_eq_true.mp hk
        exact .inr (.inl (accessesLeft_of_kvBars hk))
      · have ht := s.kvTouch_tlbOnly e.r e.T ok
        exact ht.memoryHolds (hf _ _ _ (ht.hasBeam hb) hc h)

theorem Env.isHold_kvAside (e : Env) (s : State) (inst : Nat) (k : KvKind) (long : Option Long) (l : List (KvArg × KErr)) :
    (e.kvAside s inst k long l).isHold = false := by
  unfold Env.kvAside
  dsimp only
  split <;> rfl

/-- A poisoned slot traps, or the instruction goes on with the lanes that survive (R317). -/
theorem Env.isHold_kvPoisoned (e : Env) (s : State) (k : KvKind) (ls : List KvLane) (aside : List (KvArg × KErr))
    {rest : List KvLane → List (KvArg × KErr) → State → Res} (hr : ∀ a b s', (rest a b s').isHold = false) :
    (e.kvPoisoned s k ls aside rest).isHold = false := by
  unfold Env.kvPoisoned
  split
  · exact hr _ _ _
  · split
    · rfl
    · exact hr _ _ _

theorem bodyKvr_held {e : Env} {s : State} (hb : HasBeam s e.r e.T e.b) (h : (bodyKvr e s).isHold = true) : MemoryHolds s e := by
  refine Env.kvPer_held hb h fun s' ok aside hb' _ h => ?_
  rcases Res.isHold_hold_ite.mp h with ⟨-, ha⟩ | h
  · exact memoryHolds_of_ahead hb' ha
  · rw [Env.isHold_kvPoisoned _ _ _ _ _ fun _ _ _ => Env.isHold_kvAside ..] at h
    cases h

theorem bodyKvrt_held {e : Env} {s : State} (hb : HasBeam s e.r e.T e.b) (h : (bodyKvrt e s).isHold = true) : MemoryHolds s e := by
  refine Env.kvPer_held hb h fun s' ok aside hb' _ h => ?_
  rcases Res.isHold_hold_ite.mp h with ha | h
  · exact memoryHolds_of_ahead hb' ha
  · rw [Env.isHold_kvPoisoned _ _ _ _ _ fun _ _ _ => Env.isHold_kvAside ..] at h
    cases h

/-! ### What a `KVW` may count (R147, R303) -/

theorem length_of_mapM_ok {ε α β : Type} {f : α → Except ε β} {l : List α} {r : List β} (h : l.mapM f = .ok r) : r.length = l.length := by
  induction l generalizing r with
  | nil => cases h; rfl
  | cons a l ih =>
    rw [List.mapM_cons] at h
    cases ha : f a with
    | error x => rw [ha] at h; cases h
    | ok b =>
      cases hl : l.mapM f with
      | error x => rw [ha, hl] at h; cases h
      | ok t =>
        rw [ha, hl] at h
        cases h
        exact congrArg (· + 1) (ih hl)

/-- A lane has no more elements than bytes. -/
theorem length_els_le {s : State} {r : Ref} {T : Team} {k : KvKind} {a : KvArg} {pa : Nat} {d : KDesc} {x : KvLane}
    (h : s.kvLane r T k a pa d = .ok x) : x.els.length ≤ a.width := by
  unfold State.kvLane at h
  dsimp only at h
  split at h
  · cases h; exact Nat.zero_le _
  · split at h
    · cases h
    · split at h
      · cases h
      · cases h; exact Nat.zero_le _
    · split at h
      · cases h
      · cases h; exact Nat.zero_le _
      next t els hv =>
        cases h
        have hl := length_of_mapM_ok hv
        simp only [KDesc.slotVas, List.length_cons, List.length_map, List.length_range] at hl
        have : (if k = .tag then 0 else a.width / d.es) ≤ a.width := by
          split
          · exact Nat.zero_le _
          · exact Nat.div_le_self ..
        dsimp only
        omega

theorem length_kvOks_add_kvErrs {α : Type} (l : List (KvArg × Except KErr α)) : (kvOks l).length + (kvErrs l).length = l.length := by
  induction l with
  | nil => rfl
  | cons p l ih =>
    obtain ⟨a, x | x⟩ := p
    · simp only [kvOks, kvErrs, List.filterMap_cons, List.length_cons] at ih ⊢
      omega
    · simp only [kvOks, kvErrs, List.filterMap_cons, List.length_cons] at ih ⊢
      omega

theorem mem_kvOks {α : Type} {l : List (KvArg × Except KErr α)} {x : α} (h : x ∈ kvOks l) : ∃ p ∈ l, p.2 = .ok x := by
  obtain ⟨p, hp, h⟩ := List.mem_filterMap.mp h
  refine ⟨p, hp, ?_⟩
  split at h
  · cases h
  next y hy => rw [hy, Option.some.inj h]

/-- Reading its descriptor leaves a lane's width. -/
theorem width_of_kvRead1 {s : State} {r : Ref} {T : Team} {a b : KvArg} (h : s.kvRead1 r T a = .ok b) : b.width = a.width := by
  unfold State.kvRead1 at h
  split at h
  · cases h; rfl
  · split at h
    · cases h
    · cases h; rfl

/-- The lanes that wait for another's reading of their context are those left out of the readings. -/
theorem length_late_le (off : List (KvArg × KErr)) (l : List KvArg) :
    ((l.filter fun a => a.desc.isNone).filterMap fun a => (off.find? fun o => decide (o.1.ctx = a.ctx)).map fun o => (a, o.2)).length ≤
      (l.filter fun a => a.desc.isNone && off.any fun o => decide (o.1.ctx = a.ctx)).length := by
  induction l with
  | nil => exact Nat.le_refl _
  | cons a l ih =>
    cases hd : a.desc.isNone with
    | false => simpa [List.filter_cons, hd] using ih
    | true =>
      cases hf : off.find? fun o => decide (o.1.ctx = a.ctx) with
      | none =>
        refine (?_ : _ ≤ _).trans (List.Sublist.length_le ((List.sublist_cons_self a l).filter _))
        simpa [List.filter_cons, hd, hf] using ih
      | some o =>
        have ha : (off.any fun o => decide (o.1.ctx = a.ctx)) = true :=
          List.any_eq_true.mpr ⟨o, List.mem_of_find?_eq_some hf, by simpa using List.find?_some hf⟩
        simpa [List.filter_cons, hd, hf, ha] using ih

/-- The lanes that go on with their descriptors are among those that are read on their own account. -/
theorem length_kvReads_le (l : List KvArg) (f : KvArg → Except KErr KvArg) (p : KvArg → Bool) :
    ((kvOks ((l.map fun a => (a, f a)).filter fun q => p q.1)).filterMap fun a => a.desc.map fun x => (a, x)).length ≤ (l.filter p).length := by
  have hk := length_kvOks_add_kvErrs ((l.map fun a => (a, f a)).filter fun q => p q.1)
  have hf : ((l.map fun a => (a, f a)).filter fun q => p q.1).length = (l.filter p).length := by
    rw [List.filter_map, List.length_map]
    rfl
  exact (List.length_filterMap_le ..).trans (by omega)

/-- Each lane goes ahead or is set aside at most once, and one that goes ahead has no more elements than bytes. -/
theorem State.kvChecks_go {s : State} {r : Ref} {T : Team} {k : KvKind} {l : List KvArg} {ok : List KvLane} {aside : List (KvArg × KErr)}
    (h : s.kvChecks r T k l = .go ok aside) :
    ok.length + aside.length ≤ l.length ∧ ∀ x ∈ ok, ∃ a ∈ l, x.els.length ≤ a.width := by
  unfold State.kvChecks at h
  dsimp only at h
  split at h
  · cases h
  · cases h
  · split at h
    · cases h
    · cases h
    · cases h
    · split at h
      · cases h
      · cases h
        refine ⟨?_, fun x hx => ?_⟩
        · generalize kvErrs (l.map fun a => (a, s.kvRead1 r T a)) = off
          have hlate := length_late_le off l
          have hon := length_kvReads_le l (s.kvRead1 r T) fun a => !(a.desc.isNone && off.any fun o => decide (o.1.ctx = a.ctx))
          have hls := length_kvOks_add_kvErrs (((kvOks ((l.map fun a => (a, s.kvRead1 r T a)).filter fun q =>
            !(q.1.desc.isNone && off.any fun o => decide (o.1.ctx = q.1.ctx)))).filterMap fun a => a.desc.map fun x => (a, x)).map
              fun p => (p.1, s.kvLane r T k p.1 p.2.1 p.2.2))
          have hall := List.length_eq_length_filter_add (l := l) fun a => a.desc.isNone && off.any fun o => decide (o.1.ctx = a.ctx)
          rw [List.length_map] at hls
          rw [List.length_append]
          omega
        · obtain ⟨p, hp, hx⟩ := mem_kvOks hx
          obtain ⟨y, hy, rfl⟩ := List.mem_map.mp hp
          obtain ⟨b, hb, hy⟩ := List.mem_filterMap.mp hy
          obtain ⟨z, hz, hb⟩ := mem_kvOks hb
          obtain ⟨a, ha, rfl⟩ := List.mem_map.mp (List.mem_filter.mp hz).1
          obtain ⟨_, -, rfl⟩ := Option.map_eq_some_iff.mp hy
          exact ⟨a, ha, width_of_kvRead1 hb ▸ length_els_le hx⟩

theorem length_kvElems_cons (k : KvLane) (l : List KvLane) : (kvElems (k :: l)).length = k.els.length + 1 + (kvElems l).length := by
  simp [kvElems]
  omega

theorem length_kvElems_le {l : List KvLane} (h : ∀ k ∈ l, k.els.length ≤ 4) : (kvElems l).length ≤ 5 * l.length := by
  induction l with
  | nil => exact Nat.le_refl _
  | cons k l ih =>
    have hk := h k List.mem_cons_self
    have hl := ih fun x hx => h x (List.mem_cons_of_mem _ hx)
    rw [length_kvElems_cons, List.length_cons]
    omega

/-- The sub-steps share the lanes out: none is in two of them. -/
theorem sum_length_stepFrom_le (l : List KvLane) (first : Nat) :
    ((List.range 5).map fun g => (l.filter fun k => decide (k.stepFrom first = g)).length).sum ≤ l.length := by
  induction l with
  | nil => exact Nat.le_refl _
  | cons k l ih =>
    simp only [List.range_succ, List.range_zero, List.nil_append, List.cons_append, List.map_cons, List.map_nil, List.sum_cons,
      List.sum_nil, List.filter_cons, decide_eq_true_eq, apply_ite List.length, List.length_cons] at ih ⊢
    split_ifs <;> omega

/-- A lane makes a packet for each of its elements and one for its tag, at most (R305). -/
theorem kvCount_le {l : List KvLane} (first : Nat) (h : ∀ k ∈ l, k.els.length ≤ 4) : kvCount l first ≤ 5 * l.length := by
  have hg (g : Nat) : (coalesce (kvElems (l.filter fun k => decide (k.stepFrom first = g)))).length ≤
      5 * (l.filter fun k => decide (k.stepFrom first = g)).length :=
    (coalesced_coalesce _).length_le.trans (length_kvElems_le fun k hk => h k (List.mem_filter.mp hk).1)
  calc kvCount l first
      ≤ ((List.range 5).map fun g => 5 * (l.filter fun k => decide (k.stepFrom first = g)).length).sum :=
        List.sum_le_sum fun g _ => hg g
    _ = 5 * ((List.range 5).map fun g => (l.filter fun k => decide (k.stepFrom first = g)).length).sum := List.sum_map_mul_left ..
    _ ≤ 5 * l.length := Nat.mul_le_mul_left 5 (sum_length_stepFrom_le l first)

/-- `KVW` waits also where its packets, five for a lane at most, would pass the count (R147). -/
theorem bodyKvw_held {e : Env} {s : State} (hw : e.width ≤ 4) (hb : HasBeam s e.r e.T e.b) (h : (bodyKvw e s).isHold = true) :
    MemoryHolds s e := by
  refine Env.kvPer_held hb h fun s' ok aside hb' hc h => ?_
  rcases Res.isHold_hold_ite.mp h with hn | h
  · refine .inr (.inr (countPasses_of_parts (n := kvCount ok e.kvFirst + 5 * aside.length) (by omega) fun ha => ?_))
    have hp : e.kvPrior = none := by rw [Env.kvPrior, ha]; rfl
    rw [Env.kvArgs, hp] at hc
    obtain ⟨hl, hels⟩ := State.kvChecks_go hc
    have hok := kvCount_le e.kvFirst fun k hk => by
      obtain ⟨a, ha, hk⟩ := hels k hk
      obtain ⟨n, -, rfl⟩ := List.mem_map.mp ha
      exact hk.trans hw
    rw [List.length_map] at hl
    have := hl.trans ((List.length_filter_le ..).trans (length_activeLanes_le e))
    omega
  · rw [Env.isHold_kvAside] at h
    cases h

end Sys2Proof.Machine
end

section
/-! SUPPORT. The other instructions that a rule holds before issue, and those that none does (R144, R149, R154, R244, R263, R272, R321). -/

namespace Sys2Proof.Machine

open Sys2Proof.Claim

/-! ### Team words -/

theorem bodyTwrd_held {e : Env} {s : State} (h : (bodyTwrd e s).isHold = true) : s.acquiring e.r = true := by
  rcases Res.isHold_hold_ite.mp h with ha | h
  · exact ha
  · cases h

theorem bodyTwwr_held {e : Env} {s : State} (h : (bodyTwwr e s).isHold = true) : s.acquiring e.r = true := by
  unfold bodyTwwr at h
  split at h
  · rcases Res.isHold_hold_ite.mp h with ha | h
    · exact ha
    · cases h
  · cases h

theorem bodyTwRmw_held {op : Env → TwOp} {e : Env} {s : State} (h : (bodyTwRmw op e s).isHold = true) : s.acquiring e.r = true := by
  unfold bodyTwRmw at h
  split at h
  · rcases Res.isHold_hold_ite.mp h with ha | h
    · exact ha
    · cases h
  · cases h

/-! ### The matrix engine -/

/-- A matrix instruction is held by its quadrant's entries or an acquire, and by nothing that its own part does. -/
theorem Env.matrix_held {e : Env} {s : State} {always : Bool} {f : Unit → Res} (h : (e.matrix s always f).isHold = true)
    (hf : (f ()).isHold = false) : s.quadFull e.T.coreId (e.r.b % 4) = true ∨ s.acquiring e.r = true := by
  rcases Res.isHold_hold_ite.mp (Res.isHold_of_ite rfl h) with hm | h
  · exact hm
  · rw [hf] at h; cases h

theorem Res.isHold_ite_trapOwn {c : Prop} [Decidable c] {r : Res} {n : Nat} (hr : r.isHold = false) :
    (if c then r else Res.trapOwn n).isHold = false := by
  split
  · exact hr
  · rfl

theorem Res.isHold_trapOwn_ite {c : Prop} [Decidable c] {r : Res} {n : Nat} (hr : r.isHold = false) :
    (if c then Res.trapOwn n else r).isHold = false := by
  split
  · rfl
  · exact hr

theorem Env.multiply_held {e : Env} {s : State} {sparse : Bool} (h : (e.multiply s sparse).isHold = true) :
    s.quadFull e.T.coreId (e.r.b % 4) = true ∨ s.acquiring e.r = true :=
  Env.matrix_held h (Res.isHold_trapOwn_ite (Res.isHold_trapOwn_ite (Res.isHold_trapOwn_ite rfl)))

theorem bodyAccz_held {e : Env} {s : State} (h : (bodyAccz e s).isHold = true) :
    s.quadFull e.T.coreId (e.r.b % 4) = true ∨ s.acquiring e.r = true :=
  Env.matrix_held h (Res.isHold_ite_trapOwn rfl)

theorem bodyAccld_held {e : Env} {s : State} (h : (bodyAccld e s).isHold = true) :
    s.quadFull e.T.coreId (e.r.b % 4) = true ∨ s.acquiring e.r = true :=
  Env.matrix_held h (Res.isHold_ite_trapOwn rfl)

theorem bodyAccst_held {e : Env} {s : State} (h : (bodyAccst e s).isHold = true) :
    s.quadFull e.T.coreId (e.r.b % 4) = true ∨ s.acquiring e.r = true :=
  Env.matrix_held h (Res.isHold_ite_trapOwn rfl)

theorem bodyAcccvt_held {e : Env} {s : State} (h : (bodyAcccvt e s).isHold = true) :
    s.quadFull e.T.coreId (e.r.b % 4) = true ∨ s.acquiring e.r = true :=
  Env.matrix_held h (Res.isHold_ite_trapOwn rfl)

theorem bodyLdmeta_held {e : Env} {s : State} (h : (bodyLdmeta e s).isHold = true) :
    s.quadFull e.T.coreId (e.r.b % 4) = true ∨ s.acquiring e.r = true :=
  Env.matrix_held h (Res.isHold_trapOwn_ite (Res.isHold_trapOwn_ite rfl))

/-! ### Queues and jobs -/

theorem bodyQfree_held {e : Env} {s : State} (h : (bodyQfree e s).isHold = true) :
    s.acquiring e.r = true ∨ e.b.longs ≠ [] ∨ ∃ m ∈ (s.core e.T.coreId).entries, m.src = e.r := by
  have h := Res.isHold_of_ite rfl h
  split at h
  · cases h
  · rcases Res.isHold_hold_ite.mp (Res.isHold_of_ite rfl h) with (hm | hl | ha) | h
    · obtain ⟨i, -, hm⟩ := List.any_eq_true.mp hm
      cases hi : (s.core e.T.coreId).entries[i]? with
      | none => rw [hi] at hm; cases hm
      | some n =>
        rw [hi] at hm
        simp only [Option.any_some, Bool.and_eq_true, decide_eq_true_eq] at hm
        exact .inr (.inr ⟨n, List.mem_of_getElem? hi, hm.1⟩)
    · refine .inr (.inl fun hn => ?_)
      rw [Beam.longReads, hn] at hl
      cases hl
    · exact .inl ha
    · cases h

/-- Why a job instruction is held (R272). -/
def JobHolds (s : State) (e : Env) : Prop := s.acquiring e.r = true ∨ e.b.scrReading = true ∨ s.jobsFull e.r.t = true

theorem Env.jobIssue_held {e : Env} {s : State} {kind : Nat} {ok : Card → Bool} {reach : Card → Nat} {f : State → Card → Res}
    (h : (e.jobIssue s kind ok reach f).isHold = true) (hf : ∀ s' c, (f s' c).isHold = false) : JobHolds s e := by
  rcases Res.isHold_hold_ite.mp h with (ha | hr) | h
  · exact .inl ha
  · exact .inr (.inl hr)
  · have h := Res.isHold_of_ite rfl (Res.isHold_of_ite rfl (Res.isHold_of_ite rfl h))
    rcases Res.isHold_hold_ite.mp (Res.isHold_of_ite rfl (Res.isHold_of_ite rfl (Res.isHold_of_ite rfl h))) with hj | h
    · exact .inr (.inr hj)
    · rw [hf] at h; cases h

theorem bodyCpyj_held {e : Env} {s : State} (h : (bodyCpyj e s).isHold = true) : JobHolds s e := Env.jobIssue_held h fun _ _ => rfl
theorem bodyGatj_held {e : Env} {s : State} (h : (bodyGatj e s).isHold = true) : JobHolds s e := Env.jobIssue_held h fun _ _ => rfl
theorem bodyColj_held {e : Env} {s : State} (h : (bodyColj e s).isHold = true) : JobHolds s e :=
  Env.jobIssue_held h fun _ _ => Res.isHold_trapOwn_ite rfl

theorem bodyKvstage_held {e : Env} {s : State} (h : (bodyKvstage e s).isHold = true) : JobHolds s e := by
  rcases Res.isHold_hold_ite.mp h with (ha | hr) | h
  · exact .inl ha
  · exact .inr (.inl hr)
  · have h := Res.isHold_of_ite rfl (Res.isHold_of_ite rfl (Res.isHold_of_ite rfl h))
    rcases Res.isHold_hold_ite.mp (Res.isHold_of_ite rfl (Res.isHold_of_ite rfl h)) with hj | h
    · exact .inr (.inr hj)
    · cases h

/-! ### The Prism -/

/-- Why a Prism instruction is held (R149, R321). -/
def PrismHolds (s : State) (e : Env) : Prop := e.T.paldRuns = true ∨ s.acquiring e.r = true ∨ e.b.scrReading = true

theorem Env.prism_held {e : Env} {s : State} {ok : PState → Bool} {f : Unit → Res} (h : (e.prism s ok f).isHold = true)
    (hf : (f ()).isHold = true → PrismHolds s e) : PrismHolds s e := by
  rcases Res.isHold_hold_ite.mp (Res.isHold_of_ite rfl h) with hp | h
  · exact .inl hp
  · exact hf (Res.isHold_of_ite rfl h)

theorem bodyPawin_held {e : Env} {s : State} (h : (bodyPawin e s).isHold = true) : PrismHolds s e := Env.prism_held h nofun
theorem bodyPain_held {e : Env} {s : State} (h : (bodyPain e s).isHold = true) : PrismHolds s e := Env.prism_held h nofun
theorem bodyPago_held {e : Env} {s : State} (h : (bodyPago e s).isHold = true) : PrismHolds s e := Env.prism_held h nofun
theorem bodyPaclr_held {e : Env} {s : State} (h : (bodyPaclr e s).isHold = true) : PrismHolds s e := Env.prism_held h nofun

theorem bodyPald_held {e : Env} {s : State} (h : (bodyPald e s).isHold = true) : PrismHolds s e := by
  refine Env.prism_held h fun h => ?_
  rcases Res.isHold_hold_ite.mp (Res.isHold_of_ite rfl (Res.isHold_of_ite rfl h)) with hs | h
  · exact .inr hs
  · cases h

theorem bodyPacap_held {e : Env} {s : State} (h : (bodyPacap e s).isHold = true) : PrismHolds s e := by
  refine Env.prism_held h fun h => ?_
  split at h <;> cases h

/-! ### Instructions that no rule holds -/

theorem isHold_bodyBrIf (taken : Env → Bool) (e : Env) (s : State) : (bodyBrIf taken e s).isHold = false := by
  unfold bodyBrIf
  split <;> rfl

theorem isHold_bodyCallr (e : Env) (s : State) : (bodyCallr e s).isHold = false := Res.isHold_trapOwn_ite rfl

theorem isHold_bodyJmpr (e : Env) (s : State) : (bodyJmpr e s).isHold = false := by
  unfold bodyJmpr jumpTo
  split <;> rfl

theorem isHold_bodyRegion (e : Env) (s : State) : (bodyRegion e s).isHold = false := Res.isHold_trapOwn_ite (Res.isHold_trapOwn_ite rfl)

theorem isHold_bodyMcall (e : Env) (s : State) : (bodyMcall e s).isHold = false := by
  refine Res.isHold_trapOwn_ite (Res.isHold_trapOwn_ite ?_)
  dsimp only
  split <;> rfl

theorem isHold_bodySrd (e : Env) (s : State) : (bodySrd e s).isHold = false := by
  unfold bodySrd
  dsimp only
  split <;> rfl

theorem isHold_bodySwr (e : Env) (s : State) : (bodySwr e s).isHold = false := by
  unfold bodySwr
  dsimp only
  split_ifs <;> rfl

theorem isHold_bodyEret (e : Env) (s : State) : (bodyEret e s).isHold = false := Res.isHold_trapOwn_ite (Res.isHold_trapOwn_ite rfl)

theorem isHold_bodyDiv (op : Nat) (e : Env) (s : State) : (bodyDiv op e s).isHold = false := by
  unfold bodyDiv
  dsimp only
  split <;> rfl

theorem isHold_bodyXchg (e : Env) (s : State) : (bodyXchg e s).isHold = false := Res.isHold_trapOwn_ite rfl

theorem isHold_bodyQset (e : Env) (s : State) : (bodyQset e s).isHold = false := Res.isHold_trapOwn_ite rfl

theorem Env.isHold_qTake (e : Env) (s : State) (take : Team → Nat → Option (Nat × Team)) (vals : Team → Nat → Nat → Nat → List (Nat × Word))
    (w : Nat → Nat → Nat → Status) : (e.qTake s take vals w).isHold = false := by
  refine Res.isHold_trapOwn_ite ?_
  split <;> rfl

theorem isHold_bodyQcommit (e : Env) (s : State) : (bodyQcommit e s).isHold = false := by
  refine Res.isHold_trapOwn_ite ?_
  split
  · rfl
  · exact Res.isHold_trapOwn_ite rfl

theorem isHold_bodyJwait (e : Env) (s : State) : (bodyJwait e s).isHold = false := by
  unfold bodyJwait
  dsimp only
  split
  · rfl
  · split <;> rfl

theorem isHold_bodyJtest (e : Env) (s : State) : (bodyJtest e s).isHold = false := by
  unfold bodyJtest
  dsimp only
  split <;> rfl

theorem isHold_bodyYieldj (e : Env) (s : State) : (bodyYieldj e s).isHold = false := by
  unfold bodyYieldj
  dsimp only
  split
  · rfl
  · split <;> rfl

theorem isHold_bodyHboard (e : Env) (s : State) : (bodyHboard e s).isHold = false := by
  refine Res.isHold_trapOwn_ite (Res.isHold_trapOwn_ite (Res.isHold_trapOwn_ite ?_))
  split <;> rfl

theorem isHold_bodyHcancel (e : Env) (s : State) : (bodyHcancel e s).isHold = false := by
  unfold bodyHcancel
  dsimp only
  split <;> rfl

end Sys2Proof.Machine
end

section
/-! SUPPORT. The checks at issue (R27, R39, R84, R86, R107, R380): every instruction with an encoding is held before them by a rule, or
meets them in order. -/

namespace Sys2Proof.Machine

open Sys2Proof.Claim

/-! ### Which rule holds which opcodes -/

theorem heldBefore_of_teamWord {n : Nat} {s : State} {e : Env} (hn : decide (n = 0x2F ∨ n = 0x30 ∨ n = 0x04B ∨ n = 0x04C) = true)
    (h : s.acquiring e.r = true) : HeldBefore n s e :=
  .inl ⟨of_decide_eq_true hn, h⟩

theorem heldBefore_of_memory {n : Nat} {s : State} {e : Env}
    (hn : decide (n = 0x2D ∨ n = 0x2E ∨ (0x180 ≤ n ∧ n ≤ 0x18E) ∨ (0x220 ≤ n ∧ n ≤ 0x229)) = true) (h : MemoryHolds s e) : HeldBefore n s e :=
  .inr (.inl ⟨of_decide_eq_true hn, h⟩)

theorem heldBefore_of_matrix {n : Nat} {s : State} {e : Env} (hn : decide (0x1C0 ≤ n ∧ n ≤ 0x1C6) = true)
    (h : s.quadFull e.T.coreId (e.r.b % 4) = true ∨ s.acquiring e.r = true) : HeldBefore n s e :=
  .inr (.inr (.inl ⟨of_decide_eq_true hn, h⟩))

theorem heldBefore_of_job {n : Nat} {s : State} {e : Env} (hn : decide ((0x1E5 ≤ n ∧ n ≤ 0x1E7) ∨ n = 0x22A) = true) (h : JobHolds s e) :
    HeldBefore n s e :=
  .inr (.inr (.inr (.inr (.inl ⟨of_decide_eq_true hn, h⟩))))

theorem heldBefore_of_prism {n : Nat} {s : State} {e : Env} (hn : decide (0x240 ≤ n ∧ n ≤ 0x245) = true) (h : PrismHolds s e) :
    HeldBefore n s e :=
  .inr (.inr (.inr (.inr (.inr ⟨of_decide_eq_true hn, h⟩))))

/-- The unit of a legal `KVW` has four bytes at most (R303). -/
theorem width_of_kvw {x : Ext} {s s1 : State} {e : Env} (h : Attempts (.kvw x) s e s1) : e.width ≤ 4 := by
  obtain ⟨hw, -, -, -, -, he, -⟩ := h
  have hx : e.x = x := by rw [he]; rfl
  have hg := Sig.x10_of_ok (g := (xsig 0x221 x).getD {}) hw
  have hx3 : x.xf 0 3 ≤ 2 := of_decide_eq_true ((Bool.and_eq_true _ _).mp hg).2
  rw [Env.width, hx]
  exact Nat.pow_le_pow_right (by decide) hx3

/-! ### Every instruction -/

/-- The body is the instruction's own, and where it is held before issue, a rule holds it. -/
def HeldAsRuled (i : Instr) (body : Env → State → Res) : Prop :=
  (∀ s, exec i s = Issue.conclude (startOf i s) body) ∧
    ∀ s e s1, Attempts i s e s1 → (body e s1).isHold = true → HeldBefore (numberOf i) s1 e

theorem heldAsRuled_of_never {i : Instr} {body : Env → State → Res} (hx : ∀ s, exec i s = Issue.conclude (startOf i s) body)
    (hn : ∀ e s, (body e s).isHold = false) : HeldAsRuled i body :=
  ⟨hx, fun _ e s1 _ h => by rw [hn e s1] at h; cases h⟩

theorem exec_heldAsRuled (i : Instr) (h : isCoded i = true) : ∃ body, HeldAsRuled i body := by
  cases i with
  | nop o | mov o | add o | sub o | mul o | and o | or o | xor o | shl o | shr o | sar o | min o | max o | minu o | maxu o | andn o
  | addi o | shli o | shri o | sari o | andi o | ceq o | cne o | clt o | cle o | cltu o | cleu o | sel o | fadd o | fsub o | fmul o
  | fmac o | fmin o | fmax o | fceq o | fclt o | fcle o | hadd o | hmul o | hmac o | badd o | bmul o | bmac o | shfl o | shflx o
  | bra o | exit o | bar o | maskp o | getm o | setm o | radd o | rmax o | mad o | popc o | clz o =>
    exact ⟨_, heldAsRuled_of_never (fun _ => Issue.base_eq rfl) fun _ _ => rfl⟩
  | nopX x | movX x | addX x | subX x | mulX x | andX x | orX x | xorX x | shlX x | shrX x | sarX x | minX x | maxX x | minuX x
  | maxuX x | andnX x | addiX x | shliX x | shriX x | sariX x | andiX x | ceqX x | cneX x | cltX x | cleX x | cltuX x | cleuX x
  | selX x | faddX x | fsubX x | fmulX x | fmacX x | fminX x | fmaxX x | fceqX x | fcltX x | fcleX x | haddX x | hmulX x | hmacX x
  | baddX x | bmulX x | bmacX x | shflX x | shflxX x | braX x | exitX x | barX x | maskpX x | getmX x | setmX x | raddX x | rmaxX x
  | madX x | popcX x | clzX x | call x | yield x | barn x | arrive x | waitb x | trap x | brk x | mulhi x | mulhiu x | addp x
  | subp x | mulp x | lea x | abs x | rol x | ror x | ctz x | brev x | bfx x | bfxu x | bfi x | shflu x | shfld x | vote x
  | matchLanes x | rmin x | rminu x | rmaxu x | scan x | rng x | shlp x | shrp x | sarp x | ceqp x | cltp x | cltup x | ffma x
  | fnms x | fabs x | fneg x | fminn x | fmaxn x | fcun x | fclass x | frnd x | frcp x | frsq x | fsqrt x | fexp2 x | flog2 x
  | ftanh x | fscl x | hfma x | bfma x | hmin x | hmax x | cvtf x | cvtfi x | cvtif x | cvtt x | cvttf x | fredadd x | fredmax x
  | fredmin x | fredmaxi x | fredmini x | mwait x | hlap x => exact ⟨_, heldAsRuled_of_never (fun _ => Issue.ext_eq rfl) fun _ _ => rfl⟩
  | ldsw o => exact ⟨_, fun _ => Issue.base_eq rfl, fun _ _ _ _ h => heldBefore_of_memory rfl (bodyLdsw_held h)⟩
  | ldswX x => exact ⟨_, fun _ => Issue.ext_eq rfl, fun _ _ _ _ h => heldBefore_of_memory rfl (bodyLdsw_held h)⟩
  | stsw o => exact ⟨_, fun _ => Issue.base_eq rfl, fun _ _ _ _ h => heldBefore_of_memory rfl (bodyStsw_held h)⟩
  | stswX x => exact ⟨_, fun _ => Issue.ext_eq rfl, fun _ _ _ _ h => heldBefore_of_memory rfl (bodyStsw_held h)⟩
  | twrd o => exact ⟨_, fun _ => Issue.base_eq rfl, fun _ _ _ _ h => heldBefore_of_teamWord rfl (bodyTwrd_held h)⟩
  | twrdX x => exact ⟨_, fun _ => Issue.ext_eq rfl, fun _ _ _ _ h => heldBefore_of_teamWord rfl (bodyTwrd_held h)⟩
  | twwr o => exact ⟨_, fun _ => Issue.base_eq rfl, fun _ _ _ _ h => heldBefore_of_teamWord rfl (bodyTwwr_held h)⟩
  | twwrX x => exact ⟨_, fun _ => Issue.ext_eq rfl, fun _ _ _ _ h => heldBefore_of_teamWord rfl (bodyTwwr_held h)⟩
  | brany o | brall o | brnone o => exact ⟨_, heldAsRuled_of_never (fun _ => Issue.base_eq rfl) (isHold_bodyBrIf _)⟩
  | branyX x | brallX x | brnoneX x => exact ⟨_, heldAsRuled_of_never (fun _ => Issue.ext_eq rfl) (isHold_bodyBrIf _)⟩
  | callr x => exact ⟨_, heldAsRuled_of_never (fun _ => Issue.ext_eq rfl) isHold_bodyCallr⟩
  | ret x | jmpr x => exact ⟨_, heldAsRuled_of_never (fun _ => Issue.ext_eq rfl) isHold_bodyJmpr⟩
  | yieldj x => exact ⟨_, heldAsRuled_of_never (fun _ => Issue.ext_eq rfl) isHold_bodyYieldj⟩
  | region x => exact ⟨_, heldAsRuled_of_never (fun _ => Issue.ext_eq rfl) isHold_bodyRegion⟩
  | mcall x => exact ⟨_, heldAsRuled_of_never (fun _ => Issue.ext_eq rfl) isHold_bodyMcall⟩
  | twadd x | twcas x => exact ⟨_, fun _ => Issue.ext_eq rfl, fun _ _ _ _ h => heldBefore_of_teamWord rfl (bodyTwRmw_held h)⟩
  | srd x => exact ⟨_, heldAsRuled_of_never (fun _ => Issue.ext_eq rfl) isHold_bodySrd⟩
  | swr x => exact ⟨_, heldAsRuled_of_never (fun _ => Issue.ext_eq rfl) isHold_bodySwr⟩
  | eret x => exact ⟨_, heldAsRuled_of_never (fun _ => Issue.ext_eq rfl) isHold_bodyEret⟩
  | divs x | divu x | rems x | remu x => exact ⟨_, heldAsRuled_of_never (fun _ => Issue.ext_eq rfl) (isHold_bodyDiv _)⟩
  | xchg x => exact ⟨_, heldAsRuled_of_never (fun _ => Issue.ext_eq rfl) isHold_bodyXchg⟩
  | ld x => exact ⟨_, fun _ => Issue.ext_eq rfl, fun _ _ _ ha h => heldBefore_of_memory rfl (bodyLd_held ha.hasBeam h)⟩
  | st x => exact ⟨_, fun _ => Issue.ext_eq rfl, fun _ _ _ ha h => heldBefore_of_memory rfl (bodySt_held ha.hasBeam h)⟩
  | lda x => exact ⟨_, fun _ => Issue.ext_eq rfl, fun _ _ _ ha h => heldBefore_of_memory rfl (bodyLda_held ha.hasBeam h)⟩
  | stl x => exact ⟨_, fun _ => Issue.ext_eq rfl, fun _ _ _ ha h => heldBefore_of_memory rfl (bodyStl_held ha.hasBeam h)⟩
  | lds x => exact ⟨_, fun _ => Issue.ext_eq rfl, fun _ _ _ _ h => heldBefore_of_memory rfl (bodyLds_held h)⟩
  | sts x => exact ⟨_, fun _ => Issue.ext_eq rfl, fun _ _ _ _ h => heldBefore_of_memory rfl (bodySts_held h)⟩
  | atom x => exact ⟨_, fun _ => Issue.ext_eq rfl, fun _ _ _ ha h => heldBefore_of_memory rfl (bodyAtom_held ha.hasBeam h)⟩
  | atoms x => exact ⟨_, fun _ => Issue.ext_eq rfl, fun _ _ _ _ h => heldBefore_of_memory rfl (bodyAtoms_held h)⟩
  | red x => exact ⟨_, fun _ => Issue.ext_eq rfl, fun _ _ _ ha h => heldBefore_of_memory rfl (bodyRed_held ha.hasBeam h)⟩
  | fence x => exact ⟨_, fun _ => Issue.ext_eq rfl, fun _ _ _ ha h => heldBefore_of_memory rfl (bodyFence_held ha.hasBeam h)⟩
  | mcst x => exact ⟨_, fun _ => Issue.ext_eq rfl, fun _ _ _ ha h => heldBefore_of_memory rfl (bodyMcst_held ha.hasBeam h)⟩
  | prf x => exact ⟨_, fun _ => Issue.ext_eq rfl, fun _ _ _ _ h => heldBefore_of_memory rfl (bodyPrf_held h)⟩
  | cinv x => exact ⟨_, fun _ => Issue.ext_eq rfl, fun _ _ _ _ h => heldBefore_of_memory rfl (bodyCinv_held h)⟩
  | tile x => exact ⟨_, fun _ => Issue.ext_eq rfl, fun _ _ _ _ h => heldBefore_of_memory rfl (bodyTile_held h)⟩
  | waitm x => exact ⟨_, fun _ => Issue.ext_eq rfl, fun _ _ _ ha h => heldBefore_of_memory rfl (bodyWaitm_held ha.hasBeam h)⟩
  | mma x | mmasp x => exact ⟨_, fun _ => Issue.ext_eq rfl, fun _ _ _ _ h => heldBefore_of_matrix rfl (Env.multiply_held h)⟩
  | accz x => exact ⟨_, fun _ => Issue.ext_eq rfl, fun _ _ _ _ h => heldBefore_of_matrix rfl (bodyAccz_held h)⟩
  | accld x => exact ⟨_, fun _ => Issue.ext_eq rfl, fun _ _ _ _ h => heldBefore_of_matrix rfl (bodyAccld_held h)⟩
  | accst x => exact ⟨_, fun _ => Issue.ext_eq rfl, fun _ _ _ _ h => heldBefore_of_matrix rfl (bodyAccst_held h)⟩
  | acccvt x => exact ⟨_, fun _ => Issue.ext_eq rfl, fun _ _ _ _ h => heldBefore_of_matrix rfl (bodyAcccvt_held h)⟩
  | ldmeta x => exact ⟨_, fun _ => Issue.ext_eq rfl, fun _ _ _ _ h => heldBefore_of_matrix rfl (bodyLdmeta_held h)⟩
  | qset x => exact ⟨_, heldAsRuled_of_never (fun _ => Issue.ext_eq rfl) isHold_bodyQset⟩
  | qacq x | qwait x => exact ⟨_, heldAsRuled_of_never (fun _ => Issue.ext_eq rfl) fun e s => e.isHold_qTake s _ _ _⟩
  | qcommit x => exact ⟨_, heldAsRuled_of_never (fun _ => Issue.ext_eq rfl) isHold_bodyQcommit⟩
  | qfree x => exact ⟨_, fun _ => Issue.ext_eq rfl, fun _ _ _ _ h => .inr (.inr (.inr (.inl ⟨rfl, bodyQfree_held h⟩)))⟩
  | cpyj x => exact ⟨_, fun _ => Issue.ext_eq rfl, fun _ _ _ _ h => heldBefore_of_job rfl (bodyCpyj_held h)⟩
  | gatj x => exact ⟨_, fun _ => Issue.ext_eq rfl, fun _ _ _ _ h => heldBefore_of_job rfl (bodyGatj_held h)⟩
  | colj x => exact ⟨_, fun _ => Issue.ext_eq rfl, fun _ _ _ _ h => heldBefore_of_job rfl (bodyColj_held h)⟩
  | jwait x => exact ⟨_, heldAsRuled_of_never (fun _ => Issue.ext_eq rfl) isHold_bodyJwait⟩
  | jtest x => exact ⟨_, heldAsRuled_of_never (fun _ => Issue.ext_eq rfl) isHold_bodyJtest⟩
  | hboard x => exact ⟨_, heldAsRuled_of_never (fun _ => Issue.ext_eq rfl) isHold_bodyHboard⟩
  | hcancel x => exact ⟨_, heldAsRuled_of_never (fun _ => Issue.ext_eq rfl) isHold_bodyHcancel⟩
  | kvrsv x => exact ⟨_, fun _ => Issue.ext_eq rfl, fun _ _ _ ha h => heldBefore_of_memory rfl (bodyKvrsv_held ha.hasBeam h)⟩
  | kvw x =>
    exact ⟨_, fun _ => Issue.ext_eq rfl, fun _ _ _ ha h => heldBefore_of_memory rfl (bodyKvw_held (width_of_kvw ha) ha.hasBeam h)⟩
  | kvr x => exact ⟨_, fun _ => Issue.ext_eq rfl, fun _ _ _ ha h => heldBefore_of_memory rfl (bodyKvr_held ha.hasBeam h)⟩
  | kvrt x => exact ⟨_, fun _ => Issue.ext_eq rfl, fun _ _ _ ha h => heldBefore_of_memory rfl (bodyKvrt_held ha.hasBeam h)⟩
  | kvpub x => exact ⟨_, fun _ => Issue.ext_eq rfl, fun _ _ _ ha h => heldBefore_of_memory rfl (bodyKvpub_held ha.hasBeam h)⟩
  | kvacq x | kvwait x => exact ⟨_, fun _ => Issue.ext_eq rfl, fun _ _ _ ha h => heldBefore_of_memory rfl (Env.kvAcq_held ha.hasBeam h)⟩
  | kvcmt x => exact ⟨_, fun _ => Issue.ext_eq rfl, fun _ _ _ ha h => heldBefore_of_memory rfl (bodyKvcmt_held ha.hasBeam h)⟩
  | kvroll x => exact ⟨_, fun _ => Issue.ext_eq rfl, fun _ _ _ ha h => heldBefore_of_memory rfl (bodyKvroll_held ha.hasBeam h)⟩
  | kvgen x => exact ⟨_, fun _ => Issue.ext_eq rfl, fun _ _ _ ha h => heldBefore_of_memory rfl (bodyKvgen_held ha.hasBeam h)⟩
  | kvstage x => exact ⟨_, fun _ => Issue.ext_eq rfl, fun _ _ _ _ h => heldBefore_of_job rfl (bodyKvstage_held h)⟩
  | pawin x => exact ⟨_, fun _ => Issue.ext_eq rfl, fun _ _ _ _ h => heldBefore_of_prism rfl (bodyPawin_held h)⟩
  | pald x => exact ⟨_, fun _ => Issue.ext_eq rfl, fun _ _ _ _ h => heldBefore_of_prism rfl (bodyPald_held h)⟩
  | pain x => exact ⟨_, fun _ => Issue.ext_eq rfl, fun _ _ _ _ h => heldBefore_of_prism rfl (bodyPain_held h)⟩
  | pago x => exact ⟨_, fun _ => Issue.ext_eq rfl, fun _ _ _ _ h => heldBefore_of_prism rfl (bodyPago_held h)⟩
  | pacap x => exact ⟨_, fun _ => Issue.ext_eq rfl, fun _ _ _ _ h => heldBefore_of_prism rfl (bodyPacap_held h)⟩
  | paclr x => exact ⟨_, fun _ => Issue.ext_eq rfl, fun _ _ _ _ h => heldBefore_of_prism rfl (bodyPaclr_held h)⟩
  | _ => exact absurd h (by simp [isCoded, Instr.form])

/-! ### The checks in order -/

/-- A check that fails traps, unless a rule holds the instruction meanwhile. -/
theorem failsAtIssue_of_start {i : Instr} {s s1 : State} {e : Env} {c : Nat} (ha : Attempts i s e s1) (hs : startOf i s = .trap e s1 c) :
    FailsAtIssue i s e s1 c := by
  obtain ⟨body, hx, hh⟩ := exec_heldAsRuled i ha.2.1
  unfold FailsAtIssue TrapsOwn Waits
  rw [hx, hs]
  by_cases hb : (body e s1).isHold = true
  · exact .inr ⟨hh s e s1 ha hb, by rw [Issue.conclude, if_pos hb]⟩
  · exact .inl (by rw [Issue.conclude, if_neg hb])

/-- The hazard check in the words of the claim: the cycle of issue is the state's. -/
theorem Attempts.hazard_iff {i : Instr} {s s1 : State} {e : Env} (h : Attempts i s e s1) :
    (e.b.chk = 1 ∧ e.b.hazard e.g e.x s1.clock ((fixedLat e.n).map (s1.clock + 4 * e.far + ·)) = true) ↔ ¬ e.noHazard := by
  rw [h.now_eq, Env.noHazard, Classical.not_imp, Bool.not_eq_false]

theorem checksAtIssue : ChecksAtIssue := by
  intro i s e s1 ha
  have hs := ha.start
  have hr : ¬ (s1.mayIssue e.T e.b e.r.b = false ∨ e.b.blocked e.g e.x = true) ↔ e.ready s1 := by simp [Env.ready]
  have hg : ¬ (Machine.inBudget e.g e.x e.b.budget = false) ↔ e.inBudget := by simp [Env.inBudget]
  have hz := ha.hazard_iff
  have hp : e.T.badRegs e.r.b e.b (readNames e.g e.x) = true ↔ ¬ e.sound := by simp [Env.sound]
  refine ⟨fun h => ?_, fun h1 h => ?_, fun h1 h2 h => ?_, fun h1 h2 h3 h => ?_⟩
  · rw [if_pos (not_not.mp (mt hr.mp h))] at hs
    obtain ⟨body, hx, -⟩ := exec_heldAsRuled i ha.2.1
    rw [Waits, hx, hs, Issue.conclude]
  all_goals rw [if_neg (hr.mpr h1)] at hs
  · exact failsAtIssue_of_start ha (hs.trans (if_pos (not_not.mp (mt hg.mp h))))
  all_goals rw [if_neg (hg.mpr h2)] at hs
  · exact failsAtIssue_of_start ha (hs.trans (if_pos (hz.mpr h)))
  · rw [if_neg (not_not.mpr h3 ∘ hz.mp), if_pos (hp.mpr h)] at hs
    exact failsAtIssue_of_start ha hs

/-- Settles O28, by the one way in which every instruction issues: `Issue.start` makes the checks in order, and a body that is held
instead shows the rule that holds it. -/
theorem issueChecks : Obligations.IssueChecks := ⟨checksAtIssue, whenABeamMayIssue⟩

end Sys2Proof.Machine
end

section
/-! SUPPORT. Special operands of the floating-point instructions and of the functions (R63, R67, R205). -/

namespace Sys2Proof.Machine

open Sys2Proof.Claim

/-! ### Special operands of the arithmetic (R63, R205) -/

theorem addX_nan (rm : RMode) (v : FVal) : addX rm .nan v = .nan false ∧ addX rm v .nan = .nan false := by
  cases v <;> exact ⟨rfl, rfl⟩

theorem mulX_nan (v : FVal) : mulX .nan v = .nan false ∧ mulX v .nan = .nan false := by
  cases v <;> exact ⟨rfl, rfl⟩

/-- An operation whose exact result is a quiet NaN raises NV for its signalling operands alone. -/
theorem fop2_of_nan {f : Fmt} {rm : RMode} {g : FVal → FVal → XRes} {a b : Nat} (h : g (.of f a) (.of f b) = .nan false) :
    fop2 f rm g a b = (nanBits f, nv f [a, b]) := by
  rw [fop2, h, nv_eq]
  exact congrArg (Prod.mk _) (BitVec.zero_or ..)

/-- An operation that is invalid raises NV, whatever its operands raise. -/
theorem fNV_or_snanFlag (f : Fmt) (l : List Nat) : fNV ||| snanFlag f l = fNV := by
  unfold snanFlag
  split <;> rfl

theorem fop2_of_invalid {f : Fmt} {rm : RMode} {g : FVal → FVal → XRes} {a b : Nat} (h : g (.of f a) (.of f b) = .nan true) :
    fop2 f rm g a b = (nanBits f, 0b10000) := by
  rw [fop2, h]
  exact congrArg (Prod.mk _) (fNV_or_snanFlag ..)

/-- A number is no signalling NaN, and no infinity is. -/
theorem isSnan_of_not_nan {f : Fmt} {a : Nat} (h : mag f a ≤ infMag f) : isSnan f a = false := by
  have h' : ¬ a % f.signBit > f.infCode := Nat.not_lt.mpr h
  simp [isSnan, h']

theorem snanFlag_of_numbers {f : Fmt} {l : List Nat} (h : ∀ a ∈ l, mag f a ≤ infMag f) : snanFlag f l = 0 := by
  rw [snanFlag, if_neg]
  rw [List.any_eq_true]
  rintro ⟨a, ha, hs⟩
  rw [isSnan_of_not_nan (h a ha)] at hs
  exact Bool.noConfusion hs

/-- A sum or a product with a NaN operand. -/
theorem arith_of_nan {f : Fmt} {rm : RMode} {a b : Nat} (h : isNanBits f a = true ∨ isNanBits f b = true) :
    faddBits f rm a b = (nanBits f, nv f [a, b]) ∧ fmulBits f rm a b = (nanBits f, nv f [a, b]) := by
  rcases h with h | h
  · exact ⟨fop2_of_nan (by rw [FVal.of_nan h, (addX_nan rm _).1]), fop2_of_nan (by rw [FVal.of_nan h, (mulX_nan _).1])⟩
  · exact ⟨fop2_of_nan (by rw [FVal.of_nan h, (addX_nan rm _).2]), fop2_of_nan (by rw [FVal.of_nan h, (mulX_nan _).2])⟩

/-- Infinities of opposite sign have no sum. -/
theorem faddBits_of_inf {f : Fmt} {rm : RMode} {a b : Nat} (ha : mag f a = infMag f) (hb : mag f b = infMag f)
    (h : sgn f a ≠ sgn f b) : faddBits f rm a b = (nanBits f, 0b10000) :=
  fop2_of_invalid (by rw [FVal.of_inf ha, FVal.of_inf hb, addX, if_neg h])

theorem infMag_pos {f : Fmt} (hf : 0 < f.eb) : 0 < infMag f :=
  Nat.mul_pos (Nat.sub_pos_of_lt (Nat.one_lt_two_pow hf.ne')) (Nat.two_pow_pos _)

/-- Infinity times zero has no value, whatever is added. -/
theorem mulV_inf_zero {f : Fmt} {a b : Nat} (hf : 0 < f.eb) (ha : mag f a = infMag f) (hb : mag f b = 0) :
    mulV (.of f a) (.of f b) = none := by
  have hs : sigOf f 0 = 0 := by simp [sigOf]
  rw [FVal.of_inf ha, FVal.of_fin (hb.trans_lt (infMag_pos hf)), hb, hs, mulV, if_pos rfl]

theorem fmulBits_of_inf_zero {f : Fmt} {rm : RMode} {a b : Nat} (h : mulV (.of f a) (.of f b) = none) :
    fmulBits f rm a b = (nanBits f, 0b10000) :=
  fop2_of_invalid (by rw [mulX, h])

theorem ffmaBits_of_inf_zero {f : Fmt} {rm : RMode} {a b c : Nat} (h : mulV (.of f a) (.of f b) = none) :
    ffmaBits f rm a b c = (nanBits f, 0b10000) := by
  rw [ffmaBits, fmaX, h]
  exact congrArg (Prod.mk _) (fNV_or_snanFlag ..)

/-- A number and its negative sum to a zero, whose sign the mode gives. -/
theorem addX_opposite (rm : RMode) {s t : Bool} (h : s ≠ t) (m : Nat) (e : Int) :
    addX rm (.fin s m e) (.fin t m e) = .fin (decide (rm = .rd)) 0 (min e e) false := by
  have hv (k : Nat) : signed s k + signed t k = 0 := by cases s <;> cases t <;> simp_all [signed]
  simp only [addX, hv, XRes.ofInt, if_true]
  rw [if_neg (fun h' => h h'.2.2)]
  rfl

theorem faddBits_of_opposite {f : Fmt} {rm : RMode} {a b : Nat} (hab : mag f a = mag f b) (ha : mag f a < infMag f)
    (h : sgn f a ≠ sgn f b) : faddBits f rm a b = (if rm = .rd then 2 ^ (f.eb + f.mb) else 0, 0) := by
  have hn : snanFlag f [a, b] = 0 := snanFlag_of_numbers (by simp [← hab, ha.le])
  rw [faddBits, fop2, hn, FVal.of_fin ha, FVal.of_fin (hab ▸ ha), ← hab, addX_opposite rm h]
  cases rm <;> simp [pack, withSign, Fmt.signBit]

theorem floatSpecialCases : FloatSpecialCases := by
  intro f hf rm a b c _ _ _
  have he : 0 < f.eb := by
    simp only [formats, List.mem_cons, List.not_mem_nil, or_false] at hf
    rcases hf with rfl | rfl | rfl <;> decide
  refine ⟨arith_of_nan, fun ha hb h => ?_, fun ha hb => ?_, faddBits_of_opposite⟩
  · exact faddBits_of_inf (of_decide_eq_true ha) (of_decide_eq_true hb) h
  · have h := mulV_inf_zero he (of_decide_eq_true ha) hb
    exact ⟨fmulBits_of_inf_zero h, ffmaBits_of_inf_zero h⟩

/-! ### Special operands of the functions (R67) -/

theorem functionSpecialCases : FunctionSpecialCases := by
  intro rm
  cases rm <;> decide

/-- Settles O19: the exact result of each special case, and the table of R67 evaluated. -/
theorem floatSpecials : Obligations.FloatSpecials := ⟨floatSpecialCases, functionSpecialCases⟩

end Sys2Proof.Machine
end

section
/-! SUPPORT. Floating-point arithmetic, conversions and reductions, as the tables of R200 to R219 say them. -/

namespace Sys2Proof.Machine

open Sys2Proof.Claim

/-! ### What an extended instruction with a fixed latency leaves -/

/-- An extended instruction whose body is done completes. -/
theorem Issues.completes {i : Instr} {n : Nat} {x : Ext} {body : Env → State → Res} {s s1 t : State} {e : Env} (h : Issues i s e s1)
    (hf : i.form = .ext n x) (hx : exec i s = Issue.ext n x body s) (hb : body e s1 = .done t) : Completes i s e t := by
  rw [Completes, hx, h.ext hf, hb, Res.outcome_done]

/-- Lane results count modulo 2^32. -/
theorem bodyFlagged_congr {f g : Env → Nat → FRes} {e : Env} (s1 : State)
    (h : ∀ l, w32 (f e l).1 = w32 (g e l).1 ∧ (f e l).2 = (g e l).2) : bodyFlagged f e s1 = bodyFlagged g e s1 := by
  have h1 : (fun l => BitVec.ofNat 32 (f e l).1) = fun l => BitVec.ofNat 32 (g e l).1 := funext fun l => (h l).1
  have h2 : (fun l => (f e l).2) = fun l => (g e l).2 := funext fun l => (h l).2
  rw [bodyFlagged, bodyFlagged, h1, h2]

/-- An extended instruction whose body gives each active lane a value, with exceptions. -/
theorem givesFlagged_of_body {i : Instr} {n : Nat} {x : Ext} {f : Env → Nat → FRes} {k : Env → Nat → Nat × Flags}
    (hf : i.form = .ext n x) (hx : ∀ s, exec i s = Issue.ext n x (bodyFlagged f) s)
    (h : ∀ s e s1, Issues i s e s1 → ∀ l, w32 (f e l).1 = w32 (k e l).1 ∧ (f e l).2 = (k e l).2) : GivesFlagged i k := by
  intro s e s1 hi
  exact hi.completes hf (hx s) (bodyFlagged_congr s1 (h s e s1 hi))

/-! ### The twins of the base instructions (R203, R207, R208) -/

/-- What a row of the base floating-point instructions says of the twin. -/
def FloatTwinRow (p : FloatRow) : Prop :=
  ∀ x, GivesFlagged (p.2.1 x) fun e l => p.2.2 e.rmode (e.a l).toNat (e.bv l).toNat (e.dOld l).toNat

theorem floatTwinRow_of_body {o : B3 → Instr} {mk : Ext → Instr} {k : RMode → Nat → Nat → Nat → Nat × Flags} (n : Nat)
    (body : Env → State → Res) (hf : ∀ x, (mk x).form = .ext n x) (hx : ∀ x s, exec (mk x) s = Issue.ext n x body s)
    (hb : BodyGives body k) : FloatTwinRow (o, mk, k) :=
  fun x s e s1 h => h.completes (hf x) (hx x s) (hb e s1)

theorem floatBase_twins : ∀ p ∈ floatBase, FloatTwinRow p := by
  simp only [floatBase, List.forall_mem_cons]
  refine ⟨?_, ?_, ?_, ?_, ?_, ?_, ?_, ?_, ?_, ?_, ?_, ?_, ?_, ?_, ?_, nofun⟩
  · exact floatTwinRow_of_body 0x1C _ (fun _ => rfl) (fun _ _ => rfl) (bodyF2_gives (faddBits .fp32))
  · exact floatTwinRow_of_body 0x1D _ (fun _ => rfl) (fun _ _ => rfl) (bodyF2_gives (fsubBits .fp32))
  · exact floatTwinRow_of_body 0x1E _ (fun _ => rfl) (fun _ _ => rfl) (bodyF2_gives (fmulBits .fp32))
  · exact floatTwinRow_of_body 0x1F _ (fun _ => rfl) (fun _ _ => rfl) (bodyF3d_gives (ffmaBits .fp32))
  · exact floatTwinRow_of_body 0x25 _ (fun _ => rfl) (fun _ _ => rfl) (bodyP2_gives (faddBits .fp16))
  · exact floatTwinRow_of_body 0x26 _ (fun _ => rfl) (fun _ _ => rfl) (bodyP2_gives (fmulBits .fp16))
  · exact floatTwinRow_of_body 0x27 _ (fun _ => rfl) (fun _ _ => rfl) (bodyP3d_gives (ffmaBits .fp16))
  · exact floatTwinRow_of_body 0x28 _ (fun _ => rfl) (fun _ _ => rfl) (bodyP2_gives (faddBits .bf16))
  · exact floatTwinRow_of_body 0x29 _ (fun _ => rfl) (fun _ _ => rfl) (bodyP2_gives (fmulBits .bf16))
  · exact floatTwinRow_of_body 0x2A _ (fun _ => rfl) (fun _ _ => rfl) (bodyP3d_gives (ffmaBits .bf16))
  · exact floatTwinRow_of_body 0x20 _ (fun _ => rfl) (fun _ _ => rfl) (bodyFsel_gives false)
  · exact floatTwinRow_of_body 0x21 _ (fun _ => rfl) (fun _ _ => rfl) (bodyFsel_gives true)
  · exact floatTwinRow_of_body 0x22 _ (fun _ => rfl) (fun _ _ => rfl) (bodyFcmp_gives fceq_eq)
  · exact floatTwinRow_of_body 0x23 _ (fun _ => rfl) (fun _ _ => rfl) (bodyFcmp_gives fclt_eq)
  · exact floatTwinRow_of_body 0x24 _ (fun _ => rfl) (fun _ _ => rfl) (bodyFcmp_gives fcle_eq)

theorem floatResults : FloatResults :=
  fun r hr => ⟨fun o => (floatBase_rows r hr o).2, floatBase_twins r hr⟩

/-! ### Extended-only arithmetic, selection and class (R204 to R212) -/

theorem packedRes_packed2 (f : Nat → Nat → Nat × Flags) (a b : Word) :
    w32 (packedRes (packed2 f a b)).1 = w32 (onHalves f a.toNat b.toNat).1 ∧
      (packedRes (packed2 f a b)).2 = (onHalves f a.toNat b.toNat).2 := by
  rw [packed2_eq]
  exact ⟨packedRes_w32 .., rfl⟩

theorem packedRes_packed3 (f : Nat → Nat → Nat → Nat × Flags) (a b c : Word) :
    w32 (packedRes (packed3 f a b c)).1 = w32 (onHalves3 f a.toNat b.toNat c.toNat).1 ∧
      (packedRes (packed3 f a b c)).2 = (onHalves3 f a.toNat b.toNat c.toNat).2 := by
  rw [packed3_eq]
  exact ⟨packedRes_w32 .., rfl⟩

/-- minimum and maximum in the words of R207. -/
theorem fpickNan_eq {f : Fmt} (hf : 0 < f.eb) (big : Bool) (a b : Nat) : fpickNan f big a b = pickStrict f big a b := by
  simp only [fpickNan, pickStrict, FVal.isNan_of, fpick_eq hf, nv_eq]
  rfl

/-- minimumNumber and maximumNumber on the halves of FP16 words. -/
theorem packedRes_fpick (big : Bool) (a b : Word) :
    w32 (packedRes (packed2 (fpick .fp16 big) a b)).1 = w32 (onHalves (pickNumber .fp16 big) a.toNat b.toNat).1 ∧
      (packedRes (packed2 (fpick .fp16 big) a b)).2 = (onHalves (pickNumber .fp16 big) a.toNat b.toNat).2 := by
  have h : fpick .fp16 big = pickNumber .fp16 big := funext₂ (fpick_eq (by decide) big)
  rw [← h]
  exact packedRes_packed2 ..

theorem w32_toNat (a : Word) : w32 a.toNat = a := by rw [w32, BitVec.ofNat_toNat, BitVec.setWidth_eq]

theorem fcun_eq (a b : Nat) :
    ((if (FVal.of .fp32 a).isNan || (FVal.of .fp32 b).isNan then 1 else 0, snanFlag .fp32 [a, b]) : Nat × Flags) =
      (if isNanBits .fp32 a || isNanBits .fp32 b then 1 else 0, nv .fp32 [a, b]) := by
  rw [FVal.isNan_of, FVal.isNan_of]
  rfl

/-- A word as a signed number. -/
theorem toInt_eq_ite (b : Word) : b.toInt = if b.toNat < 2 ^ 31 then (b.toNat : Int) else (b.toNat : Int) - 2 ^ 32 := by
  rw [BitVec.toInt_eq_toNat_cond]
  split_ifs <;> first | rfl | omega

theorem getLsbD_eq_sgn (a : Word) : a.getLsbD 31 = sgn .fp32 a.toNat := by
  rw [BitVec.getLsbD, Nat.testBit_eq_decide_div_mod_eq]
  rfl

/-- The class mask in the words of R209. -/
theorem fclass_eq (a : Word) : fclass a = w32 (2 ^ classBit a.toNat) := by
  have hm : a.toNat % 2 ^ 31 = mag .fp32 a.toNat := rfl
  have hI : infMag .fp32 = 0x7F800000 := rfl
  have hs : isSnan .fp32 a.toNat = signalling .fp32 a.toNat := rfl
  have hd : mag .fp32 a.toNat / 2 ^ 23 = 0 ↔ mag .fp32 a.toNat < 0x800000 := by
    rw [Nat.div_eq_zero_iff_lt (by decide)]; rfl
  simp only [fclass, classBit, isNanBits, isInfBits, decide_eq_true_iff, hm, hI, hs, hd, getLsbD_eq_sgn]
  rfl

/-- No lane raises anything. -/
theorem foldl_no_flags (l : List Nat) : l.foldl (fun (m : Flags) _ => m ||| 0) 0 = 0 := by
  induction l with
  | nil => rfl
  | cons a r ih => exact ih

theorem bodyA_fclass (e : Env) (s1 : State) :
    bodyA fclass e s1 = bodyFlagged (fun e l => (2 ^ classBit (e.a l).toNat, 0)) e s1 := by
  have h : (fun l => fclass (e.a l)) = fun l => BitVec.ofNat 32 (2 ^ classBit (e.a l).toNat) := funext fun l => fclass_eq (e.a l)
  rw [bodyA, bodyFlagged, lanesFlags, foldl_no_flags, h]

/-- What a row of the extended-only floating-point instructions says. -/
def FloatExtRow (p : (Ext → Instr) × (RMode → Nat → Nat → Nat → Nat × Flags)) : Prop :=
  ∀ x, GivesFlagged (p.1 x) fun e l => p.2 e.rmode (e.a l).toNat (e.bv l).toNat (e.c l).toNat

theorem floatExtRow_of_body {mk : Ext → Instr} {k : RMode → Nat → Nat → Nat → Nat × Flags} (n : Nat) (f : Env → Nat → FRes)
    (hf : ∀ x, (mk x).form = .ext n x) (hx : ∀ x s, exec (mk x) s = Issue.ext n x (bodyFlagged f) s)
    (h : ∀ e l, w32 (f e l).1 = w32 (k e.rmode (e.a l).toNat (e.bv l).toNat (e.c l).toNat).1 ∧
      (f e l).2 = (k e.rmode (e.a l).toNat (e.bv l).toNat (e.c l).toNat).2) : FloatExtRow (mk, k) :=
  fun x => givesFlagged_of_body (hf x) (hx x) fun _ e _ _ => h e

/-- The row of a function of R67. -/
theorem floatExtRow_fn {mk : Ext → Instr} (n fn : Nat) (hf : ∀ x, (mk x).form = .ext n x)
    (hx : ∀ x s, exec (mk x) s = Issue.ext n x (bodyFn fn) s) : FloatExtRow (mk, fun rm a _ _ => fnBits fn rm (w32 a)) :=
  floatExtRow_of_body n _ hf hx fun e l => by rw [w32_toNat]; exact ⟨rfl, rfl⟩

theorem floatExt_rows : ∀ p ∈ floatExt, FloatExtRow p := by
  simp only [floatExt, List.forall_mem_cons]
  refine ⟨?_, ?_, ?_, ?_, ?_, ?_, ?_, ?_, ?_, ?_, ?_, ?_, ?_, ?_, ?_, ?_, ?_, ?_, nofun⟩
  · exact floatExtRow_of_body 0x100 _ (fun _ => rfl) (fun _ _ => rfl) fun _ _ => ⟨rfl, rfl⟩
  · exact floatExtRow_of_body 0x101 _ (fun _ => rfl) (fun _ _ => rfl) fun _ _ => ⟨rfl, rfl⟩
  · exact floatExtRow_of_body 0x110 _ (fun _ => rfl) (fun _ _ => rfl) fun _ _ => packedRes_packed3 ..
  · exact floatExtRow_of_body 0x111 _ (fun _ => rfl) (fun _ _ => rfl) fun _ _ => packedRes_packed3 ..
  · exact floatExtRow_of_body 0x104 _ (fun _ => rfl) (fun _ _ => rfl) fun _ _ => by rw [fpickNan_eq (by decide)]; exact ⟨rfl, rfl⟩
  · exact floatExtRow_of_body 0x105 _ (fun _ => rfl) (fun _ _ => rfl) fun _ _ => by rw [fpickNan_eq (by decide)]; exact ⟨rfl, rfl⟩
  · exact floatExtRow_of_body 0x112 _ (fun _ => rfl) (fun _ _ => rfl) fun _ _ => packedRes_fpick ..
  · exact floatExtRow_of_body 0x113 _ (fun _ => rfl) (fun _ _ => rfl) fun _ _ => packedRes_fpick ..
  · exact floatExtRow_of_body 0x106 _ (fun _ => rfl) (fun _ _ => rfl) fun e l =>
      ⟨congrArg (w32 ·.1) (fcun_eq (e.a l).toNat (e.bv l).toNat), congrArg (·.2) (fcun_eq (e.a l).toNat (e.bv l).toNat)⟩
  · exact fun x s e s1 h => h.completes rfl rfl (bodyA_fclass e s1)
  · exact floatExtRow_of_body 0x108 _ (fun _ => rfl) (fun _ _ => rfl) fun _ _ => ⟨rfl, rfl⟩
  · exact floatExtRow_of_body 0x10F _ (fun _ => rfl) (fun _ _ => rfl) fun _ _ => by rw [toInt_eq_ite]; exact ⟨rfl, rfl⟩
  · exact floatExtRow_fn 0x109 0 (fun _ => rfl) fun _ _ => rfl
  · exact floatExtRow_fn 0x10A 1 (fun _ => rfl) fun _ _ => rfl
  · exact floatExtRow_fn 0x10B 2 (fun _ => rfl) fun _ _ => rfl
  · exact floatExtRow_fn 0x10C 3 (fun _ => rfl) fun _ _ => rfl
  · exact floatExtRow_fn 0x10D 4 (fun _ => rfl) fun _ _ => rfl
  · exact floatExtRow_fn 0x10E 5 (fun _ => rfl) fun _ _ => rfl

/-- The bits that PK leaves to the sign instructions. -/
theorem signBits_eq {e : Env} {x : Ext} (h : e.x = x) : e.signBits = signMask x := by
  rw [Env.signBits, signMask, Ext.xf, h]
  rfl

theorem extendedFloatResults : ExtendedFloatResults := by
  refine ⟨floatExt_rows, fun x s e s1 h => h.completes rfl rfl ?_, fun x s e s1 h => h.completes rfl rfl ?_⟩
  · rw [bodyFsign, signBits_eq h.x_eq]; rfl
  · rw [bodyFsign, signBits_eq h.x_eq]; rfl

/-! ### Conversions (R77, R213 to R216) -/

theorem convert_eq_recode : convert = recode := rfl

theorem fmtOf_eq {c : Nat} (h : c ≠ 0) : fmtOf c = halfFmt c := by rw [fmtOf, if_neg h]; rfl

theorem Ext.xf_one_iff (x : Ext) (k : Nat) : x.xf k 1 = 1 ↔ x.x10.getLsbD k = true := by
  simp only [Ext.xf, BitVec.getLsbD, Nat.testBit_eq_decide_div_mod_eq, Nat.shiftRight_eq_div_pow, decide_eq_true_eq, pow_one]

/-- A legal `CVTF` has different formats. -/
theorem cvtf_formats {x : Ext} (h : (Instr.cvtf x).wf = true) : x.xf 3 2 ≠ x.xf 5 2 := by
  have hg := Sig.x10_of_ok (g := (xsig 0x114 x).getD {}) h
  have h1 := ((Bool.and_eq_true _ _).mp hg).1
  exact of_decide_eq_true ((Bool.and_eq_true _ _).mp h1).2

theorem cvtf_results (x : Ext) : GivesFlagged (.cvtf x) cvtfValue := by
  refine givesFlagged_of_body rfl (fun _ => rfl) fun s e s1 h l => ?_
  have hne := cvtf_formats h.1.1
  have h3 : e.x.x10.toNat / 8 % 4 = e.x.xf 3 2 := by rw [Ext.xf, Nat.shiftRight_eq_div_pow]; rfl
  have h5 : e.x.x10.toNat / 32 % 4 = e.x.xf 5 2 := by rw [Ext.xf, Nat.shiftRight_eq_div_pow]; rfl
  have h7 := Ext.xf_one_iff e.x 7
  rw [show e.x = x from h.x_eq] at h3 h5 h7
  simp only [cvtfValue, show e.x = x from h.x_eq, convert_eq_recode, h3, h5, h7]
  by_cases hs : x.xf 3 2 = 0
  · rw [if_pos hs, if_pos hs, fmtOf_eq fun h => hne (hs.trans h.symm)]
    exact ⟨rfl, rfl⟩
  · rw [if_neg hs, if_neg hs]
    by_cases hd : x.xf 5 2 = 0
    · rw [if_pos hd, if_pos hd, fmtOf_eq hs]
      exact ⟨rfl, rfl⟩
    · rw [if_neg hd, if_neg hd, fmtOf_eq hs, fmtOf_eq hd]
      exact packedRes_packed2 ..

/-- A number converts to its rounded integer, or to the bound that it passes. -/
theorem toIntSat_fin (rm : RMode) (lo hi : Int) (s : Bool) (m : Nat) (k : Int) :
    let r := roundShift rm s m (-k)
    let v : Int := if s then -(r.1 : Int) else r.1
    ((BitVec.ofInt 32 (toIntSat rm lo hi (.fin s m k)).1).toNat, (toIntSat rm lo hi (.fin s m k)).2) =
      if v < lo then ((BitVec.ofInt 32 lo).toNat, 0b10000)
      else if v > hi then ((BitVec.ofInt 32 hi).toNat, 0b10000)
      else ((BitVec.ofInt 32 v).toNat, if r.2 then 1 else 0) := by
  intro r v
  have h : toIntSat rm lo hi (.fin s m k) =
      if v < lo then (lo, 0b10000) else if v > hi then (hi, 0b10000) else (v, if r.2 then 1 else 0) := rfl
  rw [h]
  by_cases h1 : v < lo
  · rw [if_pos h1, if_pos h1]
  · rw [if_neg h1, if_neg h1]
    by_cases h2 : v > hi
    · rw [if_pos h2, if_pos h2]
    · rw [if_neg h2, if_neg h2]

theorem cvtfi_eq (rm : RMode) (uns : Bool) (a : Nat) :
    cvtfi rm uns a =
      ((BitVec.ofInt 32 (toIntSat rm (if uns then 0 else -(2 ^ 31)) (if uns then 2 ^ 32 - 1 else 2 ^ 31 - 1) (.of .fp32 a)).1).toNat,
        (toIntSat rm (if uns then 0 else -(2 ^ 31)) (if uns then 2 ^ 32 - 1 else 2 ^ 31 - 1) (.of .fp32 a)).2) := by
  cases uns <;> rfl

theorem cvtfi_results (x : Ext) : GivesFlagged (.cvtfi x) fun e l =>
    let lo : Int := if x.x10.getLsbD 3 then 0 else -(2 ^ 31)
    let hi : Int := if x.x10.getLsbD 3 then 2 ^ 32 - 1 else 2 ^ 31 - 1
    match FVal.of .fp32 (e.a l).toNat with
    | .nan => (0, 0b10000)
    | .inf s => ((BitVec.ofInt 32 (if s then lo else hi)).toNat, 0b10000)
    | .fin s m k =>
      let r := roundShift e.rmode s m (-k)
      let v : Int := if s then -(r.1 : Int) else r.1
      if v < lo then ((BitVec.ofInt 32 lo).toNat, 0b10000)
      else if v > hi then ((BitVec.ofInt 32 hi).toNat, 0b10000)
      else ((BitVec.ofInt 32 v).toNat, if r.2 then 1 else 0) := by
  refine givesFlagged_of_body rfl (fun _ => rfl) fun s e s1 h l => ?_
  have hu : decide (e.x.xf 3 1 = 1) = x.x10.getLsbD 3 := by
    rw [show e.x = x from h.x_eq, Bool.eq_iff_iff, decide_eq_true_iff, Ext.xf_one_iff]
  simp only [hu, cvtfi_eq]
  rcases FVal.of .fp32 (e.a l).toNat with _ | s | ⟨s, m, k⟩
  · exact ⟨rfl, rfl⟩
  · exact ⟨rfl, rfl⟩
  · have h := toIntSat_fin e.rmode (if x.x10.getLsbD 3 then 0 else -(2 ^ 31)) (if x.x10.getLsbD 3 then 2 ^ 32 - 1 else 2 ^ 31 - 1) s m k
    exact ⟨congrArg (w32 ·.1) h, congrArg (·.2) h⟩

theorem cvtif_results (x : Ext) : GivesFlagged (.cvtif x) fun e l =>
    let v : Int := if x.x10.getLsbD 3 then (e.a l).toNat else (e.a l).toInt
    pack .fp32 e.rmode (.fin (decide (v < 0)) v.natAbs 0 false) := by
  refine givesFlagged_of_body rfl (fun _ => rfl) fun s e s1 h l => ?_
  have hX (v : Int) : intX v = .fin (decide (v < 0)) v.natAbs 0 false := by
    rw [intX, XRes.ofInt]
    split_ifs with h0
    · rw [h0]; rfl
    · rfl
  have hu := Ext.xf_one_iff x 3
  rw [show e.x = x from h.x_eq]
  simp only [hX, hu]
  exact ⟨trivial, trivial⟩

/-! ### Tapered formats (R215, R216) -/

theorem tapW_eq {e : Env} {x : Ext} (h : e.x = x) : e.tapW = tapBits x := by
  have h0 : x.xf 3 1 = 0 ↔ ¬ x.x10.getLsbD 3 = true := by
    rw [← Ext.xf_one_iff, Ext.xf]
    omega
  rw [Env.tapW, tapBits, h]
  by_cases hb : x.x10.getLsbD 3 = true
  · rw [if_pos hb, if_neg (mt h0.mp (not_not.mpr hb))]
  · rw [if_neg hb, if_pos (h0.mpr hb)]

theorem tapPos_eq {e : Env} {x : Ext} (h : e.x = x) : e.tapPos = slotAt x := by
  rw [Env.tapPos, slotAt, tapW_eq h, h, Ext.xf, Nat.shiftRight_eq_div_pow]
  rfl

theorem ofNat_shiftLeft (n k : Nat) : (BitVec.ofNat 32 n <<< k : Word) = w32 (n * 2 ^ k) := by
  refine BitVec.eq_of_toNat_eq ?_
  simp [w32, BitVec.toNat_shiftLeft, Nat.shiftLeft_eq]

theorem s8_eq (b : Word) : s8 (scaleByte b) = if (b.setWidth 8 : Byte) = 0x80 then none else some (b.setWidth 8 : Byte).toInt := rfl

theorem cvtt_results (x : Ext) : GivesFlagged (.cvtt x) fun e l =>
    let byte : Byte := (e.bv l).setWidth 8
    let t : Nat × Flags :=
      if byte = 0x80 then (0, 0)
      else match FVal.of .fp32 (e.a l).toNat with
        | .fin s m k => encodeTap (tapBits x) (.fin s m (k - byte.toInt))
        | v => encodeTap (tapBits x) v
    let m : Word := w32 ((2 ^ (tapBits x + 1) - 1) * 2 ^ slotAt x)
    (((e.dOld l &&& ~~~m) ||| w32 (t.1 * 2 ^ slotAt x)).toNat, t.2) := by
  refine givesFlagged_of_body rfl (fun _ => rfl) fun s e s1 h l => ?_
  simp only [s8_eq, tapW_eq h.x_eq, tapPos_eq h.x_eq, fieldsOf, Instr.form, ofNat_shiftLeft]
  by_cases hb : ((e.bv l).setWidth 8 : Byte) = 0x80
  · simp only [if_pos hb]
    exact ⟨trivial, trivial⟩
  · simp only [if_neg hb]
    rcases FVal.of .fp32 (e.a l).toNat with _ | s | ⟨s, m, k⟩ <;> exact ⟨rfl, rfl⟩

theorem cvttf_results (x : Ext) : GivesFlagged (.cvttf x) fun e l =>
    let byte : Byte := (e.bv l).setWidth 8
    if byte = 0x80 then (0, 0)
    else match decodeTap (tapBits x) ((e.a l).toNat / 2 ^ slotAt x % 2 ^ (tapBits x + 1)) with
      | .fin s m k => pack .fp32 e.rmode (.fin s m (k + byte.toInt) false)
      | v => pack .fp32 e.rmode v.toX := by
  refine givesFlagged_of_body rfl (fun _ => rfl) fun s e s1 h l => ?_
  simp only [s8_eq, tapW_eq h.x_eq, tapPos_eq h.x_eq, fieldsOf, Instr.form, Nat.shiftRight_eq_div_pow]
  by_cases hb : ((e.bv l).setWidth 8 : Byte) = 0x80
  · simp only [if_pos hb]
    exact ⟨trivial, trivial⟩
  · simp only [if_neg hb]
    rcases decodeTap (tapBits x) ((e.a l).toNat / 2 ^ slotAt x % 2 ^ (tapBits x + 1)) with _ | s | ⟨s, m, k⟩ <;> exact ⟨rfl, rfl⟩

theorem conversionResults : ConversionResults := ⟨cvtf_results, cvtfi_results, cvtif_results, cvtt_results, cvttf_results⟩

/-! ### The sum across the beam (R73, R217) -/

/-- The sizes of the tree's levels below 2^k values. -/
def halves : Nat → List Nat
  | 0 => []
  | k + 1 => 2 ^ k :: halves k

/-- Exceptions gather in any order. -/
theorem foldl_or_eq {α : Type} (g : α → Flags) (l : List α) (f : Flags) :
    l.foldl (fun m a => m ||| g a) f = f ||| l.foldl (fun m a => m ||| g a) 0 := by
  induction l generalizing f with
  | nil => exact BitVec.or_zero.symm
  | cons a r ih => rw [List.foldl_cons, List.foldl_cons, ih, ih (0 ||| g a), BitVec.or_assoc, show 0 ||| g a = g a from BitVec.zero_or]

theorem redLevel_eq (rm : RMode) {n : Nat} {t : List Nat} (h : t.length = 2 * n) :
    redLevel rm t = ((treeLevel rm n t).map (·.1), (treeLevel rm n t).foldl (fun m p => m ||| p.2) 0) := by
  have hn : t.length / 2 = n := by omega
  simp only [redLevel, hn, treeLevel, List.foldl_map]

theorem redTree_eq (rm : RMode) (k : Nat) (t : List Nat) (f : Flags) (h : t.length = 2 ^ k) :
    redTree rm k t f = treeSum rm (halves k) t f := by
  induction k generalizing t f with
  | zero => rfl
  | succ k ih =>
    rw [redTree, redLevel_eq rm (n := 2 ^ k) (by rw [h, Nat.pow_succ']), halves, treeSum, foldl_or_eq Prod.snd (treeLevel rm (2 ^ k) t) f]
    refine ih _ _ ?_
    rw [List.length_map, treeLevel, List.length_map, List.length_range]

theorem fredadd_results (x : Ext) (s : State) (e : Env) (s1 : State) (h : Issues (.fredadd x) s e s1) :
    let r := treeSum e.rmode [16, 8, 4, 2, 1] (lanes.map fun l => if e.act.getLsbD l then (e.a l).toNat else 0) 0
    Completes (.fredadd x) s e (lanesHold e s1 (fun _ => w32 r.1) r.2) := by
  refine h.completes (body := bodyFredadd) rfl rfl ?_
  have hr : e.fredadd = treeSum e.rmode (halves 5) (lanes.map fun l => if e.act.getLsbD l then (e.a l).toNat else 0) 0 :=
    redTree_eq e.rmode 5 _ 0 rfl
  rw [bodyFredadd, hr]
  rfl

/-! ### The selections across the beam (R218, R219) -/

/-- Lane l's value as an integer that a maximum, or a minimum, compares. -/
def laneKey (big : Bool) (e : Env) (l : Nat) : Int :=
  if big then orderKey .fp32 (e.a l).toNat else -orderKey .fp32 (e.a l).toNat

/-- Lane l holds a number. -/
def HoldsNumber (e : Env) (l : Nat) : Prop := isNanBits .fp32 (e.a l).toNat = false

theorem mem_numLanes {e : Env} {l : Nat} : l ∈ e.numLanes ↔ l ∈ e.activeLanes ∧ HoldsNumber e l := by
  rw [Env.numLanes, List.mem_filter, FVal.isNan_of, Bool.not_eq_true', HoldsNumber]

theorem selects_iff {big : Bool} {e : Env} {w : Nat} :
    Selects big e w ↔ w ∈ e.numLanes ∧
      ∀ k ∈ e.numLanes, laneKey big e k ≤ laneKey big e w ∧ (laneKey big e k = laneKey big e w → w ≤ k) := by
  cases big <;> simp [Selects, mem_numLanes, laneKey, HoldsNumber, and_assoc]

/-- Two lanes that are selected are one. -/
theorem selects_unique {big : Bool} {e : Env} {v w : Nat} (hv : Selects big e v) (hw : Selects big e w) : v = w := by
  obtain ⟨hv, h1⟩ := selects_iff.mp hv
  obtain ⟨hw, h2⟩ := selects_iff.mp hw
  have he : laneKey big e v = laneKey big e w := le_antisymm (h2 v hv).1 (h1 w hw).1
  exact le_antisymm ((h1 w hw).2 he.symm) ((h2 v hv).2 he)

/-- One step of the model's selection. -/
def laneStep (big : Bool) (e : Env) (m k : Nat) : Nat :=
  if (if big then (FVal.of .fp32 (e.a m).toNat).below (.of .fp32 (e.a k).toNat)
    else (FVal.of .fp32 (e.a k).toNat).below (.of .fp32 (e.a m).toNat)) then k else m

theorem redLane_eq (e : Env) (big : Bool) :
    e.redLane big = match e.numLanes with | [] => none | l :: r => some (r.foldl (laneStep big e) l) := rfl

theorem laneStep_eq {big : Bool} {e : Env} {m k : Nat} (hm : HoldsNumber e m) (hk : HoldsNumber e k) :
    laneStep big e m k = if laneKey big e m < laneKey big e k then k else m := by
  have h : (if big then (FVal.of .fp32 (e.a m).toNat).below (.of .fp32 (e.a k).toNat)
      else (FVal.of .fp32 (e.a k).toNat).below (.of .fp32 (e.a m).toNat)) = true ↔ laneKey big e m < laneKey big e k := by
    cases big
    · simp [laneKey, FVal.below_iff (f := .fp32) (by decide) hk hm]
    · simp [laneKey, FVal.below_iff (f := .fp32) (by decide) hm hk]
  rw [laneStep]
  exact if_congr h rfl rfl

/-- The selection over ascending lanes that hold numbers ends at the lowest that no other passes. -/
theorem foldl_laneStep {big : Bool} {e : Env} (r : List Nat) (l : Nat) (hs : (l :: r).Pairwise (· < ·))
    (hn : ∀ k ∈ l :: r, HoldsNumber e k) :
    r.foldl (laneStep big e) l ∈ l :: r ∧ ∀ k ∈ l :: r, laneKey big e k ≤ laneKey big e (r.foldl (laneStep big e) l) ∧
      (laneKey big e k = laneKey big e (r.foldl (laneStep big e) l) → r.foldl (laneStep big e) l ≤ k) := by
  induction r generalizing l with
  | nil => simp
  | cons b r ih =>
    obtain ⟨hl, hbr⟩ := List.pairwise_cons.mp hs
    have hlb : l < b := hl b (by simp)
    have hst := laneStep_eq (big := big) (hn l (by simp)) (hn b (by simp))
    rw [List.foldl_cons]
    by_cases hk : laneKey big e l < laneKey big e b
    · rw [hst, if_pos hk]
      obtain ⟨h1, h2⟩ := ih b hbr fun k h => hn k (List.mem_cons_of_mem _ h)
      refine ⟨List.mem_cons_of_mem _ h1, List.forall_mem_cons.mpr ⟨?_, h2⟩⟩
      have hb := (h2 b (by simp)).1
      exact ⟨by omega, fun h => by omega⟩
    · rw [hst, if_neg hk]
      have hlr : (l :: r).Pairwise (· < ·) :=
        List.pairwise_cons.mpr ⟨fun k h => hl k (List.mem_cons_of_mem _ h), (List.pairwise_cons.mp hbr).2⟩
      obtain ⟨h1, h2⟩ := ih l hlr fun k h => hn k (by
        rcases List.mem_cons.mp h with rfl | h
        · simp
        · simp [h])
      obtain ⟨h3, h4⟩ := List.forall_mem_cons.mp h2
      refine ⟨?_, List.forall_mem_cons.mpr ⟨h3, List.forall_mem_cons.mpr ⟨⟨by omega, fun h => ?_⟩, h4⟩⟩⟩
      · rcases List.mem_cons.mp h1 with h | h
        · simp [h]
        · simp [h]
      · exact (h3.2 (by omega)).trans hlb.le

theorem numLanes_ascend (e : Env) : e.numLanes.Pairwise (· < ·) := by
  have h : lanes.Pairwise (· < ·) := by decide
  exact (h.filter _).filter _

/-- The lane that the model selects is the one that R218 names. -/
theorem redLane_of_selects {big : Bool} {e : Env} {w : Nat} (h : Selects big e w) : e.redLane big = some w := by
  have hw := (selects_iff.mp h).1
  rw [redLane_eq]
  cases hl : e.numLanes with
  | nil => rw [hl] at hw; exact absurd hw (List.not_mem_nil)
  | cons l r =>
    have hs := foldl_laneStep (big := big) r l (hl ▸ numLanes_ascend e) fun k hk => (mem_numLanes.mp (hl ▸ hk)).2
    rw [← hl] at hs
    exact congrArg some (selects_unique (selects_iff.mpr hs) h)

theorem redLane_of_nans {e : Env} (big : Bool) (h : ∀ l ∈ e.activeLanes, isNanBits .fp32 (e.a l).toNat = true) :
    e.redLane big = none := by
  have hn : e.numLanes = [] := List.eq_nil_iff_forall_not_mem.mpr fun l hl => by
    have h1 := (mem_numLanes.mp hl).2
    rw [HoldsNumber, h l (mem_numLanes.mp hl).1] at h1
    exact Bool.noConfusion h1
  rw [redLane_eq, hn]

theorem snanFlag_cons (f : Fmt) (a : Nat) (l : List Nat) : snanFlag f (a :: l) = snanFlag f [a] ||| snanFlag f l := by
  have h1 : snanFlag f [a] = if isSnan f a then fNV else 0 := by rw [snanFlag, List.any_cons, List.any_nil, Bool.or_false]
  by_cases h : isSnan f a = true
  · rw [h1, if_pos h, fNV_or_snanFlag, snanFlag, if_pos (by simp [h])]
  · rw [h1, if_neg h, snanFlag, List.any_cons, Bool.not_eq_true _ |>.mp h, Bool.false_or]
    exact BitVec.zero_or.symm

/-- NV for a signalling NaN in a lane of the list. -/
theorem lanesFlags_snanFlag (e : Env) (l : List Nat) :
    lanesFlags l (fun k => snanFlag .fp32 [(e.a k).toNat]) = snanFlag .fp32 (l.map fun k => (e.a k).toNat) := by
  induction l with
  | nil => rfl
  | cons k r ih =>
    rw [lanesFlags, List.foldl_cons, foldl_or_eq, List.map_cons, snanFlag_cons _ _ (r.map _), ← ih]
    exact congrArg (· ||| _) BitVec.zero_or

theorem redFlags_eq (e : Env) : e.redFlags = activeNv e := lanesFlags_snanFlag e _

theorem pairWords_append (n l : Nat) (hi lo : Word) : pairWords n l (hi ++ lo) = [(regKey n l, lo), (regKey (n + 1) l, hi)] := by
  have h1 : (hi ++ lo : Dword).setWidth 32 = lo := BitVec.setWidth_append_eq_right
  have h2 : ((hi ++ lo : Dword) >>> 32).setWidth 32 = hi :=
    BitVec.setWidth_ushiftRight_eq_extractLsb.trans BitVec.extractLsb'_append_eq_left
  rw [pairWords, h1, h2]

theorem bodyFred_of_lane {big : Bool} {e : Env} {w : Nat} (s1 : State) (h : e.redLane big = some w) :
    bodyFred big e s1 = .done (lanesHold e s1 (fun _ => e.a w) (activeNv e)) := by
  simp only [bodyFred, Env.redValue, h, redFlags_eq]
  rfl

theorem bodyFred_of_none {big : Bool} {e : Env} (s1 : State) (h : e.redLane big = none) :
    bodyFred big e s1 = .done (lanesHold e s1 (fun _ => 0x7FC00000) (activeNv e)) := by
  simp only [bodyFred, Env.redValue, h, redFlags_eq]
  rfl

theorem bodyFredIdx_of_lane {big : Bool} {e : Env} {w : Nat} (s1 : State) (h : e.redLane big = some w) :
    bodyFredIdx big e s1 = .done (e.fixed s1 (e.activeLanes.flatMap fun l =>
      [(regKey e.x.d.toNat l, e.a w), (regKey (e.x.d.toNat + 1) l, e.c w)]) (activeNv e)) := by
  simp only [bodyFredIdx, Env.redValue, h, redFlags_eq, pairWords_append]

theorem bodyFredIdx_of_none {big : Bool} {e : Env} (s1 : State) (h : e.redLane big = none) :
    bodyFredIdx big e s1 = .done (e.fixed s1 (e.activeLanes.flatMap fun l =>
      [(regKey e.x.d.toNat l, 0x7FC00000), (regKey (e.x.d.toNat + 1) l, 0xFFFFFFFF)]) (activeNv e)) := by
  simp only [bodyFredIdx, Env.redValue, h, redFlags_eq, pairWords_append]

/-- What R218 says of a maximum or a minimum. -/
def FredRow (p : (Ext → Instr) × Bool) : Prop :=
  ∀ x s e s1, Issues (p.1 x) s e s1 →
    (∀ w, Selects p.2 e w → Completes (p.1 x) s e (lanesHold e s1 (fun _ => e.a w) (activeNv e))) ∧
    ((∀ l ∈ e.activeLanes, isNanBits .fp32 (e.a l).toNat = true) →
      Completes (p.1 x) s e (lanesHold e s1 (fun _ => 0x7FC00000) (activeNv e)))

theorem fredRow_of_body {mk : Ext → Instr} {big : Bool} (n : Nat) (hf : ∀ x, (mk x).form = .ext n x)
    (hx : ∀ x s, exec (mk x) s = Issue.ext n x (bodyFred big) s) : FredRow (mk, big) :=
  fun x s _ s1 h =>
    ⟨fun _ hw => h.completes (hf x) (hx x s) (bodyFred_of_lane s1 (redLane_of_selects hw)),
      fun hn => h.completes (hf x) (hx x s) (bodyFred_of_none s1 (redLane_of_nans big hn))⟩

/-- What R219 says of a maximum or a minimum with its index. -/
def FredIdxRow (p : (Ext → Instr) × Bool) : Prop :=
  ∀ x s e s1, Issues (p.1 x) s e s1 →
    (∀ w, Selects p.2 e w → Completes (p.1 x) s e (e.fixed s1 (e.activeLanes.flatMap fun l =>
      [(regKey x.d.toNat l, e.a w), (regKey (x.d.toNat + 1) l, e.c w)]) (activeNv e))) ∧
    ((∀ l ∈ e.activeLanes, isNanBits .fp32 (e.a l).toNat = true) →
      Completes (p.1 x) s e (e.fixed s1 (e.activeLanes.flatMap fun l =>
        [(regKey x.d.toNat l, 0x7FC00000), (regKey (x.d.toNat + 1) l, 0xFFFFFFFF)]) (activeNv e))) ∧
    (e.act = 0 → Completes (p.1 x) s e (e.fixed s1 [] 0))

theorem activeLanes_of_zero {e : Env} (h : e.act = 0) : e.activeLanes = [] := by
  simp [Env.activeLanes, Env.active, maskBit, h]

theorem fredIdxRow_of_body {mk : Ext → Instr} {big : Bool} (n : Nat) (hf : ∀ x, (mk x).form = .ext n x)
    (hx : ∀ x s, exec (mk x) s = Issue.ext n x (bodyFredIdx big) s) : FredIdxRow (mk, big) := by
  intro x s e s1 h
  have hd : x.d = e.x.d := by rw [h.x_eq, fieldsOf, hf]
  have hnan (hn : ∀ l ∈ e.activeLanes, isNanBits .fp32 (e.a l).toNat = true) :
      Completes (mk x) s e (e.fixed s1 (e.activeLanes.flatMap fun l =>
        [(regKey x.d.toNat l, 0x7FC00000), (regKey (x.d.toNat + 1) l, 0xFFFFFFFF)]) (activeNv e)) := by
    rw [hd]
    exact h.completes (hf x) (hx x s) (bodyFredIdx_of_none s1 (redLane_of_nans big hn))
  refine ⟨fun w hw => ?_, hnan, fun h0 => ?_⟩
  · rw [hd]
    exact h.completes (hf x) (hx x s) (bodyFredIdx_of_lane s1 (redLane_of_selects hw))
  · have hl := activeLanes_of_zero h0
    have hc := hnan (by simp [hl])
    rw [activeNv, hl] at hc
    exact hc

theorem reductionResults : ReductionResults := by
  refine ⟨fredadd_results, ?_, ?_⟩
  · have h : ∀ p ∈ [(Instr.fredmax, true), (Instr.fredmin, false)], FredRow p := by
      simp only [List.forall_mem_cons]
      exact ⟨fredRow_of_body 0x11A (fun _ => rfl) fun _ _ => rfl, fredRow_of_body 0x11B (fun _ => rfl) fun _ _ => rfl, nofun⟩
    exact h
  · have h : ∀ p ∈ [(Instr.fredmaxi, true), (Instr.fredmini, false)], FredIdxRow p := by
      simp only [List.forall_mem_cons]
      exact ⟨fredIdxRow_of_body 0x11C (fun _ => rfl) fun _ _ => rfl, fredIdxRow_of_body 0x11D (fun _ => rfl) fun _ _ => rfl, nofun⟩
    exact h

/-- Settles O18: each row's body gives the value of its table, and the fold of R218 ends at the lane that the rule names. -/
theorem floatInstructions : Obligations.FloatInstructions :=
  ⟨floatResults, extendedFloatResults, conversionResults, reductionResults⟩

end Sys2Proof.Machine
end

section
/-! SUPPORT. Rounding to a format (R63, R65): the magnitudes of a format as multiples of its smallest one, and where the code that
`pack` delivers lies among them. -/

namespace Sys2Proof.Machine

open Sys2Proof.Claim

/-! ### Magnitudes of a format -/

/-- The magnitude of a code, in units of the smallest one. -/
def units (f : Fmt) (n : Nat) : Nat := sigOf f n * 2 ^ expOf f n

/-- The smallest magnitude of a format. -/
def unitOf (f : Fmt) : ℚ := 2 ^ (f.emin - f.mb)

theorem unitOf_pos (f : Fmt) : 0 < unitOf f := zpow_pos (by norm_num) _

theorem units_strictMono (f : Fmt) : StrictMono (units f) := strictMono_sig_exp f

theorem units_le_iff {f : Fmt} {m n : Nat} : (units f m : ℚ) ≤ units f n ↔ m ≤ n := by
  rw [Nat.cast_le, (units_strictMono f).le_iff_le]

theorem units_lt_iff {f : Fmt} {m n : Nat} : (units f m : ℚ) < units f n ↔ m < n := by
  rw [Nat.cast_lt, (units_strictMono f).lt_iff_lt]

theorem units_inj {f : Fmt} {m n : Nat} : (units f m : ℚ) = units f n ↔ m = n := by
  rw [Nat.cast_inj, (units_strictMono f).injective.eq_iff]

@[simp] theorem units_zero (f : Fmt) : units f 0 = 0 := by simp [units, sigOf]

/-- A significand q with t steps of the exponent above the least: the code of `q * 2 ^ t`. -/
theorem units_of_parts {f : Fmt} {t q : Nat} (hq : q ≤ 2 ^ (f.mb + 1)) (ht : t = 0 ∨ 2 ^ f.mb ≤ q) :
    units f (t * 2 ^ f.mb + q) = q * 2 ^ t := by
  have hP : 0 < 2 ^ f.mb := Nat.two_pow_pos _
  rw [Nat.pow_succ'] at hq
  unfold units sigOf expOf
  generalize 2 ^ f.mb = P at *
  rw [Nat.mul_comm t P, Nat.mul_add_div hP, Nat.mul_add_mod]
  rcases Nat.lt_or_ge q P with h | h
  · obtain rfl : t = 0 := ht.resolve_right (by omega)
    simp [Nat.div_eq_of_lt h, Nat.mod_eq_of_lt h]
  · obtain ⟨d, rfl⟩ := Nat.exists_eq_add_of_le h
    rcases Nat.lt_or_ge d P with h' | h'
    · simp [Nat.add_div_left, hP, Nat.div_eq_of_lt h', Nat.mod_eq_of_lt h']
    · obtain rfl : d = P := by omega
      have h2 : (d + d) / d = 2 := by rw [← Nat.two_mul]; exact Nat.mul_div_cancel _ hP
      have h3 : (d + d) % d = 0 := by simp
      rw [h2, h3, if_neg (by omega), show t + 2 - 1 = t + 1 by omega, Nat.pow_succ]
      ring

/-- The number of an element: its sign and its magnitude. -/
theorem realOf_eq (f : Fmt) (a : Nat) : realOf f a = (if sgn f a then -1 else 1) * (units f (mag f a) * unitOf f) := by
  unfold realOf units sigOf expOf unitOf
  congr 1
  split_ifs with h
  · have hm : mag f a % 2 ^ f.mb = mag f a := Nat.mod_eq_of_lt ((Nat.div_eq_zero_iff_lt (Nat.two_pow_pos _)).mp h)
    rw [hm, h]
    simp
  · have he : f.emin - f.mb + ((mag f a / 2 ^ f.mb : Nat) : Int) - 1 = ((mag f a / 2 ^ f.mb - 1 : Nat) : Int) + (f.emin - f.mb) := by
      rw [Nat.cast_sub (Nat.one_le_iff_ne_zero.mpr h)]
      push_cast
      ring
    rw [he, zpow_add₀ (by norm_num), zpow_natCast]
    push_cast
    ring

/-- The same as a sign, a significand and an exponent. -/
theorem realOf_eq_exactOf (f : Fmt) (a : Nat) :
    realOf f a = exactOf (sgn f a) (sigOf f (mag f a)) (f.emin - f.mb + expOf f (mag f a)) := by
  rw [realOf_eq, exactOf, units, unitOf, zpow_add₀ (by norm_num), zpow_natCast]
  push_cast
  ring

theorem realOf_eq_zero_iff {f : Fmt} {a : Nat} : realOf f a = 0 ↔ sigOf f (mag f a) = 0 := by
  rw [realOf_eq_exactOf, exactOf]
  split_ifs <;> simp [zpow_ne_zero]

theorem abs_realOf (f : Fmt) (a : Nat) : |realOf f a| = units f (mag f a) * unitOf f := by
  have h : 0 ≤ (units f (mag f a) : ℚ) * unitOf f := mul_nonneg (Nat.cast_nonneg _) (unitOf_pos f).le
  rw [realOf_eq]
  split_ifs
  · rw [neg_one_mul, abs_neg, abs_of_nonneg h]
  · rw [one_mul, abs_of_nonneg h]

/-! ### Rounding to an integer (R63) -/

/-- Where a number at q or above, and below q + 1, is rounded up in magnitude. -/
def Away (rm : RMode) (neg : Bool) (q : Nat) (lo hi Z : ℚ) : Prop :=
  match rm with
  | .rne => lo + hi < 2 * Z ∨ (2 * Z = lo + hi ∧ q % 2 = 1)
  | .rz => False
  | .ru => neg = false ∧ Z ≠ lo
  | .rd => neg = true ∧ Z ≠ lo

theorem not_away_of_eq (rm : RMode) (neg : Bool) {q : Nat} {lo hi Z : ℚ} (h : Z = lo) (hlo : lo < hi) : ¬ Away rm neg q lo hi Z := by
  subst h
  cases rm
  · rintro (h | ⟨h, -⟩) <;> linarith
  · exact id
  · exact fun h => h.2 rfl
  · exact fun h => h.2 rfl

/-- p is Z rounded to an integer, and whether it is inexact. -/
def RoundsAt (rm : RMode) (neg : Bool) (Z : ℚ) (p : Nat × Bool) : Prop :=
  ∃ q : Nat, (q : ℚ) ≤ Z ∧ Z < q + 1 ∧ (p.1 = q ∧ ¬ Away rm neg q q (q + 1) Z ∨ p.1 = q + 1 ∧ Away rm neg q q (q + 1) Z) ∧
    (p.2 = true ↔ Z ≠ q)

/-- m with `sh` bits dropped stands for Z: it is Z, or Z lies strictly among the numbers whose leading bits m has, of which it has enough. -/
def StandsFor (m : Nat) (sh : Int) (Z : ℚ) : Prop :=
  (m : ℚ) = Z * 2 ^ sh ∨ 3 ≤ sh ∧ ∃ k : Nat, 1 ≤ k ∧ m = 4 * k + 1 ∧ (4 * k : ℚ) < Z * 2 ^ sh ∧ Z * 2 ^ sh < 4 * k + 4

/-- What m stands for lies within its power of two. -/
theorem StandsFor.bounds {m : Nat} {sh : Int} {Z : ℚ} (hm : m ≠ 0) (h : StandsFor m sh Z) :
    (2 : ℚ) ^ Nat.log2 m ≤ Z * 2 ^ sh ∧ Z * 2 ^ sh < 2 ^ (Nat.log2 m + 1) := by
  have hlo : 2 ^ Nat.log2 m ≤ m := Nat.log2_self_le hm
  have hhi : m < 2 ^ (Nat.log2 m + 1) := Nat.lt_log2_self
  rcases h with h | ⟨-, k, hk, rfl, h1, h2⟩
  · rw [← h]
    exact ⟨by exact_mod_cast hlo, by exact_mod_cast hhi⟩
  · have hL : 2 ≤ Nat.log2 (4 * k + 1) := (Nat.le_log2 hm).mpr (by omega)
    obtain ⟨j, hj⟩ := Nat.exists_eq_add_of_le hL
    rw [hj, Nat.add_assoc, Nat.pow_add] at hhi
    rw [hj, Nat.pow_add] at hlo
    have hlo' : 2 ^ 2 * 2 ^ j ≤ 4 * k := by omega
    have hhi' : 4 * k + 4 ≤ 2 ^ 2 * 2 ^ (j + 1) := by omega
    have hlo2 : (2 ^ 2 * 2 ^ j : ℚ) ≤ 4 * k := by exact_mod_cast hlo'
    have hhi2 : (4 * k + 4 : ℚ) ≤ 2 ^ 2 * 2 ^ (j + 1) := by exact_mod_cast hhi'
    rw [hj, Nat.add_assoc, pow_add, pow_add]
    exact ⟨by linarith, by linarith⟩

/-- What the remainder says of the place of Z above the quotient. -/
theorem StandsFor.place {m n : Nat} {Z : ℚ} (h : StandsFor m n Z) :
    let q := m / 2 ^ n
    let r := m % 2 ^ n
    (q : ℚ) ≤ Z ∧ Z < q + 1 ∧ (r ≠ 0 ↔ Z ≠ q) ∧ (2 ^ n < 2 * r ↔ (q + (q + 1) : ℚ) < 2 * Z) ∧
      (2 * r = 2 ^ n ↔ 2 * Z = (q + (q + 1) : ℚ)) := by
  intro q r
  have hP : 0 < 2 ^ n := Nat.two_pow_pos n
  have hPq : (0 : ℚ) < 2 ^ n := by positivity
  have hm : 2 ^ n * q + r = m := Nat.div_add_mod m (2 ^ n)
  have hr : r < 2 ^ n := Nat.mod_lt m hP
  have hm' : (2 ^ n * q + r : ℚ) = m := by exact_mod_cast hm
  have hr' : (r : ℚ) < 2 ^ n := by exact_mod_cast hr
  unfold StandsFor at h
  simp only [zpow_natCast] at h
  rcases h with h | ⟨h3, k, -, hk, hlo, hhi⟩
  · have hZ : Z = q + r / 2 ^ n := by field_simp; linarith
    refine ⟨?_, ?_, ?_, ?_, ?_⟩
    · rw [hZ]; have : (0:ℚ) ≤ r / 2 ^ n := by positivity
      linarith
    · rw [hZ]; have : (r:ℚ) / 2 ^ n < 1 := (div_lt_one hPq).mpr hr'
      linarith
    · rw [hZ, not_iff_not]
      simp [hPq.ne']
    · rw [hZ]
      have : (q + (q + 1) : ℚ) < 2 * (q + r / 2 ^ n) ↔ 1 < 2 * r / (2 ^ n : ℚ) := by
        rw [mul_div_assoc]; constructor <;> intro h <;> linarith
      rw [this, one_lt_div hPq]
      exact_mod_cast Iff.rfl
    · rw [hZ]
      have : 2 * (q + r / 2 ^ n : ℚ) = q + (q + 1) ↔ 2 * r / (2 ^ n : ℚ) = 1 := by
        rw [mul_div_assoc]; constructor <;> intro h <;> linarith
      rw [this, div_eq_one_iff_eq hPq.ne']
      exact_mod_cast Iff.rfl
  · obtain ⟨d, hd⟩ : 8 ∣ 2 ^ n := Nat.pow_dvd_pow 2 (m := 3) (by exact_mod_cast h3)
    have hdq : ((2:ℚ) ^ n) = 8 * d := by exact_mod_cast hd
    rw [hd] at hm hr ⊢
    rw [hdq] at hlo hhi
    have hdp : (0 : ℚ) < d := by rw [hdq] at hPq; linarith
    have hw : 8 * (d * q) + r = 4 * k + 1 := by rw [← Nat.mul_assoc]; omega
    obtain ⟨j, hj, hkj, hjd⟩ : ∃ j, r = 4 * j + 1 ∧ k = 2 * (d * q) + j ∧ j + 1 ≤ 2 * d := ⟨r / 4, by omega, by omega, by omega⟩
    have hk' : (k : ℚ) = 2 * (d * q) + j := by exact_mod_cast hkj
    have hjd' : (j + 1 : ℚ) ≤ 2 * d := by exact_mod_cast hjd
    have hj0 : (0 : ℚ) ≤ j := Nat.cast_nonneg j
    have hlt : (4 * j : ℚ) < 8 * (d * (Z - q)) := by rw [hk'] at hlo; linarith
    have hgt : 8 * (d * (Z - q)) < (4 * j + 4 : ℚ) := by rw [hk'] at hhi; linarith
    have hpos : 0 < Z - q := pos_of_mul_pos_right (a := (d : ℚ)) (by linarith) hdp.le
    have hone : Z - q < 1 := lt_of_mul_lt_mul_left (a := (d : ℚ)) (by linarith) hdp.le
    have hhalf : (q + (q + 1) : ℚ) < 2 * Z ↔ (d : ℚ) < 2 * (d * (Z - q)) := by
      rw [show 2 * ((d : ℚ) * (Z - q)) = d * (2 * (Z - q)) by ring, lt_mul_iff_one_lt_right hdp]
      constructor <;> intro h <;> linarith
    refine ⟨by linarith, by linarith, ⟨fun _ => by linarith, fun _ => by omega⟩, ?_, ?_⟩
    · rw [hhalf, show 8 * d < 2 * r ↔ d ≤ j by omega]
      constructor
      · intro h
        have h' : (d : ℚ) ≤ j := by exact_mod_cast h
        linarith
      · intro h
        by_contra hc
        have h' : (j + 1 : ℚ) ≤ d := by exact_mod_cast Nat.not_le.mp hc
        linarith
    · refine ⟨fun h => by omega, fun h => ?_⟩
      have h2 : 2 * (d * (Z - q)) = (d : ℚ) := by
        rw [show 2 * ((d : ℚ) * (Z - q)) = d * (2 * Z - (q + (q + 1)) + 1) by ring, h]; ring
      rcases Nat.lt_or_ge j d with h | h
      · have h' : (j + 1 : ℚ) ≤ d := by exact_mod_cast h
        linarith
      · have h' : (d : ℚ) ≤ j := by exact_mod_cast h
        linarith

theorem StandsFor.roundsAt {m : Nat} {sh : Int} {Z : ℚ} (h : StandsFor m sh Z) (rm : RMode) (neg : Bool) :
    RoundsAt rm neg Z (roundShift rm neg m sh) := by
  unfold roundShift
  split_ifs with hs
  · -- nothing is dropped: Z is an integer
    obtain ⟨n, rfl⟩ : ∃ n : Nat, sh = -(n : Int) := ⟨(-sh).toNat, by omega⟩
    have hZ : Z = (m * 2 ^ n : Nat) := by
      rcases h with h | h
      · rw [zpow_neg, zpow_natCast] at h
        push_cast
        rw [h]
        field_simp
      · omega
    exact ⟨m * 2 ^ n, hZ.ge, by rw [hZ]; linarith, .inl ⟨by simp, not_away_of_eq rm neg hZ (by linarith)⟩, by simp [hZ]⟩
  · obtain ⟨n, rfl⟩ := Int.eq_ofNat_of_zero_le (Int.not_le.mp hs).le
    obtain ⟨h1, h2, h3, h4, h5⟩ := h.place
    refine ⟨m / 2 ^ n, h1, h2, ?_, by simpa using h3⟩
    have hup : roundsUp rm neg (m / 2 ^ n) (m % 2 ^ n) n = true ↔ Away rm neg (m / 2 ^ n) ((m / 2 ^ n : Nat) : ℚ) ((m / 2 ^ n : Nat) + 1) Z := by
      unfold roundsUp Away
      cases rm <;> simp [← h3, ← h4, ← h5]
    simp only [Int.toNat_natCast]
    by_cases hu : roundsUp rm neg (m / 2 ^ n) (m % 2 ^ n) n = true
    · exact .inr ⟨by rw [if_pos hu], hup.mp hu⟩
    · exact .inl ⟨by rw [if_neg hu], fun h => hu (hup.mpr h)⟩

/-! ### Rounding to a code (R63, R65) -/

/-- Where the code n lies that rounding Y, in units of the smallest magnitude, delivers, and whether it is inexact. -/
def CodeOf (f : Fmt) (rm : RMode) (neg : Bool) (Y : ℚ) (p : Nat × Bool) : Prop :=
  ∃ c : Nat, (units f c : ℚ) ≤ Y ∧ Y < units f (c + 1) ∧
    (p.1 = c ∧ ¬ Away rm neg c (units f c) (units f (c + 1)) Y ∨ p.1 = c + 1 ∧ Away rm neg c (units f c) (units f (c + 1)) Y) ∧
    (p.2 = true ↔ Y ≠ units f c)

/-- The code that `roundFin` computes, and whether it is inexact. -/
def roundCode (f : Fmt) (rm : RMode) (neg : Bool) (m4 : Nat) (e4 : Int) : Nat × Bool :=
  let top := Max.max (e4 + Nat.log2 m4) f.emin
  let r := roundShift rm neg m4 (top - f.mb - e4)
  ((top - f.emin).toNat * 2 ^ f.mb + r.1, r.2)

theorem roundFin_eq (f : Fmt) (rm : RMode) (neg : Bool) (m : Nat) (e : Int) (st : Bool) :
    ∃ tiny : Bool, roundFin f rm neg m e st =
      if f.infCode ≤ (roundCode f rm neg (4 * m + if st then 1 else 0) (e - 2)).1 then
        (withSign f neg (overflowCode f rm neg), fOF ||| fNX)
      else (withSign f neg (roundCode f rm neg (4 * m + if st then 1 else 0) (e - 2)).1,
        (if (roundCode f rm neg (4 * m + if st then 1 else 0) (e - 2)).2 then fNX else 0) |||
          if tiny && (roundCode f rm neg (4 * m + if st then 1 else 0) (e - 2)).2 then fUF else 0) :=
  ⟨_, rfl⟩

/-- The magnitude, in units of the smallest one, for which a significand with an exponent and a sticky bit stands; where the bit
is set the significand has more bits than the format keeps. -/
def Stands (f : Fmt) (m : Nat) (e : Int) (st : Bool) (Y : ℚ) : Prop :=
  if st then 2 ^ (f.mb + 1) ≤ m ∧ m * 2 ^ e < Y * unitOf f ∧ Y * unitOf f < (m + 1) * 2 ^ e else Y * unitOf f = m * 2 ^ e

/-- The place of a number does not depend on the unit. -/
theorem away_scale {rm : RMode} {neg : Bool} {c q : Nat} {lo hi Z P : ℚ} (hP : 0 < P) (hc : c % 2 = q % 2) :
    Away rm neg c (lo * P) (hi * P) (Z * P) ↔ Away rm neg q lo hi Z := by
  have hne : Z * P ≠ lo * P ↔ Z ≠ lo := not_congr (mul_left_inj' hP.ne')
  have h1 : lo * P + hi * P < 2 * (Z * P) ↔ lo + hi < 2 * Z := by
    rw [← add_mul, ← mul_assoc, mul_lt_mul_iff_left₀ hP]
  have h2 : 2 * (Z * P) = lo * P + hi * P ↔ 2 * Z = lo + hi := by
    rw [← add_mul, ← mul_assoc, mul_left_inj' hP.ne']
  cases rm
  · simp only [Away, h1, h2, hc]
  · exact Iff.rfl
  · simp only [Away, hne]
  · simp only [Away, hne]

theorem roundCode_codeOf {f : Fmt} (hf : 0 < f.mb) {m : Nat} {e : Int} {st : Bool} {Y : ℚ} (hm : m ≠ 0) (h : Stands f m e st Y)
    (rm : RMode) (neg : Bool) : CodeOf f rm neg Y (roundCode f rm neg (4 * m + if st then 1 else 0) (e - 2)) := by
  set m4 := 4 * m + if st then 1 else 0 with hm4
  set L := Nat.log2 m4 with hL
  set top := Max.max (e - 2 + (L : Int)) f.emin with htop
  obtain ⟨t, ht⟩ : ∃ t : Nat, top = f.emin + t := ⟨(top - f.emin).toNat, by omega⟩
  have hm40 : m4 ≠ 0 := by omega
  have hlo : 2 ^ L ≤ m4 := Nat.log2_self_le hm40
  have hhi : m4 < 2 ^ (L + 1) := Nat.lt_log2_self
  -- the significand over the unit of the result
  set Z := Y / 2 ^ t with hZ
  have hY : Y = Z * 2 ^ t := by rw [hZ]; field_simp
  have hU : Y * unitOf f = Z * 2 ^ (top - f.mb - (e - 2)) * 2 ^ (e - 2) := by
    rw [mul_assoc, ← zpow_add₀ (by norm_num), hY, unitOf, mul_assoc, ← zpow_natCast, ← zpow_add₀ (by norm_num)]
    congr 2
    omega
  have he : (2 : ℚ) ^ e = 4 * 2 ^ (e - 2) := by
    rw [show e = e - 2 + 2 by ring, zpow_add₀ (by norm_num)]
    norm_num
    ring
  have hp : (0 : ℚ) < 2 ^ (e - 2) := zpow_pos (by norm_num) _
  have hst : StandsFor m4 (top - f.mb - (e - 2)) Z := by
    have hdrop (x : ℚ) : x * 2 ^ e = 4 * x * 2 ^ (e - 2) := by rw [he]; ring
    unfold Stands at h
    cases st with
    | false =>
      refine .inl (mul_right_cancel₀ hp.ne' ?_)
      rw [if_neg (by simp), hU, hdrop] at h
      rw [h, hm4]
      push_cast
      simp
    | true =>
      rw [if_pos rfl, hU, hdrop, hdrop] at h
      obtain ⟨hb, h1, h2⟩ := h
      rw [if_pos rfl] at hm4
      have hL2 : f.mb + 3 ≤ L := (Nat.le_log2 hm40).mpr (by rw [pow_succ, pow_succ] at *; omega)
      refine .inr ⟨by omega, m, by omega, hm4, lt_of_mul_lt_mul_right h1 hp.le, ?_⟩
      have h2' := lt_of_mul_lt_mul_right h2 hp.le
      linarith
  obtain ⟨hZlo, hZhi⟩ := hst.bounds hm40
  obtain ⟨q, hq, hq1, hr, hx⟩ := hst.roundsAt rm neg
  -- the quotient is a significand of the format
  have hqhi : q < 2 ^ (f.mb + 1) := by
    have h1 : (2 : ℚ) ^ (L + 1) ≤ 2 ^ (f.mb + 1) * 2 ^ (top - f.mb - (e - 2)) := by
      rw [← zpow_natCast, ← zpow_natCast, ← zpow_add₀ (by norm_num)]
      exact zpow_le_zpow_right₀ (by norm_num) (by push_cast; omega)
    have h2 : Z < 2 ^ (f.mb + 1) := lt_of_mul_lt_mul_right (hZhi.trans_le h1) (zpow_pos (by norm_num) _).le
    exact_mod_cast hq.trans_lt h2
  have hqlo : t = 0 ∨ 2 ^ f.mb ≤ q := by
    refine or_iff_not_imp_left.mpr fun ht0 => ?_
    have h1 : (2 : ℚ) ^ L = 2 ^ f.mb * 2 ^ (top - f.mb - (e - 2)) := by
      rw [← zpow_natCast, ← zpow_natCast, ← zpow_add₀ (by norm_num)]
      congr 1
      omega
    have h2 : (2 : ℚ) ^ f.mb ≤ Z := le_of_mul_le_mul_right (h1 ▸ hZlo) (zpow_pos (by norm_num) _)
    have h3 : (2 : ℚ) ^ f.mb < q + 1 := h2.trans_lt hq1
    exact Nat.lt_succ_iff.mp (by exact_mod_cast h3)
  have hP : (0 : ℚ) < 2 ^ t := by positivity
  have hc : (units f (t * 2 ^ f.mb + q) : ℚ) = q * 2 ^ t := by
    rw [units_of_parts hqhi.le hqlo]
    push_cast
    ring
  have hc1 : (units f (t * 2 ^ f.mb + q + 1) : ℚ) = (q + 1) * 2 ^ t := by
    rw [Nat.add_assoc, units_of_parts hqhi (hqlo.imp id fun h => h.trans q.le_succ)]
    push_cast
    ring
  have hpar : (t * 2 ^ f.mb + q) % 2 = q % 2 := by
    obtain ⟨n, hn⟩ := Nat.exists_eq_add_of_lt hf
    rw [hn, show 0 + n + 1 = n + 1 by omega, Nat.pow_succ, ← Nat.mul_assoc]
    omega
  have htop : (top - f.emin).toNat = t := by omega
  refine ⟨t * 2 ^ f.mb + q, ?_, ?_, ?_, ?_⟩
  · rw [hc, hY]; exact mul_le_mul_of_nonneg_right hq hP.le
  · rw [hc1, hY]; exact mul_lt_mul_of_pos_right hq1 hP
  · rw [hc, hc1, hY, away_scale hP hpar]
    show (top - f.emin).toNat * 2 ^ f.mb + (roundShift rm neg m4 (top - f.mb - (e - 2))).1 = _ ∧ _ ∨
      (top - f.emin).toNat * 2 ^ f.mb + (roundShift rm neg m4 (top - f.mb - (e - 2))).1 = _ ∧ _
    rw [htop]
    exact hr.imp (And.imp (congrArg _) id) (And.imp (congrArg _) id)
  · rw [hc, hY, Ne, mul_left_inj' hP.ne']
    exact hx

/-! ### The magnitude that the mode asks for (R63) -/

/-- The greatest finite magnitude that is not above Y. -/
def Below (f : Fmt) (Y : ℚ) (n : Nat) : Prop := (units f n : ℚ) ≤ Y ∧ ∀ k < infMag f, (units f k : ℚ) ≤ Y → k ≤ n

/-- The least magnitude that is not below Y. -/
def Above (f : Fmt) (Y : ℚ) (n : Nat) : Prop := Y ≤ units f n ∧ ∀ k, Y ≤ (units f k : ℚ) → n ≤ k

/-- The nearest magnitude, the even one of two. -/
def Nearest (f : Fmt) (Y : ℚ) (n : Nat) : Prop :=
  ∀ k, |(units f n : ℚ) - Y| ≤ |(units f k : ℚ) - Y| ∧ (|(units f n : ℚ) - Y| = |(units f k : ℚ) - Y| → k ≠ n → n % 2 = 0)

/-- The magnitude that the mode asks for of a number of magnitude Y. -/
def MagOf (f : Fmt) (rm : RMode) (neg : Bool) (Y : ℚ) (n : Nat) : Prop :=
  match rm with
  | .rne => Nearest f Y n
  | .rz => Below f Y n
  | .ru => if neg then Below f Y n else Above f Y n
  | .rd => if neg then Above f Y n else Below f Y n

theorem above_floor {f : Fmt} {Y : ℚ} {c : Nat} (h : Y = units f c) : Above f Y c :=
  ⟨h.le, fun _ hk => units_le_iff.mp (h ▸ hk)⟩

/-- A code is at most c, or above it. -/
theorem units_le_or_ge (f : Fmt) (c k : Nat) :
    (units f k : ℚ) ≤ units f c ∧ k ≤ c ∨ (units f (c + 1) : ℚ) ≤ units f k ∧ c + 1 ≤ k := by
  rcases Nat.lt_or_ge c k with h | h
  · exact .inr ⟨units_le_iff.mpr h, h⟩
  · exact .inl ⟨units_le_iff.mpr h, h⟩

section
variable {f : Fmt} {Y : ℚ} {c : Nat} (hlo : (units f c : ℚ) ≤ Y) (hhi : Y < units f (c + 1))
include hlo hhi

theorem below_floor : Below f Y c :=
  ⟨hlo, fun _ _ hk => Nat.lt_succ_iff.mp (units_lt_iff.mp (hk.trans_lt hhi))⟩

theorem above_succ (h : Y ≠ units f c) : Above f Y (c + 1) :=
  ⟨hhi.le, fun _ hk => units_lt_iff.mp ((lt_of_le_of_ne hlo (Ne.symm h)).trans_le hk)⟩

theorem nearest_floor (h : ¬ Away .rne false c (units f c) (units f (c + 1)) Y) : Nearest f Y c := by
  have h1 : ¬ (units f c + units f (c + 1) : ℚ) < 2 * Y := fun h' => h (.inl h')
  have h2 : 2 * Y = (units f c + units f (c + 1) : ℚ) → c % 2 = 0 := fun h' => by
    by_contra hc
    exact h (.inr ⟨h', by omega⟩)
  intro k
  rw [abs_of_nonpos (by linarith)]
  rcases units_le_or_ge f c k with ⟨hk, hkc⟩ | ⟨hk, hkc⟩
  · rw [abs_of_nonpos (by linarith)]
    exact ⟨by linarith, fun he hne => absurd (units_inj.mp (by linarith)) hne⟩
  · rw [abs_of_nonneg (by linarith)]
    exact ⟨by linarith, fun he _ => h2 (by linarith)⟩

end

theorem nearest_succ {f : Fmt} {Y : ℚ} {c : Nat} (hhi : Y < units f (c + 1))
    (h : Away .rne false c (units f c) (units f (c + 1)) Y) : Nearest f Y (c + 1) := by
  have h1 : (units f c + units f (c + 1) : ℚ) ≤ 2 * Y := by
    rcases h with h | ⟨h, -⟩
    · exact h.le
    · exact h.ge
  have h2 : 2 * Y = (units f c + units f (c + 1) : ℚ) → (c + 1) % 2 = 0 := fun h' => by
    rcases h with h | ⟨-, h⟩
    · exact absurd h' h.ne'
    · omega
  intro k
  rw [abs_of_nonneg (by linarith)]
  rcases units_le_or_ge f c k with ⟨hk, hkc⟩ | ⟨hk, hkc⟩
  · rw [abs_of_nonpos (by linarith)]
    exact ⟨by linarith, fun he _ => h2 (by linarith)⟩
  · rw [abs_of_nonneg (by linarith)]
    exact ⟨by linarith, fun he hne => absurd (units_inj.mp (by linarith)) hne⟩

/-- The code that is computed is the one that the mode asks for. -/
theorem CodeOf.magOf {f : Fmt} {rm : RMode} {neg : Bool} {Y : ℚ} {p : Nat × Bool} (h : CodeOf f rm neg Y p) :
    MagOf f rm neg Y p.1 ∧ (p.2 = true ↔ Y ≠ units f p.1) := by
  obtain ⟨c, hlo, hhi, hr, hx⟩ := h
  have hne (ha : Away rm neg c (units f c) (units f (c + 1)) Y) : Y ≠ units f c := fun h' => by
    exact not_away_of_eq rm neg h' (h' ▸ hhi) ha
  refine ⟨?_, ?_⟩
  · rcases hr with ⟨hp, ha⟩ | ⟨hp, ha⟩ <;> rw [hp]
    · cases rm with
      | rne => exact nearest_floor hlo hhi ha
      | rz => exact below_floor hlo hhi
      | ru =>
        cases neg with
        | false => exact above_floor (not_not.mp fun h => ha ⟨rfl, h⟩)
        | true => exact below_floor hlo hhi
      | rd =>
        cases neg with
        | false => exact below_floor hlo hhi
        | true => exact above_floor (not_not.mp fun h => ha ⟨rfl, h⟩)
    · cases rm with
      | rne => exact nearest_succ hhi ha
      | rz => exact ha.elim
      | ru =>
        obtain ⟨rfl, h⟩ := ha
        exact above_succ hlo hhi h
      | rd =>
        obtain ⟨rfl, h⟩ := ha
        exact above_succ hlo hhi h
  · rcases hr with ⟨hp, ha⟩ | ⟨hp, ha⟩ <;> rw [hp]
    · exact hx
    · exact ⟨fun _ => hhi.ne, fun _ => hx.mpr (hne ha)⟩

/-! ### What `pack` delivers (R63, R65) -/

theorem infMag_lt (f : Fmt) : infMag f < 2 ^ (f.eb + f.mb) := by
  rw [infMag, Nat.pow_add]
  exact Nat.mul_lt_mul_of_pos_right (Nat.sub_lt (Nat.two_pow_pos _) Nat.one_pos) (Nat.two_pow_pos _)

theorem mag_withSign {f : Fmt} {n : Nat} (neg : Bool) (h : n < 2 ^ (f.eb + f.mb)) : mag f (withSign f neg n) = n := by
  unfold mag withSign Fmt.signBit
  cases neg
  · exact Nat.mod_eq_of_lt h
  · simp [Nat.mod_eq_of_lt h]

theorem sgn_withSign {f : Fmt} {n : Nat} (neg : Bool) (h : n < 2 ^ (f.eb + f.mb)) : sgn f (withSign f neg n) = neg := by
  unfold sgn withSign Fmt.signBit
  cases neg
  · simp [Nat.div_eq_of_lt h]
  · simp [Nat.add_div_right, Nat.div_eq_of_lt h]

/-- An overflow delivers infinity, or the greatest number where the mode rounds toward it. -/
theorem overflowCode_cases (f : Fmt) (rm : RMode) (neg : Bool) :
    overflowCode f rm neg = infMag f ∨ overflowCode f rm neg = infMag f - 1 ∧
      ∀ Y n, MagOf f rm neg Y n ↔ Below f Y n := by
  cases rm <;> cases neg <;> simp [overflowCode, MagOf, infMag, Fmt.infCode]

theorem overflow_nx : (fOF ||| fNX).getLsbD 0 = true := by decide

theorem nx_iff : ∀ x tiny : Bool,
    (((if x then fNX else 0) ||| if tiny && x then fUF else 0 : Flags).getLsbD 0 = true ↔ x = true) := by decide

/-- A finite result has the magnitude that the mode asks for, and is inexact where NX is raised. -/
theorem pack_finite {f : Fmt} (hf : 0 < f.mb) (he : 0 < f.eb) {m : Nat} {e : Int} {st : Bool} {Y : ℚ} (hm : m ≠ 0)
    (h : Stands f m e st Y) (rm : RMode) (neg : Bool) (hr : mag f (pack f rm (.fin neg m e st)).1 < infMag f) :
    sgn f (pack f rm (.fin neg m e st)).1 = neg ∧ MagOf f rm neg Y (mag f (pack f rm (.fin neg m e st)).1) ∧
      ((pack f rm (.fin neg m e st)).2.getLsbD 0 = true ↔ Y ≠ units f (mag f (pack f rm (.fin neg m e st)).1)) := by
  obtain ⟨tiny, ht⟩ := roundFin_eq f rm neg m e st
  have hp : pack f rm (.fin neg m e st) = roundFin f rm neg m e st := by rw [pack, if_neg (fun h => hm h.1)]
  obtain ⟨hmag, hx⟩ := (roundCode_codeOf hf hm h rm neg).magOf
  have hI : f.infCode = infMag f := rfl
  rw [hp, ht, hI] at hr ⊢
  generalize roundCode f rm neg (4 * m + if st then 1 else 0) (e - 2) = p at *
  by_cases ho : infMag f ≤ p.1
  · rw [if_pos ho] at hr ⊢
    rcases overflowCode_cases f rm neg with hc | ⟨hc, hb⟩
    · rw [hc, mag_withSign _ (infMag_lt f)] at hr
      exact absurd hr (lt_irrefl _)
    · have hlt : infMag f - 1 < 2 ^ (f.eb + f.mb) := (Nat.sub_le _ _).trans_lt (infMag_lt f)
      have h1 : (units f (infMag f - 1) : ℚ) < Y :=
        (units_lt_iff.mpr (by have := infMag_pos he; omega)).trans_le ((hb _ _).mp hmag).1
      rw [hc, mag_withSign _ hlt, sgn_withSign _ hlt, hb]
      exact ⟨rfl, ⟨h1.le, fun k hk _ => by omega⟩, ⟨fun _ => h1.ne', fun _ => overflow_nx⟩⟩
  · have hlt : p.1 < 2 ^ (f.eb + f.mb) := (Nat.not_le.mp ho).trans (infMag_lt f)
    rw [if_neg ho, mag_withSign _ hlt, sgn_withSign _ hlt, ← hx]
    exact ⟨rfl, hmag, nx_iff p.2 tiny⟩

/-! ### The number that the mode asks for -/

/-- A number of the magnitude that the mode asks for is the one that the mode asks for. -/
theorem noBetter_of_magOf {f : Fmt} {rm : RMode} {Y : ℚ} {r c : Nat} (hY : 0 < Y) (h : MagOf f rm (sgn f r) Y (mag f r))
    (hc : mag f c < infMag f) : NoBetter f rm ((if sgn f r then -1 else 1) * (Y * unitOf f)) r c := by
  have hu := unitOf_pos f
  have hval (a : Nat) : realOf f a = (if sgn f a then -1 else 1) * units f (mag f a) * unitOf f := by rw [realOf_eq, mul_assoc]
  have ha : (0 : ℚ) ≤ units f (mag f r) := Nat.cast_nonneg _
  have hb : (0 : ℚ) ≤ units f (mag f c) := Nat.cast_nonneg _
  -- what each direction of rounding says of the two magnitudes
  have hB : Below f Y (mag f r) → (units f (mag f r) : ℚ) ≤ Y ∧ ((units f (mag f c) : ℚ) ≤ Y → (units f (mag f c) : ℚ) ≤ units f (mag f r)) :=
    fun h => ⟨h.1, fun h' => units_le_iff.mpr (h.2 _ hc h')⟩
  have hA : Above f Y (mag f r) → Y ≤ (units f (mag f r) : ℚ) ∧ (Y ≤ (units f (mag f c) : ℚ) → (units f (mag f r) : ℚ) ≤ units f (mag f c)) :=
    fun h => ⟨h.1, fun h' => units_le_iff.mpr (h.2 _ h')⟩
  rw [← mul_assoc]
  cases rm with
  | rne =>
    obtain ⟨h1, h2⟩ := h (mag f c)
    simp only [NoBetter, hval, ← sub_mul, abs_mul, abs_of_pos hu, mul_le_mul_iff_left₀ hu, mul_left_inj' hu.ne']
    by_cases hs : sgn f c = sgn f r
    · have hd (x : ℚ) : |(if sgn f r then -1 else 1) * x - (if sgn f r then -1 else 1) * Y| = |x - Y| := by
        rw [← mul_sub, abs_mul]
        split_ifs <;> simp
      rw [hs, hd, hd]
      exact ⟨h1, fun h' hne => h2 h' fun h'' => hne (by rw [h''])⟩
    · -- a number of the other sign is no nearer than 0 is
      obtain ⟨h3, h4⟩ := h 0
      rw [units_zero, Nat.cast_zero, zero_sub, abs_neg, abs_of_pos hY] at h3 h4
      have hd : |(if sgn f c then -1 else 1) * (units f (mag f c) : ℚ) - (if sgn f r then -1 else 1) * Y| = units f (mag f c) + Y := by
        cases hr : sgn f r <;> cases hc' : sgn f c
        · exact absurd (hc'.trans hr.symm) hs
        · rw [if_pos rfl, if_neg Bool.false_ne_true, abs_of_nonpos (by linarith)]; ring
        · rw [if_pos rfl, if_neg Bool.false_ne_true, abs_of_nonneg (by linarith)]; ring
        · exact absurd (hc'.trans hr.symm) hs
      have hd' : |(if sgn f r then -1 else 1) * (units f (mag f r) : ℚ) - (if sgn f r then -1 else 1) * Y| = |units f (mag f r) - Y| := by
        rw [← mul_sub, abs_mul]
        split_ifs <;> simp
      rw [hd, hd']
      refine ⟨by linarith, fun he _ => ?_⟩
      by_cases h0 : mag f r = 0
      · rw [h0]
      · exact h4 (by linarith) (Ne.symm h0)
  | rz =>
    obtain ⟨h1, h2⟩ := hB h
    simp only [NoBetter, abs_realOf, abs_mul, abs_of_pos hu, mul_le_mul_iff_left₀ hu, abs_of_pos hY]
    have hs : |(if sgn f r then -1 else 1 : ℚ)| = 1 := by split_ifs <;> simp
    rw [hs, one_mul]
    exact ⟨h1, h2⟩
  | ru =>
    simp only [NoBetter, hval, mul_le_mul_iff_left₀ hu]
    cases hr : sgn f r
    · obtain ⟨h1, h2⟩ := hA (by simpa [MagOf, hr] using h)
      cases hs : sgn f c
      · simpa [-Nat.cast_le] using ⟨h1, h2⟩
      · simp; exact ⟨h1, fun h => by linarith⟩
    · obtain ⟨h1, h2⟩ := hB (by simpa [MagOf, hr] using h)
      cases hs : sgn f c
      · simp; exact ⟨h1, fun h => by linarith⟩
      · simpa [-Nat.cast_le] using ⟨h1, h2⟩
  | rd =>
    simp only [NoBetter, hval, mul_le_mul_iff_left₀ hu]
    cases hr : sgn f r
    · obtain ⟨h1, h2⟩ := hB (by simpa [MagOf, hr] using h)
      cases hs : sgn f c
      · simpa [-Nat.cast_le] using ⟨h1, h2⟩
      · simp; exact ⟨h1, fun h => by linarith⟩
    · obtain ⟨h1, h2⟩ := hA (by simpa [MagOf, hr] using h)
      cases hs : sgn f c
      · simp; exact ⟨h1, fun h => by linarith⟩
      · simpa [-Nat.cast_le] using ⟨h1, h2⟩

theorem mem_formats {f : Fmt} (h : f ∈ formats) : 0 < f.mb ∧ 0 < f.eb := by
  simp only [formats, List.mem_cons, List.not_mem_nil, or_false] at h
  rcases h with rfl | rfl | rfl <;> decide

/-- A number in units of the smallest magnitude. -/
theorem stands_exact (f : Fmt) (m : Nat) (e : Int) : Stands f m e false (m * 2 ^ e / unitOf f) := by
  rw [Stands, if_neg Bool.false_ne_true, div_mul_cancel₀ _ (unitOf_pos f).ne']

theorem Stands.pos {f : Fmt} {m : Nat} {e : Int} {st : Bool} {Y : ℚ} (hm : m ≠ 0) (h : Stands f m e st Y) : 0 < Y := by
  have hp : (0 : ℚ) < m * 2 ^ e := mul_pos (by exact_mod_cast Nat.pos_of_ne_zero hm) (zpow_pos (by norm_num) _)
  have hY : 0 < Y * unitOf f := by
    unfold Stands at h
    split_ifs at h
    · exact hp.trans h.2.1
    · exact h ▸ hp
  exact pos_of_mul_pos_left hY (unitOf_pos f).le

/-- A finite result is the number that the mode asks for. -/
theorem pack_noBetter {f : Fmt} (hf : 0 < f.mb) (he : 0 < f.eb) {m : Nat} {e : Int} {st : Bool} {Y : ℚ} (hm : m ≠ 0)
    (h : Stands f m e st Y) (rm : RMode) (neg : Bool) (hr : mag f (pack f rm (.fin neg m e st)).1 < infMag f) {c : Nat}
    (hc : mag f c < infMag f) :
    NoBetter f rm ((if neg then -1 else 1) * (Y * unitOf f)) (pack f rm (.fin neg m e st)).1 c := by
  obtain ⟨hs, hmag, -⟩ := pack_finite hf he hm h rm neg hr
  generalize (pack f rm (.fin neg m e st)).1 = r at hs hmag ⊢
  subst hs
  exact noBetter_of_magOf (h.pos hm) hmag hc

theorem roundsToTheMode : RoundsToTheMode := by
  intro f hf rm neg m e hm hr
  obtain ⟨hmb, heb⟩ := mem_formats hf
  have hu := unitOf_pos f
  have hY := stands_exact f m e
  obtain ⟨hs, -, hx⟩ := pack_finite hmb heb hm hY rm neg hr
  have hX : exactOf neg m e = (if neg then -1 else 1) * (m * 2 ^ e / unitOf f * unitOf f) := by
    rw [div_mul_cancel₀ _ hu.ne', exactOf, mul_assoc]
  refine ⟨fun c _ hc => hX ▸ pack_noBetter hmb heb hm hY rm neg hr hc, hx.trans ?_⟩
  have hsg : (if neg then -1 else 1 : ℚ) ≠ 0 := by split_ifs <;> norm_num
  rw [realOf_eq, hs, hX, Ne, Ne, mul_right_inj' hsg, mul_left_inj' hu.ne', eq_comm]

end Sys2Proof.Machine
end

section
/-! SUPPORT. Arithmetic and functions round the exact number once (R67, R203, R204, R210, R212). -/

namespace Sys2Proof.Machine

open Sys2Proof.Claim

/-! ### Exact results -/

/-- An exact result that is the number X, which is not 0. -/
def XRes.Is (x : XRes) (X : ℚ) : Prop := ∃ (neg : Bool) (m : Nat) (e : Int), m ≠ 0 ∧ exactOf neg m e = X ∧ x = .fin neg m e false

theorem XRes.Is.rounded {x : XRes} {X : ℚ} (h : x.Is X) (f : Fmt) (rm : RMode) : RoundedOnce f rm X (pack f rm x) := by
  obtain ⟨neg, m, e, hm, hX, rfl⟩ := h
  exact ⟨neg, m, e, hm, hX, rfl⟩

theorem exactOf_eq_signed (neg : Bool) (m : Nat) (e : Int) : exactOf neg m e = (signed neg m : ℚ) * 2 ^ e := by
  cases neg <;> simp [exactOf, signed]

theorem exactOf_not (neg : Bool) (m : Nat) (e : Int) : exactOf (!neg) m e = -exactOf neg m e := by
  cases neg <;> simp [exactOf]

theorem exactOf_eq_zero_iff {neg : Bool} {m : Nat} {e : Int} : exactOf neg m e = 0 ↔ m = 0 := by
  cases neg <;> simp [exactOf, zpow_ne_zero]

/-- Over a smaller exponent the significand is a multiple. -/
theorem exactOf_lower {neg : Bool} {m : Nat} {e lo : Int} (h : lo ≤ e) :
    exactOf neg m e = (signed neg (m * 2 ^ (e - lo).toNat) : ℚ) * 2 ^ lo := by
  obtain ⟨n, hn⟩ := Int.le.dest h
  obtain rfl : e = lo + n := hn.symm
  rw [exactOf_eq_signed, zpow_add₀ (by norm_num), zpow_natCast, show (lo + (n : Int) - lo).toNat = n by omega]
  cases neg <;> simp [signed] <;> ring

theorem XRes.ofInt_is {v : Int} {e : Int} (z : Bool) (hv : v ≠ 0) : (XRes.ofInt v e z).Is (v * 2 ^ e) := by
  refine ⟨decide (v < 0), v.natAbs, e, Int.natAbs_ne_zero.mpr hv, ?_, by rw [XRes.ofInt, if_neg hv]⟩
  rw [exactOf_eq_signed, signed]
  congr 2
  rcases lt_or_ge v 0 with h | h
  · rw [decide_eq_true h, if_pos rfl]; omega
  · rw [decide_eq_false (not_lt.mpr h), if_neg Bool.false_ne_true]; omega

theorem addX_is {s t : Bool} {m n : Nat} {e k : Int} (rm : RMode) (h : exactOf s m e + exactOf t n k ≠ 0) :
    (addX rm (.fin s m e) (.fin t n k)).Is (exactOf s m e + exactOf t n k) := by
  rw [exactOf_lower (min_le_left e k), exactOf_lower (min_le_right e k), ← add_mul, ← Int.cast_add] at h ⊢
  exact XRes.ofInt_is _ (by rintro h0; rw [h0] at h; simp at h)

/-- The product of numbers, as a value. -/
theorem mulV_fin (s t : Bool) (m n : Nat) (e k : Int) :
    mulV (.fin s m e) (.fin t n k) = some (.fin (s != t) (m * n) (e + k)) ∧
      exactOf (s != t) (m * n) (e + k) = exactOf s m e * exactOf t n k := by
  refine ⟨rfl, ?_⟩
  rw [exactOf, exactOf, exactOf, zpow_add₀ (by norm_num)]
  cases s <;> cases t <;> simp <;> ring

theorem mulX_is {s t : Bool} {m n : Nat} {e k : Int} (h : exactOf s m e * exactOf t n k ≠ 0) :
    (mulX (.fin s m e) (.fin t n k)).Is (exactOf s m e * exactOf t n k) := by
  obtain ⟨h1, h2⟩ := mulV_fin s t m n e k
  rw [← h2] at h ⊢
  rw [mulX, h1]
  exact ⟨_, _, _, fun h0 => h (exactOf_eq_zero_iff.mpr h0), rfl, rfl⟩

theorem fmaX_is {s t u : Bool} {m n p : Nat} {e k j : Int} (rm : RMode) (h : exactOf s m e * exactOf t n k + exactOf u p j ≠ 0) :
    (fmaX rm (.fin s m e) (.fin t n k) (.fin u p j)).Is (exactOf s m e * exactOf t n k + exactOf u p j) := by
  obtain ⟨h1, h2⟩ := mulV_fin s t m n e k
  rw [← h2] at h ⊢
  rw [fmaX, h1]
  exact addX_is rm h

/-! ### Arithmetic on numbers (R203, R204) -/

/-- Nothing is raised beside what rounding raises. -/
theorem or_no_flags (p : Nat × Flags) : (p.1, p.2 ||| 0) = p := congrArg (Prod.mk p.1) BitVec.or_zero

theorem fop2_of_numbers {f : Fmt} {rm : RMode} {g : FVal → FVal → XRes} {a b : Nat} (ha : IsNumber f a) (hb : IsNumber f b) :
    fop2 f rm g a b = pack f rm (g (.of f a) (.of f b)) := by
  have hn : snanFlag f [a, b] = 0 := snanFlag_of_numbers (by simp [ha.2.le, hb.2.le])
  rw [fop2, hn]
  exact or_no_flags _

theorem arithmeticRoundsOnce : ArithmeticRoundsOnce := by
  intro f _ rm a b c ha hb hc
  have hn : snanFlag f [a, b, c] = 0 := snanFlag_of_numbers (by simp [ha.2.le, hb.2.le, hc.2.le])
  have hfma : ffmaBits f rm a b c = pack f rm (fmaX rm (.of f a) (.of f b) (.of f c)) := by
    rw [ffmaBits, hn]
    exact or_no_flags _
  have hfnma : ffnmaBits f rm a b c = pack f rm (fmaX rm (FVal.of f a).neg (.of f b) (.of f c)) := by
    rw [ffnmaBits, hn]
    exact or_no_flags _
  rw [faddBits, fsubBits, fmulBits, fop2_of_numbers ha hb, fop2_of_numbers ha hb, fop2_of_numbers ha hb, hfma, hfnma,
    FVal.of_fin ha.2, FVal.of_fin hb.2, FVal.of_fin hc.2, realOf_eq_exactOf, realOf_eq_exactOf, realOf_eq_exactOf]
  simp only [FVal.neg]
  refine ⟨fun h => (addX_is rm h).rounded f rm, fun h => ?_, fun h => (mulX_is h).rounded f rm,
    fun h => (fmaX_is rm h).rounded f rm, fun h => ?_⟩
  · rw [sub_eq_add_neg, ← exactOf_not] at h ⊢
    exact (addX_is rm h).rounded f rm
  · rw [sub_eq_neg_add, ← neg_mul, ← exactOf_not] at h ⊢
    exact (fmaX_is rm h).rounded f rm

/-! ### Numbers of the format are delivered as they are -/

theorem pack_of_units {f : Fmt} (hf : 0 < f.mb) {m b : Nat} {e : Int} (hm : m ≠ 0) (h : Stands f m e false (units f b))
    (hb : b < infMag f) (rm : RMode) (neg : Bool) : pack f rm (.fin neg m e false) = (withSign f neg b, 0) := by
  obtain ⟨tiny, ht⟩ := roundFin_eq f rm neg m e false
  obtain ⟨c, hlo, hhi, hr, hx⟩ := roundCode_codeOf hf hm h rm neg
  obtain rfl : c = b := le_antisymm (units_le_iff.mp hlo) (Nat.lt_succ_iff.mp (units_lt_iff.mp hhi))
  have hna := not_away_of_eq rm neg (q := c) rfl hhi
  have hI : f.infCode = infMag f := rfl
  rw [pack, if_neg (fun h => hm h.1), ht, hI]
  generalize roundCode f rm neg (4 * m + if false then 1 else 0) (e - 2) = p at *
  obtain ⟨n, x⟩ := p
  obtain rfl : n = c := (hr.resolve_right fun h => hna h.2).1
  obtain rfl : x = false := Bool.not_eq_true _ |>.mp fun h => hx.mp h rfl
  rw [if_neg (Nat.not_le.mpr hb)]
  simp

/-- Every multiple of a power of two that has few enough bits is a magnitude. -/
theorem exists_units (f : Fmt) {q : Nat} (hq : q ≤ 2 ^ (f.mb + 1)) (t : Nat) : ∃ b, units f b = q * 2 ^ t := by
  induction t generalizing q with
  | zero => exact ⟨0 * 2 ^ f.mb + q, units_of_parts hq (.inl rfl)⟩
  | succ t ih =>
    rcases Nat.lt_or_ge q (2 ^ f.mb) with h | h
    · obtain ⟨b, hb⟩ := ih (q := 2 * q) (by rw [Nat.pow_succ]; omega)
      exact ⟨b, by rw [hb, Nat.pow_succ]; ring⟩
    · exact ⟨(t + 1) * 2 ^ f.mb + q, units_of_parts hq (.inr h)⟩

/-- The code of infinity stands for the power of two above the greatest number. -/
theorem infMag_value {f : Fmt} (he : 0 < f.eb) : (units f (infMag f) * unitOf f : ℚ) = 2 ^ (f.emin + 2 ^ f.eb - 2) := by
  obtain ⟨n, hn⟩ : ∃ n, 2 ^ f.eb = n + 2 := by
    obtain ⟨k, hk⟩ := Nat.exists_eq_add_of_lt he
    exact ⟨2 ^ f.eb - 2, by rw [hk, Nat.pow_succ]; have := Nat.two_pow_pos (0 + k); omega⟩
  have hI : infMag f = n * 2 ^ f.mb + 2 ^ f.mb := by rw [infMag, hn, show n + 2 - 1 = n + 1 by omega, Nat.succ_mul]
  have hn' : (2 : Int) ^ f.eb = n + 2 := by exact_mod_cast hn
  rw [hI, units_of_parts (Nat.pow_le_pow_right (by decide) (Nat.le_succ _)) (.inr (le_refl _)), unitOf, hn']
  push_cast
  rw [← zpow_natCast, ← zpow_natCast, ← zpow_add₀ (by norm_num), ← zpow_add₀ (by norm_num)]
  congr 1
  omega

theorem infMag_fp32_value : (units .fp32 (infMag .fp32) * unitOf .fp32 : ℚ) = 2 ^ (128 : Int) := by
  have h : Fmt.emin .fp32 + 2 ^ Fmt.eb .fp32 - 2 = 128 := by decide
  rw [infMag_value (by decide), h]

/-- A number that is not negative is its own magnitude. -/
theorem eq_mag_of_number {f : Fmt} {a : Nat} (h : IsNumber f a) (hs : sgn f a = false) : withSign f false (mag f a) = a := by
  have h1 : ¬ a / 2 ^ (f.eb + f.mb) % 2 = 1 := of_decide_eq_false hs
  have h2 : a / 2 ^ (f.eb + f.mb) < 2 := by
    rw [Nat.div_lt_iff_lt_mul (Nat.two_pow_pos _), ← Nat.pow_succ']
    exact h.1
  have h3 : a / 2 ^ (f.eb + f.mb) = 0 := by
    generalize a / 2 ^ (f.eb + f.mb) = x at h1 h2
    omega
  exact Nat.mod_eq_of_lt ((Nat.div_eq_zero_iff_lt (Nat.two_pow_pos _)).mp h3)

/-! ### Functions of FP32 numbers (R67) -/

theorem unitOf_fp32 : unitOf .fp32 = 2 ^ (-149 : Int) := by rw [unitOf]; congr 1

theorem infMag_fp32 : infMag .fp32 = 2139095040 := rfl

/-- An FP32 number has at most 24 significant bits. -/
theorem sigOf_lt (f : Fmt) (n : Nat) : sigOf f n < 2 ^ (f.mb + 1) := by
  have h := Nat.mod_lt n (Nat.two_pow_pos f.mb)
  rw [sigOf, Nat.pow_succ]
  split_ifs <;> omega

/-- A function of an FP32 number other than 0, whose value neither raises nor chooses anything else. -/
theorem word_of_number {a : Nat} (h : IsNumber .fp32 a) :
    FVal.of .fp32 (w32 a).toNat = .fin (sgn .fp32 a) (sigOf .fp32 (mag .fp32 a)) (-149 + expOf .fp32 (mag .fp32 a)) ∧
      snanFlag .fp32 [(w32 a).toNat] = 0 := by
  have ha : (w32 a).toNat = a := Nat.mod_eq_of_lt h.1
  rw [ha]
  exact ⟨FVal.of_fin h.2, snanFlag_of_numbers (by simp [h.2.le])⟩

theorem rcp_eq {a : Nat} (rm : RMode) (h : IsNumber .fp32 a) (h0 : sigOf .fp32 (mag .fp32 a) ≠ 0) :
    (fnBits 0 rm (w32 a)).1 =
      (pack .fp32 rm (rcpFin (sgn .fp32 a) (sigOf .fp32 (mag .fp32 a)) (-149 + expOf .fp32 (mag .fp32 a)))).1 := by
  simp only [fnBits, (word_of_number h).1, if_neg h0]

theorem sqrt_eq {a : Nat} (rm : RMode) (h : IsNumber .fp32 a) (hs : sgn .fp32 a = false) (h0 : sigOf .fp32 (mag .fp32 a) ≠ 0) :
    fnBits 2 rm (w32 a) = pack .fp32 rm (sqrtFin (sigOf .fp32 (mag .fp32 a)) (-149 + expOf .fp32 (mag .fp32 a))) := by
  simp only [fnBits, (word_of_number h).1, (word_of_number h).2, if_neg h0, hs, Bool.false_eq_true, if_false]
  exact or_no_flags _

/-- The reciprocal's quotient stands for it. -/
theorem rcp_stands {m : Nat} (e : Int) (hm : m ≠ 0) (hlt : m < 2 ^ 24) :
    Stands .fp32 (2 ^ 80 / m) (-80 - e) (decide (2 ^ 80 / m * m ≠ 2 ^ 80)) (1 / (m * 2 ^ e) / unitOf .fp32) := by
  have hmp : (0 : ℚ) < m := by exact_mod_cast Nat.pos_of_ne_zero hm
  have hY : (1 / (m * 2 ^ e) : ℚ) = 2 ^ 80 / m * 2 ^ (-80 - e) := by
    rw [zpow_sub₀ (by norm_num), zpow_neg, one_div, mul_inv]
    field_simp
  have hp : (0 : ℚ) < 2 ^ (-80 - e) := zpow_pos (by norm_num) _
  unfold Stands
  rw [div_mul_cancel₀ _ (unitOf_pos _).ne', hY]
  have hdm : m * (2 ^ 80 / m) + 2 ^ 80 % m = 2 ^ 80 := Nat.div_add_mod _ _
  have hr : 2 ^ 80 % m < m := Nat.mod_lt _ (Nat.pos_of_ne_zero hm)
  generalize hq : 2 ^ 80 / m = q at *
  generalize 2 ^ 80 % m = r at *
  have hdm' : (m * q + r : ℚ) = 2 ^ 80 := by exact_mod_cast hdm
  have hr' : (r : ℚ) < m := by exact_mod_cast hr
  split_ifs with hst
  · have hne : q * m ≠ 2 ^ 80 := of_decide_eq_true hst
    have hr0 : r ≠ 0 := fun h => hne (by rw [Nat.mul_comm]; omega)
    have hr0' : (0 : ℚ) < r := by exact_mod_cast Nat.pos_of_ne_zero hr0
    refine ⟨?_, mul_lt_mul_of_pos_right ?_ hp, mul_lt_mul_of_pos_right ?_ hp⟩
    · rw [← hq]
      exact (Nat.le_div_iff_mul_le (Nat.pos_of_ne_zero hm)).mpr ((Nat.mul_le_mul_left _ hlt.le).trans (by decide))
    · rw [lt_div_iff₀ hmp]; linarith
    · rw [div_lt_iff₀ hmp]; linarith
  · have he : q * m = 2 ^ 80 := by simpa using hst
    have he' : (q * m : ℚ) = 2 ^ 80 := by exact_mod_cast he
    rw [← he', mul_div_cancel_right₀ _ hmp.ne']

theorem rcp_noBetter (rm : RMode) {a c : Nat} (ha : IsNumber .fp32 a) (h0 : realOf .fp32 a ≠ 0)
    (hr : mag .fp32 (fnBits 0 rm (w32 a)).1 < infMag .fp32) (hc : IsNumber .fp32 c) :
    NoBetter .fp32 rm (1 / realOf .fp32 a) (fnBits 0 rm (w32 a)).1 c := by
  have hm : sigOf .fp32 (mag .fp32 a) ≠ 0 := mt realOf_eq_zero_iff.mpr h0
  have hlt : sigOf .fp32 (mag .fp32 a) < 2 ^ 24 := sigOf_lt .fp32 _
  rw [rcp_eq rm ha hm] at hr ⊢
  have hst := rcp_stands (-149 + expOf .fp32 (mag .fp32 a)) hm hlt
  have hq : 2 ^ 80 / sigOf .fp32 (mag .fp32 a) ≠ 0 :=
    (Nat.div_pos (hlt.le.trans (by decide)) (Nat.pos_of_ne_zero hm)).ne'
  have hX : 1 / realOf .fp32 a = (if sgn .fp32 a then -1 else 1) *
      (1 / (sigOf .fp32 (mag .fp32 a) * 2 ^ (-149 + expOf .fp32 (mag .fp32 a) : Int)) / unitOf .fp32 * unitOf .fp32) := by
    rw [div_mul_cancel₀ _ (unitOf_pos _).ne', realOf_eq_exactOf, exactOf]
    have he : Fmt.emin .fp32 - Fmt.mb .fp32 = -149 := by decide
    rw [he, mul_assoc, one_div, one_div, mul_inv]
    congr 1
    split_ifs <;> norm_num
  rw [hX]
  exact pack_noBetter (by decide) (by decide) hq hst rm _ hr hc.2

/-- The root of a perfect square is exact. -/
theorem sqrtFin_of_square {m n : Nat} {e k : Int} (hm : m ≠ 0) (hn : n < 2 ^ 24) (h : (m * 2 ^ e : ℚ) = (n * 2 ^ k) * (n * 2 ^ k)) :
    ∃ (j : Nat) (i : Int), sqrtFin m e = .fin false (n * 2 ^ j) i false ∧ ((n * 2 ^ j : Nat) * 2 ^ i : ℚ) = n * 2 ^ k := by
  obtain ⟨i, hi⟩ : ∃ i : Int, e = e % 2 + 2 * i := ⟨e / 2, by omega⟩
  obtain ⟨o, ho⟩ : ∃ o : Nat, e % 2 = o := ⟨(e % 2).toNat, by omega⟩
  have h2 (x : Int) : (0 : ℚ) < 2 ^ x := zpow_pos (by norm_num) _
  have hsq : (n * 2 ^ k * (n * 2 ^ k) : ℚ) = n * n * 2 ^ (2 * k) := by
    rw [two_mul, zpow_add₀ (by norm_num)]
    ring
  rw [hsq] at h
  -- the exponent of the root is large enough
  have hk : e < 48 + 2 * k := by
    have h1 : (1 : ℚ) * 2 ^ e ≤ m * 2 ^ e :=
      mul_le_mul_of_nonneg_right (by exact_mod_cast Nat.one_le_iff_ne_zero.mpr hm) (h2 e).le
    have h3 : (n * n : ℚ) < 2 ^ 24 * 2 ^ 24 := by exact_mod_cast Nat.mul_lt_mul'' hn hn
    have h4 : (2 : ℚ) ^ e < 2 ^ (48 + 2 * k) := by
      rw [zpow_add₀ (by norm_num)]
      calc (2 : ℚ) ^ e ≤ n * n * 2 ^ (2 * k) := by linarith
        _ < 2 ^ 24 * 2 ^ 24 * 2 ^ (2 * k) := mul_lt_mul_of_pos_right h3 (h2 _)
        _ = _ := by norm_num
    exact (zpow_lt_zpow_iff_right₀ (by norm_num)).mp h4
  obtain ⟨j, hj⟩ : ∃ j : Nat, k - i + 60 = j := ⟨(k - i + 60).toNat, by omega⟩
  have hm' : m * 2 ^ (e % 2).toNat * 2 ^ 120 = n * 2 ^ j * (n * 2 ^ j) := by
    have hq : (m * 2 ^ o * 2 ^ 120 : ℚ) * 2 ^ (2 * i) = (n * 2 ^ j * (n * 2 ^ j)) * 2 ^ (2 * i) := by
      have e1 : (2 : ℚ) ^ e = 2 ^ o * 2 ^ (2 * i) := by
        rw [← zpow_natCast, ← zpow_add₀ (by norm_num)]
        congr 1
        omega
      have e2 : (2 : ℚ) ^ (2 * k) * 2 ^ 120 = 2 ^ j * 2 ^ j * 2 ^ (2 * i) := by
        rw [← zpow_natCast 2 120, ← zpow_natCast 2 j, ← zpow_add₀ (by norm_num), ← zpow_add₀ (by norm_num), ← zpow_add₀ (by norm_num)]
        congr 1
        push_cast
        omega
      calc (m * 2 ^ o * 2 ^ 120 : ℚ) * 2 ^ (2 * i) = m * 2 ^ e * 2 ^ 120 := by rw [e1]; ring
        _ = n * n * (2 ^ (2 * k) * 2 ^ 120) := by rw [h]; ring
        _ = _ := by rw [e2]; ring
    have hq' := mul_right_cancel₀ (h2 (2 * i)).ne' hq
    rw [ho, Int.toNat_natCast]
    exact_mod_cast hq'
  refine ⟨j, (e - e % 2 - 120) / 2, ?_, ?_⟩
  · have hs : Nat.sqrt (m * 2 ^ (e % 2).toNat * 2 ^ 120) = n * 2 ^ j := by rw [hm', Nat.sqrt_eq]
    simp only [sqrtFin, hs]
    rw [hm']
    simp
  · have hi' : (e - e % 2 - 120) / 2 = i - 60 := by omega
    push_cast
    rw [hi', mul_assoc, ← zpow_natCast, ← zpow_add₀ (by norm_num)]
    congr 2
    omega

theorem sqrt_exact (rm : RMode) {a b : Nat} (ha : IsNumber .fp32 a) (hb : IsNumber .fp32 b) (hs : sgn .fp32 b = false)
    (h : realOf .fp32 a = realOf .fp32 b * realOf .fp32 b) (h0 : realOf .fp32 a ≠ 0) : fnBits 2 rm (w32 a) = (b, 0) := by
  have hm : sigOf .fp32 (mag .fp32 a) ≠ 0 := mt realOf_eq_zero_iff.mpr h0
  have he : Fmt.emin .fp32 - Fmt.mb .fp32 = -149 := by decide
  have hu := unitOf_pos .fp32
  have hsa : sgn .fp32 a = false := by
    by_contra hc
    rw [Bool.not_eq_false] at hc
    have h1 : realOf .fp32 a ≤ 0 := by
      rw [realOf_eq, hc, if_pos rfl, neg_one_mul, neg_nonpos]
      positivity
    exact h0 (le_antisymm h1 (h ▸ mul_self_nonneg _))
  have hb0 : realOf .fp32 b ≠ 0 := fun hb => h0 (by rw [h, hb, zero_mul])
  have hbm : sigOf .fp32 (mag .fp32 b) ≠ 0 := mt realOf_eq_zero_iff.mpr hb0
  have hval (c : Nat) (hc : sgn .fp32 c = false) :
      realOf .fp32 c = sigOf .fp32 (mag .fp32 c) * 2 ^ (-149 + expOf .fp32 (mag .fp32 c) : Int) := by
    rw [realOf_eq_exactOf, exactOf, hc, he, if_neg Bool.false_ne_true, one_mul]
  have hb1 : realOf .fp32 b = units .fp32 (mag .fp32 b) * unitOf .fp32 := by
    rw [realOf_eq, hs, if_neg Bool.false_ne_true, one_mul]
  rw [sqrt_eq rm ha hsa hm]
  rw [hval a hsa, hval b hs] at h
  obtain ⟨j, i, hx, hv⟩ := sqrtFin_of_square hm (sigOf_lt .fp32 _) h
  rw [hx, pack_of_units (f := .fp32) (b := mag .fp32 b) (by decide) (Nat.mul_ne_zero hbm (Nat.two_pow_pos _).ne') ?_ hb.2,
    eq_mag_of_number hb hs]
  rw [Stands, if_neg Bool.false_ne_true, hv, ← hval b hs, hb1]

/-! ### Powers of two (R67) -/

/-- A significand and an exponent that make a natural number. -/
theorem integer_parts {m n : Nat} {e : Int} (h : (m * 2 ^ e : ℚ) = n) :
    isInteger m e = true ∧ m * 2 ^ e.toNat / 2 ^ (-e).toNat = n := by
  rcases le_or_gt 0 e with he | he
  · obtain ⟨k, rfl⟩ := Int.eq_ofNat_of_zero_le he
    have h' : m * 2 ^ k = n := by exact_mod_cast h
    simp [isInteger, h']
  · obtain ⟨k, rfl⟩ : ∃ k : Nat, e = -(k : Int) := ⟨(-e).toNat, by omega⟩
    have h' : m = n * 2 ^ k := by
      rw [zpow_neg, zpow_natCast, mul_inv_eq_iff_eq_mul₀ (by positivity)] at h
      exact_mod_cast h
    have hk : (-(k : Int)).toNat = 0 := by omega
    simp [isInteger, h', hk]

theorem exp2_eq {a : Nat} (rm : RMode) (h : IsNumber .fp32 a) {n : Int} (hn : realOf .fp32 a = n) (h8 : n.natAbs < 2 ^ 8) :
    fnBits 3 rm (w32 a) = pack .fp32 rm (.fin false 1 n false) := by
  have he : Fmt.emin .fp32 - Fmt.mb .fp32 = -149 := by decide
  rw [realOf_eq_exactOf, exactOf_eq_signed, he] at hn
  obtain ⟨hw, hf⟩ := word_of_number h
  generalize sgn .fp32 a = s at *
  generalize sigOf .fp32 (mag .fp32 a) = m at *
  generalize (-149 + (expOf .fp32 (mag .fp32 a) : Int)) = e at *
  by_cases hm : m = 0
  · have h0 : n = 0 := by
      rw [hm] at hn
      cases s <;> simpa [signed] using hn.symm
    simp only [fnBits, hw, hf, if_pos hm, h0]
    exact or_no_flags _
  · -- the magnitude of n, with its significand and its exponent
    have habs : (m * 2 ^ e : ℚ) = (n.natAbs : ℚ) := by
      have h1 := congrArg abs hn
      rw [abs_mul, abs_of_pos (zpow_pos (by norm_num : (0 : ℚ) < 2) e)] at h1
      rw [Nat.cast_natAbs, Int.cast_abs, ← h1]
      cases s <;> simp [signed]
    obtain ⟨hint, hdiv⟩ := integer_parts habs
    have hlog : e + Nat.log2 m ≤ 10 := by
      have h1 : (2 : ℚ) ^ (e + Nat.log2 m) < 2 ^ (8 : Int) := by
        have h2 : ((2 ^ Nat.log2 m : Nat) : ℚ) ≤ m := by exact_mod_cast Nat.log2_self_le hm
        have h3 : (n.natAbs : ℚ) < 2 ^ 8 := by exact_mod_cast h8
        rw [zpow_add₀ (by norm_num), zpow_natCast]
        push_cast at h2
        calc (2 : ℚ) ^ e * 2 ^ Nat.log2 m ≤ 2 ^ e * m := mul_le_mul_of_nonneg_left h2 (zpow_pos (by norm_num) e).le
          _ = n.natAbs := by rw [mul_comm, habs]
          _ < _ := by exact_mod_cast h3
      have h4 := (zpow_lt_zpow_iff_right₀ (by norm_num)).mp h1
      omega
    have hval : signed s (m * 2 ^ e.toNat / 2 ^ (-e).toNat) = n := by
      have hsn : (signed s n.natAbs : ℚ) = n := by
        have hs (k : Nat) : (signed s k : ℚ) = (if s then -1 else 1) * k := by cases s <;> simp [signed]
        rw [← hn, hs, hs, mul_assoc, habs]
      rw [hdiv]
      exact_mod_cast hsn
    simp only [fnBits, hw, hf, if_neg hm, hint, hlog, hval, decide_true, Bool.and_self, if_true]
    exact or_no_flags _

theorem exp2_exact (rm : RMode) {a : Nat} (h : IsNumber .fp32 a) {n : Int} (hlo : -149 ≤ n) (hhi : n ≤ 127) (hn : realOf .fp32 a = n) :
    realOf .fp32 (fnBits 3 rm (w32 a)).1 = 2 ^ n ∧ (fnBits 3 rm (w32 a)).2 = 0 := by
  obtain ⟨t, ht⟩ : ∃ t : Nat, n = -149 + t := ⟨(n + 149).toNat, by omega⟩
  obtain ⟨b, hb⟩ := exists_units .fp32 (q := 1) (by decide) t
  have hbv : (units .fp32 b * unitOf .fp32 : ℚ) = 2 ^ n := by
    rw [hb, unitOf_fp32, ht, zpow_add₀ (by norm_num), zpow_natCast]
    push_cast
    ring
  have hbI : b < infMag .fp32 := by
    refine (units_lt_iff (f := .fp32)).mp (lt_of_mul_lt_mul_right ?_ (unitOf_pos .fp32).le)
    rw [hbv, infMag_fp32_value]
    exact zpow_lt_zpow_right₀ (by norm_num) (by omega)
  have hlt : b < 2 ^ (Fmt.eb .fp32 + Fmt.mb .fp32) := hbI.trans (infMag_lt _)
  have hst : Stands .fp32 1 n false (units .fp32 b) := by
    rw [Stands, if_neg Bool.false_ne_true, hbv, Nat.cast_one, one_mul]
  rw [exp2_eq rm h hn (by omega), pack_of_units (by decide) one_ne_zero hst hbI]
  refine ⟨?_, rfl⟩
  rw [realOf_eq, sgn_withSign _ hlt, mag_withSign _ hlt, hbv, if_neg Bool.false_ne_true, one_mul]

/-! ### Rounding to integers (R210) -/

/-- A rounded integer is within 1 of the number, and inexact where it differs. -/
theorem RoundsAt.near {rm : RMode} {neg : Bool} {Z : ℚ} {p : Nat × Bool} (h : RoundsAt rm neg Z p) :
    |(p.1 : ℚ) - Z| < 1 ∧ (p.2 = true ↔ (p.1 : ℚ) ≠ Z) := by
  obtain ⟨q, hq, hq1, ⟨hp, -⟩ | ⟨hp, ha⟩, hx⟩ := h
  · rw [hp, abs_of_nonpos (by linarith), hx, ne_comm]
    exact ⟨by linarith, Iff.rfl⟩
  · have hne : Z ≠ q := fun h => not_away_of_eq rm neg h (by linarith) ha
    have hlt : (q : ℚ) < Z := lt_of_le_of_ne hq (Ne.symm hne)
    rw [hp, hx]
    push_cast
    rw [abs_of_pos (by linarith)]
    exact ⟨by linarith, fun _ => by linarith, fun _ => hne⟩

/-- An FP32 number rounded to an integer is a magnitude of the format. -/
theorem exists_units_of_round (rm : RMode) (s : Bool) {n : Nat} (hn : n < infMag .fp32) :
    ∃ b < infMag .fp32, ((roundShift rm s (sigOf .fp32 n) (-(-149 + expOf .fp32 n))).1 : ℚ) = units .fp32 b * unitOf .fp32 := by
  have hm : sigOf .fp32 n < 2 ^ 24 := sigOf_lt .fp32 n
  rcases Int.le_total 0 (-149 + expOf .fp32 n) with he | he
  · -- an integer already
    refine ⟨n, hn, ?_⟩
    obtain ⟨k, hk⟩ := Int.eq_ofNat_of_zero_le he
    have hu : (units .fp32 n * unitOf .fp32 : ℚ) = sigOf .fp32 n * 2 ^ (-149 + expOf .fp32 n : Int) := by
      rw [units, unitOf_fp32, zpow_add₀ (by norm_num), zpow_natCast]
      push_cast
      ring
    rw [hu, hk, roundShift, if_pos (by omega)]
    simp
  · -- at most 24 bits are left
    have hle : (roundShift rm s (sigOf .fp32 n) (-(-149 + expOf .fp32 n))).1 ≤ 2 ^ 24 := by
      unfold roundShift
      split_ifs with h
      · have h0 : (-(-(-149 + (expOf .fp32 n : Int)))).toNat = 0 := by omega
        rw [h0, pow_zero, mul_one]
        exact hm.le
      · have h1 := Nat.div_le_self (sigOf .fp32 n) (2 ^ (-(-149 + (expOf .fp32 n : Int))).toNat)
        dsimp only
        split_ifs <;> omega
    obtain ⟨b, hb⟩ := exists_units .fp32 (q := (roundShift rm s (sigOf .fp32 n) (-(-149 + expOf .fp32 n))).1) hle 149
    have hbv : (units .fp32 b * unitOf .fp32 : ℚ) = (roundShift rm s (sigOf .fp32 n) (-(-149 + expOf .fp32 n))).1 := by
      rw [hb, unitOf_fp32, Nat.cast_mul, Nat.cast_pow, Nat.cast_ofNat, mul_assoc, show ((2 : ℚ) ^ 149 * 2 ^ (-149 : Int)) = 1 by rw [zpow_neg]; exact mul_inv_cancel₀ (by positivity), mul_one]
    refine ⟨b, (units_lt_iff (f := .fp32)).mp (lt_of_mul_lt_mul_right ?_ (unitOf_pos .fp32).le), hbv.symm⟩
    rw [hbv, infMag_fp32_value]
    have h1 : ((roundShift rm s (sigOf .fp32 n) (-(-149 + expOf .fp32 n))).1 : ℚ) ≤ 2 ^ 24 := by exact_mod_cast hle
    exact h1.trans_lt (by norm_num)

theorem frnd_rounds (rm : RMode) {a : Nat} (ha : IsNumber .fp32 a) :
    ∃ k : Int, realOf .fp32 (frnd rm a).1 = k ∧ |(k : ℚ) - realOf .fp32 a| < 1 ∧
      ((frnd rm a).2.getLsbD 0 = true ↔ (k : ℚ) ≠ realOf .fp32 a) ∧ sgn .fp32 (frnd rm a).1 = sgn .fp32 a := by
  have he : Fmt.emin .fp32 - Fmt.mb .fp32 = -149 := by decide
  rw [frnd, FVal.of_fin ha.2, he]
  by_cases hm : sigOf .fp32 (mag .fp32 a) = 0
  · have h0 : realOf .fp32 a = 0 := realOf_eq_zero_iff.mpr hm
    simp only [hm, if_true]
    exact ⟨0, by simp [h0], by simp [h0], by simp [h0], trivial⟩
  · obtain ⟨b, hbI, hb⟩ := exists_units_of_round rm (sgn .fp32 a) ha.2
    have hlt : b < 2 ^ (Fmt.eb .fp32 + Fmt.mb .fp32) := hbI.trans (infMag_lt _)
    have hst : StandsFor (sigOf .fp32 (mag .fp32 a)) (-(-149 + expOf .fp32 (mag .fp32 a)))
        (sigOf .fp32 (mag .fp32 a) * 2 ^ (-149 + expOf .fp32 (mag .fp32 a) : Int)) := by
      refine .inl ?_
      rw [mul_assoc, ← zpow_add₀ (by norm_num), add_neg_cancel, zpow_zero, mul_one]
    obtain ⟨hnear, hx⟩ := (hst.roundsAt rm (sgn .fp32 a)).near
    simp only [hm, if_false]
    have hA : realOf .fp32 a = (if sgn .fp32 a then -1 else 1) *
        (sigOf .fp32 (mag .fp32 a) * 2 ^ (-149 + expOf .fp32 (mag .fp32 a) : Int)) := by
      rw [realOf_eq_exactOf, exactOf, he, mul_assoc]
    rw [hA]
    generalize roundShift rm (sgn .fp32 a) (sigOf .fp32 (mag .fp32 a)) (-(-149 + expOf .fp32 (mag .fp32 a))) = r at *
    generalize (sigOf .fp32 (mag .fp32 a) * 2 ^ (-149 + expOf .fp32 (mag .fp32 a) : Int) : ℚ) = Z at *
    have hp : pack .fp32 rm (.fin (sgn .fp32 a) r.1 0 false) = (withSign .fp32 (sgn .fp32 a) b, 0) := by
      by_cases hr : r.1 = 0
      · obtain rfl : b = 0 := by
          rw [hr, Nat.cast_zero, eq_comm, mul_eq_zero, or_iff_left (unitOf_pos _).ne'] at hb
          exact units_inj.mp (by rw [hb, units_zero, Nat.cast_zero])
        rw [hr, pack, if_pos ⟨rfl, rfl⟩]
      · exact pack_of_units (by decide) hr (by rw [Stands, if_neg Bool.false_ne_true, ← hb, zpow_zero, mul_one]) hbI rm _
    have hsg : (signed (sgn .fp32 a) r.1 : ℚ) = (if sgn .fp32 a then -1 else 1) * r.1 := by cases sgn .fp32 a <;> simp [signed]
    have hs0 : (if sgn .fp32 a then -1 else 1 : ℚ) ≠ 0 := by split_ifs <;> norm_num
    have hs1 : |(if sgn .fp32 a then -1 else 1 : ℚ)| = 1 := by split_ifs <;> simp
    refine ⟨signed (sgn .fp32 a) r.1, ?_, ?_, ?_, ?_⟩
    · rw [hp, realOf_eq, sgn_withSign _ hlt, mag_withSign _ hlt, hsg, hb]
    · rw [hsg, ← mul_sub, abs_mul, hs1, one_mul]
      exact hnear
    · rw [hsg, Ne, mul_right_inj' hs0, ← Ne, ← hx]
      cases r.2 <;> decide
    · rw [hp, sgn_withSign _ hlt]

/-! ### Scaling (R212) -/

/-- Far above the format every result is the mode's overflow. -/
theorem pack_huge {f : Fmt} (hf : 0 < f.mb) (he : 0 < f.eb) (rm : RMode) (neg : Bool) {m : Nat} {e : Int} (hm : m ≠ 0)
    (h : f.emin + 2 ^ f.eb ≤ e) : pack f rm (.fin neg m e false) = (withSign f neg (overflowCode f rm neg), fOF ||| fNX) := by
  obtain ⟨tiny, ht⟩ := roundFin_eq f rm neg m e false
  obtain ⟨c, -, hhi, hr, -⟩ := roundCode_codeOf hf hm (stands_exact f m e) rm neg
  have hI : infMag f ≤ c := by
    refine Nat.lt_succ_iff.mp (units_lt_iff.mp (lt_of_le_of_lt ?_ hhi))
    rw [le_div_iff₀ (unitOf_pos f), infMag_value he]
    calc (2 : ℚ) ^ (f.emin + 2 ^ f.eb - 2) ≤ 1 * 2 ^ e := by
          rw [one_mul]
          exact zpow_le_zpow_right₀ (by norm_num) (by omega)
      _ ≤ m * 2 ^ e := mul_le_mul_of_nonneg_right (by exact_mod_cast Nat.one_le_iff_ne_zero.mpr hm) (zpow_pos (by norm_num) e).le
  have hc : f.infCode ≤ (roundCode f rm neg (4 * m + if false then 1 else 0) (e - 2)).1 := by
    rcases hr with ⟨h, -⟩ | ⟨h, -⟩
    · exact h ▸ hI
    · exact h ▸ hI.trans (Nat.le_succ c)
  rw [pack, if_neg (fun h => hm h.1), ht, if_pos hc]

/-- Far below the smallest magnitude a number rounds to 0 or to that magnitude, by mode and sign. -/
def tinyCode (rm : RMode) (neg : Bool) : Nat := if rm = .ru ∧ neg = false ∨ rm = .rd ∧ neg = true then 1 else 0

theorem roundShift_tiny (rm : RMode) (neg : Bool) {m : Nat} {sh : Int} (hm : m ≠ 0) (h : (Nat.log2 m : Int) + 1 < sh) :
    roundShift rm neg m sh = (tinyCode rm neg, true) := by
  obtain ⟨n, rfl⟩ := Int.eq_ofNat_of_zero_le (by omega : 0 ≤ sh)
  have h1 : m < 2 ^ (Nat.log2 m + 1) := Nat.lt_log2_self
  have h2 : 2 ^ (Nat.log2 m + 1 + 1) ≤ 2 ^ n := Nat.pow_le_pow_right (by decide) (by omega)
  rw [Nat.pow_succ] at h2
  have h3 : m < 2 ^ n := by omega
  rw [roundShift, if_neg (by omega)]
  simp only [Int.toNat_natCast, Nat.div_eq_of_lt h3, Nat.mod_eq_of_lt h3, ne_eq, hm, not_false_eq_true, decide_true, roundsUp, tinyCode]
  cases rm <;> cases neg <;> simp <;> omega

theorem pack_tiny {f : Fmt} (he : 1 < f.eb) (rm : RMode) (neg : Bool) {m : Nat} {e : Int} (hm : m ≠ 0)
    (h : e + Nat.log2 m < f.emin - f.mb - 3) :
    pack f rm (.fin neg m e false) = (withSign f neg (tinyCode rm neg), fNX ||| fUF) := by
  have hlog : Nat.log2 (4 * m) = Nat.log2 m + 2 := by
    rw [show 4 * m = 2 * (2 * m) by ring, Nat.log2_two_mul (by omega), Nat.log2_two_mul hm]
  have hm4 : 4 * m ≠ 0 := by omega
  have hI : ¬ tinyCode rm neg ≥ f.infCode := by
    have h1 : tinyCode rm neg ≤ 1 := by unfold tinyCode; split_ifs <;> decide
    have h2 : 2 ^ 2 ≤ 2 ^ f.eb := Nat.pow_le_pow_right (by decide) he
    have h3 : 3 * 1 ≤ f.infCode := Nat.mul_le_mul (by omega) (Nat.two_pow_pos _)
    omega
  have hex : e - 2 + ((Nat.log2 m + 2 : Nat) : Int) = e + Nat.log2 m := by push_cast; ring
  have hmax : max (e + (Nat.log2 m : Int)) f.emin = f.emin := max_eq_right (by omega)
  have hsh := roundShift_tiny rm neg hm4 (sh := f.emin - f.mb - (e - 2)) (by rw [hlog]; push_cast; omega)
  rw [pack, if_neg (fun h => hm h.1), roundFin]
  simp only [Bool.false_eq_true, if_false, Nat.add_zero, hlog, hex, hmax, hsh, sub_self, Int.toNat_zero, Nat.zero_mul, Nat.zero_add,
    if_neg hI]
  rw [decide_eq_true (by omega : e + (Nat.log2 m : Int) < f.emin), decide_eq_false (by omega : ¬ e + (Nat.log2 m : Int) + 1 = f.emin)]
  rfl

/-- Beyond 700 in either direction the result does not depend on the scale. -/
theorem pack_clamp (rm : RMode) (neg : Bool) {a : Nat} (ha : mag .fp32 a < infMag .fp32) (hm : sigOf .fp32 (mag .fp32 a) ≠ 0) (n : Int) :
    pack .fp32 rm (.fin neg (sigOf .fp32 (mag .fp32 a)) (-149 + expOf .fp32 (mag .fp32 a) + max (-700) (min n 700)) false) =
      pack .fp32 rm (.fin neg (sigOf .fp32 (mag .fp32 a)) (-149 + expOf .fp32 (mag .fp32 a) + n) false) := by
  have hE : expOf .fp32 (mag .fp32 a) ≤ 254 := by
    have h1 : mag .fp32 a / 2 ^ 23 < 255 := (Nat.div_lt_iff_lt_mul (by decide)).mpr ha
    have h2 : expOf .fp32 (mag .fp32 a) = mag .fp32 a / 2 ^ 23 - 1 := rfl
    omega
  have hL : Nat.log2 (sigOf .fp32 (mag .fp32 a)) < 24 := (Nat.log2_lt hm).mpr (sigOf_lt .fp32 _)
  have hemin : Fmt.emin .fp32 = -126 := by decide
  have hmb : (Fmt.mb .fp32 : Int) = 23 := rfl
  have heb : (2 : Int) ^ Fmt.eb .fp32 = 256 := rfl
  rcases lt_or_ge n (-700) with h | h
  · rw [show max (-700) (min n 700) = -700 by omega, pack_tiny (by decide) rm neg hm (by rw [hemin, hmb]; omega),
      pack_tiny (by decide) rm neg hm (by rw [hemin, hmb]; omega)]
  · rcases le_or_gt n 700 with h' | h'
    · rw [show max (-700) (min n 700) = n by omega]
    · rw [show max (-700) (min n 700) = 700 by omega, pack_huge (by decide) (by decide) rm neg hm (by rw [hemin, heb]; omega),
        pack_huge (by decide) (by decide) rm neg hm (by rw [hemin, heb]; omega)]

theorem fscl_rounds (rm : RMode) {a : Nat} (ha : IsNumber .fp32 a) (n : Int) (h0 : realOf .fp32 a ≠ 0) :
    RoundedOnce .fp32 rm (realOf .fp32 a * 2 ^ n) (fscl rm a n) := by
  have hm : sigOf .fp32 (mag .fp32 a) ≠ 0 := mt realOf_eq_zero_iff.mpr h0
  have he : Fmt.emin .fp32 - Fmt.mb .fp32 = -149 := by decide
  have hs : snanFlag .fp32 [a] = 0 := snanFlag_of_numbers (by simp [ha.2.le])
  refine ⟨sgn .fp32 a, sigOf .fp32 (mag .fp32 a), -149 + expOf .fp32 (mag .fp32 a) + n, hm, ?_, ?_⟩
  · rw [realOf_eq_exactOf, he, exactOf, exactOf, zpow_add₀ (by norm_num) (_ + _) n]
    ring
  · rw [fscl, FVal.of_fin ha.2, he, hs]
    exact (or_no_flags _).trans (pack_clamp rm _ ha.2 hm n)

theorem functionsRoundOnce : FunctionsRoundOnce := fun rm _ ha =>
  ⟨fscl_rounds rm ha, frnd_rounds rm ha, fun h0 hr _ hc => rcp_noBetter rm ha h0 hr hc,
    fun _ hb hs h h0 => sqrt_exact rm ha hb hs h h0, fun _ hlo hhi hn => exp2_exact rm ha hlo hhi hn⟩

/-- Settles O3: the code that `roundFin` computes lies where the mode asks, among magnitudes that rise with their codes; the arithmetic
and the functions hand it their exact value, or one that stands for it. -/
theorem roundingIsCorrect : Obligations.RoundingIsCorrect := ⟨roundsToTheMode, arithmeticRoundsOnce, functionsRoundOnce⟩

end Sys2Proof.Machine
end

section
/-! SUPPORT. The accesses of jobs, their ends and their completion (R143, R151 to R153, R265 to R275, R300, R312 to R315, R354), and
telemetry (R79, R81). -/

namespace Sys2Proof.Machine

open Sys2Proof.Claim

/-! ### One access of a job -/

/-- Past the packets, an access at a home slice is the next step of a job. -/
theorem exec_sliceAccess_job {s : State} {k : Nat} {j : Job} (h : s.jobs[k]? = some j) :
    exec (.sliceAccess (s.net.packets.length + k)) s = .next (s.jobStep j) := by
  have hp : s.net.packets[s.net.packets.length + k]? = none := List.getElem?_eq_none (Nat.le_add_right _ _)
  change execSliceAccess _ s = _
  unfold execSliceAccess
  simp only [hp, Nat.add_sub_cancel_left, h]

theorem State.jobStep_of_jobAfter {s : State} {j : Job} (h : s.jobAfter j = true) : s.jobStep j = s := by
  unfold State.jobStep
  rw [if_pos (.inr (.inr h))]

theorem not_held_of_jobRuns {s : State} {k : Nat} {j : Job} (h : JobRuns s k j) :
    ¬ (j.status ≠ 0 ∨ j.busy.isSome = true ∨ s.jobAfter j = true) := by
  obtain ⟨-, -, ha, hs, hb⟩ := h
  simp [ha, hs, hb]

theorem State.modJob_jobs_getElem? {s : State} {k : Nat} {j : Job} (h : s.jobs[k]? = some j) (f : Job → Job) :
    (s.modJob j.id f).jobs[k]? = some (f j) := by
  simp [State.modJob, h]

@[simp] theorem State.homeWrite_jobs (s : State) (k : PKind) (pa : Nat) (l : List Byte) : (s.homeWrite k pa l).jobs = s.jobs := by
  unfold State.homeWrite
  split_ifs <;> simp

/-- A step that changes the job alone, of a state with the same jobs. -/
theorem jobGoes_of_modJob {s t : State} {k : Nat} {j : Job} {f : Job → Job} {p : State → Job → Prop} (h : JobRuns s k j)
    (hs : s.jobStep j = t.modJob j.id f) (ht : t.jobs = s.jobs) (hp : p (t.modJob j.id f) (f j)) : JobGoes s k p :=
  ⟨_, _, (exec_sliceAccess_job h.1).trans (by rw [hs]), State.modJob_jobs_getElem? (by rw [ht]; exact h.1) f, hp⟩

/-- A step that ends the job. -/
theorem jobGoes_of_failJob {s : State} {k c : Nat} {j : Job} {p : State → Job → Prop} (h : JobRuns s k j)
    (hs : s.jobStep j = s.failJob j.id c) (hp : ∀ t : State, t.mem = s.mem → p t { j with status := c }) : JobGoes s k p :=
  by
  refine jobGoes_of_modJob h hs rfl ?_
  obtain ⟨-, -, -, hst, -⟩ := h
  rw [if_pos hst]
  exact hp (s.failJob j.id c) rfl

/-! ### The page of a job's address -/

theorem State.jobReach_page_tlbOnly {s s1 : State} {j : Job} {va pa : Nat} {w : Bool} {l : Leaf} (h : s.jobReach j va w = .page l pa s1) :
    s.TlbOnly s1 := by
  unfold State.jobReach at h
  simp only at h
  split_ifs at h
  have ht := s.translate_tlbOnly { lane := none, core := j.core, func := j.func, part := j.part } va
  generalize s.translate _ va = x at h ht
  obtain ⟨o, s2⟩ := x
  cases o with
  | ok l' pa' =>
    simp only at h
    split_ifs at h
    all_goals
      cases h
      exact ht
  | invalid => cases h
  | memfault => cases h
  | prot => cases h

theorem State.jobTarget_home (s : State) (j : Job) (va : Nat) {l : Leaf} (h : l.kind = .hbm ∨ l.kind = .cxl) :
    s.jobTarget j va l = none := by
  obtain h | h := h <;> simp [State.jobTarget, State.targetOf, h]

/-- A read of a page of this device takes its bytes. -/
theorem jobRead_of_jobPage {s s1 : State} {j : Job} {va pa : Nat} (h : JobPage s j va false pa s1) (hb : s1.net.badLines = []) (n : Nat) :
    s.TlbOnly s1 ∧ s.jobRead j va n = s1.modJob j.id fun j => j.took va (s.mem.readBytes pa n) := by
  obtain ⟨l, hr, hk⟩ := h
  have ht := State.jobReach_page_tlbOnly hr
  have hm : s1.mem = s.mem := by
    obtain ⟨_, rfl⟩ := ht
    rfl
  refine ⟨ht, ?_⟩
  have hh : l.kind ≠ .host := by rintro e; simp [e] at hk
  have hc : l.kind ≠ .multicast := by rintro e; simp [e] at hk
  unfold State.jobRead
  simp [hr, State.jobTarget_home _ _ _ hk, hb, hh, State.homeRead, hc, hm]

/-- A write to a page of this device is applied there. -/
theorem jobWrite_of_jobPage {s s1 : State} {j : Job} {va pa : Nat} (h : JobPage s j va true pa s1) (bytes : List Byte) (w : Job → Job) :
    s.TlbOnly s1 ∧ ∃ kd, kd ≠ .host ∧ s.jobWrite j va bytes w = (s1.homeWrite kd pa bytes).modJob j.id w := by
  obtain ⟨l, hr, hk⟩ := h
  have hh : l.kind ≠ .host := by rintro e; simp [e] at hk
  refine ⟨State.jobReach_page_tlbOnly hr, l.kind, hh, ?_⟩
  unfold State.jobWrite
  simp [hr, State.jobTarget_home _ _ _ hk, hh]

/-- A step that reads a page of this device. -/
theorem jobGoes_of_jobRead {s s1 : State} {k va pa n : Nat} {j : Job} {p : State → Job → Prop} (h : JobRuns s k j)
    (hs : s.jobStep j = s.jobRead j va n) (hg : JobPage s j va false pa s1) (hb : s1.net.badLines = [])
    (hp : ∀ t : State, t.mem = s.mem → p t (j.took va (s.mem.readBytes pa n))) : JobGoes s k p := by
  obtain ⟨⟨_, rfl⟩, hr⟩ := jobRead_of_jobPage hg hb n
  exact jobGoes_of_modJob h (hs.trans hr) rfl (hp _ rfl)

/-- A step that writes a page of this device. -/
theorem jobGoes_of_jobWrite {s s1 : State} {k va pa : Nat} {j : Job} {bytes : List Byte} {w : Job → Job} {p : State → Job → Prop}
    (h : JobRuns s k j) (hs : s.jobStep j = s.jobWrite j va bytes w) (hg : JobPage s j va true pa s1)
    (hp : ∀ t : State, WroteBytes s.mem t.mem pa bytes → p t (w j)) : JobGoes s k p := by
  obtain ⟨⟨l, rfl⟩, kd, hk, hr⟩ := jobWrite_of_jobPage hg bytes w
  obtain ⟨hin, hout⟩ := State.homeWrite_read { s with net := { s.net with tlb := l } } pa bytes hk
  refine jobGoes_of_modJob h (hs.trans hr) (State.homeWrite_jobs ..) (hp _ ⟨fun i hi => ?_, hout⟩)
  exact (hin i hi).trans (by simp [hi])

/-! ### Copies -/

theorem Job.wrote_last {j : Job} {g : JSeg} {n : Nat} (hg : j.segs = [g]) (h : g.len ≤ j.put + n) : (j.wrote n).segs = [] := by
  simp [Job.wrote, hg, h]

theorem Job.wrote_more {j : Job} {g : JSeg} {n : Nat} (hg : j.segs = [g]) (h : j.put + n < g.len) :
    (j.wrote n).segs = [g] ∧ (j.wrote n).put = j.put + n ∧ (j.wrote n).buf = j.buf ∧ (j.wrote n).got = j.got := by
  simp [Job.wrote, hg, Nat.not_le.mpr h]

theorem Job.wrote_moved {j : Job} {g : JSeg} (n : Nat) (hg : j.segs = [g]) : (j.wrote n).moved = j.moved + n := by
  simp only [Job.wrote, hg]
  split_ifs <;> rfl

theorem lineRest_pos {a n : Nat} (h : 0 < n) : 0 < lineRest a n := by
  have : a % 128 < 128 := Nat.mod_lt _ (by decide)
  simp only [lineRest, Nat.lt_min]
  omega

theorem lineRest_le (a n : Nat) : lineRest a n ≤ n := Nat.min_le_left ..

/-- A move that has nothing yet to write reads. -/
theorem State.jobMove_read {s : State} {j : Job} {g : JSeg} (hb : j.buf = []) (hp : j.put = 0) (hl : 0 < g.len)
    (he : s.edgeHeld j (g.src / 128) = false) : s.jobMove j g false = s.jobRead j g.src (lineRest g.src g.len) := by
  have hw : lineRest g.dst g.len ≠ 0 := (lineRest_pos hl).ne'
  simp [State.jobMove, hb, hp, hw, hl, he, lineOf]

/-- A move that holds its whole source writes. -/
theorem State.jobMove_write {s : State} {j : Job} {g : JSeg} (hb : j.buf.length = g.len) (hp : j.put < g.len)
    (he : s.edgeHeld j ((g.dst + j.put) / 128) = false) :
    s.jobMove j g false = s.jobWrite j (g.dst + j.put) ((j.buf.drop j.put).take (lineRest (g.dst + j.put) (g.len - j.put)))
      (·.wrote (lineRest (g.dst + j.put) (g.len - j.put))) := by
  have hn : j.put + lineRest (g.dst + j.put) (g.len - j.put) ≤ g.len := by
    have := lineRest_le (g.dst + j.put) (g.len - j.put)
    omega
  have hc : g.clear j.put g.len = true := by simp [JSeg.clear]
  simp [State.jobMove, hb, hn, hc, he, lineOf]

theorem jobRuns_of_copying {s : State} {k : Nat} {j : Job} {g : JSeg} (h : Copying s k j g) : JobRuns s k j := by
  obtain ⟨hj, hu, ha, -, hs, hb, -⟩ := h
  exact ⟨hj, hu, ha, hs, hb⟩

theorem State.jobStep_copy {s : State} {k : Nat} {j : Job} {g : JSeg} (h : JobRuns s k j) (hk : j.kind = .copy) (hg : j.segs = [g]) :
    s.jobStep j = s.jobSeg j g := by
  unfold State.jobStep
  simp only [if_neg (not_held_of_jobRuns h), hk, hg]

/-- A copy inside its footprint moves. -/
theorem jobStep_of_copying {s : State} {k : Nat} {j : Job} {g : JSeg} (h : Copying s k j g) : s.jobStep j = s.jobMove j g false := by
  have hr := jobRuns_of_copying h
  obtain ⟨-, -, -, hk, -, -, hq, hg, hi, ho⟩ := h
  rw [State.jobStep_copy hr hk hg]
  simp [State.jobSeg, hq, hi, ho]

theorem Job.took_copy {j : Job} (h : j.kind = .copy) (va : Nat) (l : List Byte) : j.took va l = { j with buf := j.buf ++ l } := by
  simp [Job.took, h]

theorem Job.took_coll {j : Job} {op n me : Nat} {ring : List Nat} {tag : Nat} (h : j.kind = .coll op n me ring tag) (va : Nat)
    (l : List Byte) : j.took va l = { j with buf := j.buf ++ l } := by
  simp [Job.took, h]

theorem Job.took_gather {j : Job} (h : j.kind = .gather) (va : Nat) (l : List Byte) :
    j.took va l = { j with cache := j.cache ++ [(va / 128, l)] } := by
  simp [Job.took, h]

theorem length_take_drop_lineRest {l : List Byte} {p n a : Nat} (h : l.length = n) :
    ((l.drop p).take (lineRest a (n - p))).length = lineRest a (n - p) := by
  have := lineRest_le a (n - p)
  simp [h]
  omega

theorem getD_take_drop {l : List Byte} {p n i : Nat} (h : i < n) : ((l.drop p).take n).getD i 0 = l.getD (p + i) 0 := by
  simp [List.getD_eq_getElem?_getD, h]

theorem copiesMove : CopiesMove := by
  refine ⟨?_, ?_, ?_, ?_⟩
  · intro s k a scr j hj ha hh
    rw [exec_sliceAccess_job hj, State.jobStep_of_jobAfter (by simp [State.jobAfter, ha, hh])]
  · intro s k j g pa s1 h hb hp hl he hg hbad
    obtain ⟨-, -, -, hk, -⟩ := id h
    have hgo : JobGoes s k fun t q => t.mem = s.mem ∧ q = { j with buf := s.mem.readBytes pa (lineRest g.src g.len) } := by
      refine jobGoes_of_jobRead (jobRuns_of_copying h) ((jobStep_of_copying h).trans (State.jobMove_read hb hp hl he)) hg hbad fun t ht => ?_
      exact ⟨ht, by rw [Job.took_copy hk, hb, List.nil_append]⟩
    obtain ⟨t, q, hx, hq, ht, rfl⟩ := hgo
    exact ⟨t, _, hx, ht, hq, rfl, hp, rfl⟩
  · intro s k j g pa s1 h hb hp he hg n
    refine jobGoes_of_jobWrite (jobRuns_of_copying h) ((jobStep_of_copying h).trans (State.jobMove_write hb hp he)) hg fun t ht => ?_
    obtain ⟨-, -, -, -, -, -, -, hs, -⟩ := h
    obtain ⟨hin, hout⟩ := ht
    rw [length_take_drop_lineRest hb] at hin hout
    refine ⟨Job.wrote_moved _ hs, fun i hi => (hin i hi).trans (getD_take_drop hi), hout, fun e => Job.wrote_last hs (Nat.le_of_eq e),
      fun e => ?_⟩
    obtain ⟨hg, hp, -⟩ := Job.wrote_more hs e
    exact ⟨hg, hp⟩
  · intro s k j g hj hu hk hs hb ha hg hbuf hp hi
    have hr : JobRuns s k j := ⟨hj, hu, ha, hs, hb⟩
    have hf : s.jobSeg j g = s.failJob j.id 1 := by simp [State.jobSeg, hbuf, hp, hi]
    have hgo : JobGoes s k fun t q => t.mem = s.mem ∧ q.status = 1 :=
      jobGoes_of_failJob hr ((State.jobStep_copy hr hk hg).trans hf) fun t ht => ⟨ht, rfl⟩
    obtain ⟨t, q, hx, hq, ht, hst⟩ := hgo
    exact ⟨t, q, hx, ht, hq, hst⟩

/-! ### Gathers -/

theorem State.jobStep_gather {s : State} {k : Nat} {j : Job} (h : JobRuns s k j) (hk : j.kind = .gather) :
    s.jobStep j = s.gatherMove j := by
  unfold State.jobStep
  simp only [if_neg (not_held_of_jobRuns h), hk]

/-- A row outside the footprint ends a gather. -/
theorem State.gatherMove_outside {s : State} {j : Job} {g : JSeg} {rest : List JSeg} (hg : j.segs = g :: rest) (hp : j.put = 0)
    (h : j.inside false g.src g.len = false ∨ j.inside true g.dst g.len = false) : s.gatherMove j = s.failJob j.id 1 := by
  simp [State.gatherMove, hg, hp, h]

/-- A gather takes what the held line has of the head row. -/
theorem State.gatherMove_absorb {s : State} {j : Job} {g : JSeg} {rest : List JSeg} {bytes : List Byte} (hg : j.segs = g :: rest)
    (h : j.put = 0 → j.inside false g.src g.len = true ∧ j.inside true g.dst g.len = true)
    (hc : aget j.cache ((g.src + j.put) / 128) = some bytes) : s.gatherMove j = s.modJob j.id (·.absorb g bytes) := by
  have hi : ¬ (j.put = 0 ∧ (j.inside false g.src g.len = false ∨ j.inside true g.dst g.len = false)) := by
    rintro ⟨h0, h'⟩
    simp [h h0] at h'
  simp only [State.gatherMove, hg, if_neg hi, hc]

/-- A gather with nothing to write reads the line that it does not hold. -/
theorem State.gatherMove_read {s : State} {j : Job} {g : JSeg} {rest : List JSeg} (hg : j.segs = g :: rest) (hp : j.put = 0)
    (hb : j.buf = []) (hi : j.inside false g.src g.len = true) (ho : j.inside true g.dst g.len = true)
    (hc : aget j.cache (g.src / 128) = none) (he : s.edgeHeld j (g.src / 128) = false) :
    s.gatherMove j = s.jobRead j (128 * (g.src / 128)) 128 := by
  have hw (n : Nat) : (decide (0 < n) && decide (n ≤ 0)) = false := by
    cases n <;> simp
  simp only [State.gatherMove, hg, hp, hb, hi, ho, hc, he, Nat.add_zero, List.length_nil, hw]
  simp

/-- Once it has read its rows, a gather writes what is left. -/
theorem State.gatherMove_write {s : State} {j : Job} (hg : j.segs = []) (hp : j.put = 0) (hb : j.buf ≠ [])
    (he : s.edgeHeld j ((j.dst + j.moved) / 128) = false) :
    s.gatherMove j = s.jobWrite j (j.dst + j.moved) (j.buf.take (lineRest (j.dst + j.moved) j.buf.length)) fun j' =>
      { j' with buf := j'.buf.drop (lineRest (j.dst + j.moved) j.buf.length),
                moved := j'.moved + lineRest (j.dst + j.moved) j.buf.length } := by
  have hl : j.gatherLeft = j.buf.length := by simp [Job.gatherLeft, hg, hp]
  have hn := lineRest_pos (a := j.dst + j.moved) (List.length_pos_of_ne_nil hb)
  have hn' := lineRest_le (j.dst + j.moved) j.buf.length
  simp [State.gatherMove, hg, hl, hn, hn', lineOf, he]

theorem aget_append_same {α : Type} {l : List (Nat × α)} {k : Nat} (h : aget l k = none) (v : α) : aget (l ++ [(k, v)]) k = some v := by
  induction l with
  | nil => simp [aget]
  | cons e l ih =>
    simp only [List.cons_append, aget] at h ⊢
    split_ifs at h ⊢
    exact ih h

theorem Job.absorb_last {j : Job} {g : JSeg} {rest : List JSeg} (hg : j.segs = g :: rest) (l : List Byte)
    (h : g.len ≤ j.put + lineRest (g.src + j.put) (g.len - j.put)) : (j.absorb g l).segs = rest ∧ (j.absorb g l).put = 0 := by
  simp [Job.absorb, h, hg]

theorem Job.absorb_more {j : Job} {g : JSeg} (l : List Byte)
    (h : j.put + lineRest (g.src + j.put) (g.len - j.put) < g.len) :
    (j.absorb g l).segs = j.segs ∧ (j.absorb g l).put = j.put + lineRest (g.src + j.put) (g.len - j.put) := by
  simp [Job.absorb, Nat.not_le.mpr h]

theorem Job.absorb_buf (j : Job) (g : JSeg) (l : List Byte) :
    (j.absorb g l).buf = j.buf ++ (l.drop ((g.src + j.put) % 128)).take (lineRest (g.src + j.put) (g.len - j.put)) ∧
      (j.absorb g l).moved = j.moved := by
  unfold Job.absorb
  simp only
  split_ifs <;> exact ⟨rfl, rfl⟩

theorem gathersMove : GathersMove := by
  refine ⟨?_, ?_, ?_, ?_⟩
  · intro s k j g rest pa s1 hr hk hg hp hb hi ho hc he hpage hbad
    refine jobGoes_of_jobRead hr ((State.jobStep_gather hr hk).trans (State.gatherMove_read hg hp hb hi ho hc he)) hpage hbad fun t ht => ?_
    rw [Job.took_gather hk, Nat.mul_div_cancel_left _ (by decide : 0 < 128)]
    exact ⟨ht, aget_append_same hc _, rfl, hb, hp, rfl⟩
  · intro s k j g rest bytes hr hk hg hi hc n
    refine jobGoes_of_modJob hr ((State.jobStep_gather hr hk).trans (State.gatherMove_absorb hg hi hc)) rfl ?_
    obtain ⟨hbuf, hmoved⟩ := j.absorb_buf g bytes
    exact ⟨rfl, hbuf, hmoved, Job.absorb_last hg bytes, Job.absorb_more bytes⟩
  · intro s k j pa s1 hr hk hg hp hb he hpage n
    exact jobGoes_of_jobWrite hr ((State.jobStep_gather hr hk).trans (State.gatherMove_write hg hp hb he)) hpage
      fun t ht => ⟨ht, rfl, rfl, hg⟩
  · intro s k j g rest hr hk hg hp hi
    exact jobGoes_of_failJob hr ((State.jobStep_gather hr hk).trans (State.gatherMove_outside hg hp hi)) fun t ht => ⟨ht, rfl⟩

end Sys2Proof.Machine
end

section
/-! SUPPORT. Collectives: the ring sum, their results and their steps (R75, R273). -/

namespace Sys2Proof.Machine

open Sys2Proof.Claim

/-! ### Lists of blocks and little-endian words -/

theorem length_flatMap_range {n m : Nat} {f : Nat → List Byte} (hf : ∀ i < m, (f i).length = n) :
    ((List.range m).flatMap f).length = n * m := by
  induction m with
  | zero => rfl
  | succ m ih =>
    rw [List.range_succ, List.flatMap_append, List.length_append, ih fun i hi => hf i (by omega)]
    simp [hf m, Nat.mul_succ]

/-- Blocks of one length: a byte of the list is a byte of its block. -/
theorem getD_flatMap_range {n m i r : Nat} {f : Nat → List Byte} (hf : ∀ i < m, (f i).length = n) (hi : i < m) (hr : r < n) :
    ((List.range m).flatMap f).getD (n * i + r) 0 = (f i).getD r 0 := by
  induction m with
  | zero => omega
  | succ m ih =>
    have hl := length_flatMap_range fun i (hi : i < m) => hf i (by omega)
    rw [List.range_succ, List.flatMap_append]
    obtain h | rfl := Nat.lt_succ_iff_lt_or_eq.mp hi
    · have hlt : n * i + r < n * m :=
        calc n * i + r < n * (i + 1) := by rw [Nat.mul_succ]; omega
          _ ≤ n * m := Nat.mul_le_mul_left n h
      rw [List.getD_append _ _ _ _ (by rw [hl]; exact hlt), ih (fun i hi => hf i (by omega)) h]
    · rw [List.getD_append_right _ _ _ _ (by rw [hl]; omega), hl, Nat.add_sub_cancel_left]
      simp

theorem length_leBytes (n v : Nat) : (leBytes n v).length = n := by
  induction n generalizing v with
  | zero => rfl
  | succ n ih => simp [leBytes, ih]

theorem leNat_take_succ (l : List Byte) (n : Nat) : leNat (l.take (n + 1)) = (l.getD 0 0).toNat + 256 * leNat ((l.drop 1).take n) := by
  cases l <;> simp [leNat]

theorem leNat_take_zero (l : List Byte) : leNat (l.take 0) = 0 := rfl

theorem wordAt_eq_word4 (l : List Byte) (w : Nat) : wordAt l (4 * w) = word4 l w := by
  have hg (k i : Nat) : (l.drop k).getD i 0 = l.getD (k + i) 0 := by simp [List.getD_eq_getElem?_getD]
  unfold wordAt natAt word4
  simp only [leNat_take_succ, leNat_take_zero, List.drop_drop, hg, Nat.add_zero]
  congr 1
  omega

/-- Words in little-endian order, read back. -/
theorem word4_flatMap_leBytes {m w : Nat} (x : Nat → Word) (h : w < m) :
    word4 ((List.range m).flatMap fun i => leBytes 4 (x i).toNat) w = x w := by
  have hg (r : Nat) (hr : r < 4) := getD_flatMap_range (fun i _ => length_leBytes 4 (x i).toNat) h hr
  have h0 := hg 0 (by decide)
  have h1 := hg 1 (by decide)
  have h2 := hg 2 (by decide)
  have h3 := hg 3 (by decide)
  simp only [Nat.add_zero] at h0
  unfold word4
  rw [h0, h1, h2, h3]
  apply BitVec.eq_of_toNat_eq
  have := (x w).isLt
  simp only [leBytes, List.getD_cons_zero, List.getD_cons_succ, w32, BitVec.toNat_ofNat]
  omega

/-! ### The results (R75) -/

theorem ringSum_eq_ringAfter (x : Nat → Word) (n start : Nat) : ringSum x n start = ringAfter x n start (n - 1) := by
  unfold ringSum
  generalize n - 1 = m
  induction m with
  | zero => rfl
  | succ m ih =>
    rw [List.range_succ, List.foldl_append, ih]
    rfl

/-- A chunk of a reduction is a number of lines. -/
theorem chunk_of_mod {len n : Nat} (hn : 0 < n) (h : len % (128 * n) = 0) : len / n % 128 = 0 ∧ len % 4 = 0 := by
  obtain ⟨c, rfl⟩ := Nat.dvd_of_mod_eq_zero h
  rw [Nat.mul_assoc, Nat.mul_left_comm, Nat.mul_div_cancel_left _ hn, Nat.mul_left_comm]
  omega

theorem collResult_reduce_word {op n me len w : Nat} {src : Nat → List Byte} {words : Nat} {at_ : Nat → Nat}
    (hr : collResult op n me len src = (List.range words).flatMap fun w =>
      leBytes 4 (ringSum (fun i => wordAt (src i) (4 * at_ w)) n ((4 * at_ w / (len / n) + 1) % n)).toNat) (hw : w < words) :
    word4 (collResult op n me len src) w =
      ringAfter (fun i => word4 (src i) (at_ w)) n ((4 * at_ w / (len / n) + 1) % n) (n - 1) := by
  rw [hr, word4_flatMap_leBytes _ hw, ringSum_eq_ringAfter]
  simp only [wordAt_eq_word4]

theorem length_collResult_reduce {op n me len : Nat} {src : Nat → List Byte} {words : Nat} {x : Nat → Nat}
    (hr : collResult op n me len src = (List.range words).flatMap fun w => leBytes 4 (x w)) :
    (collResult op n me len src).length = 4 * words := by
  rw [hr, length_flatMap_range fun i _ => length_leBytes 4 _]

theorem collResult_is {op n me len : Nat} (src : Nat → List Byte) (ho : op < 4) (hn : 0 < n) (h : op < 2 → len % (128 * n) = 0) :
    CollectiveIs op n me len src (collResult op n me len src) := by
  refine ⟨?_, ?_, ?_, ?_⟩
  · rintro rfl
    obtain ⟨-, hl⟩ := chunk_of_mod hn (h (by decide))
    refine ⟨(length_collResult_reduce rfl).trans (by omega), fun w hw => ?_⟩
    exact collResult_reduce_word (at_ := id) rfl (by omega)
  · rintro rfl
    obtain ⟨hc, -⟩ := chunk_of_mod hn (h (by decide))
    refine ⟨(length_collResult_reduce rfl).trans (by omega), fun w hw => ?_⟩
    have hm : ∀ w, me * (len / n) + 4 * w = 4 * (me * (len / n) / 4 + w) := fun w => by
      obtain ⟨c, hc⟩ := Nat.dvd_of_mod_eq_zero hc
      rw [hc, show me * (128 * c) = 4 * (me * (32 * c)) by ring, Nat.mul_div_cancel_left _ (by decide : 0 < 4)]
      ring
    refine collResult_reduce_word (at_ := fun w => me * (len / n) / 4 + w) (words := len / n / 4) ?_ (by omega)
    simp only [← hm]
    rfl
  · rintro rfl
    rfl
  · rintro rfl
    rfl

/-! ### The steps of a collective (R273) -/

/-- Sampling for telemetry changes no memory, team or job. -/
theorem State.collTele_frame (s : State) (j : Job) (op : Nat) (l : List Byte) (ref : List (Nat × Nat × Word)) :
    (s.collTele j op l ref).mem = s.mem ∧ (s.collTele j op l ref).teams = s.teams ∧ (s.collTele j op l ref).jobs = s.jobs := by
  unfold State.collTele
  simp only
  split_ifs <;> exact ⟨rfl, rfl, rfl⟩

theorem State.jobStep_coll {s : State} {k : Nat} {j : Job} {op n me tag : Nat} {ring : List Nat} (h : JobRuns s k j)
    (hk : j.kind = .coll op n me ring tag) : s.jobStep j = s.collStep j op n me ring := by
  unfold State.jobStep
  simp only [if_neg (not_held_of_jobRuns h), hk]

/-- A collective without an error reads, or meets the others. -/
theorem State.collStep_of_collective {s : State} {k : Nat} {j : Job} {op n me : Nat} (hr : JobRuns s k j) (h : Collective s j op n me) :
    s.jobStep j =
      if j.buf.length < collSrc op me j.len then
        if s.edgeHeld j (lineOf (j.from_ + j.buf.length)) then s
        else s.jobRead j (j.from_ + j.buf.length) (lineRest (j.from_ + j.buf.length) (collSrc op me j.len - j.buf.length))
      else s.collMeet j op n me := by
  obtain ⟨ring, tag, hk, hg, -, hme, hreach, hi, ho, -⟩ := h
  have hf : (ring.find? fun i => decide (i ≠ s.fab.dev.toNat) && !s.reachable i) = none := by
    rw [List.find?_eq_none]
    intro i hi
    by_cases hd : i = s.fab.dev.toNat
    · simp [hd]
    · simp [hreach i hi hd]
  rw [State.jobStep_coll hr hk, State.collStep]
  simp only [hg, hme, hi, ho, hf]
  simp

/-- The collective's sources: the job's own bytes at this member, free bytes at the others. -/
def collSources (s : State) (j : Job) (me i : Nat) : List Byte :=
  if i = me then j.buf else (List.range j.len).map fun k => Config.collByte s.free i k

/-- Where no member disagrees the job gets its result. -/
theorem State.collMeet_agree {s : State} {j : Job} {op n me : Nat} (h : n = 1 ∨ Config.collMismatch s.free = false) :
    ∃ t : State, t.mem = s.mem ∧ t.teams = s.teams ∧ t.jobs = s.jobs ∧ s.collMeet j op n me = t.modJob j.id fun q =>
      { q with got := true, buf := collResult op n me j.len (collSources s j me), put := 0,
               segs := if collResult op n me j.len (collSources s j me) = [] then []
                 else [⟨0, q.dst, (collResult op n me j.len (collSources s j me)).length⟩] } := by
  have hc : ¬ (n ≠ 1 ∧ Config.collMismatch s.free = true) := by
    rintro ⟨h1, h2⟩
    simp [h1, h2] at h
  unfold State.collMeet
  simp only [if_neg hc]
  obtain ⟨hm, ht, hj⟩ := (if n = 1 then s else { s with free := s.free + 1 }).collTele_frame j op
    (collResult op n me j.len (collSources s j me)) (collRef op n me j.len (collSources s j me))
  refine ⟨_, hm.trans ?_, ht.trans ?_, hj.trans ?_, rfl⟩
  all_goals split_ifs <;> rfl

theorem collectivesMove : CollectivesMove := by
  refine ⟨?_, ?_, ?_, ?_⟩
  · intro s k op n me j pa s1 hr hc hl a he hp hb
    have hs := State.collStep_of_collective hr hc
    rw [if_pos hl, if_neg (by simpa [lineOf] using he)] at hs
    obtain ⟨ring, tag, hk, hg, -⟩ := hc
    refine jobGoes_of_jobRead hr hs hp hb fun t ht => ?_
    rw [Job.took_coll hk]
    exact ⟨ht, hg, rfl⟩
  · intro s k op n me j hr hc ho hl hm
    have hs := State.collStep_of_collective hr hc
    rw [if_neg (by omega)] at hs
    obtain ⟨ring, tag, -, -, hme, -, -, -, -, hlen⟩ := hc
    obtain ⟨t, htm, htt, htj, ht⟩ := State.collMeet_agree (j := j) (op := op) (me := me) hm
    refine jobGoes_of_modJob hr (hs.trans ht) htj ⟨htm, htt, rfl, rfl, rfl, collSources s j me, if_pos rfl, fun i hi => ?_, ?_⟩
    · simp [collSources, hi]
    · exact collResult_is _ ho (by omega) hlen
  · intro s k op n me ring tag j hr hk hg hd
    refine jobGoes_of_failJob hr ((State.jobStep_coll hr hk).trans ?_) fun t ht => ⟨ht, rfl⟩
    simp only [State.collStep, hg, if_pos hd, Bool.false_eq_true, if_false]
  · intro s k op n me ring tag j g pa s1 hr hk hg hs hb hp he hpage m
    have hstep : s.jobStep j = s.jobMove j { g with src := 0 } false := by
      rw [State.jobStep_coll hr hk]
      simp [State.collStep, hg, hs]
    refine jobGoes_of_jobWrite hr (hstep.trans (State.jobMove_write hb hp he)) hpage fun t ht =>
      ⟨ht, fun e => Job.wrote_last hs (Nat.le_of_eq e), fun e => ?_⟩
    obtain ⟨-, hput, hbuf, hgot⟩ := Job.wrote_more hs e
    exact ⟨hput, hbuf, hgot.trans hg⟩

end Sys2Proof.Machine
end

section
/-! SUPPORT. The completion of jobs (R274, R275, R354) and of telemetry recomputes (R79, R81). -/

namespace Sys2Proof.Machine

open Sys2Proof.Claim

/-! ### Completion (R274) -/

theorem State.charge_frame (s : State) (f n : Nat) :
    (s.charge f n).jobs = s.jobs ∧ (s.charge f n).mem = s.mem ∧ (s.charge f n).teams = s.teams := by
  unfold State.charge
  simp only
  split_ifs <;> exact ⟨rfl, rfl, rfl⟩

theorem State.modTeam_of_team? {s : State} {t : Nat} {T : Team} (h : s.team? t = some T) (f : Team → Team) :
    s.modTeam t f = s.setTeam t (f T) := by
  simp only [State.modTeam, h]

/-- The completion of a job that a beam started. -/
theorem exec_jobComplete_team {s : State} {k t : Nat} {j : Job} {T : Team} (hj : s.jobs[k]? = some j) (ht : j.team = some t)
    (hT : s.team? t = some T) (hn : j.node = none) (h : ¬ (j.done = false ∧ (j.status = 0 ∨ s.jobQuiet j = false))) :
    ∃ u, exec (.jobComplete k) s = .next u ∧ u.jobs = s.jobs.eraseIdx k ∧ u.mem = s.mem ∧ u.team? t = some (T.jobDone j) := by
  obtain ⟨hjobs, hmem, hteams⟩ := (({ s with jobs := s.jobs.eraseIdx k }).dropLog fun g => decide (g.packet.job = some j.id)).charge_frame
    j.func ((j.moved + 1023) / 1024 * s.regs.jcost.toNat)
  refine ⟨State.setTeam _ t (T.jobDone j), ?_, hjobs, hmem, State.team?_setTeam ..⟩
  change execJobComplete k s = _
  unfold execJobComplete
  simp only [hj, if_neg h, ht, hn]
  rw [State.modTeam_of_team? (T := T) (by rw [State.team?, hteams]; exact hT)]

theorem Job.done_copy {j : Job} (hs : j.status = 0) (hk : j.kind = .copy) (hb : j.busy = none) (hg : j.segs = []) (ho : j.out = []) :
    j.done = true := by
  simp [Job.done, hs, hk, hb, hg, ho]

theorem State.jobQuiet_of_idle (s : State) {j : Job} (ho : j.out = []) (hb : j.busy = none) : s.jobQuiet j = true := by
  simp [State.jobQuiet, ho, hb]

theorem Team.jobDone_stats {T : Team} {j : Job} (h : handleAge j.handle T.nextH < 64) : aget (T.jobDone j).stats j.handle = some (jobWord j) := by
  cases hq : j.queue <;> cases hs : j.slot <;>
    simp [Team.jobDone, hq, hs, Team.commit, Team.setQueue, h, jobWord, w32]

theorem Team.jobDone_beams (T : Team) (j : Job) : (T.jobDone j).beams = T.beams := by
  cases hq : j.queue <;> cases hs : j.slot <;> simp [Team.jobDone, hq, hs, Team.commit, Team.setQueue]

theorem Team.jobDone_queues {T : Team} {j : Job} (h : j.queue = none) : (T.jobDone j).queues = T.queues := by
  simp [Team.jobDone, h]

/-- The slot that a job filled without an error is full. -/
theorem Team.jobDone_slot {T : Team} {j : Job} {q i : Nat} (hq : j.queue = some q) (hi : j.slot = some i) (hs : j.status = 0) :
    slotIn (queueIn (T.jobDone j) q) i = ⟨.full, w32 (256 * (j.handle % 2 ^ 24)), false, false⟩ := by
  simp [Team.jobDone, hq, hi, hs, Team.commit, Team.setQueue, Queue.setSlot, slotIn, queueIn, slotStatus, slotWord, w32]

/-! ### Telemetry (R81) -/

@[simp] theorem State.homeWrite_work (s : State) (k : PKind) (pa : Nat) (l : List Byte) : (s.homeWrite k pa l).work = s.work := by
  unfold State.homeWrite
  split_ifs <;> simp

@[simp] theorem State.homeWrite_teams (s : State) (k : PKind) (pa : Nat) (l : List Byte) : (s.homeWrite k pa l).teams = s.teams := by
  unfold State.homeWrite
  split_ifs <;> simp

theorem worst_ne_none {l : List (Nat × Nat × Word × Word)} (h : l ≠ []) : worst l ≠ none := by
  obtain ⟨l, e, rfl⟩ := List.eq_nil_or_concat l |>.resolve_left h
  simp only [worst, List.concat_eq_append, List.foldl_append, List.foldl_cons, List.foldl_nil]
  split
  · simp
  · split_ifs <;> simp_all

theorem TeleJob.length_bytes {q : TeleJob} (h : q.pairs ≠ []) (ftime : Nat) : (q.bytes ftime).length = 32 := by
  unfold TeleJob.bytes
  split
  · next hw => exact absurd hw (worst_ne_none h)
  · simp only [List.length_append, length_leBytes]

/-- A function without a ring keeps no entry. -/
theorem State.teleWrite_of_teln {s : State} {f : Nat} (h : (s.func f).teln = 0) (l : List Byte) : s.teleWrite f l = s := by
  simp [State.teleWrite, h]

theorem State.teleWrite_of_bytes {s : State} {f : Nat} {l : List Byte} (h : (s.func f).teln ≠ 0) (hl : l.length = 32) :
    (s.teleWrite f l).work = s.work ∧ (s.teleWrite f l).teams = s.teams ∧ ((s.teleWrite f l).func f).telat = (s.func f).telat + 1 ∧
    ∀ a, a < (s.func f).telbase.toNat + 32 * ((s.func f).telat % (s.func f).teln) ∨
        (s.func f).telbase.toNat + 32 * ((s.func f).telat % (s.func f).teln) + 32 ≤ a → (s.teleWrite f l).mem.read a = s.mem.read a := by
  have hne : ¬ ((s.func f).teln = 0 ∨ l = []) := by
    rintro (e | rfl)
    · exact h e
    · simp at hl
  obtain ⟨-, hm⟩ := s.homeWrite_read ((s.func f).telbase.toNat + 32 * ((s.func f).telat % (s.func f).teln)) l
    (by decide : PKind.hbm ≠ .host)
  rw [hl] at hm
  unfold State.teleWrite
  simp only [if_neg hne]
  refine ⟨State.homeWrite_work .., State.homeWrite_teams .., ?_, hm⟩
  rw [State.func_setFunc]

theorem jobsComplete : JobsComplete := by
  refine ⟨?_, ?_, ?_, ?_⟩
  · intro s k j t T hj ht hT hn hend ho hage
    have hgo : ¬ (j.done = false ∧ (j.status = 0 ∨ s.jobQuiet j = false)) := by
      obtain ⟨hs, hk, hb, hg⟩ | ⟨hs, hb⟩ := hend
      · simp [Job.done_copy hs hk hb hg ho]
      · simp [hs, s.jobQuiet_of_idle ho hb]
    obtain ⟨u, hx, hjobs, hmem, hu⟩ := exec_jobComplete_team hj ht hT hn hgo
    exact ⟨u, _, hx, hjobs, hmem, hu, Team.jobDone_stats hage, T.jobDone_beams j, Team.jobDone_queues, fun q i => Team.jobDone_slot⟩
  · intro s k j hj hd hs
    change execJobComplete k s = _
    simp [execJobComplete, hj, hd, hs]
  · intro s k q hq h0
    change execTelemetryRecompute k s = _
    unfold execTelemetryRecompute
    simp only [hq]
    rw [State.teleWrite_of_teln (by exact h0)]
  · intro s k q hq h0 hp
    obtain ⟨hw, ht, hf, hm⟩ := State.teleWrite_of_bytes (s := { s with work := { s.work with teleq := s.work.teleq.eraseIdx k } })
      (f := q.func) (by exact h0) (q.length_bytes hp s.ftime)
    refine ⟨_, ?_, by rw [hw], ht, hf, hm⟩
    change execTelemetryRecompute k s = _
    simp only [execTelemetryRecompute, hq]

end Sys2Proof.Machine
end

section
/-! SUPPORT. Staging jobs (R300, R312, R314, R315). -/

namespace Sys2Proof.Machine

open Sys2Proof.Claim

/-! ### A slot's validity and unit (R300) -/

theorem tagGen_eq_iff (w : Nat) (g : BitVec 12) : tagGen w = g ↔ w % 2 ^ 12 = g.toNat := by
  rw [← BitVec.toNat_inj, tagGen, BitVec.toNat_ofNat]

theorem State.kvUnit_eq_sum (s : State) (es : Nat) (els : List (Nat × PKind)) :
    s.kvUnit es els =
      ((List.range els.length).map fun i => s.mem.readNat ((els.map (·.1)).getD i 0) es * 2 ^ (8 * es * i)).sum := by
  induction els with
  | nil => rfl
  | cons a r ih =>
    rw [State.kvUnit, ih, List.length_cons, List.range_succ_eq_map, List.map_cons, List.sum_cons, List.map_map, ← List.sum_map_mul_left]
    congr 1
    · simp
    · congr 1
      refine List.map_congr_left fun i _ => ?_
      simp only [Function.comp_apply, List.map_cons, List.getD_cons_succ, Nat.mul_succ, Nat.pow_add]
      ring

/-- kvslot of a slot without an error. -/
theorem State.kvSlot_of_good {s : State} {k : KvLane} (h : k.bad s = false) (func : Nat) :
    (s.kvSlot func k).1 = slotValid s k ∧ (s.kvSlot func k).2.1 = if slotValid s k then unitAt s k else 0 := by
  have hu : unitAt s k = s.kvUnit k.es k.els := (s.kvUnit_eq_sum k.es k.els).symm
  have hv : slotValid s k = (k.there && decide (k.committed = true ∨
      (tagWr (s.mem.readNat k.tag 4) = true ∧ tagGen (s.mem.readNat k.tag 4) = k.d.vgen))) := by
    simp [slotValid, tagWr, tagGen_eq_iff]
  rw [hu, hv]
  cases ht : k.there with
  | false => simp [State.kvSlot, ht]
  | true =>
    simp only [State.kvSlot, ht, h, Bool.true_and, Bool.true_eq_false, Bool.false_eq_true, if_false]
    by_cases hw : k.committed = true ∨ (tagWr (s.mem.readNat k.tag 4) = true ∧ tagGen (s.mem.readNat k.tag 4) = k.d.vgen)
    · rw [if_pos hw, decide_eq_true hw]
      exact ⟨rfl, rfl⟩
    · rw [if_neg hw, decide_eq_false hw]
      exact ⟨rfl, rfl⟩

/-! ### What a staging job fills its slot with (R314) -/

theorem le_roundUp {n k : Nat} (hk : 0 < k) : n ≤ roundUp n k := by
  have hd := Nat.div_add_mod (n + k - 1) k
  have hm := Nat.mod_lt (n + k - 1) hk
  rw [Nat.mul_comm] at hd
  unfold roundUp
  omega

/-- Row i of the held rows, of rb bytes each and a validity byte. -/
def stagedRow (rb : Nat) (l : List Byte) (i : Nat) : List Byte := (l.drop (i * (rb + 1))).take (rb + 1)

/-- The validity bit of a row. -/
def stagedBit (n rb : Nat) (l : List Byte) (i : Nat) : Nat := if i < n ∧ (stagedRow rb l i).getD rb 0 ≠ 0 then 1 else 0

/-- A number from bits, bit 0 first. -/
def ofBits (b : Nat → Nat) (m : Nat) : Nat := ((List.range m).map fun k => b k * 2 ^ k).sum

theorem stageBytes_eq (n rb : Nat) (l : List Byte) :
    stageBytes n rb l = (List.range n).flatMap (fun i => (stagedRow rb l i).take rb) ++ List.replicate (roundUp (n * rb) 128 - n * rb) 0 ++
      (List.range ((n + 31) / 32)).flatMap fun w => leBytes 4 (ofBits (fun k => stagedBit n rb l (32 * w + k)) 32) := rfl

theorem length_stagedRow_take {n rb i : Nat} {l : List Byte} (hl : l.length = n * (rb + 1)) (hi : i < n) :
    ((stagedRow rb l i).take rb).length = rb := by
  have h : (i + 1) * (rb + 1) ≤ n * (rb + 1) := Nat.mul_le_mul_right _ hi
  rw [Nat.succ_mul] at h
  simp only [stagedRow, List.take_take, List.length_take, List.length_drop, hl]
  omega

theorem stagedRow_getD {rb i r : Nat} (l : List Byte) (hr : r < rb + 1) : (stagedRow rb l i).getD r 0 = l.getD (i * (rb + 1) + r) 0 := by
  exact getD_take_drop hr

theorem length_stagedRows {n rb : Nat} {l : List Byte} (hl : l.length = n * (rb + 1)) :
    ((List.range n).flatMap fun i => (stagedRow rb l i).take rb).length = n * rb :=
  (length_flatMap_range fun _ hi => length_stagedRow_take hl hi).trans (Nat.mul_comm ..)

theorem length_stageBytes {n rb : Nat} {l : List Byte} (hl : l.length = n * (rb + 1)) :
    (stageBytes n rb l).length = roundUp (n * rb) 128 + 4 * ((n + 31) / 32) := by
  have := le_roundUp (n := n * rb) (k := 128) (by decide)
  rw [stageBytes_eq, List.length_append, List.length_append, length_stagedRows hl, List.length_replicate,
    length_flatMap_range fun i _ => length_leBytes 4 _]
  omega

/-- The rows come first. -/
theorem stageBytes_row {n rb x y : Nat} {l : List Byte} (hl : l.length = n * (rb + 1)) (hx : x < n) (hy : y < rb) :
    (stageBytes n rb l).getD (x * rb + y) 0 = l.getD (x * (rb + 1) + y) 0 := by
  have hlt : x * rb + y < n * rb :=
    calc x * rb + y < (x + 1) * rb := by rw [Nat.succ_mul]; omega
      _ ≤ n * rb := Nat.mul_le_mul_right rb hx
  rw [stageBytes_eq, List.append_assoc, List.getD_append _ _ _ _ (by rw [length_stagedRows hl]; exact hlt), Nat.mul_comm x rb,
    getD_flatMap_range (fun _ hi => length_stagedRow_take hl hi) hx hy, ← stagedRow_getD l (by omega : y < rb + 1)]
  simp [List.getD_eq_getElem?_getD, hy]

/-- The words of the validity bitmap follow at the next line. -/
theorem stageBytes_bitmap {n rb w r : Nat} {l : List Byte} (hl : l.length = n * (rb + 1)) (hw : w < (n + 31) / 32) (hr : r < 4) :
    (stageBytes n rb l).getD (roundUp (n * rb) 128 + 4 * w + r) 0 =
      (leBytes 4 (ofBits (fun k => stagedBit n rb l (32 * w + k)) 32)).getD r 0 := by
  have hru := le_roundUp (n := n * rb) (k := 128) (by decide)
  have hlen : ((List.range n).flatMap (fun i => (stagedRow rb l i).take rb) ++
      List.replicate (roundUp (n * rb) 128 - n * rb) (0 : Byte)).length = roundUp (n * rb) 128 := by
    rw [List.length_append, length_stagedRows hl, List.length_replicate]
    omega
  rw [stageBytes_eq, List.getD_append_right _ _ _ _ (by rw [hlen]; omega), hlen, Nat.add_assoc, Nat.add_sub_cancel_left,
    getD_flatMap_range (fun i _ => length_leBytes 4 _) hw hr]

theorem ofBits_lt {b : Nat → Nat} (hb : ∀ k, b k ≤ 1) (m : Nat) : ofBits b m < 2 ^ m := by
  induction m with
  | zero => exact Nat.one_pos
  | succ m ih =>
    have h : b m * 2 ^ m ≤ 1 * 2 ^ m := Nat.mul_le_mul_right _ (hb m)
    simp only [ofBits, List.range_succ, List.map_append, List.sum_append, List.map_cons, List.map_nil, List.sum_cons, List.sum_nil,
      Nat.pow_succ] at ih ⊢
    omega

theorem testBit_ofBits {b : Nat → Nat} (hb : ∀ k, b k ≤ 1) {m i : Nat} (hi : i < m) : (ofBits b m).testBit i = decide (b i = 1) := by
  induction m with
  | zero => omega
  | succ m ih =>
    have hs : ofBits b (m + 1) = 2 ^ m * b m + ofBits b m := by
      simp [ofBits, List.range_succ, Nat.add_comm, Nat.mul_comm]
    rw [hs, Nat.testBit_two_pow_mul_add _ (ofBits_lt hb m)]
    obtain h | rfl := Nat.lt_succ_iff_lt_or_eq.mp hi
    · rw [if_pos h, ih h]
    · obtain h0 | h1 := Nat.le_one_iff_eq_zero_or_eq_one.mp (hb i) <;> simp [*]

theorem stagedBit_le (n rb : Nat) (l : List Byte) (i : Nat) : stagedBit n rb l i ≤ 1 := by
  unfold stagedBit
  split_ifs <;> decide

/-! ### Bytes in a scratchpad -/

theorem Memory.read_writeBytes_getD (m : Memory) {a i : Nat} {l : List Byte} (h : i < l.length) :
    (m.writeBytes a l).read (a + i) = l.getD i 0 := by
  rw [Memory.read_writeBytes_same _ _ _ h]
  simp [h]

theorem Memory.readNat_of_leBytes {m : Memory} {a n v : Nat} (h : ∀ i < n, m.read (a + i) = (leBytes n v).getD i 0) :
    m.readNat a n = v % 256 ^ n := by
  induction n generalizing a v with
  | zero => simp [Memory.readNat, Nat.mod_one]
  | succ n ih =>
    have h0 : m.read a = BitVec.ofNat 8 v := h 0 (by omega)
    have hr : m.readNat (a + 1) n = v / 256 % 256 ^ n := ih fun i hi => by
      have := h (i + 1) (by omega)
      rwa [show a + (i + 1) = a + 1 + i by omega] at this
    rw [Memory.readNat, h0, hr, BitVec.toNat_ofNat, show 256 ^ (n + 1) = 256 * 256 ^ n from Nat.pow_succ', Nat.mod_mul]

theorem Queue.size_eq_ctrlSize (q : Queue) : q.size = ctrlSize q.ctrl := by
  rw [Queue.size, ctrlSize, BitVec.extractLsb'_toNat, Nat.shiftRight_eq_div_pow, Nat.pow_add, Nat.mul_comm]

theorem Queue.offset_eq_slotOffset (q : Queue) (i : Nat) : q.offset i = slotOffset q i := by
  rw [Queue.offset, slotOffset, Queue.size_eq_ctrlSize, Queue.base, ctrlBase, BitVec.extractLsb'_toNat, Nat.shiftRight_zero, Nat.mul_comm]

/-- The fill: rows, bitmap, and nothing else. -/
theorem Memory.writeBytes_stageBytes (m : Memory) {n rb off : Nat} {l : List Byte} (hl : l.length = n * (rb + 1)) :
    (∀ x y, x < n → y < rb → (m.writeBytes off (stageBytes n rb l)).read (off + x * rb + y) = l.getD (x * (rb + 1) + y) 0) ∧
    (∀ x, x < n → (((m.writeBytes off (stageBytes n rb l)).readNat (off + roundUp (n * rb) 128 + 4 * (x / 32)) 4).testBit (x % 32) = true ↔
      l.getD (x * (rb + 1) + rb) 0 ≠ 0)) ∧
    ∀ a, a < off ∨ off + roundUp (n * rb) 128 + 4 * ((n + 31) / 32) ≤ a → (m.writeBytes off (stageBytes n rb l)).read a = m.read a := by
  have hlen := length_stageBytes hl
  have hru := le_roundUp (n := n * rb) (k := 128) (by decide)
  refine ⟨fun x y hx hy => ?_, fun x hx => ?_, fun a ha => Memory.read_writeBytes_other _ _ _ (by omega)⟩
  · have hlt : x * rb + y < n * rb :=
      calc x * rb + y < (x + 1) * rb := by rw [Nat.succ_mul]; omega
        _ ≤ n * rb := Nat.mul_le_mul_right rb hx
    rw [Nat.add_assoc, Memory.read_writeBytes_getD _ (by omega), stageBytes_row hl hx hy]
  · have hb (k : Nat) := stagedBit_le n rb l (32 * (x / 32) + k)
    have hw : (m.writeBytes off (stageBytes n rb l)).readNat (off + roundUp (n * rb) 128 + 4 * (x / 32)) 4 =
        ofBits (fun k => stagedBit n rb l (32 * (x / 32) + k)) 32 := by
      rw [Memory.readNat_of_leBytes (v := ofBits (fun k => stagedBit n rb l (32 * (x / 32) + k)) 32) fun i hi => ?_]
      · exact Nat.mod_eq_of_lt (ofBits_lt hb 32)
      · rw [show off + roundUp (n * rb) 128 + 4 * (x / 32) + i = off + (roundUp (n * rb) 128 + 4 * (x / 32) + i) by omega,
          Memory.read_writeBytes_getD _ (by omega), stageBytes_bitmap hl (by omega) hi]
    have hbit : stagedBit n rb l x = 1 ↔ l.getD (x * (rb + 1) + rb) 0 ≠ 0 := by
      rw [← stagedRow_getD l (Nat.lt_succ_self rb)]
      simp [stagedBit, hx]
    rw [hw, testBit_ofBits hb (Nat.mod_lt _ (by decide)), Nat.div_add_mod, decide_eq_true_iff, hbit]

/-! ### The steps of a staging job (R314, R315) -/

/-- The requester of a job's translations. -/
def Job.requester (j : Job) : Requester := { lane := none, core := j.core, func := j.func, part := j.part }

theorem State.jobStep_stage {s : State} {k : Nat} {j : Job} {n p0 layer : Nat} {v w : Bool} (h : JobRuns s k j)
    (hk : j.kind = .stage v w n p0 layer) : s.jobStep j = s.stageStep j v w n p0 layer := by
  unfold State.jobStep
  simp only [if_neg (not_held_of_jobRuns h), hk]

theorem State.stageStep_open {s : State} {j : Job} {n p0 layer i : Nat} (v w : Bool) (hs : j.slot = some i) (hb : j.buf = []) :
    s.stageStep j v w n p0 layer = s.stageOpen j j.requester w n p0 layer := by
  simp [State.stageStep, hs, hb, Job.requester]

theorem State.stageStep_next {s : State} {j : Job} {n p0 layer i : Nat} (v w : Bool) (hs : j.slot = some i) (hb : j.buf ≠ [])
    (hp : j.put < n) : s.stageStep j v w n p0 layer = s.stageNext j j.requester v p0 layer := by
  simp [State.stageStep, hs, hb, hp, Job.requester]

/-- The slot holds the rows and the bitmap of a staging job. -/
def StageFits (T : Team) (j : Job) (d : KDesc) (n layer : Nat) : Prop :=
  layer < d.layers ∧ roundUp (n * (d.heads * d.dim * d.es)) 128 + 4 * ((n + 31) / 32) ≤ ctrlSize (queueIn T (j.queue.getD 0)).ctrl

theorem stage_size_test_iff {s : State} {j : Job} {t : Nat} {T : Team} (d : KDesc) (n layer : Nat) (ht : j.team = some t) (hT : s.team? t = some T) :
    (layer ≥ d.layers ∨ stageSize n (d.row * d.es) > (j.team.bind s.team?).elim 0 fun T => (T.queue (j.queue.getD 0)).size) ↔
      ¬ StageFits T j d n layer := by
  simp only [ht, Option.bind_some, hT, Option.elim_some, Queue.size_eq_ctrlSize, stageSize, KDesc.row, StageFits, Team.queue, queueIn]
  omega

/-- The job holds the line of its descriptor. -/
def Job.opened (m : Memory) (pa : Nat) (j : Job) : Job :=
  { j with buf := m.readBytes pa 128, cache := [(lineOf pa, m.readBytes pa 128)] }

theorem State.stageOpen_small {s : State} {j : Job} {n p0 layer pa t : Nat} {w : Bool} {q : Requester} {d : KDesc} {T : Team}
    (hd : s.kvDesc q j.tenant false j.from_ = .ok (pa, d)) (ht : j.team = some t) (hT : s.team? t = some T)
    (h : ¬ StageFits T j d n layer) : s.stageOpen j q w n p0 layer = s.failJob j.id 3 := by
  simp only [State.stageOpen, hd, if_pos ((stage_size_test_iff d n layer ht hT).mpr h)]

theorem State.stageOpen_now {s : State} {j : Job} {n p0 layer pa t : Nat} {q : Requester} {d : KDesc} {T : Team}
    (hd : s.kvDesc q j.tenant false j.from_ = .ok (pa, d)) (ht : j.team = some t) (hT : s.team? t = some T)
    (h : StageFits T j d n layer) : s.stageOpen j q false n p0 layer = s.modJob j.id (Job.opened s.mem pa) := by
  simp only [State.stageOpen, hd, if_neg (fun h' => (stage_size_test_iff d n layer ht hT).mp h' h), if_true]
  rfl

theorem State.stageOpen_wait {s : State} {j : Job} {n p0 layer pa t fra : Nat} {q : Requester} {d : KDesc} {T : Team} {kd : PKind}
    (hd : s.kvDesc q j.tenant false j.from_ = .ok (pa, d)) (ht : j.team = some t) (hT : s.team? t = some T)
    (h : StageFits T j d n layer) (hf : s.kvFra q d false layer = .ok (fra, kd)) :
    s.stageOpen j q true n p0 layer =
      if p0 + n ≤ s.mem.readNat fra 4 then (roEmptied s j.core).modJob j.id (Job.opened s.mem pa) else s := by
  simp only [State.stageOpen, hd, if_neg (fun h' => (stage_size_test_iff d n layer ht hT).mp h' h), hf, Bool.true_eq_false, if_false]
  rfl

theorem State.stageNext_bad {s : State} {j : Job} {p0 layer : Nat} {q : Requester} {v : Bool} {slot : KvLane} {lines : List Nat}
    (hrow : (s.seen j.cache).stageRow j q j.desc (128 * (j.cache.head?.elim 0 (·.1))) v layer (p0 + j.put) = .ok (slot, lines))
    (hc : slot.committed = true) (hb : slot.bad s = true) : s.stageNext j q v p0 layer = s.failJob j.id 4 := by
  simp only [State.stageNext, hrow, hc, hb, and_self, if_true]

/-- The job holds one position more. -/
def Job.staged (s : State) (slot : KvLane) (held : List (Nat × List Byte)) (bytes : Nat) (j : Job) : Job :=
  { j with buf := j.buf ++ leBytes bytes (if slotValid (s.seen held) slot then unitAt (s.seen held) slot else 0) ++
             [if slotValid (s.seen held) slot then 1 else 0],
           put := j.put + 1, cache := held }

theorem State.stageNext_good {s : State} {j : Job} {p0 layer : Nat} {q : Requester} {v : Bool} {slot : KvLane} {lines : List Nat}
    (hrow : (s.seen j.cache).stageRow j q j.desc (128 * (j.cache.head?.elim 0 (·.1))) v layer (p0 + j.put) = .ok (slot, lines))
    (hb : slot.bad s = false) : s.stageNext j q v p0 layer =
      s.modJob j.id (Job.staged s slot (s.readLines j.cache lines) (j.desc.heads * j.desc.dim * j.desc.es)) := by
  obtain ⟨hv, hu⟩ := State.kvSlot_of_good (s := s.seen (s.readLines j.cache lines)) (k := slot) hb j.func
  simp only [State.stageNext, hrow, hb, Bool.false_eq_true, and_false, if_false, hv, hu]
  unfold Job.staged
  cases slotValid (s.seen (s.readLines j.cache lines)) slot <;> rfl

/-- Bytes lie in the team's scratchpad. -/
def Team.filled (T : Team) (off : Nat) (bytes : List Byte) : Team := { T with scratch := T.scratch.writeBytes off bytes }

/-- The job has filled its slot with rows of `size` bytes altogether. -/
def Job.filled (size : Nat) (j : Job) : Job := { j with got := true, moved := size }

/-- The job's slot is filled, in its team's scratchpad. -/
theorem State.stageStep_fill {s : State} {j : Job} {n p0 layer i qn t rb : Nat} (v w : Bool) {T : Team} (hs : j.slot = some i)
    (hb : j.buf ≠ []) (hp : n ≤ j.put) (hg : j.got = false) (ht : j.team = some t) (hT : s.team? t = some T) (hq : j.queue = some qn)
    (hw : s.wakeEnd T.coreId = none) (hrb : j.desc.heads * j.desc.dim * j.desc.es = rb) :
    s.stageStep j v w n p0 layer =
      (s.setTeam t (T.filled (slotOffset (queueIn T qn) i) (stageBytes n rb (j.buf.drop 128)))).modJob j.id (Job.filled (n * rb)) := by
  subst hrb
  have hn : ¬ j.put < n := Nat.not_lt.mpr hp
  have hslot : ¬ (some i = none) := Option.some_ne_none i
  simp only [State.stageStep, State.jobSlot, hs, if_neg hslot, if_neg hb, if_neg hn, hg, Bool.false_eq_true, if_false, ht, hq, hT]
  simp only [State.slotWrite, State.fillWaits, hw, Bool.false_eq_true, if_false, ht, Option.getD_some, State.modTeam_of_team? hT,
    Queue.offset_eq_slotOffset, Nat.add_zero]
  rfl

theorem stagingMoves : StagingMoves := by
  refine ⟨?_, ?_, ?_⟩
  · intro s k n p0 layer i pa v waitf j d t T hr hk hs hb ht hT q rb fits hd
    have hstep : s.jobStep j = s.stageOpen j q waitf n p0 layer :=
      (State.jobStep_stage hr hk).trans (State.stageStep_open v waitf hs hb)
    refine ⟨?_, fun fra kd hf hw hfra => ⟨?_, ?_⟩, ?_⟩
    · rintro hf rfl
      exact jobGoes_of_modJob hr (hstep.trans (State.stageOpen_now hd ht hT hf)) rfl ⟨rfl, rfl, rfl⟩
    · subst hw
      intro hle
      exact jobGoes_of_modJob hr (hstep.trans ((State.stageOpen_wait hd ht hT hf hfra).trans (if_pos hle))) rfl ⟨rfl, rfl, rfl⟩
    · subst hw
      intro hlt
      rw [exec_sliceAccess_job hr.1, hstep, State.stageOpen_wait hd ht hT hf hfra, if_neg (Nat.not_le.mpr hlt)]
    · intro hf
      exact jobGoes_of_failJob hr (hstep.trans (State.stageOpen_small hd ht hT hf)) fun u hu => ⟨hu, rfl⟩
  · intro s k n p0 layer i v waitf j slot lines hr hk hs hb hp q hrow s2
    have hstep : s.jobStep j = s.stageNext j q v p0 layer :=
      (State.jobStep_stage hr hk).trans (State.stageStep_next v waitf hs hb hp)
    refine ⟨fun hc hbad => ?_, fun hgood => ?_⟩
    · exact jobGoes_of_failJob hr (hstep.trans (State.stageNext_bad hrow hc hbad)) fun u hu => ⟨hu, rfl⟩
    · exact jobGoes_of_modJob hr (hstep.trans (State.stageNext_good hrow hgood)) rfl ⟨rfl, rfl, rfl⟩
  · intro s k n p0 layer i qn v waitf j t T hr hk hs hb hp hg ht hT hq hw rb off hl
    have hstep := (State.jobStep_stage hr hk).trans (State.stageStep_fill (p0 := p0) (layer := layer) v waitf hs hb hp hg ht hT hq hw rfl)
    have hdrop (x : Nat) : (j.buf.drop 128).getD x 0 = j.buf.getD (128 + x) 0 := by simp [List.getD_eq_getElem?_getD]
    obtain ⟨hrows, hbits, hrest⟩ := T.scratch.writeBytes_stageBytes (n := n) (rb := rb) (off := off) (l := j.buf.drop 128)
      (by rw [List.length_drop, hl, Nat.add_sub_cancel_left])
    simp only [hdrop, ← Nat.add_assoc] at hrows hbits
    exact jobGoes_of_modJob hr hstep rfl
      ⟨rfl, rfl, rfl, _, State.team?_setTeam s t _, hrows, hbits, hrest⟩

/-- Settles O49: each step of a job is read off the accesses that it comes to, copy, gather, collective and staging job in turn; the
collective's result is the ring sum of R75, and the staging job's fill lies in its slot byte for byte. -/
theorem jobsRun : Obligations.JobsRun := ⟨copiesMove, gathersMove, collectivesMove, stagingMoves, jobsComplete⟩

end Sys2Proof.Machine
end

section
/-! SUPPORT. Updates of one beam that follow one another: the later one stands. -/

namespace Sys2Proof.Machine

open Sys2Proof.Claim

@[simp] theorem aset_aset_same {α : Type} (m : List (Nat × α)) (k : Nat) (v w : α) : aset (aset m k v) k w = aset m k w := by
  induction m with
  | nil => simp [aset]
  | cons e r ih =>
    by_cases h : e.1 = k
    · simp [aset, h]
    · simp [aset, h, ih]

@[simp] theorem State.setTeam_setTeam (s : State) (t : Nat) (T U : Team) : (s.setTeam t T).setTeam t U = s.setTeam t U := by
  simp [State.setTeam]

@[simp] theorem Team.setBeam_setBeam (T : Team) (k : Nat) (b c : Beam) : (T.setBeam k b).setBeam k c = T.setBeam k c := by
  simp [Team.setBeam]

theorem State.setBeam_eq_setTeam {s : State} {r : Ref} {T : Team} (h : s.team? r.t = some T) (b : Beam) :
    s.setBeam r b = s.setTeam r.t (T.setBeam r.b b) := by
  rw [State.setBeam, h]

@[simp] theorem State.setBeam_setBeam (s : State) (r : Ref) (b c : Beam) : (s.setBeam r b).setBeam r c = s.setBeam r c := by
  cases h : s.team? r.t with
  | none => simp [State.setBeam, h]
  | some T =>
    rw [State.setBeam_eq_setTeam h, State.setBeam_eq_setTeam h, State.setBeam_eq_setTeam (State.team?_setTeam ..), State.setTeam_setTeam,
      Team.setBeam_setBeam]

/-- A beam that is put where one stands is found. -/
theorem hasBeam_setBeam {s : State} {r : Ref} {T : Team} {b : Beam} (h : HasBeam s r T b) (c : Beam) :
    HasBeam (s.setBeam r c) r (T.setBeam r.b c) c := by
  have := hasBeam_modBeam h fun _ => c
  rwa [State.modBeam_of_hasBeam h] at this

end Sys2Proof.Machine
end


section
/-! SUPPORT. Instructions with a fixed latency (R83): each adds one result on its way to its own D, and changes nothing else. -/

namespace Sys2Proof.Machine

open Sys2Proof.Claim

/-! ### The registers of D -/

/-- D of the instruction is written, a group of at least k registers. -/
def WritesGroup (e : Env) (k : Nat) : Prop := useWrites e.g.d = true ∧ k ≤ useLen e.g.d

/-- The number of registers that a field writes. -/
def groupSize (u : Use) : Nat := if useWrites u then useLen u else 0

theorem WritesGroup.mem_writeNames {e : Env} {k j : Nat} (h : WritesGroup e k) (hj : j < k) : e.x.d.toNat + j ∈ writeNames e.g e.x := by
  obtain ⟨hd, hk⟩ := h
  rw [writeNames, if_pos hd]
  exact List.mem_map.mpr ⟨j, List.mem_range.mpr (Nat.lt_of_lt_of_le hj hk), rfl⟩

/-- Values for registers of D, each in one of the 32 lanes. -/
def InDestination (e : Env) (vals : List (Nat × Word)) : Prop :=
  ∀ w ∈ vals, ∃ n ∈ writeNames e.g e.x, ∃ l < 32, w.1 = 32 * n + l

theorem WritesGroup.lanes {e : Env} (h : WritesGroup e 1) {ls : List Nat} (hl : ∀ l ∈ ls, l < 32) (f : Nat → Word) :
    InDestination e (ls.map fun l => (regKey e.x.d.toNat l, f l)) := by
  intro w hm
  obtain ⟨l, hm', rfl⟩ := List.mem_map.mp hm
  exact ⟨_, h.mem_writeNames Nat.one_pos, l, hl l hm', rfl⟩

theorem WritesGroup.pairs {e : Env} (h : WritesGroup e 2) {ls : List Nat} (hl : ∀ l ∈ ls, l < 32) (f : Nat → Dword) :
    InDestination e (ls.flatMap fun l => pairWords e.x.d.toNat l (f l)) := by
  intro w hm
  obtain ⟨l, hm', hw⟩ := List.mem_flatMap.mp hm
  rcases List.mem_pair.mp hw with rfl | rfl
  · exact ⟨_, h.mem_writeNames Nat.two_pos, l, hl l hm', rfl⟩
  · exact ⟨_, h.mem_writeNames Nat.one_lt_two, l, hl l hm', rfl⟩

theorem Env.lt_of_mem_activeLanes {e : Env} : ∀ l ∈ e.activeLanes, l < 32 := fun _ h => mem_lanes.mp (List.mem_of_mem_filter h)

/-! ### Every instruction with a fixed latency -/

/-- An answer that holds the instruction, or adds one result for D, with flags only where the opcode may raise them. -/
def ResultOnly (e : Env) (s : State) (x : Res) : Prop :=
  x = .hold ∨ ∃ vals fl, x = .done (e.fixed s vals fl) ∧ InDestination e vals ∧ (raisesFlags e.n ∨ fl = 0)

theorem resultOnly_lanes {e : Env} {s : State} {f : Nat → Word} {fl : Flags} (h : WritesGroup e 1) (hf : raisesFlags e.n ∨ fl = 0) :
    ResultOnly e s (e.fixedLanes s f fl) :=
  .inr ⟨_, _, rfl, h.lanes Env.lt_of_mem_activeLanes f, hf⟩

theorem resultOnly_pairs {e : Env} {s : State} {f : Nat → Dword} (h : WritesGroup e 2) : ResultOnly e s (e.fixedPairs s f) :=
  .inr ⟨_, _, rfl, h.pairs Env.lt_of_mem_activeLanes f, .inr rfl⟩

theorem resultOnly_fredIdx {e : Env} {s : State} {big : Bool} (h : WritesGroup e 2) (hf : raisesFlags e.n) :
    ResultOnly e s (bodyFredIdx big e s) :=
  .inr ⟨_, _, rfl, h.pairs Env.lt_of_mem_activeLanes _, .inl hf⟩

theorem resultOnly_getm {e : Env} {s : State} (h : WritesGroup e 1) : ResultOnly e s (bodyGetm e s) :=
  .inr ⟨_, _, rfl, h.lanes (fun _ => mem_lanes.mp) _, .inr rfl⟩

theorem resultOnly_twrd {e : Env} {s : State} (h : WritesGroup e 1) : ResultOnly e s (bodyTwrd e s) := by
  unfold bodyTwrd
  split
  · exact .inl rfl
  · exact resultOnly_lanes h (.inr rfl)

/-- `SRD` writes a pair with PAIR, one register without (R177). -/
theorem resultOnly_srd {e : Env} {s : State} (h : e.g.d = if e.x.ff 0 1 = 1 then .dp else .d1) : ResultOnly e s (bodySrd e s) := by
  unfold bodySrd
  split
  · next hp => exact resultOnly_pairs (by rw [WritesGroup, h, if_pos hp]; exact ⟨rfl, Nat.le_refl 2⟩)
  · next hp => exact resultOnly_lanes (by rw [WritesGroup, h, if_neg hp]; exact ⟨rfl, Nat.le_refl 1⟩) (.inr rfl)

/-- The opcode and the meaning of the fields that an instruction sees are those of its own words. -/
def Sees (n : Nat) (e : Env) : Prop := e.n = n ∧ e.g = (xsig n e.x).getD {}

theorem Attempts.sees {i : Instr} {s s1 : State} {e : Env} (h : Attempts i s e s1) : Sees (numberOf i) e := by
  obtain ⟨-, -, -, -, -, hv, -⟩ := h
  rw [hv]
  exact ⟨rfl, rfl⟩

theorem Sees.writes {n k : Nat} {e : Env} (h : Sees n e) (hw : ∀ x, groupSize ((xsig n x).getD {}).d = k + 1) :
    WritesGroup e (k + 1) := by
  obtain ⟨-, hg⟩ := h
  have hk := hw e.x
  rw [← hg, groupSize] at hk
  split at hk
  · next hd => exact ⟨hd, hk.ge⟩
  · cases hk

/-- Whether an opcode may raise flags, as a test. -/
def mayRaise (n : Nat) : Bool := decide (0x1C ≤ n ∧ n ≤ 0x2A) || decide (0x100 ≤ n ∧ n ≤ 0x11D)

theorem mayRaise_iff {n : Nat} : mayRaise n = true ↔ raisesFlags n := by simp [mayRaise, raisesFlags]

theorem Sees.raises {n : Nat} {e : Env} (h : Sees n e) (hf : mayRaise n = true) : raisesFlags e.n := by
  obtain ⟨rfl, -⟩ := h
  exact mayRaise_iff.mp hf

/-- The body is the instruction's own, and it adds a result only. -/
def AddsResult (i : Instr) (body : Env → State → Res) : Prop :=
  (∀ s, exec i s = Issue.conclude (startOf i s) body) ∧ ∀ e s, Sees (numberOf i) e → ResultOnly e s (body e s)

/-- The opcodes with a fixed latency that raise no flags and that a base word can hold, with `SRD`. -/
def compactResult (n : Nat) : Bool :=
  decide (1 ≤ n ∧ n ≤ 0x1B) || decide (0x2B ≤ n ∧ n ≤ 0x2C) || n == 0x2F || n == 0x38 || decide (0x3A ≤ n ∧ n ≤ 0x3E) ||
    n == 0x4D

/-- The integer opcodes with a fixed latency that the extended form alone holds. -/
def wideResult (n : Nat) : Bool :=
  decide (0x80 ≤ n ∧ n ≤ 0x8D) || decide (0x92 ≤ n ∧ n ≤ 0x99) || decide (0x9B ≤ n ∧ n ≤ 0xA1)

theorem result_of_fixedLat {n : Nat} (h : fixedLat n ≠ none) : compactResult n = true ∨ wideResult n = true ∨ mayRaise n = true := by
  simp only [compactResult, wideResult, mayRaise, Bool.or_eq_true, decide_eq_true_eq, beq_iff_eq]
  unfold fixedLat at h
  split_ifs at h
  case neg => exact absurd rfl h
  all_goals omega

theorem exec_addsResult_of_compactResult (i : Instr) (h : compactResult (numberOf i) = true) : ∃ body, AddsResult i body := by
  cases i with
  | mov o | add o | sub o | mul o | and o | or o | xor o | shl o | shr o | sar o | min o | max o | minu o | maxu o | andn o
  | addi o | shli o | shri o | sari o | andi o | ceq o | cne o | clt o | cle o | cltu o | cleu o | sel o | shfl o | shflx o
  | radd o | rmax o | mad o | popc o | clz o =>
    exact ⟨_, fun _ => Issue.base_eq rfl, fun _ _ h => resultOnly_lanes (h.writes fun _ => rfl) (.inr rfl)⟩
  | movX x | addX x | subX x | mulX x | andX x | orX x | xorX x | shlX x | shrX x | sarX x | minX x | maxX x | minuX x
  | maxuX x | andnX x | addiX x | shliX x | shriX x | sariX x | andiX x | ceqX x | cneX x | cltX x | cleX x | cltuX x | cleuX x
  | selX x | shflX x | shflxX x | raddX x | rmaxX x | madX x | popcX x | clzX x =>
    exact ⟨_, fun _ => Issue.ext_eq rfl, fun _ _ h => resultOnly_lanes (h.writes fun _ => rfl) (.inr rfl)⟩
  | getm o => exact ⟨_, fun _ => Issue.base_eq rfl, fun _ _ h => resultOnly_getm (h.writes fun _ => rfl)⟩
  | getmX x => exact ⟨_, fun _ => Issue.ext_eq rfl, fun _ _ h => resultOnly_getm (h.writes fun _ => rfl)⟩
  | twrd o => exact ⟨_, fun _ => Issue.base_eq rfl, fun _ _ h => resultOnly_twrd (h.writes fun _ => rfl)⟩
  | twrdX x => exact ⟨_, fun _ => Issue.ext_eq rfl, fun _ _ h => resultOnly_twrd (h.writes fun _ => rfl)⟩
  | srd x => exact ⟨_, fun _ => Issue.ext_eq rfl, fun _ _ h => resultOnly_srd (by rw [h.2]; rfl)⟩
  | _ => exact absurd h Bool.false_ne_true

theorem exec_addsResult_of_wideResult (i : Instr) (h : wideResult (numberOf i) = true) : ∃ body, AddsResult i body := by
  cases i with
  | mulhi x | mulhiu x | abs x | rol x | ror x
  | ctz x | brev x | bfx x | bfxu x | bfi x | shflu x | shfld x | vote x | matchLanes x | rmin x | rminu x | rmaxu x | scan x
  | rng x | ceqp x | cltp x | cltup x =>
    exact ⟨_, fun _ => Issue.ext_eq rfl, fun _ _ h => resultOnly_lanes (h.writes fun _ => rfl) (.inr rfl)⟩
  | addp x | subp x | mulp x | lea x | shlp x | shrp x | sarp x =>
    exact ⟨_, fun _ => Issue.ext_eq rfl, fun _ _ h => resultOnly_pairs (h.writes fun _ => rfl)⟩
  | _ => exact absurd h Bool.false_ne_true

/-- The instructions that may raise flags: every one has a fixed latency. -/
theorem exec_addsResult_of_mayRaise (i : Instr) (h : mayRaise (numberOf i) = true) : ∃ body, AddsResult i body := by
  cases i with
  | fadd o | fsub o | fmul o | fmac o | fmin o | fmax o | fceq o | fclt o | fcle o | hadd o | hmul o | hmac o | badd o | bmul o
  | bmac o =>
    exact ⟨_, fun _ => Issue.base_eq rfl,
      fun _ _ h => resultOnly_lanes (h.writes fun _ => rfl) (.inl (h.raises rfl))⟩
  | faddX x | fsubX x | fmulX x | fmacX x | fminX x | fmaxX x | fceqX x | fcltX x | fcleX x | haddX x | hmulX x | hmacX x
  | baddX x | bmulX x | bmacX x =>
    exact ⟨_, fun _ => Issue.ext_eq rfl,
      fun _ _ h => resultOnly_lanes (h.writes fun _ => rfl) (.inl (h.raises rfl))⟩
  | ffma x | fnms x | fminn x | fmaxn x | fcun x | frnd x | frcp x | frsq x | fsqrt x | fexp2 x | flog2 x | ftanh x | fscl x
  | hfma x | bfma x | hmin x | hmax x | cvtf x | cvtfi x | cvtif x | cvtt x | cvttf x | fredadd x | fredmax x | fredmin x =>
    exact ⟨_, fun _ => Issue.ext_eq rfl,
      fun _ _ h => resultOnly_lanes (h.writes fun _ => rfl) (.inl (h.raises rfl))⟩
  | fabs x | fneg x | fclass x =>
    exact ⟨_, fun _ => Issue.ext_eq rfl, fun _ _ h => resultOnly_lanes (h.writes fun _ => rfl) (.inr rfl)⟩
  | fredmaxi x | fredmini x =>
    exact ⟨_, fun _ => Issue.ext_eq rfl,
      fun _ _ h => resultOnly_fredIdx (h.writes fun _ => rfl) (h.raises rfl)⟩
  | _ => exact absurd h Bool.false_ne_true

theorem exec_addsResult (i : Instr) (h : fixedLat (numberOf i) ≠ none) : ∃ body, AddsResult i body := by
  rcases result_of_fixedLat h with h | h | h
  · exact exec_addsResult_of_compactResult i h
  · exact exec_addsResult_of_wideResult i h
  · exact exec_addsResult_of_mayRaise i h

/-! ### The frame -/

/-- Moving on leaves the registers, the special registers and the results of a beam. -/
theorem Beam.sameBeam_advance (b : Beam) (e : Env) (pc : Option Dword) :
    SameBeam b (b.advance e pc) ∧ (b.advance e pc).fix = b.fix := by
  unfold Beam.advance
  cases e.b.mcall with
  | none => exact ⟨⟨fun _ _ => rfl, by simp [SameSpecials], rfl⟩, rfl⟩
  | some m =>
    dsimp only
    split <;> exact ⟨⟨fun _ _ => rfl, by simp [SameSpecials], rfl⟩, rfl⟩

/-- What has come due, with no earlier write of `%tenant` among it, changes the beam's team alone. -/
theorem Attempts.settled {i : Instr} {s s1 : State} {e : Env} (h : Attempts i s e s1) (hd : s.dueTenants e.r = []) :
    s1 = s.setTeam e.r.t e.T := by
  obtain ⟨-, -, -, -, -, -, rfl⟩ := h
  rw [hd, State.dropPages_nil]

/-- A beam of the selected team is updated, and nothing outside that team changes. -/
theorem setTeam_setBeam_frame (s : State) (r : Ref) (T : Team) (c : Beam) :
    SameOutside s ((s.setTeam r.t T).setBeam r c) ∧ (∀ k, k ≠ r.t → ((s.setTeam r.t T).setBeam r c).team? k = s.team? k) ∧
      ((s.setTeam r.t T).setBeam r c).team? r.t = some (T.setBeam r.b c) := by
  have h : (s.setTeam r.t T).setBeam r c = (s.setTeam r.t T).setTeam r.t (T.setBeam r.b c) := by
    rw [State.setBeam, State.team?_setTeam]
  rw [h]
  refine ⟨by simp [SameOutside], fun k hk => ?_, State.team?_setTeam ..⟩
  rw [State.team?_setTeam_other _ _ hk, State.team?_setTeam_other _ _ hk]

/-- Settles O10: every body with a fixed latency holds the instruction or adds one result for D (`exec_addsResult`), and neither that
nor moving on changes what the beam holds. -/
theorem fixedLatencyFrame : Obligations.FixedLatencyFrame := by
  intro i s e s1 t hi hl hr hd hx
  have ha := hi.1
  have hb := ha.hasBeam
  obtain ⟨body, he, hres⟩ := exec_addsResult i hl
  rw [he, hi.start, Issue.conclude_go] at hx
  suffices h : ∃ c, t = s1.setBeam e.r c ∧ SameBeam e.b c ∧ ∀ f ∈ c.fix, f ∈ e.b.fix ∨ ToDestination e f by
    obtain ⟨c, rfl, hc, hf⟩ := h
    obtain ⟨ho, hk, ht⟩ := setTeam_setBeam_frame s e.r e.T c
    rw [ha.settled hd]
    exact ⟨ho, hk, c, ht, hc, hf⟩
  rcases hres e s1 ha.sees with h | ⟨vals, fl, h, hv, hfl⟩
  · rw [h] at hx
    cases hx
    exact ⟨_, State.modBeam_of_hasBeam hb _, ⟨fun _ _ => rfl, by simp [SameSpecials], rfl⟩, fun _ => .inl⟩
  · rw [h] at hx
    cases hx
    obtain ⟨hs, hfix⟩ := Beam.sameBeam_advance
      { e.b with fix := insertFix ⟨e.readyAt, vals, writeNames e.g e.x, fl, none⟩ e.b.fix } e none
    refine ⟨_, ?_, hs, fun f hm => ?_⟩
    · rw [Env.fixed, State.modBeam_of_hasBeam hb, Issue.finish_of_run none (hasBeam_setBeam hb _) (by exact hr), State.setBeam_setBeam]
    · rw [hfix] at hm
      rcases mem_insertFix.mp hm with rfl | hm
      · exact .inr ⟨rfl, hv, hfl⟩
      · exact .inl hm

end Sys2Proof.Machine
end

section
/-! SUPPORT. When results and special registers take their values (R83, R84, R124, R135, R178 to R180, R201). -/

namespace Sys2Proof.Machine

open Sys2Proof.Claim

/-! ### Latencies (R83) -/

theorem fixedLat_of_row :
    ∀ r ∈ latencyRows, ∀ n ∈ List.range' r.1 (r.2.1 + 1 - r.1), fixedLat n = some r.2.2 := by
  decide

theorem fixedLat_iff (n l : Nat) : fixedLat n = some l ↔ ∃ r ∈ latencyRows, r.1 ≤ n ∧ n ≤ r.2.1 ∧ l = r.2.2 := by
  constructor
  · intro h
    unfold fixedLat at h
    split_ifs at h <;> cases h <;> simp [latencyRows] <;> omega
  · rintro ⟨r, hr, hlo, hhi, rfl⟩
    exact fixedLat_of_row r hr n (by rw [List.mem_range'_1]; omega)

theorem fixedLatencies : FixedLatencies := ⟨fixedLat_iff, fun _ _ _ _ _ _ h => State.modBeam_of_hasBeam h _⟩

/-! ### Bits of a word -/

theorem and_eq_two_pow_mul_add (k a b : Nat) : a &&& b = 2 ^ k * ((a / 2 ^ k) &&& (b / 2 ^ k)) + ((a % 2 ^ k) &&& (b % 2 ^ k)) := by
  rw [← Nat.and_div_two_pow, ← Nat.and_mod_two_pow, Nat.div_add_mod]

/-! ### One effect lands (R178 to R180, R201) -/

/-- A beam without what a landing effect may change. -/
def Beam.control (b : Beam) : Beam :=
  { b with reuse := none, main := [], win := [], dirty := 0, tenant := [], pix := 0, cause := 0, epc := 0, tvec := 0, eexm := 0
           fflags := 0, rmode := 0, chk := 0, fix := [] }

@[simp] theorem Beam.control_wr (b : Beam) (n l : Nat) (v : Word) : (b.wr n l v).control = b.control := by
  unfold Beam.wr
  dsimp only
  split <;> rfl

@[simp] theorem Beam.control_wrAll (b : Beam) (l : List (Nat × Word)) : (b.wrAll l).control = b.control := by
  induction l generalizing b with
  | nil => rfl
  | cons e r ih => exact (ih _).trans (b.control_wr _ _ _)

/-- A write of a special register reaches no general register and nothing that controls the beam (R179). -/
theorem Beam.setSreg_frame (b : Beam) (n : Nat) (vs : List (Nat × Word)) :
    (b.setSreg n vs).control = b.control ∧ (b.setSreg n vs).rd = b.rd := by
  cases vs
  all_goals
    unfold Beam.setSreg
    dsimp only
    split
    case h_6 | h_9 => split <;> exact ⟨rfl, rfl⟩
    all_goals exact ⟨rfl, rfl⟩

@[simp] theorem Beam.control_landOne (b : Beam) (f : Fix) : (b.landOne f).control = b.control := by
  have h : ({ b.wrAll f.regs with fflags := (b.wrAll f.regs).fflags ||| f.flags } : Beam).control = b.control :=
    b.control_wrAll f.regs
  unfold Beam.landOne
  dsimp only
  split
  · exact h
  · exact (Beam.setSreg_frame ..).1.trans h

@[simp] theorem Beam.control_landList (now : Nat) (l : List Fix) (b : Beam) : (landList b now l).control = b.control := by
  induction l generalizing b with
  | nil => rfl
  | cons f r ih =>
    unfold landList
    split
    · rw [ih, Beam.control_landOne]
    · rfl

@[simp] theorem Beam.control_land (b : Beam) (now : Nat) : (b.land now).control = b.control := Beam.control_landList ..

theorem Beam.rd_landOne (b : Beam) (f : Fix) : (b.landOne f).rd = (b.wrAll f.regs).rd := by
  unfold Beam.landOne
  dsimp only
  split
  · rfl
  · exact (Beam.setSreg_frame ..).2

/-- The last value written to a register stands. -/
theorem Beam.rd_wrAll (b : Beam) (l : List (Nat × Word)) (n : Nat) {k : Nat} (hk : k < 32) :
    (b.wrAll l).rd n k = ((l.reverse.find? fun p => decide (p.1 = 32 * n + k)).map (·.2)).getD (b.rd n k) := by
  induction l using List.reverseRecOn with
  | nil => rfl
  | append_singleton l e ih =>
    have hw : b.wrAll (l ++ [e]) = (b.wrAll l).wr (e.1 / 32) (e.1 % 32) e.2 := by simp [Beam.wrAll]
    rw [hw, List.reverse_append, List.reverse_singleton, List.singleton_append, List.find?_cons]
    by_cases he : e.1 = 32 * n + k
    · have hn : (32 * n + k) / 32 = n := by omega
      have hl : (32 * n + k) % 32 = k := by omega
      simp [he, hn, hl, Beam.rd_wr_same]
    · rw [Beam.rd_wr_other _ _ (by unfold regKey; omega), ih]
      simp [he]

/-- A bit i set beside what lies above it and what lies below it. -/
theorem or_of_gap {i m : Nat} (a q : Nat) (hm : m < 2 ^ i) (ha : a < 2) :
    2 ^ i * a ||| (2 ^ (i + 1) * q + m) = 2 ^ (i + 1) * q + (2 ^ i * a + m) := by
  have hs : 2 ^ i * a + m < 2 ^ (i + 1) := by
    rw [Nat.pow_succ]
    nlinarith
  rw [Nat.two_pow_add_eq_or_of_lt (by rw [Nat.pow_succ]; omega), Nat.or_left_comm, ← Nat.two_pow_add_eq_or_of_lt hm,
    ← Nat.two_pow_add_eq_or_of_lt hs]

/-- `%cause` keeps INH alone against a write (R180). -/
theorem cause_written (c v : Word) : (c &&& 0x20000#32) ||| (v &&& 0x5FFFF#32) =
    w32 (v.toNat % 2 ^ 16 + v.toNat / 2 ^ 16 % 2 * 2 ^ 16 + c.toNat / 2 ^ 17 % 2 * 2 ^ 17 + v.toNat / 2 ^ 18 % 2 * 2 ^ 18) := by
  have hc : c.toNat &&& 0x20000 = 2 ^ 17 * (c.toNat / 2 ^ 17 % 2) := by
    rw [and_eq_two_pow_mul_add 17, show 0x20000 / 2 ^ 17 = 1 from rfl, show 0x20000 % 2 ^ 17 = 0 from rfl, Nat.and_one_is_mod,
      Nat.and_zero, Nat.add_zero]
  have hv : v.toNat &&& 0x5FFFF = 2 ^ 18 * (v.toNat / 2 ^ 18 % 2) + v.toNat % 2 ^ 17 := by
    rw [and_eq_two_pow_mul_add 18, show 0x5FFFF / 2 ^ 18 = 1 from rfl, show 0x5FFFF % 2 ^ 18 = 2 ^ 17 - 1 from rfl,
      Nat.and_one_is_mod, Nat.and_two_pow_sub_one_eq_mod, Nat.mod_mod_of_dvd _ (by norm_num)]
  apply BitVec.eq_of_toNat_eq
  rw [BitVec.toNat_or, BitVec.toNat_and, BitVec.toNat_and, BitVec.toNat_ofNat, BitVec.toNat_ofNat, w32, BitVec.toNat_ofNat,
    Nat.mod_eq_of_lt (show 0x20000 < 2 ^ 32 by norm_num), Nat.mod_eq_of_lt (show 0x5FFFF < 2 ^ 32 by norm_num), hc, hv,
    or_of_gap _ _ (Nat.mod_lt _ (by norm_num)) (Nat.mod_lt _ Nat.two_pos)]
  omega

theorem extractLsb'_zero_two_eq_zero_iff {w : Nat} (v : BitVec w) : v.extractLsb' 0 2 = 0 ↔ v.toNat % 4 = 0 := by
  rw [← BitVec.toNat_inj]
  simp [BitVec.extractLsb'_toNat]

/-- The two halves of a 64-bit value. -/
theorem append_eq_w64 (h l : Word) : h ++ l = w64 (h.toNat * 2 ^ 32 + l.toNat) := by
  apply BitVec.eq_of_toNat_eq
  rw [BitVec.toNat_append, ← Nat.shiftLeft_add_eq_or_of_lt l.isLt, Nat.shiftLeft_eq, w64, BitVec.toNat_ofNat]
  omega

/-- A write of a special register takes its effect (R178 to R180). -/
theorem Beam.setSreg_eq (b : Beam) {n : Nat} (k : Nat) (v : Word) (h : n ≠ 0x0F) : b.setSreg n [(k, v)] = sregWritten n v b := by
  unfold Beam.setSreg
  dsimp only
  split
  case h_1 => exact absurd rfl h
  case h_3 =>
    rw [cause_written]
    rfl
  case h_4 =>
    rw [append_eq_w64]
    have he : b.epc.toNat / 2 ^ 32 % 2 ^ 32 = b.epc.toNat / 2 ^ 32 := by omega
    simp only [sregWritten, BitVec.extractLsb'_toNat, Nat.shiftRight_eq_div_pow, he]
  case h_5 =>
    rw [append_eq_w64]
    simp only [sregWritten, BitVec.extractLsb'_toNat, Nat.shiftRight_zero]
  case h_6 =>
    simp only [extractLsb'_zero_two_eq_zero_iff]
    rfl
  case h_8 => simp [sregWritten]
  case h_9 => simp [sregWritten]
  case h_10 => simp [sregWritten]
  case h_11 =>
    unfold sregWritten
    split <;> simp_all
  all_goals rfl

/-! ### A step lands what is due -/

theorem Beam.landHead_cons {b : Beam} {f : Fix} {l : List Fix} {now : Nat} (hf : b.fix = f :: l) (hn : f.ready ≤ now) :
    b.landHead now = ({ b.landOne f with fix := l } : Beam).regionBegin now := by
  rw [Beam.landHead, hf]
  exact if_pos hn

/-- What the start of a `REGION` changes is its own record alone. -/
theorem Beam.regionBegin_frame (b : Beam) (now : Nat) (ls : List LongRun) :
    { b.regionBegin now with longs := ls } = { b with longs := ls } := by
  unfold Beam.regionBegin
  dsimp only
  split <;> rfl

theorem Beam.regionBegin_of_status {b : Beam} (now : Nat) (h : b.status ≠ .region) : b.regionBegin now = b :=
  if_neg fun hc => h hc.1

theorem Beam.rd_regionBegin (b : Beam) (now : Nat) : (b.regionBegin now).rd = b.rd := by
  unfold Beam.regionBegin
  dsimp only
  split <;> rfl

theorem exec_fixedResultLand {s : State} {r : Ref} {T : Team} {b : Beam} {f : Fix} {l : List Fix} (h : HasBeam s r T b)
    (hf : b.fix = f :: l) (hn : f.ready ≤ s.clock) :
    exec (.fixedResultLand r.t r.b) s =
      .next ((s.setBeam r (({ b.landOne f with fix := l } : Beam).regionBegin s.clock)).dropPages r (tenantLanes [f] s.clock)) := by
  show Host.Outcome.next _ = _
  rw [State.modBeam_of_hasBeam h, beam?_of_hasBeam h, Beam.landHead_cons hf hn]
  simp [Beam.headTenants, hf]

theorem tenantLanes_of_tenant {f : Fix} {now : Nat} {vs : List (Nat × Word)} (hn : f.ready ≤ now) (h : f.sreg = some (0x0F, vs)) :
    tenantLanes [f] now = vs.map (·.1) := by
  simp [tenantLanes, hn, h]

theorem tenantLanes_of_other {f : Fix} {now : Nat} (h : ∀ vs, f.sreg ≠ some (0x0F, vs)) : tenantLanes [f] now = [] := by
  unfold tenantLanes
  simp only [List.flatMap_eq_nil_iff]
  intro g hg
  obtain rfl := List.mem_singleton.mp (List.mem_of_mem_filter hg)
  split
  · next vs hs => exact absurd hs (h vs)
  · rfl

/-- Dropped lanes have no last page. -/
theorem State.notMem_of_mem_dropPages {s : State} {r : Ref} {ls : List Nat} {x : TlbEntry} {k : Nat} (hx : x ∈ (s.dropPages r ls).net.tlb)
    (hp : x.place = .lane r k) : k ∉ ls := by
  intro hk
  unfold State.dropPages at hx
  split at hx
  · next h => simp [h] at hk
  · have := List.of_mem_filter hx
    simp [hp, hk] at this

theorem hasBeam_dropPages {s : State} {r q : Ref} {T : Team} {b : Beam} {ls : List Nat} (h : HasBeam s r T b) :
    HasBeam (s.dropPages q ls) r T b := by
  simpa [HasBeam, State.team?] using h

theorem pendingEffectsLand : PendingEffectsLand := by
  refine ⟨fun b f n v hr hfl hs hn => ?_, fun b f hr hs => ?_, fun f g l hf hg he => ?_, fun s r T b f l h hf hn hst hnt => ?_,
    fun s r T b f l h hf hn => ?_⟩
  · rw [← b.setSreg_eq n v hn, Beam.landOne, hr, hfl, hs]
    simp [Beam.wrAll]
  · rw [Beam.landOne, hr, hs]
    rfl
  · rw [insertFix, if_pos (.inr ⟨he, hf, by simp [hg]⟩)]
  · have hc : ({ b.landOne f with fix := l } : Beam).status ≠ .region := by
      have := congrArg Beam.status (b.control_landOne f)
      exact this ▸ hst
    rw [exec_fixedResultLand h hf hn, tenantLanes_of_other hnt, State.dropPages_nil, Beam.regionBegin_of_status _ hc]
  · have hb := hasBeam_setBeam h (({ b.landOne f with fix := l } : Beam).regionBegin s.clock)
    have hl : (b.landOne f).longs = b.longs := (congrArg Beam.longs (b.control_landOne f) :)
    refine ⟨_, _, _, exec_fixedResultLand h hf hn, hasBeam_dropPages hb, by simp, ?_, fun n k hk => ?_, fun hst => ?_,
      fun vs hv x hx k hp => tenantLanes_of_tenant hn hv ▸ State.notMem_of_mem_dropPages hx hp⟩
    · rw [Beam.regionBegin_frame, ← hl]
    · rw [Beam.rd_regionBegin]
      show (b.landOne f).rd n k = _
      rw [Beam.rd_landOne, Beam.rd_wrAll _ _ _ hk]
    · rw [Beam.regionBegin_of_status _ (by exact (congrArg Beam.status (b.control_landOne f) :) ▸ hst)]
      exact hl

theorem variableResultsAreWritten : VariableResultsAreWritten := by
  intro s r T b k p h hk hw hr ha
  have hin : s.repliesIn b k = true := by
    simpa [State.repliesIn, hk] using ha
  have hc : ((b.land s.clock).wrAll p.vals).control = b.control := by simp
  have hx : exec (.variableResultWrite r.t r.b k) s =
      .next (s.setBeam r ((((b.land s.clock).wrAll p.vals).pendDrop p.id).regionBegin s.clock)) := by
    show Host.Outcome.next _ = _
    rw [State.modBeam_of_hasBeam h, if_pos hin, Beam.writePend, hk]
    simp [hw, hr]
  have hg := Beam.regionBegin_frame (((b.land s.clock).wrAll p.vals).pendDrop p.id) s.clock []
  refine ⟨_, _, _, hx, hasBeam_setBeam h _, by simp, ?_, ?_, ?_, ?_, Beam.rd_regionBegin ..⟩
  · have hp : ((b.land s.clock).wrAll p.vals).pends = b.pends := (congrArg Beam.pends hc :)
    exact (congrArg Beam.pends hg :).trans (by rw [← hp]; rfl)
  · exact (congrArg Beam.pc hg :).trans (congrArg Beam.pc hc :)
  · exact (congrArg Beam.exm hg :).trans (congrArg Beam.exm hc :)
  · exact (congrArg Beam.lvm hg :).trans (congrArg Beam.lvm hc :)

/-- Settles O25: latencies by their rows (`fixedLat_iff`), effects by what `landOne` writes and keeps. -/
theorem resultsLand : Obligations.ResultsLand := ⟨fixedLatencies, pendingEffectsLand, variableResultsAreWritten⟩

end Sys2Proof.Machine
end

section
/-! SUPPORT. The window, its moves and its agreement with the main file (R88, R90, R380). -/

namespace Sys2Proof.Machine

open Sys2Proof.Claim

/-! ### Values by key in parts of a table -/

theorem sget_append_of_absent {α : Type} (d : α) {m : List (Nat × α)} (w : List (Nat × α)) {k : Nat} (h : ∀ e ∈ m, e.1 ≠ k) :
    sget d (m ++ w) k = sget d w k := by
  induction m with
  | nil => rfl
  | cons e r ih =>
    obtain ⟨he, hr⟩ := List.forall_mem_cons.mp h
    rw [List.cons_append, sget, if_neg he, ih hr]

theorem sget_of_absent {α : Type} (d : α) {m : List (Nat × α)} {k : Nat} (h : ∀ e ∈ m, e.1 ≠ k) : sget d m k = d := by
  simpa [sget] using sget_append_of_absent d [] h

theorem sget_append_of_absent_right {α : Type} (d : α) (m : List (Nat × α)) {w : List (Nat × α)} {k : Nat} (h : ∀ e ∈ w, e.1 ≠ k) :
    sget d (m ++ w) k = sget d m k := by
  induction m with
  | nil => exact sget_of_absent d h
  | cons e r ih => rw [List.cons_append, sget, sget, ih]

theorem sget_filter {α : Type} (d : α) (m : List (Nat × α)) {p : Nat × α → Bool} {k : Nat}
    (h : ∀ e : Nat × α, e.1 = k → p e = true) :
    sget d (m.filter p) k = sget d m k := by
  induction m with
  | nil => rfl
  | cons e r ih =>
    by_cases he : e.1 = k
    · rw [List.filter_cons_of_pos (h e he), sget, sget, if_pos he, if_pos he]
    · rw [List.filter_cons]
      split
      · rw [sget, sget, if_neg he, if_neg he, ih]
      · rw [sget, if_neg he, ih]

/-- Keys that are renamed are found under their new names. -/
theorem sget_map {α : Type} (d : α) {m : List (Nat × α)} {f : Nat → Nat} {k j : Nat} (h : ∀ e ∈ m, f e.1 = k ↔ e.1 = j) :
    sget d (m.map fun e => (f e.1, e.2)) k = sget d m j := by
  induction m with
  | nil => rfl
  | cons e r ih =>
    obtain ⟨he, hr⟩ := List.forall_mem_cons.mp h
    rw [List.map_cons, sget, sget, ih hr]
    exact if_congr he rfl rfl

/-- Tables put together, each with keys of its own block: a key is looked for in its block's table. -/
theorem sget_flatMap_range {α : Type} (d : α) {F : Nat → List (Nat × α)} {block : Nat → Nat}
    (hF : ∀ g, ∀ e ∈ F g, block e.1 = g) (N k : Nat) (hk : block k < N) :
    sget d ((List.range N).flatMap F) k = sget d (F (block k)) k := by
  induction N with
  | zero => cases hk
  | succ N ih =>
    rw [List.range_succ, List.flatMap_append, List.flatMap_singleton]
    by_cases h : block k = N
    · rw [h]
      refine sget_append_of_absent d _ fun e he hek => ?_
      obtain ⟨g, hg, heg⟩ := List.mem_flatMap.mp he
      have hb : block k = g := hek ▸ hF g e heg
      have := List.mem_range.mp hg
      omega
    · rw [sget_append_of_absent_right, ih (by omega)]
      intro e he hek
      exact h (hek ▸ hF N e he)

theorem sget_takeRegs (m w : List (Nat × Word)) {lo hi k : Nat} (h : lo ≤ hi) :
    sget 0 (takeRegs m w lo hi) k = if 32 * lo ≤ k ∧ k < 32 * hi then sget 0 w k else sget 0 m k := by
  unfold takeRegs
  have hmem {p : Nat × Word → Bool} {l : List (Nat × Word)} (hp : ∀ e : Nat × Word, p e = true → e.1 ≠ k) :
      ∀ e ∈ l.filter p, e.1 ≠ k := fun e he => hp e (List.of_mem_filter he)
  by_cases hlo : k < 32 * lo
  · rw [if_neg (by omega), List.append_assoc, sget_append_of_absent_right, sget_filter]
    · simp; omega
    · simp only [List.mem_append, or_imp, forall_and]
      exact ⟨hmem (by simp; omega), hmem (by simp; omega)⟩
  · by_cases hhi : k < 32 * hi
    · rw [if_pos (by omega), sget_append_of_absent_right _ _ (hmem (by simp; omega)), sget_append_of_absent _ _ (hmem (by simp; omega)),
        sget_filter]
      simp; omega
    · rw [if_neg (by omega), sget_append_of_absent, sget_filter]
      · simp; omega
      · simp only [List.mem_append, or_imp, forall_and]
        exact ⟨hmem (by simp; omega), hmem (by simp; omega)⟩

/-! ### A write of a register (R88) -/

theorem getLsbD_or_two_pow {w : Nat} (d : BitVec w) {g j : Nat} (h : (d ||| BitVec.ofNat w (2 ^ g)).getLsbD j = false) (hj : j < w) :
    d.getLsbD j = false ∧ j ≠ g := by
  rw [BitVec.getLsbD_or, Bool.or_eq_false_iff, BitVec.getLsbD_ofNat, Nat.testBit_two_pow] at h
  obtain ⟨hd, hg⟩ := h
  exact ⟨hd, fun hjg => by simp [hjg ▸ hj, hjg] at hg⟩

theorem regKey_ne {k l n j : Nat} (hl : l < 32) (hj : j < 32) (h : k ≠ n) : regKey k l ≠ regKey n j := by
  unfold regKey
  omega

theorem Beam.inWin_iff {b : Beam} {n : Nat} : b.inWin n = true ↔ b.wb.toNat ≤ n ∧ n < b.wb.toNat + 128 := by
  simp [Beam.inWin]

theorem Beam.wr_of_inWin {b : Beam} {n : Nat} (h : b.inWin n = true) (l : Nat) (v : Word) :
    b.wr n l v = { b with
      reuse := reuseAfter b.reuse n, win := sset 0 b.win (regKey n l) v, dirty := b.dirty ||| BitVec.ofNat 4 (2 ^ groupOfReg b n) } :=
  if_pos h

theorem Beam.wr_of_not_inWin {b : Beam} {n : Nat} (h : ¬ b.inWin n = true) (l : Nat) (v : Word) :
    b.wr n l v = { b with reuse := reuseAfter b.reuse n, main := sset 0 b.main (regKey n l) v } :=
  if_neg h

theorem groupOfReg_lt {b : Beam} {k : Nat} (h : b.inWin k = true) : groupOfReg b k < 4 := by
  have := Beam.inWin_iff.mp h
  unfold groupOfReg
  omega

theorem windowCoherent_wr {b : Beam} (h : WindowCoherent b) {n l : Nat} (hl : l < 32) (v : Word) : WindowCoherent (b.wr n l v) := by
  by_cases hn : b.inWin n = true
  · rw [Beam.wr_of_inWin hn]
    intro k j hk hj hd
    obtain ⟨hd, hne⟩ := getLsbD_or_two_pow _ hd (groupOfReg_lt hk)
    exact (sget_sset_other 0 _ v (regKey_ne hj hl fun hkn => hne (by rw [hkn]; rfl))).trans (h k j hk hj hd)
  · rw [Beam.wr_of_not_inWin hn]
    intro k j hk hj hd
    exact (h k j hk hj hd).trans (sget_sset_other 0 _ v (regKey_ne hj hl fun hkn => hn (by rw [← hkn]; exact hk))).symm

theorem registerWrites : RegisterWrites := by
  refine fun b n l v hl => ⟨fun h => windowCoherent_wr h hl v, Beam.rd_wr_same .., fun k j hj hne => Beam.rd_wr_other _ _ fun hk => hne ?_⟩
  have hkn : k = n := by
    unfold regKey at hk
    omega
  rw [hkn, Nat.add_left_cancel (hkn ▸ hk : regKey n j = regKey n l)]

/-! ### The end of a `REGION` (R90) -/

/-- The groups below N that are dirty and not below n, written back. -/
def Beam.writtenBack (b : Beam) (n N : Nat) : List (Nat × Word) :=
  (List.range N).foldl (fun m g => if n ≤ g ∧ b.dirty.getLsbD g = true then
    takeRegs m b.win (b.wb.toNat + 32 * g) (b.wb.toNat + 32 * g + 32) else m) b.main

theorem Beam.writtenBack_succ (b : Beam) (n N : Nat) :
    b.writtenBack n (N + 1) = if n ≤ N ∧ b.dirty.getLsbD N = true then
      takeRegs (b.writtenBack n N) b.win (b.wb.toNat + 32 * N) (b.wb.toNat + 32 * N + 32) else b.writtenBack n N := by
  simp [Beam.writtenBack, List.range_succ]

theorem Beam.sget_writtenBack (b : Beam) (n N k : Nat) {l : Nat} (hl : l < 32) :
    sget 0 (b.writtenBack n N) (regKey k l) =
      if (b.wb.toNat ≤ k ∧ groupOfReg b k < N) ∧ n ≤ groupOfReg b k ∧ b.dirty.getLsbD (groupOfReg b k) = true then
        sget 0 b.win (regKey k l)
      else sget 0 b.main (regKey k l) := by
  induction N with
  | zero => simp [Beam.writtenBack]
  | succ N ih =>
    have hg : (32 * (b.wb.toNat + 32 * N) ≤ regKey k l ∧ regKey k l < 32 * (b.wb.toNat + 32 * N + 32)) ↔
        b.wb.toNat ≤ k ∧ groupOfReg b k = N := by
      unfold regKey groupOfReg
      omega
    rw [Beam.writtenBack_succ]
    by_cases hw : n ≤ N ∧ b.dirty.getLsbD N = true
    · rw [if_pos hw, sget_takeRegs _ _ (by omega), ih]
      by_cases hN : b.wb.toNat ≤ k ∧ groupOfReg b k = N
      · obtain ⟨hk, rfl⟩ := hN
        rw [if_pos (hg.mpr ⟨hk, rfl⟩), if_pos ⟨⟨hk, Nat.lt_succ_self _⟩, hw⟩]
      · rw [if_neg (mt hg.mp hN)]
        exact if_congr (and_congr_left' (by omega)) rfl rfl
    · rw [if_neg hw, ih]
      refine if_congr (and_congr_left fun hd => ?_) rfl rfl
      have hN : groupOfReg b k ≠ N := fun hN => hw (hN ▸ hd)
      omega

/-- The dirty groups from group n on have been written back. -/
theorem Beam.sget_main_writeBack (b : Beam) (n k : Nat) {l : Nat} (hl : l < 32) :
    sget 0 (b.writeBack n).main (regKey k l) =
      if b.inWin k = true ∧ n ≤ groupOfReg b k ∧ b.dirty.getLsbD (groupOfReg b k) = true then sget 0 b.win (regKey k l)
      else sget 0 b.main (regKey k l) := by
  have hk : (b.wb.toNat ≤ k ∧ groupOfReg b k < 4) ↔ b.inWin k = true := by
    rw [Beam.inWin_iff, groupOfReg]
    omega
  exact (b.sget_writtenBack n 4 k hl).trans (if_congr (and_congr_left' hk) rfl rfl)

/-- A group of the window as `REGION` fills it: copied from the main file, or kept. -/
def Beam.filledGroup (b : Beam) (v n g : Nat) : List (Nat × Word) :=
  if n ≤ g then b.main.filter fun e => decide (32 * (v + 32 * g) ≤ e.1) && decide (e.1 < 32 * (v + 32 * g + 32))
  else b.slotGroup v g

theorem Beam.keys_filledGroup {b : Beam} {v n g : Nat} : ∀ e ∈ b.filledGroup v n g, (e.1 - 32 * v) / 1024 = g := by
  intro e he
  unfold Beam.filledGroup at he
  split at he
  · have := List.of_mem_filter he
    simp only [Bool.and_eq_true, decide_eq_true_eq] at this
    omega
  · obtain ⟨w, hw, rfl⟩ := List.mem_map.mp he
    have := List.of_mem_filter hw
    simp only [Bool.and_eq_true, decide_eq_true_eq] at this
    omega

theorem Beam.sget_slotGroup (b : Beam) {v i l g : Nat} (hl : l < 32) (hg : i / 32 = g) :
    sget 0 (b.slotGroup v g) (regKey (v + i) l) = sget 0 b.win (regKey (b.wb.toNat + i) l) := by
  unfold Beam.slotGroup
  rw [sget_map 0 (f := fun j => j + 32 * v - 32 * b.wb.toNat) (j := regKey (b.wb.toNat + i) l), sget_filter]
  · intro e he
    unfold regKey at he
    simp only [Bool.and_eq_true, decide_eq_true_eq]
    omega
  · intro e he
    have := List.of_mem_filter he
    simp only [Bool.and_eq_true, decide_eq_true_eq] at this
    unfold regKey
    omega

/-- The new window holds the copied groups as the main file has them, the others as the slot had them. -/
theorem Beam.sget_win_fillWindow (b : Beam) {v n i l : Nat} (hi : i < 128) (hl : l < 32) :
    sget 0 (b.fillWindow v n).win (regKey (v + i) l) =
      if n ≤ i / 32 then sget 0 b.main (regKey (v + i) l) else sget 0 b.win (regKey (b.wb.toNat + i) l) := by
  have hb : (regKey (v + i) l - 32 * v) / 1024 = i / 32 := by
    unfold regKey
    omega
  refine (sget_flatMap_range 0 (F := b.filledGroup v n) (block := fun k => (k - 32 * v) / 1024) (fun g => Beam.keys_filledGroup) 4 _
    (by rw [hb]; omega)).trans ?_
  rw [hb, Beam.filledGroup]
  split
  · refine sget_filter 0 _ fun e he => ?_
    unfold regKey at he
    simp only [Bool.and_eq_true, decide_eq_true_eq]
    omega
  · exact b.sget_slotGroup hl rfl

/-- A beam whose `REGION` of base v, issued at sub-step f, is over. -/
def Beam.moved (b : Beam) (v f : Nat) : Beam := { (b.writeBack f).fillWindow v (f - 4) with longs := [], status := .ready }

theorem regionCycles_eq_regionTime (b : Beam) (n : Nat) : regionCycles b n = b.regionTime n := by
  unfold regionCycles Beam.regionTime regionSteps
  simp only [Bool.decide_and, Bool.decide_or, Bool.decide_eq_true]

theorem Beam.regionEnd_of_longs {b : Beam} {pc : Dword} {a i v f n st now : Nat} (hs : b.status = .region)
    (hl : b.longs = [⟨pc, a, i, .region v f n (some st)⟩]) (ht : st + regionCycles b n ≤ now) : b.regionEnd now = b.moved v f := by
  have hr : b.regionStep = some (⟨pc, a, i, .region v f n (some st)⟩, v, f, n, some st) := by
    rw [Beam.regionStep, hl]
    rfl
  have hc : st + b.regionTime n ≤ now := regionCycles_eq_regionTime b n ▸ ht
  unfold Beam.regionEnd
  simp only [hr, hs, hc, and_self, if_true]
  rw [Beam.setLong, Beam.moved]
  simp [Beam.fillWindow, Beam.writeBack, hl]

theorem exec_regionComplete {s : State} {r : Ref} {T : Team} {b : Beam} {pc : Dword} {a i v f n st : Nat} (h : HasBeam s r T b)
    (hs : b.status = .region) (hl : b.longs = [⟨pc, a, i, .region v f n (some st)⟩]) (ht : st + regionCycles b n ≤ s.clock) :
    exec (.regionComplete r.t r.b) s = .next (s.setBeam r (b.moved v f)) := by
  show Host.Outcome.next _ = _
  rw [State.modBeam_of_hasBeam h, Beam.regionEnd_of_longs hs hl ht]

section
variable {b : Beam} {v : Nat} (hv : v + 128 ≤ 1024)
include hv

theorem Beam.wb_moved (f : Nat) : (b.moved v f).wb.toNat = v := Nat.mod_eq_of_lt (show v < 2 ^ 10 by omega)

/-- Every register of the new window stands in the main file as it stands in the window. -/
theorem Beam.win_eq_main_of_moved {k l : Nat} (hk : (b.moved v 0).inWin k = true) (hl : l < 32) :
    sget 0 (b.moved v 0).win (regKey k l) = sget 0 (b.moved v 0).main (regKey k l) := by
  rw [Beam.inWin_iff, Beam.wb_moved hv] at hk
  obtain ⟨i, rfl⟩ := Nat.exists_eq_add_of_le hk.1
  exact ((b.writeBack 0).sget_win_fillWindow (by omega) hl).trans (if_pos (Nat.zero_le _))

theorem windowCoherent_moved : WindowCoherent (b.moved v 0) := fun _ _ hk hl _ => Beam.win_eq_main_of_moved hv hk hl

theorem Beam.rd_moved (h : WindowCoherent b) (k : Nat) {l : Nat} (hl : l < 32) : (b.moved v 0).rd k l = b.rd k l := by
  have hm : (b.moved v 0).rd k l = sget 0 (b.writeBack 0).main (regKey k l) := by
    unfold Beam.rd
    split
    · next hk => exact Beam.win_eq_main_of_moved hv hk hl
    · rfl
  rw [hm, b.sget_main_writeBack 0 k hl, Beam.rd]
  by_cases hk : b.inWin k = true
  · cases hd : b.dirty.getLsbD (groupOfReg b k) with
    | true => simp [hk]
    | false => simpa [hk] using (h k l hk hl hd).symm
  · simp [hk]

end

theorem regionCompletes : RegionCompletes := by
  intro s r T b pc a i v f n st h hs hl ht hv
  refine ⟨_, _, _, exec_regionComplete h hs hl ht, hasBeam_setBeam h _, by simp, Beam.wb_moved hv f, rfl, rfl, rfl,
    fun k l hk => b.sget_main_writeBack f k hk, fun j l hj hk => ?_, fun hf hc => ?_⟩
  · exact ((b.writeBack f).sget_win_fillWindow hj hk).trans (if_congr (by omega) rfl rfl)
  · subst hf
    exact ⟨windowCoherent_moved hv, fun k l hk => Beam.rd_moved hv hc k hk⟩

/-! ### The start of a `REGION` (R90, R380) -/

theorem Beam.noWrites_iff {b : Beam} : b.noWrites = true ↔ b.pends = [] ∧ ∀ f ∈ b.fix, f.names = [] := by
  simp [Beam.noWrites]

/-- A `REGION` that is the one to wait starts where no write is pending. -/
theorem Beam.regionBegin_of_noWrites {b : Beam} {ls : List LongRun} {pc : Dword} {a i v f n : Nat} (now : Nat) (hs : b.status = .region)
    (hl : b.longs = ls ++ [⟨pc, a, i, .region v f n none⟩]) (hls : ∀ l ∈ ls, ∀ w f n, l.op ≠ .region w f n none)
    (hw : b.pends = [] ∧ ∀ f ∈ b.fix, f.names = []) :
    b.regionBegin now = { b with longs := ls ++ [⟨pc, a, i, .region v f n (some now)⟩] } := by
  unfold Beam.regionBegin
  rw [if_pos ⟨hs, Beam.noWrites_iff.mpr hw⟩, hl, List.map_append, List.map_congr_left (g := id), List.map_id]
  · rfl
  · intro l hm
    split
    · next w g k ho => exact absurd ho (hls l hm w g k)
    · rfl

theorem Beam.regionBegin_of_writes {b : Beam} (now : Nat) (hw : ¬ (b.pends = [] ∧ ∀ f ∈ b.fix, f.names = [])) :
    b.regionBegin now = b :=
  if_neg fun h => hw (Beam.noWrites_iff.mp h.2)

theorem Beam.atStep_eq (b : Beam) (n : Nat) : b.atStep n = { b with pix := stepPix b n } := by
  unfold Beam.atStep stepPix
  split_ifs <;> rfl

theorem Env.regionBad_iff {e : Env} {v : Nat} : e.regionBad v = true ↔ CopiesBadWord e v := by
  unfold Env.regionBad CopiesBadWord groupOfReg
  rw [List.any_eq_true]
  constructor
  · rintro ⟨x, hx, h⟩
    split at h
    · next i n =>
      simp only [Bool.and_eq_true, decide_eq_true_eq] at h
      obtain ⟨⟨rfl, hw⟩, hd⟩ := h
      exact ⟨n, .inl ⟨hx, hw, hd⟩⟩
    · next i n =>
      simp only [Bool.and_eq_true, decide_eq_true_eq] at h
      obtain ⟨⟨rfl, hlo⟩, hhi⟩ := h
      exact ⟨n, .inr ⟨hx, hlo, hhi⟩⟩
    · cases h
  · rintro ⟨n, ⟨hx, hw, hd⟩ | ⟨hx, hlo, hhi⟩⟩
    · exact ⟨_, hx, by simp [hw, hd]⟩
    · exact ⟨_, hx, by simp [hlo, hhi]⟩

/-- What a beam holds as its `REGION` of base v begins to wait. -/
def Beam.regionWaits (b : Beam) (e : Env) (v : Nat) : Beam :=
  { b with
    status := .region
    longs := b.longs ++ [regionRun e v (if b.pends = [] ∧ ∀ f ∈ b.fix, f.names = [] then some e.now else none)]
    pix := stepPix b (e.b.resume.getD 0) }

/-- The `REGION` of the issuing beam as it is entered among the long instructions. -/
def Env.regionEntered (e : Env) (v : Nat) : Beam :=
  { e.b with status := .region, longs := e.b.longs ++ [⟨e.b.pc, e.now, e.now, .region v (e.b.resume.getD 0) (e.b.resume.getD 0) none⟩] }

theorem Env.regionBegin_regionEntered {e : Env} (v : Nat) (hl : ∀ l ∈ e.b.longs, ∀ w f n, l.op ≠ .region w f n none) :
    (e.regionEntered v).regionBegin e.now = { e.b with
      status := .region
      longs := e.b.longs ++ [regionRun e v (if e.b.pends = [] ∧ ∀ f ∈ e.b.fix, f.names = [] then some e.now else none)] } := by
  by_cases hw : e.b.pends = [] ∧ ∀ f ∈ e.b.fix, f.names = []
  · exact (Beam.regionBegin_of_noWrites (b := e.regionEntered v) e.now rfl rfl hl hw).trans (by rw [if_pos hw]; rfl)
  · exact (Beam.regionBegin_of_writes (b := e.regionEntered v) e.now hw).trans (by rw [if_neg hw]; rfl)

theorem bodyRegion_eq {i : Instr} {s s1 : State} {e : Env} (h : Attempts i s e s1) (hv : e.x.immWord.toNat + 127 < e.b.budget)
    (hbad : ¬ CopiesBadWord e e.x.immWord.toNat) (hl : ∀ l ∈ e.b.longs, ∀ w f n, l.op ≠ .region w f n none) :
    bodyRegion e s1 = .done (s1.setBeam e.r (e.b.regionWaits e e.x.immWord.toNat)) := by
  unfold bodyRegion
  dsimp only
  rw [if_neg (by omega), if_neg (mt Env.regionBad_iff.mp hbad), State.modBeam_of_hasBeam h.hasBeam]
  show Res.done (s1.setBeam e.r (((e.regionEntered _).regionBegin e.now).atStep _)) = _
  rw [Env.regionBegin_regionEntered _ hl, Beam.atStep_eq]
  rfl

theorem regionBegins : RegionBegins := by
  refine ⟨fun x s e s1 h => ?_, fun b now hs => ⟨Beam.regionBegin_of_writes now, fun hp hf l v f n hl => ?_⟩⟩
  · have hx : e.x = x := h.x_eq
    refine ⟨fun hv => ?_, fun hv hb => ?_, fun hv hb hl => ?_⟩
    · have hbody : bodyRegion e s1 = Res.trapOwn cREGBOUND := if_pos (by rw [hx]; exact hv)
      exact (h.ext rfl _).trans (by rw [hbody]; rfl)
    · have hbody : bodyRegion e s1 = Res.trapOwn cPOISONOWN := by
        unfold bodyRegion
        dsimp only
        rw [hx, if_neg (by omega), if_pos (Env.regionBad_iff.mpr hb)]
      exact (h.ext rfl _).trans (by rw [hbody]; rfl)
    · refine h.completes rfl rfl ((bodyRegion_eq h.1 (by rw [hx]; exact hv) (by rw [hx]; exact hb) hl).trans ?_)
      rw [beamNow, State.modBeam_of_hasBeam h.1.hasBeam, hx]
      rfl
  · rw [Beam.regionBegin_of_noWrites (ls := []) now hs hl (by simp) ⟨hp, hf⟩]
    rfl

/-! ### A `REGION` from its issue to its end -/

/-- As many sub-steps as dirty groups, and the four copies. -/
theorem length_regionSteps : ∀ d : BitVec 4,
    ((List.range 8).filter fun g => decide (0 ≤ g ∧ (4 ≤ g ∨ d.getLsbD g = true))).length =
      ((List.range 4).filter fun g => d.getLsbD g).length + 4 := by
  decide

theorem regionRuns : RegionRuns := by
  intro x s e s1 h hv hbud hbad hr hl hp hf hm hrun hc
  have hx : e.x = x := h.x_eq
  have hb := h.1.hasBeam
  have hex : exec (.region x) s = .next (s1.setBeam e.r ((e.b.regionWaits e x.immWord.toNat).advance e none)) := by
    have hbody := bodyRegion_eq h.1 (by rw [hx]; exact hv) (by rw [hx]; exact hbad) (by simp [hl])
    refine (h.completes (body := bodyRegion) rfl rfl hbody).trans ?_
    rw [Issue.finish_of_run none (hasBeam_setBeam hb _) (by exact hrun), State.setBeam_setBeam, hx]
  have hlongs : (e.b.regionWaits e x.immWord.toNat).longs = [⟨e.b.pc, e.now, e.now, .region x.immWord.toNat 0 0 (some e.now)⟩] := by
    simp [Beam.regionWaits, regionRun, hr, hl, hp, hf]
  have hcycles : regionCycles e.b 0 = 8 + 16 * (dirtyCount e.b + 4) := by rw [regionCycles, length_regionSteps, dirtyCount]
  obtain ⟨c, hcx, hs, hls, hcy, hpc, hcc, hrd⟩ : ∃ c, (e.b.regionWaits e x.immWord.toNat).advance e none = c ∧ c.status = .region ∧
      c.longs = [⟨e.b.pc, e.now, e.now, .region x.immWord.toNat 0 0 (some e.now)⟩] ∧
      regionCycles c 0 = 8 + 16 * (dirtyCount e.b + 4) ∧ c.pc = e.b.pc + BitVec.ofNat 64 e.len ∧ WindowCoherent c ∧ c.rd = e.b.rd :=
    ⟨_, Beam.advance_of_none hm, rfl, hlongs, hcycles, rfl, hc, rfl⟩
  rw [hcx] at hex
  have hu : HasBeam { s1.setBeam e.r c with clock := e.now + 8 + 16 * (dirtyCount e.b + 4) } e.r (e.T.setBeam e.r.b c) c :=
    hasBeam_setBeam hb c
  refine ⟨_, _, _, _, hex, exec_regionComplete hu hs hls ?_, hasBeam_setBeam hu _, Beam.wb_moved (by omega) 0, rfl, rfl, rfl, hpc,
    windowCoherent_moved (by omega), ?_, fun k l hk => ?_⟩
  · rw [hcy, ← Nat.add_assoc]
  · rw [State.setBeam_mem]
    exact (State.setBeam_mem ..).trans h.1.mem_packets.1
  · rw [Beam.rd_moved (by omega) hcc k hk, hrd]

/-- Settles O26: the fold of write-backs (`Beam.sget_writtenBack`) and the filled groups (`Beam.sget_win_fillWindow`) say what the main
file and the window hold at the end of a `REGION`. -/
theorem registerWindow : Obligations.RegisterWindow := ⟨regionBegins, regionCompletes, regionRuns, registerWrites⟩

end Sys2Proof.Machine
end

section
/-! SUPPORT. What a trap saves and where it goes, and when it stops the team (R87, R180, R182, R383). -/

namespace Sys2Proof.Machine

open Sys2Proof.Claim

/-! ### Results still on their way (R87) -/

theorem le_foldl_max_ready (l : List Fix) (m : Nat) :
    m ≤ l.foldl (fun m f => max m f.ready) m ∧ ∀ f ∈ l, f.ready ≤ l.foldl (fun m f => max m f.ready) m := by
  induction l generalizing m with
  | nil => exact ⟨Nat.le_refl m, by simp⟩
  | cons g r ih =>
    obtain ⟨hm, hr⟩ := ih (max m g.ready)
    refine ⟨le_trans (le_max_left ..) hm, fun f hf => ?_⟩
    rcases List.mem_cons.mp hf with rfl | hf
    · exact le_trans (le_max_right ..) hm
    · exact hr f hf

theorem Beam.ready_le_lastReady {b : Beam} {f : Fix} (hf : f ∈ b.fix) (hn : f.names ≠ []) : f.ready ≤ b.lastReady :=
  (le_foldl_max_ready _ 0).2 f (List.mem_filter.mpr ⟨hf, by simpa using hn⟩)

/-! ### The cause register (R180) -/

/-- `%cause` at trap entry: the cause and ARG, SCAP as it was, INH, and PIXV. -/
theorem toNat_causeEntry (c : Word) {cause arg : Nat} (hc : cause < 256) (ha : arg < 256) (p : Bool) :
    (causeEntry c cause arg p).toNat =
      cause + 256 * arg + 2 ^ 16 * (c.toNat / 2 ^ 16 % 2) + 2 ^ 17 + (if p then 2 ^ 18 else 0) := by
  have hs : c.toNat &&& 0x10000 = 2 ^ 16 * (c.toNat / 2 ^ 16 % 2) := by
    rw [and_eq_two_pow_mul_add 16, show 0x10000 / 2 ^ 16 = 1 from rfl, show 0x10000 % 2 ^ 16 = 0 from rfl, Nat.and_one_is_mod,
      Nat.and_zero, Nat.add_zero]
  have hk : (cause % 256 + 256 * (arg % 256) + 2 ^ 17 + (if p then 2 ^ 18 else 0)) % 2 ^ 32 =
      2 ^ (16 + 1) * (1 + if p then 2 else 0) + (cause + 256 * arg) := by
    cases p <;> simp <;> omega
  rw [causeEntry, BitVec.toNat_or, BitVec.toNat_and, BitVec.toNat_ofNat, BitVec.toNat_ofNat,
    Nat.mod_eq_of_lt (show 0x10000 < 2 ^ 32 by norm_num), hs, hk, or_of_gap _ _ (by omega) (Nat.mod_lt _ Nat.two_pos)]
  cases p <;> simp <;> omega

/-! ### Trap entry -/

/-- The upper half of one value beside a lower half (R182). -/
theorem toNat_upper_append (x : Dword) (l : Word) :
    ((x.extractLsb' 32 32 : BitVec 32) ++ l).toNat = x.toNat / 2 ^ 32 * 2 ^ 32 + l.toNat := by
  rw [append_eq_w64, w64, BitVec.toNat_ofNat, BitVec.extractLsb'_toNat, Nat.shiftRight_eq_div_pow]
  omega

/-- A beam that leaves its wait for a trap (log 79). -/
theorem Beam.quit_frame (b : Beam) :
    ∃ st ps o, b.quit = { b with status := st, pends := ps, orc := o } ∧
      (b.status ≠ .region → (∀ d p, b.status ≠ .pacap d p) → st = .ready) := by
  unfold Beam.quit
  split
  case h_1 h => exact ⟨_, _, _, rfl, fun hr => absurd h hr⟩
  case h_2 h => exact ⟨_, _, _, rfl, fun _ hp => absurd h (hp _ _)⟩
  all_goals exact ⟨_, _, _, rfl, fun _ _ => rfl⟩

theorem Beam.enter_frame (d : Beam) (cause arg : Nat) (epc : Dword) (pix : Option Nat) :
    ∃ st ps o, d.enter cause arg epc pix = { d with
        status := st, pends := ps, orc := o, issueAt := max d.issueAt d.lastReady, reuse := none
        cause := causeEntry d.cause cause arg pix.isSome
        pix := match pix with | some n => BitVec.ofNat 32 n | none => d.pix
        epc := epc, eexm := d.exm, exm := d.lvm, skid := 0, pc := (d.entry.extractLsb' 32 32 : BitVec 32) ++ d.tvec
        mcall := none, resume := none } ∧
      (d.status ≠ .region → (∀ x p, d.status ≠ .pacap x p) → st = .ready) := by
  obtain ⟨st, ps, o, hq, hst⟩ := d.afterFixed.quit_frame
  refine ⟨st, ps, o, ?_, hst⟩
  unfold Beam.enter
  simp only [hq]
  rfl

/-- The team of a beam that enters its handler: every other beam is halted. -/
def Team.entered (T : Team) (k now cause arg : Nat) (epc : Dword) (pix : Option Nat) : Team :=
  { T with
    beams := T.beams.mapIdx fun i c => if i = k then (c.land now).enter cause arg epc pix else c.halted now
    handler := some k }

theorem foldl_dropWatches_teams (l : List Ref) (s : State) : (l.foldl State.dropWatches s).teams = s.teams := by
  induction l generalizing s with
  | nil => rfl
  | cons r l ih => exact ih _

section
variable {s : State} {r : Ref} {T : Team} {b : Beam} {cause : Nat} (arg : Nat) (epc : Dword) (pix : Option Nat) (peer info : Nat)

theorem State.takeTrap_enters (h : HasBeam s r T b) (hr : b.halt = .run) (hc : fatalCause cause = false)
    (hi : causeInh (b.land s.clock).cause = false) (ht : (b.land s.clock).tvec ≠ 0) :
    ∃ l : List Ref, s.takeTrap r cause arg epc pix peer info =
      l.foldl State.dropWatches (s.setTeam r.t (T.entered r.b s.clock cause arg epc pix)) := by
  obtain ⟨hT, hb⟩ := h
  unfold State.takeTrap
  simp only [hT, hb, hr, hc, hi, ht, ne_eq, not_true, if_false, Bool.false_eq_true, or_false]
  exact ⟨_, rfl⟩

theorem State.takeTrap_stops (h : HasBeam s r T b) (hr : b.halt = .run)
    (hc : fatalCause cause = true ∨ causeInh (b.land s.clock).cause = true ∨ (b.land s.clock).tvec = 0) :
    s.takeTrap r cause arg epc pix peer info = s.fatalStop r cause arg epc peer info := by
  obtain ⟨hT, hb⟩ := h
  unfold State.takeTrap
  simp only [hT, hb, hr, ne_eq, not_true, if_false, if_pos hc]

end

theorem trapEntry : TrapEntry := by
  intro s r T b cause arg epc pix peer info h hrun hrem hc ha d hi ht
  have hf : fatalCause cause = false := by
    have hown : cause ≠ cPOISONOWN := by
      unfold cPOISONOWN
      omega
    simp [fatalCause, hrem, hown]
  obtain ⟨l, hl⟩ := State.takeTrap_enters (cause := cause) arg epc pix peer info h hrun hf hi ht
  have hd : d.control = b.control := b.control_land s.clock
  have hissue : d.issueAt = b.issueAt := (congrArg Beam.issueAt hd :)
  have hexm : d.exm = b.exm := (congrArg Beam.exm hd :)
  have hlvm : d.lvm = b.lvm := (congrArg Beam.lvm hd :)
  have hentry : d.entry = b.entry := (congrArg Beam.entry hd :)
  have hstatus : d.status = b.status := (congrArg Beam.status hd :)
  obtain ⟨hT, hb⟩ := h
  have hteams : (s.takeTrap r cause arg epc pix peer info).team? r.t = some (T.entered r.b s.clock cause arg epc pix) := by
    rw [hl, State.team?, foldl_dropWatches_teams]
    exact State.team?_setTeam ..
  have hbeam : (T.entered r.b s.clock cause arg epc pix).beams[r.b]? = some (d.enter cause arg epc pix) := by
    simp [Team.entered, hb, d]
  have hmem := (State.takeTrap_keeps s r cause arg epc pix peer info).mem
  obtain ⟨st, ps, o, hq, hst⟩ := d.enter_frame cause arg epc pix
  rw [hq] at hbeam
  refine ⟨_, _, ⟨hteams, hbeam⟩, rfl, toNat_causeEntry _ hc ha _, fun n hn => by subst hn; rfl, rfl, hexm, hlvm, hlvm, rfl, ?_,
    rfl, rfl, rfl, fun f hm hn => le_trans (Beam.ready_le_lastReady hm hn) (le_max_right ..), hissue ▸ le_max_left .., ?_, fun _ _ => rfl,
    fun k q hk hq => ?_, hmem⟩
  · exact (toNat_upper_append ..).trans (by rw [hentry])
  · rw [← hstatus]
    exact hst
  · simp [Team.entered, hk, hq]

theorem State.teams_grids_teamReport (s : State) (T : Team) (k c a b p e i : Nat) :
    (s.teamReport T k c a b p e i).teams = s.teams ∧ (s.teamReport T k c a b p e i).grids = s.grids := by
  unfold State.teamReport
  split
  · exact ⟨rfl, rfl⟩
  · exact State.record_teams ..

theorem State.teams_grids_failReplay (s : State) (r c n : Nat) :
    (s.failReplay r c n).teams = s.teams ∧ (s.failReplay r c n).grids = s.grids := by
  unfold State.failReplay
  split
  · exact ⟨rfl, rfl⟩
  · split <;> exact ⟨rfl, rfl⟩

/-- A team of a grid that has ended issues no more. -/
def Team.ended (g : Nat) (e : Nat × Team) : Nat × Team := if e.2.grid = g then (e.1, { e.2.cancelBoards with stopped := true }) else e

theorem State.teams_grids_endGrid {s : State} {n : Nat} {g : Grid} (h : s.grid? n = some g) :
    (s.endGrid n).teams = s.teams.map (Team.ended n) ∧ (s.endGrid n).grids = aset s.grids n { g with fatal := true } := by
  unfold State.endGrid
  rw [h]
  exact State.teams_grids_failReplay ..

theorem fatalStops : FatalStops := by
  intro s r T b g cause arg epc pix peer info h hrun hg hf t
  have hc : fatalCause cause = true ∨ causeInh (b.land s.clock).cause = true ∨ (b.land s.clock).tvec = 0 := by
    rcases hf with rfl | rfl | hi | ht
    · exact .inl rfl
    · exact .inl rfl
    · exact .inr (.inl hi)
    · exact .inr (.inr ht)
  have ht : t = (s.endGrid T.grid).teamReport T 1 cause arg r.b peer epc.toNat info := by
    rw [show t = _ from State.takeTrap_stops arg epc pix peer info h hrun hc, State.fatalStop, h.1]
  obtain ⟨hteams, hgrids⟩ := (s.endGrid T.grid).teams_grids_teamReport T 1 cause arg r.b peer epc.toNat info
  obtain ⟨heteams, hegrids⟩ := State.teams_grids_endGrid hg
  refine ⟨⟨{ g with fatal := true }, ?_, rfl⟩, fun k U hm hU => ?_, (State.takeTrap_keeps ..).mem⟩
  · rw [ht, State.grid?, hgrids, hegrids, aget_aset_same]
  · rw [ht, hteams, heteams] at hm
    obtain ⟨⟨j, V⟩, -, hV⟩ := List.mem_map.mp hm
    unfold Team.ended at hV
    split at hV
    · cases hV
      rfl
    · next hn =>
      cases hV
      exact absurd hU hn

/-- Settles O30: entry (`State.takeTrap_enters`, `Beam.enter_frame`) and the fatal stop (`State.takeTrap_stops`, `State.endGrid`). -/
theorem trapsAndFatalStops : Obligations.TrapsAndFatalStops := ⟨trapEntry, fatalStops⟩

end Sys2Proof.Machine
end

section
/-! SUPPORT. Where a trap is reported, and the return from it (R82, R93, R108, R182, R183). -/

namespace Sys2Proof.Machine

open Sys2Proof.Claim

/-! ### What is put back where it stood -/

theorem aset_of_aget {α : Type} {m : List (Nat × α)} {k : Nat} {v : α} (h : aget m k = some v) : aset m k v = m := by
  induction m with
  | nil => cases h
  | cons e r ih =>
    rw [aget] at h
    rw [aset]
    split at h
    · next he =>
      cases h
      rw [if_pos he, ← he]
    · next he => rw [if_neg he, ih h]

theorem State.setTeam_of_team? {s : State} {t : Nat} {T : Team} (h : s.team? t = some T) : s.setTeam t T = s := by
  rw [State.setTeam, aset_of_aget h]

theorem State.setBeam_of_hasBeam {s : State} {r : Ref} {T : Team} {b : Beam} (h : HasBeam s r T b) : s.setBeam r b = s := by
  obtain ⟨hT, hb⟩ := h
  have hself : T.setBeam r.b b = T := by
    obtain ⟨hlt, rfl⟩ := List.getElem?_eq_some_iff.mp hb
    rw [Team.setBeam, List.set_getElem_self]
  rw [State.setBeam_eq_setTeam hT, hself, State.setTeam_of_team? hT]

/-! ### The place of a report -/

theorem any_latched_iff {b : Beam} :
    b.latched.any (fun l => decide (l.pc = b.pc)) = true ↔ ∃ l, b.latched = some l ∧ l.pc = b.pc := by
  cases b.latched <;> simp

theorem whereATrapIsReported : WhereATrapIsReported := by
  intro s r T b cause arg info pix h
  have hb := beam?_of_hasBeam h
  refine ⟨fun hm => ?_, fun c hm => ?_, fun next => ⟨fun hr => ?_, fun hr => ?_⟩⟩
  · simp only [Issue.trap, hb, hm, Option.getD_none]
  · simp only [Issue.trap, hb, hm, Option.getD_none]
  · rw [Issue.issued, State.modBeam_of_hasBeam h, if_pos hr]
    simp only [any_latched_iff]
  · rw [Issue.issued, State.modBeam_of_hasBeam h, if_neg hr]
    exact State.setBeam_of_hasBeam h

/-! ### The return -/

theorem toNat_and_below (c : Word) : (c &&& 0x1FFFF#32).toNat = c.toNat % 2 ^ 17 := by
  rw [BitVec.toNat_and, BitVec.toNat_ofNat]
  exact Nat.and_two_pow_sub_one_eq_mod _ 17

theorem Beam.resumed_halt (b : Beam) (now : Nat) : (b.resumed now).halt = .run := by
  unfold Beam.resumed
  split
  · assumption
  · rfl

/-- A team after the return of its beam k: the siblings have resumed. -/
def Team.returned (T : Team) (k now : Nat) : Team :=
  Team.resumeSiblings { T with beams := T.beams.mapIdx fun i b => if i = k then b.leave.afterFixed else b } k now

theorem Beam.stop_keeps (b : Beam) (now : Nat) : (b.stop now).pc = b.pc ∧ (b.stop now).lvm = b.lvm := by
  have hcut (c : Beam) (l : LongRun) : (c.cutPend l).pc = c.pc ∧ (c.cutPend l).lvm = c.lvm := by
    unfold Beam.cutPend
    cases l.op.inst <;> exact ⟨rfl, rfl⟩
  unfold Beam.stop
  dsimp only
  split
  · exact hcut ..
  · split <;> exact ⟨rfl, rfl⟩

/-- The halt counts an instruction of a ready beam, which goes on or stops where it stands (R182). -/
theorem Beam.skidOne_keeps {b : Beam} {now : Nat} (h : b.status = .ready) :
    (b.skidOne now).pc = b.pc ∧ (b.skidOne now).lvm = b.lvm := by
  unfold Beam.skidOne
  split
  · dsimp only
    split_ifs
    · exact ⟨rfl, rfl⟩
    · exact ⟨rfl, rfl⟩
    · have hw : ({ b with skid := b.skid + 1 } : Beam).stopWait now = ({ b with skid := b.skid + 1 } : Beam).stop now := by
        simp only [Beam.stopWait, Beam.withdraw, h]
      rw [hw]
      exact Beam.stop_keeps ..
    · exact ⟨rfl, rfl⟩
  · exact ⟨rfl, rfl⟩

theorem State.hasBeam_eret {s : State} {r : Ref} {T : Team} {b : Beam} (h : HasBeam s r T b) :
    HasBeam (s.eret r) r (T.returned r.b s.clock) b.leave.afterFixed := by
  obtain ⟨hT, hb⟩ := h
  have heq : s.eret r = s.setTeam r.t (T.returned r.b s.clock) := State.modTeam_of_team? hT _
  refine ⟨by rw [heq]; exact State.team?_setTeam .., ?_⟩
  simp [Team.returned, Team.resumeSiblings, hb]

/-- Every sibling runs again after the return (R183). -/
theorem Team.halt_of_returned {T : Team} {k now j : Nat} {d : Beam} (hj : j ≠ k) (hd : (T.returned k now).beams[j]? = some d) :
    d.halt = .run := by
  simp only [Team.returned, Team.resumeSiblings, List.getElem?_mapIdx, hj, if_false, Option.map_map, Option.map_eq_some_iff] at hd
  obtain ⟨c, -, rfl⟩ := hd
  exact Beam.resumed_halt ..

theorem Issues.status_eq_ready {i : Instr} {s s1 : State} {e : Env} (h : Issues i s e s1) : e.b.status = .ready := by
  obtain ⟨-, ⟨hm, -⟩, -⟩ := h
  obtain ⟨-, -, -, -, -, -, hs, -⟩ := (whenABeamMayIssue ..).mp hm
  exact hs

theorem trapReturn : TrapReturn := by
  intro x s e s1 h
  refine ⟨fun hi => ?_, fun hi hp => ?_, fun hi hp hm => ?_⟩
  · have hbody : bodyEret e s1 = Res.trapOwn cILLEGAL := if_pos hi
    exact (h.ext rfl _).trans (by rw [hbody]; rfl)
  · have hbody : bodyEret e s1 = Res.trapOwn cMISALIGN := by
      rw [bodyEret, if_neg (by simp [hi]), if_pos (mt (aligned_iff _).mp hp)]
    exact (h.ext rfl _).trans (by rw [hbody]; rfl)
  · have hbody : bodyEret e s1 = .jump (s1.eret e.r) e.b.epc := by
      rw [bodyEret, if_neg (by simp [hi]), if_neg (not_not.mpr ((aligned_iff _).mpr hp))]
    have hex : exec (.eret x) s = .next (Issue.finish e (s1.eret e.r) (some e.b.epc)) := (h.ext rfl _).trans (by rw [hbody]; rfl)
    have hb := State.hasBeam_eret h.1.hasBeam
    have hn : e.n = 0x050 := h.1.sees.1
    have hmem : (Issue.finish e (s1.eret e.r) (some e.b.epc)).mem = s.mem :=
      (Issue.finish_keeps ..).mem.trans ((State.modTeam_keeps ..).mem.trans h.1.mem_packets.1)
    have hadv := Beam.advance_of_none (b := e.b.leave.afterFixed) (pc := some e.b.epc) hm
    rw [if_pos hn] at hadv
    have hready : e.b.status = .ready := h.status_eq_ready
    obtain ⟨hpc, hlvm⟩ := Beam.skidOne_keeps (b := e.b.leave.afterFixed.advance e (some e.b.epc)) (now := e.now) (by rw [hadv]; exact hready)
    have hrun (hr : e.b.halt = .run) : (e.b.leave.afterFixed.advance e (some e.b.epc)).skidOne e.now =
        e.b.leave.afterFixed.advance e (some e.b.epc) := Beam.skidOne_of_run _ (by rw [hadv]; exact hr)
    refine ⟨_, _, _, hex, hasBeam_modBeam hb _, hmem, rfl, hpc.trans (by rw [hadv]; rfl), hlvm.trans (by rw [hadv]; rfl), fun hr => ?_,
      fun hr => ?_, fun k d hk hd => ?_⟩
    · rw [hrun hr, hadv]
      exact ⟨rfl, rfl, fun f hf hne => le_trans (Beam.ready_le_lastReady hf hne) (le_trans (le_max_right ..) (le_max_left ..)),
        fun _ _ => rfl⟩
    · rw [hrun hr, hadv]
      exact ⟨toNat_and_below _, rfl⟩
    · rw [Team.setBeam, List.getElem?_set_ne (Ne.symm hk)] at hd
      exact Team.halt_of_returned hk hd

/-- Settles O32: the handler's beam leaves (`State.hasBeam_eret`) and goes on at `%epc`; `Issue.trap` and `Issue.issued` say the rest. -/
theorem trapReturns : Obligations.TrapReturns := ⟨trapReturn, whereATrapIsReported⟩

end Sys2Proof.Machine
end

section
/-! SUPPORT. The commands of a mailbox as they complete (R363, R373, R377, R394 to R396, R401). -/

namespace Sys2Proof.Machine

open Sys2Proof.Claim

/-! ### Completions (R396) -/

/-- The 16 bytes of a completion. -/
def completionBytes (F : Func) (tag : BitVec 16) (status value : Nat) : List Byte :=
  leBytes 2 tag.toNat ++ leBytes 1 status ++ leBytes 1 (if F.mbctail.toNat / 2 ^ F.log2n.toNat % 2 = 0 then 1 else 0) ++ leBytes 4 0 ++
    leBytes 8 value

theorem length_completionBytes (F : Func) (tag : BitVec 16) (status value : Nat) :
    (completionBytes F tag status value).length = 16 := by
  simp [completionBytes, length_leBytes]

section
variable (s : State) (f : Nat) (tag : BitVec 16) (status value : Nat)

@[simp] theorem State.complete_func :
    (s.complete f tag status value).func f = { s.func f with mbctail := (s.func f).mbctail + 1, cmd := none } := by
  unfold State.complete
  dsimp only
  split
  · exact State.func_setFunc ..
  · exact State.func_setFunc ..

@[simp] theorem State.complete_mem : (s.complete f tag status value).mem = s.mem := by
  unfold State.complete
  dsimp only
  split <;> exact State.hostPut_mem ..

@[simp] theorem State.complete_work : (s.complete f tag status value).work = s.work := by
  unfold State.complete
  dsimp only
  split <;> exact State.hostPut_work ..

@[simp] theorem State.complete_idBurnt : (s.complete f tag status value).sys.idBurnt = s.sys.idBurnt := by
  unfold State.complete
  dsimp only
  split <;> exact (congrArg Sys.idBurnt (s.hostPut_sys _ _) :)

theorem State.hostPut_log (a : Nat) (l : List Byte) : (s.hostPut a l).net.log = s.net.log := by
  unfold State.hostPut State.keepOld
  split <;> rfl

@[simp] theorem State.complete_log : (s.complete f tag status value).net.log = s.net.log := by
  unfold State.complete
  dsimp only
  split <;> exact State.hostPut_log ..

theorem State.complete_hostMem :
    (s.complete f tag status value).hostMem = s.hostMem.writeBytes (completionAt (s.func f)) (completionBytes (s.func f) tag status value) := by
  unfold State.complete
  dsimp only
  split <;> rfl

end

/-! ### Fetched commands (R394 to R396) -/

theorem gate_of_fetched {s : State} {f opc : Nat} {c : Cmd} (h : Claim.Fetched s f opc c) (p : Bool) : s.gate f opc p = none := by
  obtain ⟨hd, hs, -⟩ := h
  simp [State.gate, hd, hs]

/-- The command in the mailbox, with its opcode and without reserved bits, answers as its action does where its function may. -/
theorem State.command_of_done {s u : State} {f opc st v : Nat} {c : Cmd} {act : Cmd → State → CmdDone} (hc : (s.func f).cmd = some c)
    (ho : c.opc = opc) (hr : c.resv = false) (hg : ∀ p, s.gate f opc p = none) (ha : act c s = (u, some (st, v))) :
    s.command f opc act = u.complete f c.tag st v := by
  unfold State.command
  simp only [hc, ho, hg, hr, ha, ne_eq, not_true, if_false, Bool.false_eq_true]

theorem command_of_fetched {s u : State} {f opc st v : Nat} {c : Cmd} {act : Cmd → State → CmdDone} (h : Claim.Fetched s f opc c)
    (ha : act c s = (u, some (st, v))) : s.command f opc act = u.complete f c.tag st v := by
  have hg := gate_of_fetched h
  obtain ⟨-, -, hc, ho, hr⟩ := h
  exact State.command_of_done hc ho hr hg ha

/-- The page of one line for its function. -/
theorem funcPage_of_oneLine {s : State} {f pa : Nat} {c : Cmd} {w : Bool} (h : OneLine s f c w pa) {ok : Leaf → Bool}
    (hok : ∀ l : Leaf, (l.kind = .hbm ∨ l.kind = .cxl) → (w = true → l.w = true) → ok l = true) :
    ∃ l, (l.kind = .hbm ∨ l.kind = .cxl) ∧ s.funcPage f ok c.daddr.toNat = .ok (l, pa) := by
  obtain ⟨-, -, ha, l, hw, ht, hk, hwr⟩ := h
  refine ⟨l, hk, ?_⟩
  have hz : c.daddr.toNat / 2 ^ 56 = 0 := Nat.div_eq_of_lt ha
  simp only [State.funcPage, hz, hw, ht, hok l hk hwr, ne_eq, not_true, if_false, and_self, if_true]

theorem pieces_of_line {va n : Nat} (h1 : 1 ≤ n) (h : va % 128 + n ≤ 128) : pieces va n = [(va, n)] := by
  have hr : lineRest va n = n := Nat.min_eq_left (by omega)
  have hd : n / 128 + 2 = (n / 128 + 1) + 1 := rfl
  rw [pieces, hd, linePieces, if_neg (by omega), hr, Nat.sub_self]
  simp [linePieces]

theorem funcRange_of_oneLine {s : State} {f pa : Nat} {c : Cmd} {w : Bool} (h : OneLine s f c w pa) {ok : Leaf → Bool}
    (hok : ∀ l : Leaf, (l.kind = .hbm ∨ l.kind = .cxl) → (w = true → l.w = true) → ok l = true) :
    ∃ l, (l.kind = .hbm ∨ l.kind = .cxl) ∧ s.funcRange f ok c.daddr.toNat c.len = .ok [(l, pa, c.len)] := by
  obtain ⟨l, hk, hp⟩ := funcPage_of_oneLine h hok
  obtain ⟨h1, hl, -⟩ := h
  refine ⟨l, hk, ?_⟩
  rw [State.funcRange, pieces_of_line h1 hl, List.mapM_cons]
  simp only [hp]
  rfl

/-- A physical address lies in its line as its virtual one does. -/
theorem mod_of_oneLine {s : State} {f pa : Nat} {c : Cmd} {w : Bool} (h : OneLine s f c w pa) : pa % 128 = c.daddr.toNat % 128 := by
  obtain ⟨-, -, -, l, hw, -⟩ := h
  obtain rfl : pa = l.pa c.daddr.toNat := by
    have := State.walk_page hw rfl
    rw [hw] at this
    exact (Xlat.ok.inj this).2
  have hp : 2 ^ pageBits l.level = 128 * 2 ^ (9 + 10 * l.level) := by
    rw [pageBits, show 16 + 10 * l.level = 7 + (9 + 10 * l.level) from by omega, Nat.pow_add]
  rw [Leaf.pa, Nat.add_mod, show l.frame.toNat * 65536 % 128 = 0 by omega, Nat.zero_add, Nat.mod_mod, hp, Nat.mod_mul_right_mod]

/-! ### The commands one by one -/

/-- A replay as it is queued (R345). -/
def Replay.queued (s : State) (f : Nat) (graph : Dword) : Replay :=
  { func := f, graph := graph, started := false, slots := (s.func f).slots, prio := 0, nodes := [], code := 1, node := 0xFFFF
    order := s.nextId }

section
variable {s : State} {f : Nat} {c : Cmd}

theorem write_completes {pa : Nat} (h : Claim.Fetched s f 1 c) (hl : OneLine s f c true pa) :
    ∃ t, exec (.write f) s = .next t ∧ (t.func f).cmd = none ∧
      ∀ i, i < c.len → t.mem.read (pa + i) = s.hostMem.read (c.haddr.toNat + i) := by
  obtain ⟨l, hk, hr⟩ := funcRange_of_oneLine hl (ok := fun l => l.isMem && l.w) fun l hk hw => by
    simpa [Leaf.isMem, hw rfl] using hk
  have hlen1 : ¬ (c.len = 0 ∨ c.len > 4096) := by
    obtain ⟨h1, h2, -⟩ := hl
    omega
  have hb : (s.hostMem.readBytes c.haddr.toNat c.len).length = c.len := by simp [Memory.readBytes]
  have ha : actWrite f c s = (s.homeWrite l.kind pa (s.hostMem.readBytes c.haddr.toNat c.len), some (0, 0)) := by
    rw [actWrite, if_neg hlen1, hr]
    simp [State.funcStore, List.take_of_length_le hb.le]
  refine ⟨_, congrArg Host.Outcome.next (command_of_fetched h ha), by simp, fun i hi => ?_⟩
  rw [State.complete_mem, (s.homeWrite_read pa _ (by rcases hk with hk | hk <;> simp [hk])).1 i (by rw [hb]; exact hi)]
  simp [Memory.readBytes]

theorem read_completes {pa : Nat} (h : Claim.Fetched s f 2 c) (hl : OneLine s f c false pa) (hb : lineOf pa ∉ s.net.badLines) :
    ∃ t, exec (.read f) s = .next t ∧ (t.func f).cmd = none ∧ t.mem = s.mem ∧
      ∀ i, i < c.len → NotCompletion (s.func f) (c.haddr.toNat + i) →
        t.hostMem.read (c.haddr.toNat + i) = s.mem.read (pa + i) := by
  obtain ⟨l, hk, hr⟩ := funcRange_of_oneLine hl (ok := fun l => l.isMem || decide (l.kind = .multicast)) fun l hk _ => by
    rcases hk with hk | hk <;> simp [Leaf.isMem, hk]
  have hp := mod_of_oneLine hl
  obtain ⟨h1, h2, -⟩ := hl
  have hlen : ¬ (c.len = 0 ∨ c.len > 4096) := by omega
  have hgood : s.badRange pa c.len = false := by
    have hline : lineOf (pa + c.len - 1) = lineOf pa := by
      unfold lineOf
      omega
    simp only [State.badRange, hline, List.any_eq_false, Bool.and_eq_true, decide_eq_true_eq, not_and]
    exact fun k hm hlo hhi => hb (Nat.le_antisymm hlo hhi ▸ hm)
  have hread : s.homeRead l.kind pa c.len = s.mem.readBytes pa c.len := by
    rcases hk with hk | hk <;> simp [State.homeRead, hk]
  have ha : actRead f c s = (s.hostPut c.haddr.toNat (s.mem.readBytes pa c.len), some (0, 0)) := by
    simp only [actRead, if_neg hlen, hr, List.any_cons, List.any_nil, hgood, Bool.or_self, Bool.false_eq_true, if_false,
      List.flatMap_cons, List.flatMap_nil, List.append_nil, hread]
  refine ⟨_, congrArg Host.Outcome.next (command_of_fetched h ha), by simp, by simp, fun i hi hn => ?_⟩
  have hf : (s.hostPut c.haddr.toNat (s.mem.readBytes pa c.len)).func f = s.func f := by simp [State.func]
  rw [State.complete_hostMem, hf, Memory.read_writeBytes_other _ _ _ (by rw [length_completionBytes]; exact hn), State.hostPut_hostMem,
    Memory.read_writeBytes_same _ _ _ (by simpa [Memory.readBytes] using hi)]
  simp [Memory.readBytes]

theorem setparam_completes (h : Claim.Fetched s f 3 c) :
    ∃ t, exec (.setparam f) s = .next t ∧ (t.func f).cmd = none ∧ sget 0 (t.func f).slots (c.daddr.toNat % 64) = c.value :=
  ⟨_, congrArg Host.Outcome.next (command_of_fetched h rfl), by simp, by simp⟩

theorem replay_completes {pa : Nat} (h : Claim.Fetched s f 4 c) (hd : c.daddr.toNat % 64 = 0) (hl : OneLine s f { c with len := 1 } true pa)
    (hr : s.work.replays = []) :
    ∃ t R, exec (.replay f) s = .next t ∧ (t.func f).cmd = none ∧ t.work.replays = [(s.nextId, R)] ∧ R.func = f ∧
      R.graph = c.daddr := by
  obtain ⟨l, -, hp⟩ := funcPage_of_oneLine hl (ok := fun l => l.isMem && l.w) fun l hk hw => by
    simpa [Leaf.isMem, hw rfl] using hk
  have hn : ¬ s.replaysOf f ≥ 64 := by simp [State.replaysOf, hr]
  have hp' : s.funcPage f (fun l => l.isMem && l.w) c.daddr.toNat = .ok (l, pa) := hp
  have ha : actReplay f c s = (s.queueReplay f c.daddr, some (0, (s.queueReplay f c.daddr).replaysOf f)) := by
    simp only [actReplay, hd, ne_eq, not_true, if_false, hp', if_neg hn]
  have hq : (s.queueReplay f c.daddr).work.replays = [(s.nextId, Replay.queued s f c.daddr)] := by
    simp [State.queueReplay, State.setReplay, hr, aset, Replay.queued]
  exact ⟨_, _, congrArg Host.Outcome.next (command_of_fetched h ha), by simp, by rw [State.complete_work, hq], rfl, rfl⟩

theorem query_completes (hc : (s.func f).cmd = some c) (ho : c.opc = 5) (hr : c.resv = false) (hd : c.daddr.toNat % 256 = 0) :
    ∃ t, exec (.query f) s = .next t ∧ (t.func f).cmd = none ∧ t.mem = s.mem := by
  have ha : actQuery f c s = (s, some (0, (s.mbstat f).toNat)) := by
    unfold actQuery
    rw [hd]
    rfl
  exact ⟨_, congrArg Host.Outcome.next (State.command_of_done hc ho hr (fun _ => rfl) ha), by simp, by simp⟩

theorem attest_completes (h : Claim.Fetched s f 6 c) (hi : s.sys.idBlock = none) (hb : s.sys.idBurnt < 4096) :
    ∃ t, exec (.attest f) s = .next t ∧ (t.func f).cmd = none ∧ t.sys.idBurnt = s.sys.idBurnt + 1 := by
  have hx : s.sys.takeIndex = some (256 * s.sys.idBurnt,
      { s.sys with idBlock := some s.sys.idBurnt, idBurnt := s.sys.idBurnt + 1, idNext := 1 }) := by
    unfold Sys.takeIndex
    rw [hi]
    exact if_pos hb
  have ha : ∃ u v, actAttest f c s = (u, some (0, v)) ∧ u.sys.idBurnt = s.sys.idBurnt + 1 := by
    unfold actAttest
    rw [hx]
    exact ⟨_, _, rfl, rfl⟩
  obtain ⟨u, v, ha, hu⟩ := ha
  exact ⟨_, congrArg Host.Outcome.next (command_of_fetched h ha), by simp, by simpa using hu⟩

theorem answer_completes {g : LogEntry} (ok : Bool) (opc : Nat) (h : Claim.Fetched s f opc c) (hl : s.net.log = [g]) (hi : g.id = c.value.toNat)
    (hf : g.func = f) (ha : g.answer = none) (hu : g.upgrade = false) :
    ∃ t, s.command f opc (actAnswer f ok) = t ∧ (t.func f).cmd = none ∧ t.net.log = [{ g with answer := some ok }] := by
  have he : s.entry? c.value.toNat = some g := by simp [State.entry?, hl, hi]
  have hact : actAnswer f ok c s = (s.answerPage f g.va ok, some (0, 0)) := by
    simp only [actAnswer, he, hf, ha, hu, and_self, if_true]
  refine ⟨_, command_of_fetched h hact, by simp, ?_⟩
  rw [State.complete_log]
  simp [State.answerPage, hl, hf, ha, hu]

end

end Sys2Proof.Machine
end

section
/-! SUPPORT. The next command of a mailbox, and the RESET of a function (R377, R394 to R396). -/

namespace Sys2Proof.Machine

open Sys2Proof.Claim

/-! ### The steps of a reset leave the registers of the functions (R377) -/

theorem foldl_regs {α : Type} (l : List α) {g : State → α → State} (h : ∀ s a, (g s a).regs = s.regs) (s : State) :
    (l.foldl g s).regs = s.regs := by
  induction l generalizing s with
  | nil => rfl
  | cons a r ih => exact (ih _).trans (h s a)

theorem State.clearLanes_regs (s : State) (r : Ref) (m : Word) : (s.clearLanes r m).regs = s.regs := by
  unfold State.clearLanes
  dsimp only
  split
  · simp
  · split_ifs <;> simp [State.handlerGone]

theorem State.unstall_regs (s : State) (r : Ref) : (s.unstall r).regs = s.regs := by
  unfold State.unstall
  split <;> simp

theorem State.wakeWith_regs (s : State) (r : Ref) (p : Nat) (vs : List (Nat × Word)) : (s.wakeWith r p vs).regs = s.regs := by
  unfold State.wakeWith
  simp

theorem State.watchReply_regs (s : State) (r : Ref) (p v : Nat) : (s.watchReply r p v).regs = s.regs := by
  unfold State.watchReply
  split
  · rfl
  · split
    · split
      · exact State.wakeWith_regs ..
      · rfl
    · rfl

theorem State.forceExit_regs (s : State) (t : BitVec 16) : (s.forceExit t).regs = s.regs := by
  refine foldl_regs _ (fun s r => ?_) s
  split
  · rfl
  · split
    · rfl
    · exact State.clearLanes_regs ..

theorem State.emptied_regs (s : State) (g : LogEntry) : (s.emptied g).regs = s.regs := by
  unfold State.emptied
  dsimp only
  split
  · exact State.watchReply_regs ..
  · rw [State.unstall_regs, State.modBeam_regs]
  · exact State.unstall_regs ..

theorem State.trimEntry_regs (s : State) (t : BitVec 16) (g : LogEntry) : (s.trimEntry t g).regs = s.regs := by
  unfold State.trimEntry
  split
  · rfl
  · dsimp only
    split_ifs
    · rfl
    · exact State.setBeam_regs ..
    · rfl
    · exact State.emptied_regs ..
    · rfl

theorem State.failReplay_regs (s : State) (r c n : Nat) : (s.failReplay r c n).regs = s.regs := by
  unfold State.failReplay
  split
  · rfl
  · split <;> rfl

theorem State.dropTenant_regs (s : State) (t : BitVec 16) : (s.dropTenant t).regs = s.regs := rfl

theorem State.cancelTenant_regs (s : State) (t : BitVec 16) : (s.cancelTenant t).regs = s.regs := rfl

theorem State.func_of_regs {s t : State} (h : t.regs = s.regs) (f : Nat) : t.func f = s.func f := by
  rw [State.func, State.func, h]

/-- Registers of a function with another value in STALE. -/
def Func.withStale (F : Func) (n : Word) : Func := { F with stale := n }

/-- What is held under a function's old generation is dropped; of its registers STALE alone changes. -/
theorem State.dropHeld_func (s : State) (f : Nat) (t : BitVec 16) :
    ∃ n, (s.dropHeld f t).func f = (s.func f).withStale n := by
  unfold State.dropHeld
  dsimp only
  refine ⟨_, (State.func_of_regs (foldl_regs _ (fun s w => ?_) _) f).trans (State.func_setFunc ..)⟩
  split
  · exact State.watchReply_regs ..
  · rfl

/-- A function that is reset: of its registers, STATE, GEN and STALE change, and its slots are cleared (R377). -/
theorem State.fcfgRst_func {s : State} {f : Nat} (h : (s.func f).state = .run) :
    ∃ n, (s.fcfgRst f).func f =
      Func.withStale { s.func f with state := .reset, gen := (s.func f).gen + 1, slots := [] } n := by
  unfold State.fcfgRst
  dsimp only
  rw [if_neg (by simp [h])]
  refine (State.dropHeld_func _ f _).imp fun n hn => (State.func_of_regs (State.dropTenant_regs ..) f).trans (hn.trans ?_)
  refine congrArg (Func.withStale · n) (Eq.trans (State.func_of_regs ?_ f) (State.func_setFunc s f _))
  exact (State.cancelTenant_regs ..).trans <| (foldl_regs _ (fun s g => s.trimEntry_regs _ g) _).trans
    ((State.forceExit_regs ..).trans (foldl_regs _ (fun s r => s.failReplay_regs r 9 0xFFFF) _))

theorem reset_completes {s : State} {f : Nat} {c : Cmd} (h : Claim.Fetched s f 7 c) (hd : c.daddr.toNat % 64 = f) (hf : f ≠ 0) :
    ∃ t, exec (.reset f) s = .next t ∧ (t.func f).state = .reset ∧ (t.func f).gen = (s.func f).gen + 1 := by
  have hg := gate_of_fetched h (decide (c.daddr.toNat % 64 = 0))
  obtain ⟨-, hs, hc, ho, hr⟩ := h
  obtain ⟨n, hrst⟩ := State.fcfgRst_func hs
  refine ⟨_, rfl, ?_⟩
  show ((s.command f 7 (actReset f)).func f).state = _ ∧ ((s.command f 7 (actReset f)).func f).gen = _
  unfold State.command
  simp only [hc, ho, hg, hr, ne_eq, not_true, if_false, Bool.false_eq_true]
  have ha : ∃ u, actReset f c s = (u, none) ∧ (u.func f).state = .reset ∧ (u.func f).gen = (s.func f).gen + 1 := by
    unfold actReset
    simp only [hd, hf, hs, ne_eq, not_true, and_false, if_false]
    exact ⟨_, rfl, by simp [hrst, Func.withStale], by simp [hrst, Func.withStale]⟩
  obtain ⟨u, ha, hu⟩ := ha
  rw [ha]
  exact hu

/-! ### The next command (R394, R396) -/

theorem State.resetting_iff {s : State} {f : Nat} : s.resetting f = true ↔ Owes s f := by
  simp [State.resetting, Owes]

theorem commandFetch_completes {s : State} {f : Nat} (hf : f < 64) (he : (s.func f).en = true) (hc : (s.func f).cmd = none)
    (hm : (s.func f).mbhead ≠ (s.func f).mbtail) (hroom : ((s.func f).mbctail - (s.func f).mbchead).toNat ≠ 2 ^ (s.func f).log2n.toNat)
    (hd : s.sys.d3hot = false) (ho : ¬ Owes s f) :
    ∃ t, exec (.commandFetch f) s = .next t ∧ (t.func f).mbhead = (s.func f).mbhead + 1 ∧ t.mem = s.mem := by
  have hno : ¬ (f ≥ 64 ∨ (s.func f).en = false ∨ (s.func f).cmd.isSome = true ∨ s.resetting f = true ∨
      (s.func f).mbhead = (s.func f).mbtail ∨ ((s.func f).mbctail - (s.func f).mbchead).toNat = 2 ^ (s.func f).log2n.toNat ∨
      s.sys.d3hot = true) := by
    simp only [not_or]
    exact ⟨by omega, by simp [he], by simp [hc], fun h => ho (State.resetting_iff.mp h), hm, hroom, by simp [hd]⟩
  show ∃ t, execCommandFetch f s = .next t ∧ _
  unfold execCommandFetch
  dsimp only
  rw [if_neg hno]
  split
  · exact ⟨_, rfl, by simp, by simp⟩
  · exact ⟨_, rfl, by simp, by simp⟩

end Sys2Proof.Machine
end

section
/-! SUPPORT. Registers of the host, budgets and links as events complete (R356, R392 to R395, R404, R413 to R427). -/

namespace Sys2Proof.Machine

open Sys2Proof.Claim

/-- Device memory and the teams are as before. -/
def SameMemTeams (s t : State) : Prop := t.mem = s.mem ∧ t.teams = s.teams

theorem SameMemTeams.refl (s : State) : SameMemTeams s s := ⟨rfl, rfl⟩

theorem SameMemTeams.trans {s t u : State} (h : SameMemTeams s t) (k : SameMemTeams t u) : SameMemTeams s u :=
  ⟨k.1.trans h.1, k.2.trans h.2⟩

theorem SameMemTeams.foldl {α : Type} (l : List α) {g : State → α → State} (h : ∀ s a, SameMemTeams s (g s a)) (s : State) :
    SameMemTeams s (l.foldl g s) := by
  induction l generalizing s with
  | nil => exact .refl s
  | cons a r ih => exact (h s a).trans (ih _)

/-! ### Counters (R392, R426) -/

theorem setAt_bounds {off base size count : Nat} {p : Nat × Nat} (h : setAt off base size count = some p) :
    base ≤ off ∧ off < base + size * count := by
  unfold setAt at h
  split at h
  · assumption
  · cases h

theorem setAt_of_outside {off base size count : Nat} (h : off < base ∨ base + size * count ≤ off) : setAt off base size count = none :=
  if_neg (by omega)

theorem linkAt_bounds {off : Nat} {p : Nat × Nat} (h : linkAt off = some p) : 0x40000 ≤ off ∧ off < 0x41A00 := by
  unfold linkAt at h
  split at h
  · next q hq =>
    have := setAt_bounds hq
    unfold linkBlock at this
    omega
  · cases hq : setAt off (linkBlock + 0x1800) 0x40 8 with
    | none => simp [hq] at h
    | some q =>
      have := setAt_bounds hq
      unfold linkBlock at this
      omega

theorem set32_of_link {off l o : Nat} (h : linkAt off = some (l, o)) (s : State) (v : Word) : s.set32 off v = s.writeLink l o v := by
  have hb := linkAt_bounds h
  unfold State.set32
  rw [setAt_of_outside (base := 0) (by omega), setAt_of_outside (base := 0x400) (by omega),
    setAt_of_outside (base := schedBlock + 0x100) (by unfold schedBlock; omega),
    setAt_of_outside (base := haloBlock) (by unfold haloBlock; omega), h]

theorem set32_of_chan {off c o : Nat} (h : setAt off haloBlock 0x100 2 = some (c, o)) (s : State) (v : Word) :
    s.set32 off v = s.writeChan c o v := by
  have hb := setAt_bounds h
  unfold haloBlock at hb
  unfold State.set32
  rw [setAt_of_outside (base := 0) (by omega), setAt_of_outside (base := 0x400) (by omega),
    setAt_of_outside (base := schedBlock + 0x100) (by unfold schedBlock; omega), h]

theorem set32_of_fn {off f o : Nat} (h : setAt off 0x400 0x40 64 = some (f, o)) (s : State) (v : Word) :
    s.set32 off v = s.writeFn f o v := by
  have hb := setAt_bounds h
  unfold State.set32
  rw [setAt_of_outside (base := 0) (by omega), h]

theorem counterClear_completes (s : State) (off : Nat) :
    ∃ t, exec (.counterClear off) s = .next t ∧ SameMemTeams s t := by
  show ∃ t, execCounterClear off s = .next t ∧ _
  unfold execCounterClear
  dsimp only
  split
  · next l o _ _ hl =>
    split
    · next hc =>
      simp only [Bool.or_eq_true, decide_eq_true_eq] at hc
      refine ⟨_, rfl, ?_⟩
      rw [set32_of_link hl]
      rcases hc with (rfl | rfl) | rfl <;> exact ⟨rfl, rfl⟩
    · exact ⟨_, rfl, .refl s⟩
  · next c o _ _ hh _ =>
    split
    · next hc =>
      obtain rfl := of_decide_eq_true hc
      refine ⟨_, rfl, ?_⟩
      rw [set32_of_chan hh]
      exact ⟨rfl, rfl⟩
    · exact ⟨_, rfl, .refl s⟩
  · next f o _ _ hf _ _ =>
    split
    · next hc =>
      obtain rfl := of_decide_eq_true hc
      refine ⟨_, rfl, ?_⟩
      rw [set32_of_fn hf]
      exact ⟨rfl, rfl⟩
    · exact ⟨_, rfl, .refl s⟩
  · exact ⟨_, rfl, .refl s⟩

theorem registerWrite_completes (s : State) (off : Nat) (wide : Bool) (v : Dword) : ∃ t, exec (.registerWrite off wide v) s = .next t := by
  show ∃ t, execRegisterWrite off wide v s = .next t
  unfold execRegisterWrite
  split_ifs <;> exact ⟨_, rfl⟩

/-! ### Gating (R404) -/

theorem State.gateWays_same (s : State) (u : Nat) (m : BitVec 16) : SameMemTeams s (s.gateWays u m) := by
  unfold State.gateWays
  split_ifs <;> exact ⟨rfl, rfl⟩

theorem State.gateGranules_same (s : State) (c g : Nat) (m : BitVec 16) : SameMemTeams s (s.gateGranules c g m) := by
  unfold State.gateGranules
  dsimp only
  split
  · exact ⟨rfl, rfl⟩
  · split_ifs <;> exact ⟨rfl, rfl⟩

theorem State.pgGo_same (s : State) (kind grp unit : Nat) (m : BitVec 16) : SameMemTeams s (s.pgGo kind grp unit m) := by
  unfold State.pgGo
  split_ifs
  · exact .refl s
  · exact s.gateWays_same _ _
  · exact s.gateGranules_same _ _ _
  · exact ⟨rfl, rfl⟩

/-! ### Budgets (R353, R356) -/

theorem State.refillOne_same (s : State) (f : Nat) : SameMemTeams s (s.refillOne f) := by
  unfold State.refillOne
  dsimp only
  split <;> exact ⟨rfl, rfl⟩

theorem State.loanOne_same (s : State) (f : Nat) : SameMemTeams s (s.loanOne f) := by
  unfold State.loanOne
  dsimp only
  split <;> exact ⟨rfl, rfl⟩

theorem budgetPeriod_completes (s : State) : ∃ t, exec .budgetPeriod s = .next t ∧ SameMemTeams s t :=
  ⟨_, rfl, (SameMemTeams.foldl _ State.refillOne_same s).trans (SameMemTeams.foldl _ State.loanOne_same _)⟩

/-! ### The mailbox's registers (R393, R394, R427) -/

theorem mbtailWrite_completes (s : State) (f : Nat) (v : Word) (h : (v - (s.func f).mbhead).toNat ≤ 2 ^ (s.func f).log2n.toNat) :
    exec (.mbtailWrite f v) s = .next (s.setFunc f { s.func f with mbtail := v }) :=
  congrArg Host.Outcome.next (if_neg (Nat.not_lt.mpr h))

theorem mbcfgWrite_completes (s : State) (f : Nat) (v : Word) (h : (s.func f).en = true) :
    exec (.mbcfgWrite f v) s = .next (s.setFunc f { s.func f with en := v.getLsbD 4, irqen := v.getLsbD 27 }) := by
  show Host.Outcome.next (s.writeMbcfg f v) = _
  unfold State.writeMbcfg
  simp only [h, Bool.not_true, Bool.and_false, Bool.false_eq_true, if_false, if_true]

theorem evcfgWrite_completes (s : State) (f : Nat) (v : Word) :
    ∃ t, exec (.evcfgWrite f v) s = .next t ∧ (t.func f).even_ = v.getLsbD 4 ∧ (t.func f).evirqen = v.getLsbD 27 ∧ t.mem = s.mem := by
  refine ⟨s.writeEvcfg f v, rfl, ?_⟩
  unfold State.writeEvcfg
  dsimp only
  split <;> simp

/-! ### Links (R424) -/

theorem hold_completes (s : State) (l : Nat) (h : (s.link l).state = .drained) :
    exec (.hold l) s = .next (s.setLink l { s.link l with state := .held, since := s.ftime, cerr := false }) := by
  show Host.Outcome.next (s.linkHold l) = _
  rw [State.linkHold, State.linkCmd, h]
  simp [cmdOk, State.setLState, State.setLink, State.link]

theorem dark_completes (s : State) (l : Nat) (h : (s.link l).state = .held) :
    exec (.dark l) s = .next (s.setLink l { s.link l with state := .dark, since := s.ftime, cerr := false }) := by
  show Host.Outcome.next (s.linkDark l) = _
  rw [State.linkDark, State.linkCmd, h]
  simp [cmdOk, State.setLState, State.setLink, State.link]

/-! ### A request without an answer (R236, R413) -/

/-- The team of the given number goes on with the same grid; device memory and the grids are as before. -/
def KeepsTeam (t : Nat) (s u : State) : Prop :=
  u.mem = s.mem ∧ u.grids = s.grids ∧
    ∀ T, s.team? t = some T → ∃ U, u.team? t = some U ∧ U.grid = T.grid ∧ U.stopped = T.stopped

theorem KeepsTeam.refl (t : Nat) (s : State) : KeepsTeam t s s := ⟨rfl, rfl, fun T h => ⟨T, h, rfl, rfl⟩⟩

theorem KeepsTeam.trans {t : Nat} {s u v : State} (h : KeepsTeam t s u) (k : KeepsTeam t u v) : KeepsTeam t s v := by
  obtain ⟨hm, hg, ht⟩ := h
  obtain ⟨km, kg, kt⟩ := k
  refine ⟨km.trans hm, kg.trans hg, fun T hT => ?_⟩
  obtain ⟨U, hU, hUg, hUs⟩ := ht T hT
  obtain ⟨V, hV, hVg, hVs⟩ := kt U hU
  exact ⟨V, hV, hVg.trans hUg, hVs.trans hUs⟩

theorem State.modBeam_keepsTeam (s : State) (r : Ref) (f : Beam → Beam) : KeepsTeam r.t s (s.modBeam r f) := by
  refine ⟨State.modBeam_mem .., by simp, fun T hT => ?_⟩
  unfold State.modBeam
  split
  · exact ⟨T, hT, rfl, rfl⟩
  · next b _ =>
    refine ⟨T.setBeam r.b (f b), ?_, rfl, rfl⟩
    rw [State.setBeam_eq_setTeam hT]
    exact State.team?_setTeam ..

theorem State.abandon_keepsTeam (s : State) (p : Packet) (h : p.job = none) : KeepsTeam p.src.t s (s.abandon p) := by
  unfold State.abandon
  rw [h]
  have hpend : KeepsTeam p.src.t s (match p.pend with | none => s | some i => s.modBeam p.src fun b => b.pendAdd i [] 1) := by
    cases p.pend with
    | none => exact .refl _ s
    | some i => exact State.modBeam_keepsTeam ..
  dsimp only
  split
  · exact hpend.trans (State.modBeam_keepsTeam ..)
  · exact hpend

theorem State.fatalStop_grid {s : State} {r : Ref} {T : Team} {G : Grid} (hT : s.team? r.t = some T) (hG : s.grid? T.grid = some G)
    (cause arg : Nat) (epc : Dword) (peer info : Nat) :
    (s.fatalStop r cause arg epc peer info).grid? T.grid = some { G with fatal := true } := by
  rw [State.fatalStop, hT]
  dsimp only
  rw [State.grid?, (State.teams_grids_teamReport ..).2, (State.teams_grids_endGrid hG).2, aget_aset_same]

theorem State.remoteFatal_grid {s : State} {p : Packet} {T : Team} {G : Grid} (peer : Nat) (hj : p.job = none)
    (hT : s.team? p.src.t = some T) (hs : T.stopped = false) (hG : s.grid? T.grid = some G) :
    (s.remoteFatal p peer).grid? T.grid = some { G with fatal := true } ∧ (s.remoteFatal p peer).mem = s.mem := by
  obtain ⟨hm, hg, ht⟩ := s.abandon_keepsTeam p hj
  obtain ⟨U, hU, hUg, hUs⟩ := ht T hT
  have heq : s.remoteFatal p peer = (s.abandon p).fatalStop p.src cREMOTEFATAL 0 (((s.abandon p).beam? p.src).elim 0 (·.pc)) peer p.pa := by
    simp only [State.remoteFatal, hj, hU, hUs, hs, Bool.false_eq_true, if_false]
  rw [heq]
  refine ⟨?_, (State.fatalStop_keeps ..).mem.trans hm⟩
  rw [← hUg] at hG ⊢
  exact State.fatalStop_grid hU ((congrArg (aget · U.grid) hg).trans hG) ..

theorem remoteTimeout_completes {s : State} {k n : Nat} {p : Packet} {T : Team} {G : Grid} (hk : s.net.remotes[k]? = some ⟨p, n⟩)
    (hj : p.job = none) (hg : ∀ d, p.target = some d → d / 32 = s.fab.dev.toNat / 32) (hl : s.fab.links = [])
    (hn : n + 2000000 ≤ s.ftime) (hT : s.team? p.src.t = some T) (hs : T.stopped = false) (hG : s.grid? T.grid = some G) :
    ∃ t H, exec (.remoteTimeout k) s = .next t ∧ t.grid? T.grid = some H ∧ H.fatal = true ∧ t.mem = s.mem := by
  have hsent : s.unsentYet ⟨p, n⟩ = false := by simp [State.unsentYet, hl]
  have hheld : s.heldElsewhere ⟨p, n⟩ = false := by
    unfold State.heldElsewhere
    cases hd : p.target with
    | none => rfl
    | some d => simp [hg d hd]
  have hx : exec (.remoteTimeout k) s = .next ((s.dropRemote ⟨p, n⟩).remoteFatal p (p.target.getD 0)) := by
    show execRemoteTimeout k s = _
    unfold execRemoteTimeout
    rw [hk]
    exact if_neg (by simp [hsent, hheld, Nat.not_lt.mpr hn])
  obtain ⟨hgrid, hmem⟩ := State.remoteFatal_grid (s := s.dropRemote ⟨p, n⟩) (p.target.getD 0) hj hT hs hG
  exact ⟨_, _, hx, hgrid, rfl, hmem⟩

end Sys2Proof.Machine
end

section
/-! SUPPORT. Events of beams, nodes, shootdowns and functions as they complete (R83, R92, R166, R173, R346, R370, R377). -/

namespace Sys2Proof.Machine

open Sys2Proof.Claim

/-! ### Beams -/

theorem fixedResultLand_completes {s : State} {r : Ref} {T : Team} {b : Beam} {f : Fix} {l : List Fix} (h : HasBeam s r T b)
    (hf : b.fix = f :: l) (hn : f.ready ≤ s.clock) (hs : f.sreg = none) (hst : b.status ≠ .region) :
    exec (.fixedResultLand r.t r.b) s = .next (s.setBeam r { b.landOne f with fix := l }) := by
  obtain ⟨-, -, -, hland, -⟩ := pendingEffectsLand
  exact hland s r T b f l h hf hn hst fun vs => by simp [hs]

theorem decodeWords_zero : decodeWords [0] = some (.nop ⟨0⟩) := by decide

theorem bodyMayHold_nop : bodyMayHold (.nop ⟨0⟩) := ⟨rfl, by decide, .bz ⟨0⟩, rfl, by decide⟩

/-- A body word of 0 is `NOP` (R92, R166). -/
theorem macroBodyWord_nop {s s1 : State} {r : Ref} {T : Team} {b : Beam} {c : CallCtx} {e : Env} (h : HasBeam s r T b)
    (hm : b.mcall = some c) (hgood : 32 * c.entry + c.word ∉ (s.core T.coreId).bad)
    (hw : sget 0 (s.core T.coreId).store (32 * c.entry + c.word) = 0) (hi : Issues (.nop ⟨0⟩) { s with cur := some r } e s1) :
    exec (.macroBodyWord r.t r.b) s = .next (Issue.finish e s1 none) := by
  obtain ⟨hbody, -⟩ := (macroBodyWords s r T b c h hm).1 hgood
  rw [hbody _ (by rw [hw]; exact decodeWords_zero) bodyMayHold_nop]
  exact nopHasNoEffect.1 _ _ _ _ hi

/-- A beam with no `QCOMMIT` of its own has none that becomes full. -/
theorem State.runCommits_of_none {s : State} {r : Ref} {T : Team} (hT : s.team? r.t = some T) (h : ∀ c ∈ T.commits, c.beam ≠ r.b) :
    s.runCommits r = s := by
  have hgo : ∀ c ∈ T.commits, (T.core?.isSome && decide (c.beam = r.b) && !s.relHeld r c.sentAt c.scrAt 1) = false := fun c hc => by
    simp [h c hc]
  rw [State.runCommits, State.modTeam_of_team? hT]
  dsimp only
  rw [List.filter_eq_self.mpr fun c hc => by rw [hgo c hc]; rfl,
    List.filter_eq_nil_iff.mpr fun c hc => by rw [hgo c hc]; exact Bool.false_ne_true]
  exact State.setTeam_of_team? hT

theorem beamWake_bar {s : State} {r : Ref} {T : Team} {b : Beam} (h : HasBeam s r T b) (hl : ∃ c, T.life = .resident c)
    (hs : T.stopped = false) (hp : b.ptrap = none) (hc : ∀ c ∈ T.commits, c.beam ≠ r.b) (hb : b.status = .bar)
    (ha : T.arrived.getLsbD r.b = false) : exec (.beamWake r.t r.b) s = .next (s.setBeam r (wokenBeam b s.clock)) := by
  have hres : T.isResident = true := Team.isResident_iff.mpr hl
  have hmod := State.modBeam_of_hasBeam h (Beam.awake · s.clock)
  obtain ⟨hT, hB⟩ := h
  show execBeamWake r.t r.b s = _
  unfold execBeamWake
  simp only [State.runCommits_of_none hT hc, hT, hB, hres, hs, hp, State.wake, hb, ha, Bool.true_eq_false, Bool.false_eq_true, or_self,
    if_false, Option.isSome_none]
  exact congrArg Host.Outcome.next hmod

/-! ### Nodes that wait for a location (R346) -/

theorem bodyAt_eq (N : Node) (off k : Nat) : bodyAt N off k = natAt N.body off k := by
  rw [bodyAt, natAt, natAt, Node.body, List.drop_drop]

theorem met_iff {N : Node} {v : Nat} : N.met v = true ↔ WaitMet N v := by
  unfold Node.met WaitMet
  dsimp only
  simp only [nodeSize, bodyAt_eq]
  show _ ↔ if N.flags % 2 = 1 then _ else _
  split
  · exact decide_eq_true_iff
  · exact decide_eq_true_iff

theorem State.modNode_becomes {s : State} {r n : Nat} {R : Replay} {N : Node} (hR : s.replay? r = some R) (hN : aget R.nodes n = some N)
    (f : Node → Node) : NodeBecomes s (s.modNode r n f) r n (f N) := by
  have hr : aget s.work.replays r = some R := hR
  have ht : (s.modNode r n f).replay? r = some { R with nodes := aset R.nodes n (f N) } := by
    simp only [State.modNode, hr, hN]
    exact aget_aset_same ..
  unfold NodeBecomes nodeIn
  rw [ht, hR]
  exact ⟨aget_aset_same .., fun m hm => aget_aset_other _ _ hm⟩

theorem State.modNode_same (s : State) (r n : Nat) (f : Node → Node) : (s.modNode r n f).net = s.net ∧ (s.modNode r n f).mem = s.mem := by
  unfold State.modNode
  split
  · exact ⟨rfl, rfl⟩
  · split <;> exact ⟨rfl, rfl⟩

theorem watchReply_node {s : State} {k r n : Nat} {w : Watch} {R : Replay} {N : Node} (hw : s.net.watches[k]? = some w) (hh : w.hit = true)
    (hr : w.who = .node r n) (hk : w.kind = .hbm ∨ w.kind = .cxl) (hR : s.replay? r = some R) (hN : aget R.nodes n = some N) :
    (WaitMet N (s.mem.readNat w.pa w.size) →
      ∃ t, exec (.watchReply k) s = .next t ∧ t.net.watches = s.net.watches.eraseIdx k ∧ t.mem = s.mem ∧
        NodeBecomes s t r n { N with state := .complete }) ∧
    (¬ WaitMet N (s.mem.readNat w.pa w.size) →
      ∃ t, exec (.watchReply k) s = .next t ∧ t.net.watches = s.net.watches.eraseIdx k ++ [{ w with hit := false }] ∧ t.mem = s.mem) := by
  have hv : s.homeNat w.kind w.pa w.size = s.mem.readNat w.pa w.size := by
    rcases hk with hk | hk <;> simp [State.homeNat, hk]
  have hx : exec (.watchReply k) s =
      let cut := { s with net := { s.net with watches := s.net.watches.eraseIdx k } }
      if N.met (s.mem.readNat w.pa w.size) then .next (cut.nodeDone r n)
      else .next { cut with net := { cut.net with watches := cut.net.watches ++ [{ w with hit := false }] } } := by
    show execWatchReply k s = _
    unfold execWatchReply
    simp only [hw, hh, hr, hR, hN, hv, Bool.true_eq_false, if_false, Option.bind_some]
  refine ⟨fun hm => ?_, fun hm => ?_⟩
  · rw [hx]
    dsimp only
    rw [if_pos (met_iff.mpr hm)]
    have hb := State.modNode_becomes (s := { s with net := { s.net with watches := s.net.watches.eraseIdx k } }) hR hN
      fun N => { N with state := .complete }
    obtain ⟨hn, hmem⟩ := State.modNode_same { s with net := { s.net with watches := s.net.watches.eraseIdx k } } r n
      fun N => { N with state := .complete }
    exact ⟨_, rfl, congrArg Net.watches hn, hmem, hb⟩
  · rw [hx]
    dsimp only
    rw [if_neg (mt met_iff.mp hm)]
    exact ⟨_, rfl, rfl, rfl⟩


/-! ### Shootdowns and resets (R363, R370, R377) -/

theorem shootdownDone_completes {s : State} (hb : s.regs.sdBusy = true) (hm : s.regs.sdMark.isSome = true) (hp : s.net.packets = [])
    (hr : s.net.remotes = []) (hw : s.net.watches = []) (ht : s.teams = []) :
    exec .shootdownDone s = .next { s with regs := { s.regs with sdBusy := false, sdMark := none } } := by
  obtain ⟨n, hn⟩ := Option.isSome_iff_exists.mp hm
  have hd : s.drainedBefore n = true := by simp [State.drainedBefore, hp, hr, hw, ht]
  show execShootdownDone s = _
  unfold execShootdownDone
  rw [hn]
  exact if_pos ⟨hb, hd⟩

theorem resetDrained_completes {s : State} {f : Nat} (hs : (s.func f).state = .reset) (htag : (s.func f).resetTag = [])
    (hp : s.net.packets = []) (hr : s.net.remotes = []) (hj : s.jobs = []) (ht : s.teams = []) :
    exec (.resetDrained f) s = .next (s.setFunc f { s.func f with state := .drained }) := by
  show execResetDrained f s = _
  unfold execResetDrained
  dsimp only
  rw [if_pos (by simp [hs, hp, hr, hj, ht]), htag]
  rfl

theorem fcfgRel_completes {s : State} {f : Nat} (hs : (s.func f).state = .drained)
    (hu : ∀ e ∈ s.regs.funcs, e.2.ftag = (s.func f).ftag → e.1 = f) :
    exec (.fcfgRel f) s = .next (s.setFunc f { s.func f with state := .run }) := by
  have hn : s.tagUsed f (s.func f).ftag = false := by
    simp only [State.tagUsed, List.any_eq_false, Bool.and_eq_true, decide_eq_true_eq, not_and]
    exact fun e he hne ht => hne.1 (hu e he ht)
  exact congrArg Host.Outcome.next (if_pos ⟨hs, hn⟩)

/-- Settles O60, event by event: each part is the completion proved above under its name, or an event that the model answers at once. -/
theorem eventsComplete : Obligations.EventsComplete := by
  refine ⟨fun _ _ _ _ _ _ h => fixedResultLand_completes h, fun _ _ _ _ _ _ _ h => macroBodyWord_nop h, fun _ _ _ _ h => beamWake_bar h,
    fun _ _ _ _ _ _ _ h => watchReply_node h, fun _ h => shootdownDone_completes h, fun _ _ h => resetDrained_completes h,
    fun _ _ h => fcfgRel_completes h, fun _ => rfl, registerWrite_completes, counterClear_completes,
    fun s u m => ⟨_, rfl, s.pgGo_same 0 0 u m⟩, fun s c g m => ⟨_, rfl, s.pgGo_same 1 g c m⟩, budgetPeriod_completes,
    fun _ => rfl, fun _ => rfl, fun _ _ _ => rfl, mbtailWrite_completes, mbcfgWrite_completes, evcfgWrite_completes, fun _ _ _ => rfl,
    fun _ _ => commandFetch_completes, fun _ _ _ _ => write_completes, fun _ _ _ _ => read_completes, fun _ _ _ => setparam_completes,
    fun _ _ _ _ => replay_completes, fun _ _ _ => query_completes, fun _ _ _ => attest_completes, fun _ _ _ => reset_completes,
    fun s f c g hl hi hf ha hu => ⟨fun h => ?_, fun h => ?_⟩, hold_completes, dark_completes,
    fun _ _ _ _ _ _ => remoteTimeout_completes⟩
  · obtain ⟨t, ht, hrest⟩ := answer_completes true 8 h hl hi hf ha hu
    exact ⟨t, congrArg Host.Outcome.next ht, hrest⟩
  · obtain ⟨t, ht, hrest⟩ := answer_completes false 9 h hl hi hf ha hu
    exact ⟨t, congrArg Host.Outcome.next ht, hrest⟩

end Sys2Proof.Machine
end

section
/-! SUPPORT. What an issue leaves of device memory (R117, R120): only the operations of a shared context write it. -/

namespace Sys2Proof.Machine

open Sys2Proof.Claim

/-! ### Instructions with a fixed latency -/

/-- An instruction that passes its checks sees its own opcode and fields. -/
theorem sees_of_startOf {i : Instr} {s u : State} {e : Env} (h : startOf i s = .go e u) : Sees (numberOf i) e := by
  unfold startOf Issue.start at h
  dsimp only at h
  split at h
  · cases h
  · split_ifs at h
    cases h
    exact ⟨rfl, rfl⟩

theorem ResultOnly.kept {w : Prop} {e : Env} {s t : State} {x : Res} (h : Kept w s t) (hx : ResultOnly e t x) : x.Kept w s := by
  rcases hx with rfl | ⟨vals, fl, rfl, -, -⟩
  · exact trivial
  · exact h.fixed

/-- What an attempt to issue leaves, by what the body leaves where the checks of `Issue.start` let it run. -/
theorem Start.Kept.conclude_of_go {w : Prop} {s : State} {x : Start} {body : Env → State → Res} (h : x.Kept w s)
    (hb : ∀ e u, x = .go e u → Machine.Kept w s u → (body e u).Kept w s) : KeptNext w s (Issue.conclude x body) := by
  cases x with
  | noBeam => exact trivial
  | hold u => exact h
  | trap e u c => exact .ite (Kept.heldUntil h) (Kept.issued h).trap
  | go e u => exact Start.Kept.conclude (x := .go e u) (body := fun _ _ => body e u) h fun _ _ _ => hb e u rfl h

theorem exec_kept_of_fixedLat {w : Prop} {i : Instr} {s : State} (hl : fixedLat (numberOf i) ≠ none) : KeptNext w s (exec i s) := by
  obtain ⟨body, he, hres⟩ := exec_addsResult i hl
  rw [he]
  exact Kept.refl.start.conclude_of_go fun e u hg k => (hres e u (sees_of_startOf hg)).kept k

/-! ### Instructions without one -/

/-- A coded instruction without a fixed latency, of the opcodes outside the shared contexts, as a test. -/
def variableOutsideContexts (i : Instr) : Bool :=
  isCoded i && (fixedLat (numberOf i)).isNone && (decide (numberOf i < 0x220) || decide (0x22A < numberOf i))

theorem exec_kept_of_variable {w : Prop} {i : Instr} {s : State} (h : variableOutsideContexts i = true) : KeptNext w s (exec i s) := by
  have k : Kept w s s := .refl
  cases i with
  | nop _ => exact k.base fun _ _ => bodyNop_kept
  | nopX _ => exact k.ext fun _ _ => bodyNop_kept
  | ldsw _ => exact k.base fun _ _ => bodyLdsw_kept
  | ldswX _ => exact k.ext fun _ _ => bodyLdsw_kept
  | stsw _ => exact k.base fun _ _ => bodyStsw_kept
  | stswX _ => exact k.ext fun _ _ => bodyStsw_kept
  | twwr _ => exact k.base fun _ _ => bodyTwwr_kept
  | twwrX _ => exact k.ext fun _ _ => bodyTwwr_kept
  | bra _ => exact k.base fun _ _ => bodyBra_kept
  | braX _ => exact k.ext fun _ _ => bodyBra_kept
  | brany _ | brall _ | brnone _ => exact k.base fun _ _ => bodyBrIf_kept
  | branyX _ | brallX _ | brnoneX _ => exact k.ext fun _ _ => bodyBrIf_kept
  | exit _ => exact k.base fun _ _ => bodyExit_kept
  | exitX _ => exact k.ext fun _ _ => bodyExit_kept
  | bar _ => exact k.base fun _ _ => bodyBar_kept
  | barX _ => exact k.ext fun _ _ => bodyBar_kept
  | maskp _ => exact k.base fun _ _ => bodyMaskp_kept
  | maskpX _ => exact k.ext fun _ _ => bodyMaskp_kept
  | setm _ => exact k.base fun _ _ => bodySetm_kept
  | setmX _ => exact k.ext fun _ _ => bodySetm_kept
  | call _ => exact k.ext fun _ _ => bodyCall_kept
  | callr _ => exact k.ext fun _ _ => bodyCallr_kept
  | ret _ | jmpr _ => exact k.ext fun _ _ => bodyJmpr_kept
  | yield _ => exact k.ext fun _ _ => bodyYield_kept
  | yieldj _ => exact k.ext fun _ _ => bodyYieldj_kept
  | region _ => exact k.ext fun _ _ => bodyRegion_kept
  | mcall _ => exact k.ext fun _ _ => bodyMcall_kept
  | barn _ => exact k.ext fun _ _ => bodyBarn_kept
  | arrive _ => exact k.ext fun _ _ => bodyArrive_kept
  | waitb _ => exact k.ext fun _ _ => bodyWaitb_kept
  | twadd _ | twcas _ => exact k.ext fun _ _ => bodyTwRmw_kept
  | swr _ => exact k.ext fun _ _ => bodySwr_kept
  | trap _ => exact k.ext fun _ _ _ => bodyTrap_kept
  | eret _ => exact k.ext fun _ _ => bodyEret_kept
  | brk _ => exact k.ext fun _ _ _ => bodyBrk_kept
  | divs _ | divu _ | rems _ | remu _ => exact k.ext fun _ _ => bodyDiv_kept
  | xchg _ => exact k.ext fun _ _ => bodyXchg_kept
  | ld _ => exact k.ext fun _ _ => bodyLd_kept
  | st _ => exact k.ext fun _ _ => bodySt_kept
  | lda _ => exact k.ext fun _ _ => bodyLda_kept
  | stl _ => exact k.ext fun _ _ => bodyStl_kept
  | lds _ => exact k.ext fun _ _ => bodyLds_kept
  | sts _ => exact k.ext fun _ _ => bodySts_kept
  | atom _ => exact k.ext fun _ _ => bodyAtom_kept
  | atoms _ => exact k.ext fun _ _ => bodyAtoms_kept
  | red _ => exact k.ext fun _ _ => bodyRed_kept
  | fence _ => exact k.ext fun _ _ => bodyFence_kept
  | mcst _ => exact k.ext fun _ _ => bodyMcst_kept
  | prf _ => exact k.ext fun _ _ => bodyPrf_kept
  | cinv _ => exact k.ext fun _ _ => bodyCinv_kept
  | tile _ => exact k.ext fun _ _ => bodyTile_kept
  | waitm _ => exact k.ext fun _ _ => bodyWaitm_kept
  | mma _ => exact k.ext fun _ _ => bodyMma_kept
  | mmasp _ => exact k.ext fun _ _ => bodyMmasp_kept
  | accz _ => exact k.ext fun _ _ => bodyAccz_kept
  | accld _ => exact k.ext fun _ _ => bodyAccld_kept
  | accst _ => exact k.ext fun _ _ => bodyAccst_kept
  | acccvt _ => exact k.ext fun _ _ => bodyAcccvt_kept
  | ldmeta _ => exact k.ext fun _ _ => bodyLdmeta_kept
  | mwait _ => exact k.ext fun _ _ => bodyMwait_kept
  | qset _ => exact k.ext fun _ _ => bodyQset_kept
  | qacq _ => exact k.ext fun _ _ => bodyQacq_kept
  | qcommit _ => exact k.ext fun _ _ => bodyQcommit_kept
  | qwait _ => exact k.ext fun _ _ => bodyQwait_kept
  | qfree _ => exact k.ext fun _ _ => bodyQfree_kept
  | cpyj _ => exact k.ext fun _ _ => bodyCpyj_kept
  | gatj _ => exact k.ext fun _ _ => bodyGatj_kept
  | colj _ => exact k.ext fun _ _ => bodyColj_kept
  | jwait _ => exact k.ext fun _ _ => bodyJwait_kept
  | jtest _ => exact k.ext fun _ _ => bodyJtest_kept
  | hboard _ => exact k.ext fun _ _ => bodyHboard_kept
  | hcancel _ => exact k.ext fun _ _ => bodyHcancel_kept
  | hlap _ => exact k.ext fun _ _ => bodyHlap_kept
  | pawin _ => exact k.ext fun _ _ => bodyPawin_kept
  | pald _ => exact k.ext fun _ _ => bodyPald_kept
  | pain _ => exact k.ext fun _ _ => bodyPain_kept
  | pago _ => exact k.ext fun _ _ => bodyPago_kept
  | pacap _ => exact k.ext fun _ _ => bodyPacap_kept
  | paclr _ => exact k.ext fun _ _ => bodyPaclr_kept
  | _ => exact absurd h Bool.false_ne_true

/-! ### Every instruction -/

/-- An instruction outside the shared contexts, issued or not, leaves device memory as it is. -/
theorem exec_kept_outsideContexts {w : Prop} {i : Instr} {s : State} (hc : isCoded i = true)
    (hn : numberOf i < 0x220 ∨ 0x22A < numberOf i) : KeptNext w s (exec i s) := by
  by_cases hl : fixedLat (numberOf i) = none
  · exact exec_kept_of_variable (by simpa [variableOutsideContexts, hc, hl] using hn)
  · exact exec_kept_of_fixedLat hl

/-- Settles O11: a result of fixed latency changes its beam alone, and no other body outside the shared contexts writes device memory;
nor do the checks, a trap or moving on. -/
theorem issueLeavesMemory : Obligations.IssueLeavesMemory := by
  intro i s t hc hn hx a
  have k : KeptNext False s (exec i s) := exec_kept_outsideContexts hc hn
  rw [hx] at k
  exact congrArg (·.read a) k.mem_eq

end Sys2Proof.Machine
end

section
/-! SUPPORT. Bytes and words of memory as a restore reads them from a save area (R387 to R390). -/

namespace Sys2Proof.Machine

/-! ### Numbers by their bits (R4) -/

theorem Memory.testBit_readNat (m : Memory) (a n i : Nat) :
    (m.readNat a n).testBit i = (decide (i < 8 * n) && (m.read (a + i / 8)).getLsbD (i % 8)) := by
  induction n generalizing a i with
  | zero => simp [Memory.readNat]
  | succ n ih =>
    rw [Memory.readNat, Nat.add_comm, Nat.testBit_two_pow_mul_add (i := 8) _ (m.read a).isLt, ih]
    by_cases hi : i < 8
    · rw [if_pos hi, Nat.div_eq_of_lt hi, Nat.mod_eq_of_lt hi, decide_eq_true (show i < 8 * (n + 1) by omega), BitVec.testBit_toNat]
      rfl
    · rw [if_neg hi, show a + 1 + (i - 8) / 8 = a + i / 8 by omega, show (i - 8) % 8 = i % 8 by omega,
        decide_eq_decide.mpr (show i - 8 < 8 * n ↔ i < 8 * (n + 1) by omega)]

theorem Memory.readNat_lt (m : Memory) (a n : Nat) : m.readNat a n < 2 ^ (8 * n) :=
  Nat.lt_pow_two_of_testBit _ fun i hi => by rw [m.testBit_readNat, decide_eq_false (by omega), Bool.false_and]

/-- A register of `8 * n` bits holds the number that `n` bytes are. -/
theorem Memory.toNat_ofNat_readNat (m : Memory) (a n : Nat) : (BitVec.ofNat (8 * n) (m.readNat a n)).toNat = m.readNat a n :=
  (BitVec.toNat_ofNat ..).trans (Nat.mod_eq_of_lt (m.readNat_lt a n))

/-! ### Bytes and words from an address on -/

theorem read_bytesFrom (m : Memory) {lo n a : Nat} (h : a < n) : (bytesFrom m lo n).read a = m.read (lo + a) := by
  refine (sget_map memDefault (f := fun j => j - lo) (j := lo + a) fun e he => ?_).trans (sget_filter memDefault m fun e he => ?_)
  · have := List.of_mem_filter he
    simp only [Bool.and_eq_true, decide_eq_true_eq] at this
    omega
  · simp only [Bool.and_eq_true, decide_eq_true_eq]
    omega

/-- A byte at its place in the word of its address. -/
def addByte (lo : Nat) (l : List (Nat × Word)) (e : Nat × Byte) : List (Nat × Word) :=
  let k := (e.1 - lo) / 4
  sset 0 l k (sget 0 l k ||| ((e.2.setWidth 32 : Word) <<< (8 * ((e.1 - lo) % 4))))

theorem wordsFrom_eq (m : Memory) (lo n : Nat) :
    wordsFrom m lo n = (m.filter fun e => decide (lo ≤ e.1) && decide (e.1 < lo + 4 * n)).foldl (addByte lo) [] := rfl

/-- Bit i of a word is set by the byte that holds it, and by no other. -/
theorem getLsbD_addByte {lo k i : Nat} (l : List (Nat × Word)) {e : Nat × Byte} (hi : i < 32) (he : lo ≤ e.1) :
    (sget 0 (addByte lo l e) k).getLsbD i =
      ((sget 0 l k).getLsbD i || (decide (e.1 = lo + 4 * k + i / 8) && e.2.getLsbD (i % 8))) := by
  unfold addByte
  by_cases hk : (e.1 - lo) / 4 = k
  · subst hk
    rw [sget_sset_same, BitVec.getLsbD_or, BitVec.getLsbD_shiftLeft, BitVec.getLsbD_setWidth]
    congr 1
    rcases Nat.lt_trichotomy ((e.1 - lo) % 4) (i / 8) with h | h | h
    · rw [BitVec.getLsbD_of_ge e.2 _ (show 8 ≤ i - 8 * ((e.1 - lo) % 4) by omega),
        decide_eq_false (show ¬ e.1 = lo + 4 * ((e.1 - lo) / 4) + i / 8 by omega)]
      simp
    · rw [h, show i - 8 * (i / 8) = i % 8 by omega, decide_eq_true (show e.1 = lo + 4 * ((e.1 - lo) / 4) + i / 8 by omega),
        decide_eq_true hi, decide_eq_true (show i % 8 < 32 by omega), decide_eq_false (show ¬ i < 8 * (i / 8) by omega)]
      rfl
    · rw [decide_eq_true (show i < 8 * ((e.1 - lo) % 4) by omega),
        decide_eq_false (show ¬ e.1 = lo + 4 * ((e.1 - lo) / 4) + i / 8 by omega)]
      simp
  · rw [sget_sset_other 0 _ _ (Ne.symm hk), decide_eq_false (by omega), Bool.false_and, Bool.or_false]

theorem getLsbD_foldl_addByte {lo k i : Nat} {r : List (Nat × Byte)} (hi : i < 32) (hr : ∀ e ∈ r, lo ≤ e.1) (l : List (Nat × Word)) :
    (sget 0 (r.foldl (addByte lo) l) k).getLsbD i =
      ((sget 0 l k).getLsbD i || r.any fun e => decide (e.1 = lo + 4 * k + i / 8) && e.2.getLsbD (i % 8)) := by
  induction r generalizing l with
  | nil => simp
  | cons e r ih =>
    obtain ⟨he, hr⟩ := List.forall_mem_cons.mp hr
    rw [List.foldl_cons, ih hr, getLsbD_addByte l hi he, List.any_cons, Bool.or_assoc]

/-- In canonical form an address has one byte, if any. -/
theorem any_eq_getLsbD_read {m : Memory} (h : m.wf = true) (a i : Nat) :
    (m.any fun e => decide (e.1 = a) && e.2.getLsbD i) = (m.read a).getLsbD i := by
  induction m with
  | nil => simp [Memory.read, sget, memDefault]
  | cons e r ih =>
    obtain ⟨-, ha, hr⟩ := (swf_cons memDefault e r).mp h
    rw [List.any_cons, ih hr, Memory.read, Memory.read, sget]
    by_cases he : e.1 = a
    · have hab : ∀ f ∈ r, f.1 ≠ a := fun f hf => by
        have := ha f hf
        omega
      rw [sget_of_absent memDefault hab, if_pos he, decide_eq_true he]
      simp [memDefault]
    · rw [if_neg he, decide_eq_false he, Bool.false_and, Bool.false_or]

/-- A word of a save area is the number that its four bytes are. -/
theorem toNat_wordsFrom {m : Memory} (hw : m.wf = true) (lo : Nat) {n k : Nat} (hk : k < n) :
    (sget 0 (wordsFrom m lo n) k).toNat = m.readNat (lo + 4 * k) 4 := by
  refine Nat.eq_of_testBit_eq fun i => ?_
  rw [BitVec.testBit_toNat, m.testBit_readNat]
  by_cases hi : i < 32
  · have hr : ∀ e ∈ m.filter fun e => decide (lo ≤ e.1) && decide (e.1 < lo + 4 * n), lo ≤ e.1 := fun e he => by
      have := List.of_mem_filter he
      simp only [Bool.and_eq_true, decide_eq_true_eq] at this
      exact this.1
    rw [wordsFrom_eq, getLsbD_foldl_addByte hi hr, any_eq_getLsbD_read (swf_filter memDefault _ hw), Memory.read,
      sget_filter memDefault m, decide_eq_true hi]
    · simp [sget, Memory.read]
    · intro e he
      simp only [Bool.and_eq_true, decide_eq_true_eq]
      omega
  · rw [BitVec.getLsbD_of_ge _ _ (Nat.not_lt.mp hi), decide_eq_false hi, Bool.false_and]

/-! ### Tables written whole -/

/-- What holds of every value that is written at a key, holds of the value there. -/
theorem sget_ssetAll {α : Type} [DecidableEq α] {d : α} {m l : List (Nat × α)} {k : Nat} {P : α → Prop}
    (h : ∀ e ∈ l, e.1 = k → P e.2) (hk : (∃ e ∈ l, e.1 = k) ∨ P (sget d m k)) : P (sget d (ssetAll d m l) k) := by
  induction l generalizing m with
  | nil => exact hk.elim (fun ⟨_, he, _⟩ => absurd he List.not_mem_nil) id
  | cons e r ih =>
    obtain ⟨he, hr⟩ := List.forall_mem_cons.mp h
    refine ih hr ?_
    by_cases hek : e.1 = k
    · subst hek
      exact .inr (by rw [sget_sset_same]; exact he rfl)
    · rw [sget_sset_other d m e.2 (Ne.symm hek)]
      refine hk.imp_left fun ⟨f, hf, hfk⟩ => ⟨f, (List.mem_cons.mp hf).resolve_left fun hfe => hek (hfe ▸ hfk), hfk⟩

end Sys2Proof.Machine
end

section
/-! SUPPORT. Teams placed and restored (R98, R101, R103, R380, R387 to R390). -/

namespace Sys2Proof.Machine

open Sys2Proof.Claim

/-! ### A team enters a core -/

/-- Without a microprogram image nothing is read: the core's store is emptied or stays. -/
theorem State.enterCore_of_noImage (s : State) {G : Grid} (t : Nat) (T : Team) (c : Nat) (h : G.launch.image = 0) :
    ∃ cs, s.enterCore G t T c = (State.roClear { s with cores := cs } c).setTeam t T := by
  unfold State.enterCore State.loadImage
  by_cases hl : s.launchesOn c = []
  · simp only [hl, h, ne_eq, not_true, if_false, if_true]
    exact ⟨_, rfl⟩
  · simp only [hl, ne_eq, not_false_eq_true, if_true]
    exact ⟨s.cores, rfl⟩

/-! ### Placement (R98, R103) -/

theorem placedBeam_beam (l : Launch) (now k : Nat) : PlacedBeam l k (l.beam now k) := by
  have hpc : (l.beam now k).pc = if k < l.np then l.pentry else l.centry := by
    unfold Launch.beam
    by_cases hk : k < l.np
    · simp [hk, Nat.not_le.mpr hk]
    · simp [hk, Nat.not_lt.mp hk]
  have hrd : ∀ n i, (l.beam now k).rd n i = 0 := fun n i => by
    unfold Beam.rd
    split <;> rfl
  refine ⟨hpc, rfl, rfl, hrd, rfl, rfl, rfl, rfl, rfl, rfl, rfl, rfl, rfl, rfl, rfl, rfl, rfl, rfl, fun i hi => ?_⟩
  refine sget_ssetAll (P := (· = l.tenant)) (fun e he _ => ?_) (.inl ⟨_, List.mem_map_of_mem (mem_lanes.mpr hi), rfl⟩)
  obtain ⟨j, -, rfl⟩ := List.mem_map.mp he
  rfl

theorem placedBeam_of_team {l : Launch} {g index core area now k : Nat} {b : Beam}
    (h : (l.team g index core area now).beams[k]? = some b) : PlacedBeam l k b := by
  rw [Launch.team, List.getElem?_map, Option.map_eq_some_iff] at h
  obtain ⟨j, hj, rfl⟩ := h
  obtain ⟨-, rfl⟩ := List.getElem?_eq_some_iff.mp hj
  rw [List.getElem_range]
  exact placedBeam_beam l now k

/-- A single team without an image: it stands under the next identifier, and its grid counts it. -/
theorem State.placeTeam_single (s : State) {g : Nat} {G : Grid} (core : Nat) (a : Nat × Nat) (hp : G.launch.paired = false)
    (hi : G.launch.image = 0) : let t := s.placeTeam g G core a
    t.team? s.nextId = some (G.launch.team g G.next core a.1 s.clock) ∧ t.grid? g = some { G with next := G.next + 1 } ∧ t.mem = s.mem := by
  obtain ⟨cs, hcs⟩ := State.enterCore_of_noImage { s.setGrid g { G with next := G.next + 1 } with nextId := s.nextId + 1 } s.nextId
    (G.launch.team g G.next core a.1 s.clock) core hi
  have ht : s.placeTeam g G core a = (State.dropRoom (State.enterCore
      { s.setGrid g { G with next := G.next + 1 } with nextId := s.nextId + 1 } G s.nextId (G.launch.team g G.next core a.1 s.clock) core) g) := by
    unfold State.placeTeam
    simp only [hp, Bool.false_eq_true, if_false]
    rfl
  intro t
  rw [show t = _ from ht, hcs]
  exact ⟨aget_aset_same .., aget_aset_same .., rfl⟩

theorem teamPlace_places {s : State} {g core : Nat} {G : Grid} (h : MayPlace s g G core) :
    ∃ a, exec (.teamPlace g core) s = .next (s.placeTeam g G core a) := by
  obtain ⟨hd, hG, hn, hpl, htake, hturn, -, -⟩ := h
  have hpl' := hpl
  simp only [State.placeable, Bool.and_eq_true] at hpl'
  obtain ⟨⟨-, ha⟩, -⟩ := hpl'
  obtain ⟨a, ha⟩ := Option.isSome_iff_exists.mp ha
  refine ⟨a, ?_⟩
  show execTeamPlace g core s = _
  unfold execTeamPlace
  simp only [hG, ha]
  exact if_pos ⟨hd, hn, hpl, htake, hturn⟩

/-- A team that may not be placed stays. -/
theorem teamPlace_stays {s : State} {g core : Nat} {G : Grid} (hG : s.grid? g = some G)
    (h : s.sys.dstate ≠ .run ∨ s.placeable g G = false ∨ s.fitsAt ⟨g, G, none⟩ core = false) :
    exec (.teamPlace g core) s = .next s := by
  show execTeamPlace g core s = _
  unfold execTeamPlace
  simp only [hG]
  split
  · rfl
  · refine if_neg fun ⟨hd, _, hp, ht, _⟩ => ?_
    have hf : s.fitsAt ⟨g, G, none⟩ core = true := (Bool.and_eq_true_iff.mp ht).1
    rcases h with h | h | h
    · exact h hd
    · exact Bool.false_ne_true (h.symm.trans hp)
    · exact Bool.false_ne_true (h.symm.trans hf)

/-! ### A beam as its save area holds it (R389) -/

/-- Going on with a stopped long instruction changes a beam's place in it alone. -/
theorem Beam.goOn_frame (b : Beam) (now : Nat) : ∃ pc resume latched longs,
    b.goOn now = { b with pc := pc, resume := resume, latched := latched, longs := longs } ∧ (b.latched = none → pc = b.pc) := by
  unfold Beam.goOn
  split
  · exact ⟨b.pc, b.resume, b.latched, b.longs, rfl, fun _ => rfl⟩
  · next l hl =>
    split
    · exact ⟨_, _, _, _, rfl, fun h => nomatch hl.symm.trans h⟩
    · exact ⟨_, _, _, _, Beam.regionBegin_frame _ now _, fun _ => rfl⟩

theorem Beam.recall_frame (b : Beam) :
    ∃ resume, b.recall = { b with mcall := none, resume := resume } ∧ ∀ c, b.mcall = some c → resume = some c.word := by
  unfold Beam.recall
  split
  · next h => exact ⟨b.resume, by rw [← h], fun c hc => nomatch h.symm.trans hc⟩
  · next c h => exact ⟨some c.word, rfl, fun d hd => by rw [Option.some.inj (h.symm.trans hd)]⟩

/-- A restore renews a beam's window and its place in what it was stopped in. -/
theorem Beam.restore_frame (b : Beam) (now : Nat) : ∃ pc resume latched longs, b.restore now =
    { b.fillWindow b.wb.toNat 0 with
      issueAt := now, lastIssue := none, mcall := if b.halt = .run then none else b.mcall, pc := pc, resume := resume,
      latched := latched, longs := longs } ∧
    (b.latched = none → pc = b.pc) ∧ (b.halt = .run → ∀ c, b.mcall = some c → resume = some c.word) := by
  unfold Beam.restore
  dsimp only
  by_cases hr : b.halt = .run
  · obtain ⟨pc, rs, lt, lg, hg, hpc⟩ := Beam.goOn_frame { b.fillWindow b.wb.toNat 0 with issueAt := now, lastIssue := none } now
    obtain ⟨rs', hc, hm⟩ := Beam.recall_frame
      { b.fillWindow b.wb.toNat 0 with issueAt := now, lastIssue := none, pc := pc, resume := rs, latched := lt, longs := lg }
    refine ⟨pc, rs', lt, lg, ?_, hpc, fun _ => hm⟩
    rw [if_pos (show (b.fillWindow b.wb.toNat 0).halt = .run from hr), if_pos hr, hg]
    exact hc
  · refine ⟨b.pc, b.resume, b.latched, b.longs, ?_, fun _ => rfl, fun h => absurd h hr⟩
    rw [if_neg (show ¬ (b.fillWindow b.wb.toNat 0).halt = .run from hr), if_neg hr]
    rfl

/-- A window filled from the main file shows what the main file holds. -/
theorem Beam.rd_fillWindow_whole (b : Beam) (n : Nat) {l : Nat} (hl : l < 32) :
    (b.fillWindow b.wb.toNat 0).rd n l = sget 0 b.main (regKey n l) := by
  have hwb : (b.fillWindow b.wb.toNat 0).wb = b.wb := (BitVec.ofNat_toNat ..).trans (BitVec.setWidth_eq _)
  unfold Beam.rd Beam.inWin
  rw [hwb]
  split
  · next h =>
    simp only [Bool.and_eq_true, decide_eq_true_eq] at h
    have := b.sget_win_fillWindow (v := b.wb.toNat) (n := 0) (i := n - b.wb.toNat) (by omega) hl
    rwa [if_pos (Nat.zero_le _), Nat.add_sub_cancel' h.1] at this
  · rfl

theorem Beam.rd_restore (b : Beam) (now n : Nat) {l : Nat} (hl : l < 32) : (b.restore now).rd n l = sget 0 b.main (regKey n l) := by
  obtain ⟨pc, rs, lt, lg, hc, -, -⟩ := b.restore_frame now
  rw [hc]
  exact b.rd_fillWindow_whole n hl

section
variable (b : Beam) (m : Memory) (o x f now : Nat)

/-- The registers come from the save area. -/
theorem Beam.rd_restore_fromArea (hw : m.wf = true) {n l : Nat} (hn : n < b.budget) (hl : l < 32) :
    (((b.fromArea m o x f).restore now).rd n l).toNat = m.readNat (f + 128 * n + 4 * l) 4 := by
  rw [Beam.rd_restore _ now n hl]
  refine (toNat_wordsFrom hw f (show regKey n l < 32 * b.budget by unfold regKey; omega)).trans ?_
  rw [show f + 4 * regKey n l = f + 128 * n + 4 * l by unfold regKey; omega]

theorem Beam.asRecorded_restore_fromArea (h : b.latched = none) : AsRecorded m o ((b.fromArea m o x f).restore now) := by
  obtain ⟨pc, rs, lt, lg, hc, hpc, -⟩ := (b.fromArea m o x f).restore_frame now
  have hpc' : pc = BitVec.ofNat 64 (m.readNat o 8) := (hpc h).trans (by simp [Beam.fromArea, h])
  rw [hc, hpc']
  refine ⟨fun _ => m.toNat_ofNat_readNat o 8, m.toNat_ofNat_readNat _ 8, m.toNat_ofNat_readNat _ 4, m.toNat_ofNat_readNat _ 4,
    m.toNat_ofNat_readNat _ 4, m.toNat_ofNat_readNat _ 4, m.toNat_ofNat_readNat _ 4, m.toNat_ofNat_readNat _ 4, ?_⟩
  exact ⟨BitVec.toNat_ofNat .., BitVec.toNat_ofNat .., BitVec.toNat_ofNat .., BitVec.toNat_ofNat .., BitVec.toNat_ofNat ..⟩

end

/-! ### A team as its save area holds it (R387 to R390) -/

/-- A saved team as it stands on its core after its restore. -/
def State.restoredTeam (s : State) (G : Grid) (T : Team) (core : Nat) : Team :=
  { (s.loadArea T G.launch).restore core s.clock s.ring with owed := [] }

/-- Where the save area of a team has the `%tenant` of beam k. -/
def tenantRecord (T : Team) (k : Nat) : Nat := T.area + 0x1900 + 64 * k

/-- Beam k of a restored team. -/
theorem State.beams_restoredTeam (s : State) (G : Grid) (T : Team) (core k : Nat) : (s.restoredTeam G T core).beams[k]? =
    T.beams[k]?.map fun b => (b.fromArea s.mem (beamRecord T k) (tenantRecord T k) (beamFile T k)).restore s.clock := by
  show (((T.beams.mapIdx _).map _)[k]?) = _
  rw [List.getElem?_map, List.getElem?_mapIdx, Option.map_map]
  rfl

theorem State.ptrap_restoredTeam {s : State} {G : Grid} {T : Team} {core k : Nat} {c : Beam} (h : ∀ b ∈ T.beams, b.ptrap = none)
    (hc : (s.restoredTeam G T core).beams[k]? = some c) : c.ptrap = none := by
  rw [s.beams_restoredTeam, Option.map_eq_some_iff] at hc
  obtain ⟨b, hb, rfl⟩ := hc
  obtain ⟨pc, rs, lt, lg, hr, -, -⟩ :=
    (b.fromArea s.mem (beamRecord T k) (tenantRecord T k) (beamFile T k)).restore_frame s.clock
  rw [hr]
  exact h b (List.mem_of_getElem? hb)

/-- The operand log has no entry of the instructions of team t. -/
theorem ownEntries_of_jobs {l : List LogEntry} {t : Nat} (h : ∀ g ∈ l, g.packet.src.t = t → g.packet.job ≠ none) :
    (l.filter fun g => decide (g.packet.src.t = t) && g.packet.job.isNone).map (·.id) = [] := by
  rw [List.map_eq_nil_iff, List.filter_eq_nil_iff]
  intro g hg
  simp only [Bool.and_eq_true, decide_eq_true_eq, Option.isNone_iff_eq_none, not_and]
  exact h g hg

/-- A restore where nothing is left to replay or to trap: the team stands restored, unless its save area is bad. -/
theorem State.restoreTeam_eq (s : State) {G : Grid} {t : Nat} {T : Team} (core : Nat) (hi : G.launch.image = 0)
    (hl : ∀ h ∈ s.net.log, h.packet.src.t = t → h.packet.job ≠ none) (hp : ∀ b ∈ T.beams, b.ptrap = none) :
    ∃ u : State, u.team? t = some (s.restoredTeam G T core) ∧ u.grids = s.grids ∧ u.mem = s.mem ∧
      s.restoreTeam G t T core = if s.areaBad G T then u.fatalStop ⟨t, 0⟩ cPOISONOWN 0 0 0 0 else u := by
  obtain ⟨cs, hcs⟩ := s.enterCore_of_noImage t ((s.loadArea T G.launch).restore core s.clock s.ring) core hi
  unfold State.restoreTeam
  extract_lets s1 s2 ids _ moved owed s3 s4
  have h1 : s1 = ((State.roClear { s with cores := cs } core).setTeam t ((s.loadArea T G.launch).restore core s.clock s.ring)).dropLanes t :=
    congrArg (State.dropLanes · t) hcs
  have hids : ids = [] := by
    show (s2.net.log.filter _).map _ = []
    rw [show s2.net.log = s.net.log by simp only [s2, h1]; rfl]
    exact ownEntries_of_jobs hl
  have howed : owed = [] := by simp [owed, hids]
  have h3 : s3 = moved.modTeam t fun T => { T with owed := [] } := by
    simp only [s3, hids, howed]
    rfl
  have hT : moved.team? t = some ((s.loadArea T G.launch).restore core s.clock s.ring) := by
    simp only [moved, s2, h1]
    exact aget_aset_same ..
  have hT3 : s3.team? t = some (s.restoredTeam G T core) := by
    rw [h3, State.modTeam_of_team? hT]
    exact State.team?_setTeam ..
  have h4 : s4 = s3 := by
    refine List.foldl_fixed' (fun k => ?_) _
    split
    · next b hb =>
      rw [State.beam?, hT3] at hb
      rw [if_neg (by simp [State.ptrap_restoredTeam hp hb])]
    · rfl
  have hkept : moved.grids = s.grids ∧ moved.mem = s.mem := by
    simp only [moved, s2, h1]
    exact ⟨rfl, rfl⟩
  rw [h4]
  exact ⟨s3, hT3, by rw [h3, State.modTeam_grids, hkept.1], by rw [h3, State.modTeam_mem, hkept.2], rfl⟩

theorem State.areaBad_iff {s : State} {G : Grid} {T : Team} : s.areaBad G T = true ↔ AreaBad s T G := by
  simp only [State.areaBad, State.badRange, List.any_eq_true, Bool.and_eq_true, decide_eq_true_eq, AreaBad]

/-- What a restore answers where the team may take the core. -/
theorem teamRestore_restores {s : State} {i core : Nat} {T : Team} {G : Grid} (h : MayRestore s i core T G) :
    exec (.teamRestore i core) s = .next ((s.restoreTeam G i T core).dropRoom T.grid) := by
  obtain ⟨hd, hT, hG, hn, htake, hturn, hp, -⟩ := h
  show execTeamRestore i core s = _
  unfold execTeamRestore
  simp only [hT, show s.gridOf T = some G from hG, hp, Bool.false_eq_true, if_false]
  exact if_pos ⟨hd, hn, htake, hturn⟩

section
variable (s : State) (G : Grid) (T : Team) (core : Nat)

theorem State.scratch_restoredTeam {a : Nat} (ha : a < 16384 * poolScr G.launch.pool) :
    (s.restoredTeam G T core).scratch.read a = s.mem.read (T.area + 0x28000 + 16384 * G.launch.granules + a) :=
  read_bytesFrom s.mem ha

theorem State.queue_restoredTeam {q : Nat} (h : ∃ e ∈ T.queues, e.1 = q) :
    let o := T.area + 0x600 + 288 * q
    let Q := sget Queue.init (s.restoredTeam G T core).queues q
    Q.ctrl.toNat = s.mem.readNat o 4 ∧ Q.p = s.mem.readNat (o + 4) 4 ∧ Q.c = s.mem.readNat (o + 8) 4 := by
  obtain ⟨e, he, rfl⟩ := h
  refine sget_ssetAll (P := fun Q : Queue => Q.ctrl.toNat = _ ∧ Q.p = _ ∧ Q.c = _) (fun f hf hfe => ?_)
    (.inl ⟨_, List.mem_map_of_mem he, rfl⟩)
  obtain ⟨g, -, rfl⟩ := List.mem_map.mp hf
  rw [← show g.1 = e.1 from hfe]
  exact ⟨s.mem.toNat_ofNat_readNat _ 4, rfl, rfl⟩

/-- A beam of a restored team, by the beam that was saved. -/
theorem State.beam_restoredTeam {k : Nat} {b c : Beam} (hw : s.mem.wf = true) (hb : T.beams[k]? = some b)
    (hc : (s.restoredTeam G T core).beams[k]? = some c) :
    (b.latched = none → AsRecorded s.mem (beamRecord T k) c) ∧ c.exm.toNat = s.mem.readNat (beamRecord T k + 0x14) 4 ∧
    c.lvm.toNat = s.mem.readNat (beamRecord T k + 0x18) 4 ∧ c.status = b.status ∧ c.lastIssue = none ∧
    c.mcall = (if b.halt = .run then none else b.mcall) ∧
    (b.halt = .run → b.latched = none → ∀ m, b.mcall = some m → c.resume = some m.word) ∧
    ∀ n l, n < b.budget → l < 32 → (c.rd n l).toNat = s.mem.readNat (beamFile T k + 128 * n + 4 * l) 4 := by
  rw [s.beams_restoredTeam, hb] at hc
  cases hc
  refine ⟨b.asRecorded_restore_fromArea _ _ _ _ _, ?_⟩
  have hrd := fun n l => b.rd_restore_fromArea s.mem (beamRecord T k) (tenantRecord T k) (beamFile T k) s.clock hw (n := n) (l := l)
  obtain ⟨pc, rs, lt, lg, hr, -, hm⟩ :=
    (b.fromArea s.mem (beamRecord T k) (tenantRecord T k) (beamFile T k)).restore_frame s.clock
  dsimp only
  rw [hr] at hrd ⊢
  exact ⟨s.mem.toNat_ofNat_readNat _ 4, s.mem.toNat_ofNat_readNat _ 4, rfl, rfl, rfl, fun h _ => hm h, hrd⟩

end

theorem aget_map_ended (m : List (Nat × Team)) (g k : Nat) :
    aget (m.map (Team.ended g)) k = (aget m k).map fun T => (Team.ended g (k, T)).2 := by
  induction m with
  | nil => rfl
  | cons e r ih =>
    have hkey : (Team.ended g e).1 = e.1 := by
      unfold Team.ended
      split <;> rfl
    rw [List.map_cons, aget, aget, hkey, ih]
    split
    · next h => subst h; rfl
    · rfl

/-- A fatal stop stops the team whose beam it is of. -/
theorem State.fatalStop_team {s : State} {r : Ref} {T : Team} {G : Grid} (hT : s.team? r.t = some T) (hG : s.grid? T.grid = some G)
    (cause arg : Nat) (epc : Dword) (peer info : Nat) :
    (s.fatalStop r cause arg epc peer info).team? r.t = some { T.cancelBoards with stopped := true } := by
  rw [State.fatalStop, hT]
  dsimp only
  rw [State.team?, (State.teams_grids_teamReport ..).1, (State.teams_grids_endGrid hG).1, aget_map_ended, show aget s.teams r.t = some T from hT,
    Option.map_some, Team.ended, if_pos rfl]

/-- A restore from a save area with an uncorrectable error stops the team, and ends its grid (R380). -/
theorem teamRestore_stops {s : State} {i core : Nat} {T : Team} {G : Grid} (h : MayRestore s i core T G) (hb : AreaBad s T G)
    (hp : ∀ b ∈ T.beams, b.ptrap = none) (hl : ∀ h ∈ s.net.log, h.packet.src.t = i → h.packet.job ≠ none) :
    ∃ t U H, exec (.teamRestore i core) s = .next t ∧ t.team? i = some U ∧ U.stopped = true ∧ t.grid? T.grid = some H ∧
      H.fatal = true ∧ t.mem = s.mem := by
  have hx := teamRestore_restores h
  obtain ⟨-, -, hG, -, -, -, -, hi⟩ := h
  obtain ⟨u, hT, hgrids, hmem, hu⟩ := s.restoreTeam_eq core hi hl hp
  rw [hu, if_pos (State.areaBad_iff.mpr hb)] at hx
  have hG' : u.grid? T.grid = some G := (congrArg (aget · T.grid) hgrids).trans hG
  exact ⟨_, _, { G with fatal := true }, hx, State.fatalStop_team (r := ⟨i, 0⟩) hT hG' .., rfl,
    State.fatalStop_grid (r := ⟨i, 0⟩) hT hG' .., rfl, (State.fatalStop_keeps ..).mem.trans hmem⟩

/-! ### A team that waits for nothing to be restored (R351) -/

/-- Of two saved teams, the one that was pre-empted first. -/
def earlierSaved (m : Option (Nat × Nat)) (e : Nat × Team) : Option (Nat × Nat) :=
  match m with
  | none => some (e.1, e.2.savedAt)
  | some x => if e.2.savedAt < x.2 then some (e.1, e.2.savedAt) else some x

theorem mem_of_foldl_earlierSaved {l : List (Nat × Team)} {m : Option (Nat × Nat)} {x : Nat × Nat}
    (h : l.foldl earlierSaved m = some x) : m = some x ∨ ∃ e ∈ l, x = (e.1, e.2.savedAt) := by
  induction l generalizing m with
  | nil => exact .inl h
  | cons e r ih =>
    rcases ih h with he | ⟨f, hf, hx⟩
    · unfold earlierSaved at he
      split at he
      · exact .inr ⟨e, List.mem_cons_self, (Option.some.inj he).symm⟩
      · split at he
        · exact .inr ⟨e, List.mem_cons_self, (Option.some.inj he).symm⟩
        · exact .inl he
    · exact .inr ⟨f, List.mem_cons_of_mem _ hf, hx⟩

/-- The team that a grid restores next is one of its saved teams. -/
theorem State.saved_of_nextSaved {s : State} {g : Nat} {G : Grid} {x : Nat × Nat} (h : s.nextSaved g G = some x) :
    ∃ e ∈ s.teams, e.1 = x.1 ∧ e.2.life = .saved := by
  rcases mem_of_foldl_earlierSaved h with h | ⟨e, he, rfl⟩
  · cases h
  · obtain ⟨he, hr⟩ := List.mem_filter.mp he
    simp only [State.restorable, Bool.and_eq_true, decide_eq_true_eq] at hr
    exact ⟨e, List.mem_of_mem_filter he, rfl, hr.1.1.1.1.1⟩

theorem teamRestore_stays {s : State} {i core : Nat} {T : Team} (hT : s.team? i = some T) (hu : ∀ e ∈ s.teams, e.1 = i → e.2 = T)
    (hl : T.life ≠ .saved) : exec (.teamRestore i core) s = .next s := by
  show execTeamRestore i core s = _
  unfold execTeamRestore
  simp only [hT]
  split
  · rfl
  · refine if_neg fun ⟨_, hn, _, _⟩ => ?_
    obtain ⟨e, he, hei, hs⟩ := State.saved_of_nextSaved hn
    exact hl (hu e he hei ▸ hs)

theorem teamsArePlaced : TeamsArePlaced := by
  refine ⟨fun s g core G h => ?_, fun s g core G hG h => teamPlace_stays hG h, fun s i core T G h hl hp hb hw => ?_,
    fun s i core T G h hb hp hl => teamRestore_stops h hb hp hl, fun s i core T hT hu hl => teamRestore_stays hT hu hl⟩
  · obtain ⟨a, hx⟩ := teamPlace_places h
    obtain ⟨-, -, -, -, -, -, hp, hi⟩ := h
    obtain ⟨hT, hG, hm⟩ := s.placeTeam_single (g := g) core a hp hi
    exact ⟨_, _, _, hx, hT, rfl, rfl, rfl, rfl, by simp [Launch.team], fun k b => placedBeam_of_team, rfl, rfl, rfl, rfl, rfl, rfl, rfl, rfl,
      hG, rfl, hm⟩
  · have hx := teamRestore_restores h
    obtain ⟨-, -, -, -, -, -, -, hi⟩ := h
    obtain ⟨u, hT, -, hm, hu⟩ := s.restoreTeam_eq core hi hl hp
    rw [hu, if_neg (mt State.areaBad_iff.mp hb)] at hx
    intro scr acc
    exact ⟨_, _, hx, hT, rfl, rfl, hm, by simp [State.restoredTeam, Team.restore, State.loadArea],
      fun a => s.scratch_restoredTeam G T core, fun n => toNat_wordsFrom hw acc, fun n => toNat_wordsFrom hw _,
      fun q => s.queue_restoredTeam G T core, fun k b c => s.beam_restoredTeam G T core hw⟩

end Sys2Proof.Machine
end

section
/-! SUPPORT. Beams, teams and grids that end (R112, R113, R164, R275). -/

namespace Sys2Proof.Machine

open Sys2Proof.Claim

/-! ### Beams (R164) -/

theorem beamRetire_retires {s : State} {r : Ref} {T : Team} {b : Beam} (h : HasBeam s r T b) (hl : b.lvm = 0) (ho : b.orc = 0)
    (hs : b.status ≠ .retired) :
    ∃ t U c, exec (.beamRetire r.t r.b) s = .next t ∧ HasBeam t r U c ∧ c.status = .retired ∧ t.mem = s.mem ∧
      ∀ j, j ≠ r.b → U.beams[j]? = T.beams[j]? := by
  have hbeam := beam?_of_hasBeam h
  obtain ⟨hT, hb⟩ := h
  have hlt : r.b < T.beams.length := (List.getElem?_eq_some_iff.mp hb).1
  let T1 := T.setBeam r.b { b with status := .retired }
  let U := if T1.beams.all fun x => decide (x.status = .retired) then T1.cancelBoards else T1
  have hU : U.beams = T.beams.set r.b { b with status := .retired } := by
    show (ite _ _ _ : Team).beams = _
    split <;> rfl
  have hx : exec (.beamRetire r.t r.b) s = .next (((s.dropWatches r).dropLog fun g => g.of r && g.retry).setTeam r.t U) := by
    show execBeamRetire r.t r.b s = _
    unfold execBeamRetire
    simp only [hT, hbeam]
    exact if_neg (by simp [hs, hl, ho])
  refine ⟨_, U, { b with status := .retired }, hx, ⟨State.team?_setTeam .., ?_⟩, rfl, rfl, fun j hj => ?_⟩
  · rw [hU, List.getElem?_set_self hlt]
  · rw [hU, List.getElem?_set_ne (Ne.symm hj)]

theorem beamRetire_stays {s : State} {r : Ref} {T : Team} {b : Beam} (h : HasBeam s r T b) (hn : b.lvm ≠ 0 ∨ b.orc ≠ 0) :
    exec (.beamRetire r.t r.b) s = .next s := by
  show execBeamRetire r.t r.b s = _
  unfold execBeamRetire
  simp only [h.1, beam?_of_hasBeam h]
  exact if_pos (.inr hn)

/-! ### Teams (R112, R275) -/

/-- Nothing of a team is under way: no access, job, board request, Prism window or engine entry. -/
structure TeamQuiet (s : State) (i : Nat) (T : Team) : Prop where
  packets : ∀ p ∈ s.net.packets, p.src.t = i → p.job ≠ none
  acks : ∀ a ∈ s.net.acks, a.src.t ≠ i
  remotes : ∀ r ∈ s.net.remotes, r.packet.src.t = i → r.packet.job ≠ none
  jobs : ∀ j ∈ s.jobs, j.team ≠ some i
  boards : T.boards = []
  prism : T.prism.state ≠ .running
  entries : ∀ c ∈ s.cores, ∀ n ∈ c.2.entries, n.src.t ≠ i

/-- A team without long instructions, and with no lane of its own in the operand log, has nothing left to send (log 61). -/
theorem State.storesLeft_of_none {s : State} {i : Nat} {T : Team} (hb : ∀ b ∈ T.beams, b.longs = [] ∧ b.latched = none)
    (hl : ∀ g ∈ s.net.log, g.packet.src.t = i → g.packet.job ≠ none) : s.storesLeft i T = false := by
  simp only [State.storesLeft, Bool.or_eq_false_iff, List.any_eq_false]
  refine ⟨fun b hm => ?_, fun g hg => ?_⟩
  · obtain ⟨h1, h2⟩ := hb b hm
    simp [h1, h2]
  · have := hl g hg
    simp only [Bool.and_eq_true, decide_eq_true_eq, Option.isNone_iff_eq_none]
    tauto

theorem TeamQuiet.mayRetire {s : State} {i : Nat} {T : Team} (h : TeamQuiet s i T)
    (hb : ∀ b ∈ T.beams, b.status = .retired ∧ b.orc = 0) (hs : s.storesLeft i T = false) : s.mayRetire i T = true := by
  have hjob : ∀ p : Packet, (p.src.t = i → p.job ≠ none) → (decide (p.src.t ≠ i) || p.job.isSome) = true := fun p hp => by
    rw [Bool.or_eq_true, decide_eq_true_eq, Option.isSome_iff_ne_none]
    exact not_or_of_imp hp
  have hd : s.accessesDone i = true := by
    simp only [State.accessesDone, Bool.and_eq_true, List.all_eq_true]
    exact ⟨⟨fun p hp => hjob p (h.packets p hp), fun a ha => decide_eq_true (h.acks a ha)⟩, fun r hr => hjob _ (h.remotes r hr)⟩
  simp only [State.mayRetire, hs, hd, h.boards, Bool.and_eq_true, Bool.or_eq_true, List.all_eq_true, decide_eq_true_eq]
  exact ⟨⟨⟨⟨⟨.inl ⟨hb, rfl⟩, trivial⟩, h.jobs⟩, trivial⟩, h.prism⟩, h.entries⟩

/-- What a team's retirement leaves: the team is gone, and its grid counts it. -/
theorem State.retireTeam_frees {s : State} {i : Nat} {T : Team} {G : Grid} (hG : s.grid? T.grid = some G) :
    (s.retireTeam i T).team? i = none ∧ (s.retireTeam i T).grid? T.grid = some { G with retired := G.retired + 1 } ∧
      (s.retireTeam i T).mem = s.mem := by
  have hk : (if T.stopped then s else s.unseenReport T).grids = s.grids := by
    split
    · rfl
    · unfold State.unseenReport
      split
      · rfl
      · exact (State.teams_grids_teamReport ..).2
  have hmem : (s.retireTeam i T).mem = s.mem := (Kept.refl (w := False)).retireTeam.mem_eq
  refine ⟨?_, ?_, hmem⟩
  all_goals
    unfold State.retireTeam
    extract_lets s1 s2 s3
    rw [show s3.grid? T.grid = some G from (congrArg (aget · T.grid) hk).trans hG]
  · exact aget_adel_same ..
  · exact aget_aset_same ..

theorem teamRetire_retires {s : State} {i : Nat} {T : Team} (hT : s.team? i = some T) (h : s.mayRetire i T = true) :
    exec (.teamRetire i) s = .next (s.retireTeam i T) := by
  show execTeamRetire i s = _
  unfold execTeamRetire
  simp only [hT]
  exact if_pos h

theorem teamRetire_stays {s : State} {i : Nat} {T : Team} (hT : s.team? i = some T) (hs : T.stopped = false)
    (hb : ∃ b ∈ T.beams, b.status ≠ .retired ∨ b.orc ≠ 0) : exec (.teamRetire i) s = .next s := by
  have hn : ¬ s.mayRetire i T = true := fun h => by
    simp only [State.mayRetire, hs, Bool.or_false, Bool.and_eq_true, List.all_eq_true, decide_eq_true_eq] at h
    obtain ⟨⟨⟨⟨⟨⟨hall, -⟩, -⟩, -⟩, -⟩, -⟩, -⟩ := h
    obtain ⟨b, hm, hb⟩ := hb
    exact hb.elim (absurd (hall b hm).1) (absurd (hall b hm).2)
  show execTeamRetire i s = _
  unfold execTeamRetire
  simp only [hT]
  exact if_neg hn

/-! ### Grids (R113) -/

section
variable {s : State} {g : Nat} {G : Grid}

/-- Without a producer, a grid with no teams completes at once where all have been placed or none will be. -/
theorem gridComplete_completes {N : Node} (hG : s.grid? g = some G) (ht : ∀ e ∈ s.teams, e.2.grid ≠ g) (hp : G.producer = none)
    (hN : nodeIn s G.replay G.node = some N) (h : G.launch.count ≤ G.next ∨ G.fatal = true) :
    ∃ t, exec (.gridComplete g) s = .next t ∧ t.grid? g = none ∧
      NodeBecomes s t G.replay G.node { N with state := .complete, failed := N.failed || (decide (G.next < G.launch.count) && G.fatal) } := by
  have hteams : s.teamsOf g = [] := List.filter_eq_nil_iff.mpr fun e he => by simp [ht e he]
  have hbad : s.producerFailed G = false := by rw [State.producerFailed, hp]
  have hx : exec (.gridComplete g) s = .next (State.dropRoom (let s1 := s.modNode G.replay G.node fun N =>
      { N with state := .complete, failed := N.failed || (decide (G.next < G.launch.count) && G.fatal) };
      { s1 with grids := adel s1.grids g }) g) := by
    show execGridComplete g s = _
    unfold execGridComplete
    simp only [hG, hbad, Bool.or_false, Bool.false_eq_true, if_false]
    refine if_neg ?_
    rcases h with h | h <;> simp [hteams, h]
  obtain ⟨R, hR, hN⟩ := Option.bind_eq_some_iff.mp hN
  exact ⟨_, hx, aget_adel_same .., State.modNode_becomes hR hN _⟩

theorem gridComplete_stays (hG : s.grid? g = some G) (hp : G.producer = none) (hc : G.next < G.launch.count) (hf : G.fatal = false)
    (hr : (s.func G.func).state = .run) : exec (.gridComplete g) s = .next s := by
  have hbad : s.producerFailed G = false := by rw [State.producerFailed, hp]
  show execGridComplete g s = _
  unfold execGridComplete
  simp only [hG, hbad]
  exact if_pos (.inr (by simp [hf, hr, Nat.not_le.mpr hc]))

end

theorem teamsRetire : TeamsRetire := by
  refine ⟨fun s i k T b h hl ho hs => beamRetire_retires h hl ho hs, fun s i k T b h hn => beamRetire_stays h hn,
    fun s i T G hT hst hb hpk hak hrm hlog hj hbd hpr hen hG => ?_, fun s i T hT hs hb => teamRetire_stays hT hs hb,
    fun s g G N hG ht hp hN => ⟨fun hc => ?_, fun hc hf => ?_, fun hc hf hr => gridComplete_stays hG hp hc hf hr⟩⟩
  · have hq : TeamQuiet s i T := ⟨hpk, hak, hrm, hj, hbd, hpr, hen⟩
    have hm := hq.mayRetire (fun b h => ⟨hst b h, (hb b h).1⟩) (State.storesLeft_of_none (fun b h => (hb b h).2) hlog)
    obtain ⟨ht, hg, hmem⟩ := State.retireTeam_frees (i := i) hG
    exact ⟨_, _, teamRetire_retires hT hm, ht, hg, rfl, hmem⟩
  · have hc : G.launch.count ≤ G.next := hc
    simpa [Nat.not_lt.mpr hc] using gridComplete_completes hG ht hp hN (.inl hc)
  · have hc : G.next < G.launch.count := hc
    simpa [hc, hf] using gridComplete_completes hG ht hp hN (.inr hf)

/-- Settles O54: a restored team is read off its save area (`State.restoreTeam_eq`, `Beam.restore_frame`, `toNat_wordsFrom`), and teams
retire once they are quiet (`TeamQuiet.mayRetire`). -/
theorem teamLifetimes : Obligations.TeamLifetimes := ⟨teamsArePlaced, teamsRetire⟩

end Sys2Proof.Machine
end
